-- ==== Sys2Proof/Word.lean ====
section
/-! DEFINITION. The word types of the AZ9 (R9, R40, R46) and the finite map that all
sparse storage of the model is built from: a list of (key, value) pairs. -/

namespace Sys2Proof

/-- A byte of memory. -/
abbrev Byte := BitVec 8

/-- A 32-bit value: one lane of a vector register, or an instruction word. -/
abbrev W32 := BitVec 32

/-- A 64-bit value: a scalar register, a sequencer register, a pair. -/
abbrev W64 := BitVec 64

/-- A 72-bit address (R46). -/
abbrev Addr := BitVec 72

/-- A lane mask: bit l stands for lane l. -/
abbrev Mask := BitVec 32

/-- Sparse storage: keys strictly rising, no entry equal to the default of the map
(the form `FMap.wf` of Machine/Map.lean states and every operation keeps). -/
abbrev FMap (α : Type) := List (Nat × α)

end Sys2Proof
end

