-- ==== Sys2Proof/Syntax.lean ====
section
/-! DEFINITION. The instructions and events of the AZ9: one constructor per row of the table of
operations and events. Instruction words carry their register and immediate fields at the width
the encoding gives them; pair, quad and octet register fields hold the register number divided
by 2, 4 or 8, as the table's bit ranges do. Events carry the things they act on. -/

namespace Sys2Proof

/-- One constructor per row of spec/opcode_table.json. -/
inductive Instr where
  /-- SADD (R114): Adds two scalar registers modulo 2^64. -/
  | sadd (d a b : BitVec 6)
  /-- SSUB (R114): Subtracts two scalar registers modulo 2^64. -/
  | ssub (d a b : BitVec 6)
  /-- SMUL (R114): Writes the low 64 bits of a scalar product. -/
  | smul (d a b : BitVec 6)
  /-- SMULH_S64 (R114): Writes the high 64 bits of a signed scalar product. -/
  | smulhS64 (d a b : BitVec 6)
  /-- SMULH_N64 (R114): Writes the high 64 bits of an unsigned scalar product. -/
  | smulhN64 (d a b : BitVec 6)
  /-- SAND (R114): Bitwise AND of two scalar registers. -/
  | sand (d a b : BitVec 6)
  /-- SOR (R114): Bitwise OR of two scalar registers. -/
  | sor (d a b : BitVec 6)
  /-- SXOR (R114): Bitwise XOR of two scalar registers. -/
  | sxor (d a b : BitVec 6)
  /-- SSHL (R115): Shifts a scalar left by a register count. -/
  | sshl (d a b : BitVec 6)
  /-- SSHR (R115): Shifts a scalar right with zero fill by a register count. -/
  | sshr (d a b : BitVec 6)
  /-- SSRA (R115): Shifts a scalar right with sign fill by a register count. -/
  | ssra (d a b : BitVec 6)
  /-- SMIN_S64 (R114): Signed scalar minimum. -/
  | sminS64 (d a b : BitVec 6)
  /-- SMIN_N64 (R114): Unsigned scalar minimum. -/
  | sminN64 (d a b : BitVec 6)
  /-- SMAX_S64 (R114): Signed scalar maximum. -/
  | smaxS64 (d a b : BitVec 6)
  /-- SMAX_N64 (R114): Unsigned scalar maximum. -/
  | smaxN64 (d a b : BitVec 6)
  /-- SSEL (R118): Selects s(A) or s(B) by the old value of s(D). -/
  | ssel (d a b : BitVec 6)
  /-- SADD_IMM (R116): Adds a sign-extended immediate to a scalar. -/
  | saddImm (d a : BitVec 6) (i : BitVec 9)
  /-- SSUB_IMM (R116): Subtracts a sign-extended immediate from a scalar. -/
  | ssubImm (d a : BitVec 6) (i : BitVec 9)
  /-- SMUL_IMM (R116): Multiplies a scalar by a sign-extended immediate. -/
  | smulImm (d a : BitVec 6) (i : BitVec 9)
  /-- SAND_IMM (R116): ANDs a scalar with a sign-extended immediate. -/
  | sandImm (d a : BitVec 6) (i : BitVec 9)
  /-- SOR_IMM (R116): ORs a scalar with a sign-extended immediate. -/
  | sorImm (d a : BitVec 6) (i : BitVec 9)
  /-- SXOR_IMM (R116): XORs a scalar with a sign-extended immediate. -/
  | sxorImm (d a : BitVec 6) (i : BitVec 9)
  /-- SSHL_IMM (R116): Shifts a scalar left by an immediate 0 to 63. -/
  | sshlImm (d a i : BitVec 6)
  /-- SSHR_IMM (R116): Shifts a scalar right with zero fill by an immediate. -/
  | sshrImm (d a i : BitVec 6)
  /-- SSRA_IMM (R116): Shifts a scalar right with sign fill by an immediate. -/
  | ssraImm (d a i : BitVec 6)
  /-- SMIN_S64_IMM (R116): Signed minimum of a scalar and an immediate. -/
  | sminS64Imm (d a : BitVec 6) (i : BitVec 9)
  /-- SMAX_S64_IMM (R116): Signed maximum of a scalar and an immediate. -/
  | smaxS64Imm (d a : BitVec 6) (i : BitVec 9)
  /-- SCMP_EQ (R117): Writes 1 if two scalars are equal, else 0. -/
  | scmpEq (d a b : BitVec 6)
  /-- SCMP_NE (R117): Writes 1 if two scalars differ, else 0. -/
  | scmpNe (d a b : BitVec 6)
  /-- SCMP_LT_S64 (R117): Signed scalar less-than compare. -/
  | scmpLtS64 (d a b : BitVec 6)
  /-- SCMP_LE_S64 (R117): Signed scalar less-or-equal compare. -/
  | scmpLeS64 (d a b : BitVec 6)
  /-- SCMP_LT_N64 (R117): Unsigned scalar less-than compare. -/
  | scmpLtN64 (d a b : BitVec 6)
  /-- SCMP_LE_N64 (R117): Unsigned scalar less-or-equal compare. -/
  | scmpLeN64 (d a b : BitVec 6)
  /-- SMOV (R119): Copies one scalar register to another. -/
  | smov (d a : BitVec 6)
  /-- SMOVI (R119): Loads a sign-extended 16-bit immediate into a scalar. -/
  | smovi (d : BitVec 6) (i : BitVec 16)
  /-- SLUI_H1 (R119): Replaces scalar bits 31:16 with an immediate. -/
  | sluiH1 (d : BitVec 6) (i : BitVec 16)
  /-- SLUI_H2 (R119): Replaces scalar bits 47:32 with an immediate. -/
  | sluiH2 (d : BitVec 6) (i : BitVec 16)
  /-- SLUI_H3 (R119): Replaces scalar bits 63:48 with an immediate. -/
  | sluiH3 (d : BitVec 6) (i : BitVec 16)
  /-- SCLZ (R120): Counts leading zero bits of a scalar. -/
  | sclz (d a : BitVec 6)
  /-- SPOPC (R120): Counts one bits of a scalar. -/
  | spopc (d a : BitVec 6)
  /-- AADD (R121): Adds a sign-extended scalar to an address register modulo 2^72. -/
  | aadd (d a : BitVec 4) (b : BitVec 6)
  /-- AADD_IMM (R121): Adds a sign-extended immediate to an address register. -/
  | aaddImm (d a : BitVec 4) (i : BitVec 9)
  /-- AMOV_A (R122): Copies one address register to another. -/
  | amovA (d a : BitVec 4)
  /-- AMOV_S (R122): Zero-extends a scalar into an address register. -/
  | amovS (d : BitVec 4) (a : BitVec 6)
  /-- ALDI_H0 (R123): Sets an address register to a zero-extended immediate. -/
  | aldiH0 (d : BitVec 4) (i : BitVec 16)
  /-- ALDI_H1 (R123): Replaces address bits 31:16 with an immediate. -/
  | aldiH1 (d : BitVec 4) (i : BitVec 16)
  /-- ALDI_H2 (R123): Replaces address bits 47:32 with an immediate. -/
  | aldiH2 (d : BitVec 4) (i : BitVec 16)
  /-- ALDI_H3 (R123): Replaces address bits 63:48 with an immediate. -/
  | aldiH3 (d : BitVec 4) (i : BitVec 16)
  /-- ALDI_H4 (R123): Replaces address bits 71:64 with an 8-bit immediate. -/
  | aldiH4 (d : BitVec 4) (i : BitVec 8)
  /-- ACMP (R124): Compares two address registers unsigned into a scalar. -/
  | acmp (d : BitVec 6) (a b : BitVec 4)
  /-- ASPLIT (R125): Splits an address register into two scalars. -/
  | asplit (d : BitVec 6) (a : BitVec 4) (b : BitVec 6)
  /-- VADD (R126): Per-lane 32-bit addition. -/
  | vadd (d a b : BitVec 7) (p : BitVec 2)
  /-- VSUB (R126): Per-lane 32-bit subtraction. -/
  | vsub (d a b : BitVec 7) (p : BitVec 2)
  /-- VMUL (R126): Per-lane low 32 bits of a product. -/
  | vmul (d a b : BitVec 7) (p : BitVec 2)
  /-- VMULH_S32 (R126): Per-lane high 32 bits of a signed product. -/
  | vmulhS32 (d a b : BitVec 7) (p : BitVec 2)
  /-- VMULH_N32 (R126): Per-lane high 32 bits of an unsigned product. -/
  | vmulhN32 (d a b : BitVec 7) (p : BitVec 2)
  /-- VMAD (R126): Per-lane multiply and add into the destination. -/
  | vmad (d a b : BitVec 7) (p : BitVec 2)
  /-- VAND (R126): Per-lane bitwise AND. -/
  | vand (d a b : BitVec 7) (p : BitVec 2)
  /-- VOR (R126): Per-lane bitwise OR. -/
  | vor (d a b : BitVec 7) (p : BitVec 2)
  /-- VXOR (R126): Per-lane bitwise XOR. -/
  | vxor (d a b : BitVec 7) (p : BitVec 2)
  /-- VSHL (R127): Per-lane shift left by a register count. -/
  | vshl (d a b : BitVec 7) (p : BitVec 2)
  /-- VSHR (R127): Per-lane logical shift right by a register count. -/
  | vshr (d a b : BitVec 7) (p : BitVec 2)
  /-- VSRA (R127): Per-lane arithmetic shift right by a register count. -/
  | vsra (d a b : BitVec 7) (p : BitVec 2)
  /-- VMIN_S32 (R126): Per-lane signed minimum. -/
  | vminS32 (d a b : BitVec 7) (p : BitVec 2)
  /-- VMIN_N32 (R126): Per-lane unsigned minimum. -/
  | vminN32 (d a b : BitVec 7) (p : BitVec 2)
  /-- VMAX_S32 (R126): Per-lane signed maximum. -/
  | vmaxS32 (d a b : BitVec 7) (p : BitVec 2)
  /-- VMAX_N32 (R126): Per-lane unsigned maximum. -/
  | vmaxN32 (d a b : BitVec 7) (p : BitVec 2)
  /-- VADD_SAT_S32 (R128): Per-lane signed saturating addition. -/
  | vaddSatS32 (d a b : BitVec 7) (p : BitVec 2)
  /-- VSUB_SAT_S32 (R128): Per-lane signed saturating subtraction. -/
  | vsubSatS32 (d a b : BitVec 7) (p : BitVec 2)
  /-- VADD_SAT_N32 (R128): Per-lane unsigned saturating addition. -/
  | vaddSatN32 (d a b : BitVec 7) (p : BitVec 2)
  /-- VSUB_SAT_N32 (R128): Per-lane unsigned saturating subtraction. -/
  | vsubSatN32 (d a b : BitVec 7) (p : BitVec 2)
  /-- VADD_N64 (R129): Per-lane 64-bit addition on vector pairs. -/
  | vaddN64 (d a b : BitVec 6) (p : BitVec 2)
  /-- VSUB_N64 (R129): Per-lane 64-bit subtraction on vector pairs. -/
  | vsubN64 (d a b : BitVec 6) (p : BitVec 2)
  /-- VMUL_N64 (R129): Per-lane low 64 bits of a pair product. -/
  | vmulN64 (d a b : BitVec 6) (p : BitVec 2)
  /-- VSHL_B64 (R129): Per-lane 64-bit shift left of a pair. -/
  | vshlB64 (d a : BitVec 6) (b : BitVec 7) (p : BitVec 2)
  /-- VSHR_B64 (R129): Per-lane 64-bit logical shift right of a pair. -/
  | vshrB64 (d a : BitVec 6) (b : BitVec 7) (p : BitVec 2)
  /-- VSRA_S64 (R129): Per-lane 64-bit arithmetic shift right of a pair. -/
  | vsraS64 (d a : BitVec 6) (b : BitVec 7) (p : BitVec 2)
  /-- VABS_S32 (R130): Per-lane absolute value, saturating at 0x7FFF_FFFF. -/
  | vabsS32 (d a : BitVec 7) (p : BitVec 2)
  /-- VCLZ (R130): Per-lane leading-zero count. -/
  | vclz (d a : BitVec 7) (p : BitVec 2)
  /-- VPOPC (R130): Per-lane count of one bits. -/
  | vpopc (d a : BitVec 7) (p : BitVec 2)
  /-- VMOV (R131): Per-lane copy of a vector register (B = 0). -/
  | vmov (d a : BitVec 7) (p : BitVec 2)
  /-- VMOV_SCALAR (R131): Broadcasts the low 32 bits of a scalar to every lane (B = 1). -/
  | vmovScalar (d : BitVec 7) (a : BitVec 6) (p : BitVec 2)
  /-- VSEL (R132): Per-lane select of v(A) or v(B) by predicate kP. -/
  | vsel (d a b : BitVec 7) (k : BitVec 2)
  /-- VADD_IMM (R133): Per-lane addition of a sign-extended immediate. -/
  | vaddImm (d a : BitVec 7) (i : BitVec 9)
  /-- VAND_IMM (R133): Per-lane AND with a sign-extended immediate. -/
  | vandImm (d a : BitVec 7) (i : BitVec 9)
  /-- VOR_IMM (R133): Per-lane OR with a sign-extended immediate. -/
  | vorImm (d a : BitVec 7) (i : BitVec 9)
  /-- VXOR_IMM (R133): Per-lane XOR with a sign-extended immediate. -/
  | vxorImm (d a : BitVec 7) (i : BitVec 9)
  /-- VSHL_IMM (R133): Per-lane shift left by an immediate 0 to 31. -/
  | vshlImm (d a : BitVec 7) (i : BitVec 5)
  /-- VSHR_IMM (R133): Per-lane logical shift right by an immediate. -/
  | vshrImm (d a : BitVec 7) (i : BitVec 5)
  /-- VSRA_IMM (R133): Per-lane arithmetic shift right by an immediate. -/
  | vsraImm (d a : BitVec 7) (i : BitVec 5)
  /-- VMUL_IMM (R133): Per-lane multiplication by a sign-extended immediate. -/
  | vmulImm (d a : BitVec 7) (i : BitVec 9)
  /-- VMIN_S32_IMM (R133): Per-lane signed minimum with an immediate. -/
  | vminS32Imm (d a : BitVec 7) (i : BitVec 9)
  /-- VMAX_S32_IMM (R133): Per-lane signed maximum with an immediate. -/
  | vmaxS32Imm (d a : BitVec 7) (i : BitVec 9)
  /-- VBFE_S32 (R134): Per-lane signed bit-field extract. -/
  | vbfeS32 (d a b : BitVec 7) (p : BitVec 2)
  /-- VBFE_N32 (R134): Per-lane unsigned bit-field extract. -/
  | vbfeN32 (d a b : BitVec 7) (p : BitVec 2)
  /-- VBFI (R134): Per-lane bit-field insert into the destination. -/
  | vbfi (d a b : BitVec 7) (p : BitVec 2)
  /-- VMOVI (R135): Writes a sign-extended 16-bit immediate in every active lane. -/
  | vmovi (d : BitVec 7) (i : BitVec 16)
  /-- VMOVI_HI (R135): Replaces bits 31:16 of a vector register with an immediate. -/
  | vmoviHi (d : BitVec 7) (i : BitVec 16)
  /-- VCMP_EQ (R136): Per-lane equality compare into a predicate. -/
  | vcmpEq (d : BitVec 3) (a b : BitVec 7) (p : BitVec 2)
  /-- VCMP_NE (R136): Per-lane inequality compare into a predicate. -/
  | vcmpNe (d : BitVec 3) (a b : BitVec 7) (p : BitVec 2)
  /-- VCMP_LT_S32 (R136): Per-lane signed less-than into a predicate. -/
  | vcmpLtS32 (d : BitVec 3) (a b : BitVec 7) (p : BitVec 2)
  /-- VCMP_LE_S32 (R136): Per-lane signed less-or-equal into a predicate. -/
  | vcmpLeS32 (d : BitVec 3) (a b : BitVec 7) (p : BitVec 2)
  /-- VCMP_LT_N32 (R136): Per-lane unsigned less-than into a predicate. -/
  | vcmpLtN32 (d : BitVec 3) (a b : BitVec 7) (p : BitVec 2)
  /-- VCMP_LE_N32 (R136): Per-lane unsigned less-or-equal into a predicate. -/
  | vcmpLeN32 (d : BitVec 3) (a b : BitVec 7) (p : BitVec 2)
  /-- VDP4_S8 (R137): Accumulates a signed 4-byte dot product into v(D). -/
  | vdp4S8 (d a b : BitVec 7) (p : BitVec 2)
  /-- VDP4_N8 (R137): Accumulates an unsigned 4-byte dot product into v(D). -/
  | vdp4N8 (d a b : BitVec 7) (p : BitVec 2)
  /-- VDP2_S16 (R137): Accumulates a signed 2-halfword dot product into v(D). -/
  | vdp2S16 (d a b : BitVec 7) (p : BitVec 2)
  /-- VFADD (R145): Per-lane FP32 addition rounded to nearest. -/
  | vfadd (d a b : BitVec 7) (p : BitVec 2)
  /-- VFSUB (R145): Per-lane FP32 subtraction rounded to nearest. -/
  | vfsub (d a b : BitVec 7) (p : BitVec 2)
  /-- VFMUL (R145): Per-lane FP32 multiplication rounded to nearest. -/
  | vfmul (d a b : BitVec 7) (p : BitVec 2)
  /-- VFMA (R145): Per-lane fused FP32 multiply-add with one rounding. -/
  | vfma (d a b : BitVec 7) (p : BitVec 2)
  /-- VFMIN (R146): Per-lane FP32 minimum with NaN and signed-zero rules. -/
  | vfmin (d a b : BitVec 7) (p : BitVec 2)
  /-- VFMAX (R146): Per-lane FP32 maximum with NaN and signed-zero rules. -/
  | vfmax (d a b : BitVec 7) (p : BitVec 2)
  /-- VFSCL (R145): Per-lane FP32 scaling by 2^n with one rounding. -/
  | vfscl (d a b : BitVec 7) (p : BitVec 2)
  /-- VFADD_RZ (R145): Per-lane FP32 addition rounded toward zero. -/
  | vfaddRz (d a b : BitVec 7) (p : BitVec 2)
  /-- VFMUL_RZ (R145): Per-lane FP32 multiplication rounded toward zero. -/
  | vfmulRz (d a b : BitVec 7) (p : BitVec 2)
  /-- VFMA_RZ (R145): Per-lane fused FP32 multiply-add rounded toward zero. -/
  | vfmaRz (d a b : BitVec 7) (p : BitVec 2)
  /-- VFCMP_EQ (R147): Per-lane FP32 equality compare into a predicate. -/
  | vfcmpEq (d : BitVec 3) (a b : BitVec 7) (p : BitVec 2)
  /-- VFCMP_NE (R147): Per-lane FP32 inequality compare into a predicate. -/
  | vfcmpNe (d : BitVec 3) (a b : BitVec 7) (p : BitVec 2)
  /-- VFCMP_LT (R147): Per-lane FP32 less-than into a predicate. -/
  | vfcmpLt (d : BitVec 3) (a b : BitVec 7) (p : BitVec 2)
  /-- VFCMP_LE (R147): Per-lane FP32 less-or-equal into a predicate. -/
  | vfcmpLe (d : BitVec 3) (a b : BitVec 7) (p : BitVec 2)
  /-- VFCMP_UN (R147): Per-lane FP32 unordered test into a predicate. -/
  | vfcmpUn (d : BitVec 3) (a b : BitVec 7) (p : BitVec 2)
  /-- VFRCP (R149): Per-lane correctly rounded FP32 reciprocal. -/
  | vfrcp (d a : BitVec 7) (p : BitVec 2)
  /-- VFRSQ (R149): Per-lane correctly rounded reciprocal square root. -/
  | vfrsq (d a : BitVec 7) (p : BitVec 2)
  /-- VFEXP2 (R149): Per-lane correctly rounded 2^x. -/
  | vfexp2 (d a : BitVec 7) (p : BitVec 2)
  /-- VFLOG2 (R149): Per-lane correctly rounded log2 x. -/
  | vflog2 (d a : BitVec 7) (p : BitVec 2)
  /-- VFTANH (R149): Per-lane correctly rounded tanh x. -/
  | vftanh (d a : BitVec 7) (p : BitVec 2)
  /-- VFCLASS (R148): Per-lane one-hot FP32 class mask. -/
  | vfclass (d a : BitVec 7) (p : BitVec 2)
  /-- VHADD (R150): Packed BF16 addition on both halves. -/
  | vhadd (d a b : BitVec 7) (p : BitVec 2)
  /-- VHMUL (R150): Packed BF16 multiplication on both halves. -/
  | vhmul (d a b : BitVec 7) (p : BitVec 2)
  /-- VHFMA (R150): Packed BF16 fused multiply-add on both halves. -/
  | vhfma (d a b : BitVec 7) (p : BitVec 2)
  /-- VHSUB (R150): Packed BF16 subtraction on both halves. -/
  | vhsub (d a b : BitVec 7) (p : BitVec 2)
  /-- VHMIN (R150): Packed BF16 minimum on both halves. -/
  | vhmin (d a b : BitVec 7) (p : BitVec 2)
  /-- VHMAX (R150): Packed BF16 maximum on both halves. -/
  | vhmax (d a b : BitVec 7) (p : BitVec 2)
  /-- VCVT_F32_RN (R152): Converts one element to FP32, rounding to nearest. -/
  | vcvtF32Rn (d a : BitVec 7) (e s : BitVec 3)
  /-- VCVT_F32_RZ (R152): Converts one element to FP32, rounding toward zero. -/
  | vcvtF32Rz (d a : BitVec 7) (e s : BitVec 3)
  /-- VCVT_F32_SR (R152): Converts one element to FP32 with stochastic rounding. -/
  | vcvtF32Sr (d a : BitVec 7) (e s : BitVec 3)
  /-- VCVT_BF16_RN (R152): Converts one element to BF16, rounding to nearest. -/
  | vcvtBf16Rn (d a : BitVec 7) (p : BitVec 1) (e s : BitVec 3)
  /-- VCVT_BF16_RZ (R152): Converts one element to BF16, rounding toward zero. -/
  | vcvtBf16Rz (d a : BitVec 7) (p : BitVec 1) (e s : BitVec 3)
  /-- VCVT_BF16_SR (R152): Converts one element to BF16 with stochastic rounding. -/
  | vcvtBf16Sr (d a : BitVec 7) (p : BitVec 1) (e s : BitVec 3)
  /-- VCVT_E4M3_RN (R152): Converts one element to E4M3, rounding to nearest. -/
  | vcvtE4m3Rn (d a : BitVec 7) (p : BitVec 2) (e s : BitVec 3)
  /-- VCVT_E4M3_RZ (R152): Converts one element to E4M3, rounding toward zero. -/
  | vcvtE4m3Rz (d a : BitVec 7) (p : BitVec 2) (e s : BitVec 3)
  /-- VCVT_E4M3_SR (R152): Converts one element to E4M3 with stochastic rounding. -/
  | vcvtE4m3Sr (d a : BitVec 7) (p : BitVec 2) (e s : BitVec 3)
  /-- VCVT_E5M2_RN (R152): Converts one element to E5M2, rounding to nearest. -/
  | vcvtE5m2Rn (d a : BitVec 7) (p : BitVec 2) (e s : BitVec 3)
  /-- VCVT_E5M2_RZ (R152): Converts one element to E5M2, rounding toward zero. -/
  | vcvtE5m2Rz (d a : BitVec 7) (p : BitVec 2) (e s : BitVec 3)
  /-- VCVT_E5M2_SR (R152): Converts one element to E5M2 with stochastic rounding. -/
  | vcvtE5m2Sr (d a : BitVec 7) (p : BitVec 2) (e s : BitVec 3)
  /-- VCVT_E2M1_RN (R152): Converts one element to E2M1, rounding to nearest. -/
  | vcvtE2m1Rn (d a : BitVec 7) (p e s : BitVec 3)
  /-- VCVT_E2M1_RZ (R152): Converts one element to E2M1, rounding toward zero. -/
  | vcvtE2m1Rz (d a : BitVec 7) (p e s : BitVec 3)
  /-- VCVT_E2M1_SR (R152): Converts one element to E2M1 with stochastic rounding. -/
  | vcvtE2m1Sr (d a : BitVec 7) (p e s : BitVec 3)
  /-- VCVT_S32_RN (R152): Converts one element to saturated s32, rounding to nearest. -/
  | vcvtS32Rn (d a : BitVec 7) (e s : BitVec 3)
  /-- VCVT_S32_RZ (R152): Converts one element to saturated s32, rounding toward zero. -/
  | vcvtS32Rz (d a : BitVec 7) (e s : BitVec 3)
  /-- VCVT_S32_SR (R152): Converts one element to saturated s32 with stochastic rounding. -/
  | vcvtS32Sr (d a : BitVec 7) (e s : BitVec 3)
  /-- VCVT_N32_RN (R152): Converts one element to saturated n32, rounding to nearest. -/
  | vcvtN32Rn (d a : BitVec 7) (e s : BitVec 3)
  /-- VCVT_N32_RZ (R152): Converts one element to saturated n32, rounding toward zero. -/
  | vcvtN32Rz (d a : BitVec 7) (e s : BitVec 3)
  /-- VCVT_N32_SR (R152): Converts one element to saturated n32 with stochastic rounding. -/
  | vcvtN32Sr (d a : BitVec 7) (e s : BitVec 3)
  /-- VPACK_B8 (R153): Shifts a byte in at the top of a packed word. -/
  | vpackB8 (d a b : BitVec 7) (p : BitVec 2)
  /-- VPACK_B16 (R153): Shifts a halfword in at the top of a packed word. -/
  | vpackB16 (d a b : BitVec 7) (p : BitVec 2)
  /-- VUNPK_B4 (R154): Extracts a zero-extended 4-bit element. -/
  | vunpkB4 (d a : BitVec 7) (i : BitVec 3)
  /-- VUNPK_B4_SX (R154): Extracts a sign-extended 4-bit element. -/
  | vunpkB4Sx (d a : BitVec 7) (i : BitVec 3)
  /-- VUNPK_B8 (R154): Extracts a zero-extended byte element. -/
  | vunpkB8 (d a : BitVec 7) (i : BitVec 2)
  /-- VUNPK_B8_SX (R154): Extracts a sign-extended byte element. -/
  | vunpkB8Sx (d a : BitVec 7) (i : BitVec 2)
  /-- VUNPK_B16 (R154): Extracts a zero-extended halfword element. -/
  | vunpkB16 (d a : BitVec 7) (i : BitVec 1)
  /-- VUNPK_B16_SX (R154): Extracts a sign-extended halfword element. -/
  | vunpkB16Sx (d a : BitVec 7) (i : BitVec 1)
  /-- VQNT_E4M3_E8M0 (R156): Quantises a lane's 1x32 block to E4M3 with an E8M0 scale. -/
  | vqntE4m3E8m0 (d a b : BitVec 7) (p : BitVec 2)
  /-- VQNT_E4M3_S32SCALE (R156): Quantises a heat's 32x32 block to E4M3 with a 32-bit scale. -/
  | vqntE4m3S32scale (d a b : BitVec 7) (p : BitVec 2)
  /-- VQNT_E5M2_E8M0 (R156): Quantises a lane's 1x32 block to E5M2 with an E8M0 scale. -/
  | vqntE5m2E8m0 (d a b : BitVec 7) (p : BitVec 2)
  /-- VQNT_E5M2_S32SCALE (R156): Quantises a heat's 32x32 block to E5M2 with a 32-bit scale. -/
  | vqntE5m2S32scale (d a b : BitVec 7) (p : BitVec 2)
  /-- VQNT_E2M1_E8M0 (R156): Quantises a lane's 1x32 block to E2M1 with an E8M0 scale. -/
  | vqntE2m1E8m0 (d a b : BitVec 7) (p : BitVec 2)
  /-- VQNT_E2M1_S32SCALE (R156): Quantises a heat's 32x32 block to E2M1 with a 32-bit scale. -/
  | vqntE2m1S32scale (d a b : BitVec 7) (p : BitVec 2)
  /-- VDQNT_E4M3_E8M0 (R158): Dequantises an E4M3 MX block to FP32. -/
  | vdqntE4m3E8m0 (d a b : BitVec 7) (p : BitVec 2)
  /-- VDQNT_E4M3_S32SCALE (R158): Dequantises an E4M3 QF block to FP32. -/
  | vdqntE4m3S32scale (d a b : BitVec 7) (p : BitVec 2)
  /-- VDQNT_E5M2_E8M0 (R158): Dequantises an E5M2 MX block to FP32. -/
  | vdqntE5m2E8m0 (d a b : BitVec 7) (p : BitVec 2)
  /-- VDQNT_E5M2_S32SCALE (R158): Dequantises an E5M2 QF block to FP32. -/
  | vdqntE5m2S32scale (d a b : BitVec 7) (p : BitVec 2)
  /-- VDQNT_E2M1_E8M0 (R158): Dequantises an E2M1 MX block to FP32. -/
  | vdqntE2m1E8m0 (d a b : BitVec 7) (p : BitVec 2)
  /-- VDQNT_E2M1_S32SCALE (R158): Dequantises an E2M1 QF block to FP32. -/
  | vdqntE2m1S32scale (d a b : BitVec 7) (p : BitVec 2)
  /-- VFRND_RN (R148): Rounds FP32 to an integral value, to nearest even. -/
  | vfrndRn (d a : BitVec 7) (p : BitVec 2)
  /-- VFRND_RZ (R148): Rounds FP32 to an integral value toward zero. -/
  | vfrndRz (d a : BitVec 7) (p : BitVec 2)
  /-- VFRND_RM (R148): Rounds FP32 to an integral value toward minus infinity. -/
  | vfrndRm (d a : BitVec 7) (p : BitVec 2)
  /-- VFRND_RP (R148): Rounds FP32 to an integral value toward plus infinity. -/
  | vfrndRp (d a : BitVec 7) (p : BitVec 2)
  /-- QSWP_H (R159): Exchanges a row with the horizontal quad neighbour. -/
  | qswpH (d a : BitVec 7) (p : BitVec 2)
  /-- QSWP_V (R159): Exchanges a row with the vertical quad neighbour. -/
  | qswpV (d a : BitVec 7) (p : BitVec 2)
  /-- QSWP_D (R159): Exchanges a row with the diagonal quad neighbour. -/
  | qswpD (d a : BitVec 7) (p : BitVec 2)
  /-- QBCAST (R159): Broadcasts a row from quad position j within each quad. -/
  | qbcast (d a : BitVec 7) (j : BitVec 2)
  /-- VSHFL_IDX (R160): Reads v(A) of the lane named by v(B). -/
  | vshflIdx (d a b : BitVec 7) (p : BitVec 2)
  /-- VSHFL_UP (R160): Reads v(A) of lane l minus c. -/
  | vshflUp (d a : BitVec 7) (c : BitVec 5)
  /-- VSHFL_DOWN (R160): Reads v(A) of lane l plus c. -/
  | vshflDown (d a : BitVec 7) (c : BitVec 5)
  /-- VSHFL_XOR (R160): Reads v(A) of lane l XOR c. -/
  | vshflXor (d a : BitVec 7) (c : BitVec 5)
  /-- VRED_ADD_S32 (R161): Reduces contributors by 32-bit addition over a fixed network. -/
  | vredAddS32 (d a : BitVec 7) (p : BitVec 2)
  /-- VRED_ADD_F32 (R161): Reduces contributors by FP32 addition over a fixed network. -/
  | vredAddF32 (d a : BitVec 7) (p : BitVec 2)
  /-- VRED_MIN_S32 (R161): Reduces contributors by signed minimum. -/
  | vredMinS32 (d a : BitVec 7) (p : BitVec 2)
  /-- VRED_MAX_S32 (R161): Reduces contributors by signed maximum. -/
  | vredMaxS32 (d a : BitVec 7) (p : BitVec 2)
  /-- VRED_MIN_F32 (R161): Reduces contributors by FP32 minimum. -/
  | vredMinF32 (d a : BitVec 7) (p : BitVec 2)
  /-- VRED_MAX_F32 (R161): Reduces contributors by FP32 maximum. -/
  | vredMaxF32 (d a : BitVec 7) (p : BitVec 2)
  /-- VRED_AND_B32 (R161): Reduces contributors by bitwise AND. -/
  | vredAndB32 (d a : BitVec 7) (p : BitVec 2)
  /-- VRED_OR_B32 (R161): Reduces contributors by bitwise OR. -/
  | vredOrB32 (d a : BitVec 7) (p : BitVec 2)
  /-- VRED_XOR_B32 (R161): Reduces contributors by bitwise XOR. -/
  | vredXorB32 (d a : BitVec 7) (p : BitVec 2)
  /-- VSCAN_ADD_S32 (R161): Inclusive prefix 32-bit sum over contributors. -/
  | vscanAddS32 (d a : BitVec 7) (p : BitVec 2)
  /-- VSCAN_ADD_F32 (R161): Inclusive prefix FP32 sum over contributors. -/
  | vscanAddF32 (d a : BitVec 7) (p : BitVec 2)
  /-- VSCAN_MIN_S32 (R161): Inclusive prefix signed minimum. -/
  | vscanMinS32 (d a : BitVec 7) (p : BitVec 2)
  /-- VSCAN_MAX_S32 (R161): Inclusive prefix signed maximum. -/
  | vscanMaxS32 (d a : BitVec 7) (p : BitVec 2)
  /-- VSCAN_OR_B32 (R161): Inclusive prefix bitwise OR. -/
  | vscanOrB32 (d a : BitVec 7) (p : BitVec 2)
  /-- VBALLOT (R162): Writes the mask of contributors whose predicate is set. -/
  | vballot (d : BitVec 7) (a : BitVec 3) (p : BitVec 2)
  /-- VVOTE_ALL (R162): Writes 1 if every contributor has the predicate set. -/
  | vvoteAll (d a : BitVec 3) (p : BitVec 2)
  /-- VVOTE_ANY (R162): Writes 1 if some contributor has the predicate set. -/
  | vvoteAny (d a : BitVec 3) (p : BitVec 2)
  /-- VVOTE_UNI (R162): Writes 1 if every contributor holds the same v(A). -/
  | vvoteUni (d : BitVec 3) (a : BitVec 7) (p : BitVec 2)
  /-- KAND (R138): Per-lane predicate AND. -/
  | kand (d a b : BitVec 3) (p : BitVec 2)
  /-- KOR (R138): Per-lane predicate OR. -/
  | kor (d a b : BitVec 3) (p : BitVec 2)
  /-- KXOR (R138): Per-lane predicate XOR. -/
  | kxor (d a b : BitVec 3) (p : BitVec 2)
  /-- KNOT (R138): Per-lane predicate NOT. -/
  | knot (d a : BitVec 3) (p : BitVec 2)
  /-- KMOV (R138): Per-lane predicate copy. -/
  | kmov (d a : BitVec 3) (p : BitVec 2)
  /-- KMOV_V2K (R139): Sets a predicate from whether a vector register is nonzero. -/
  | kmovV2k (d : BitVec 3) (a : BitVec 7) (p : BitVec 2)
  /-- KMOV_K2V (R139): Writes a predicate as 0 or 1 into a vector register. -/
  | kmovK2v (d : BitVec 7) (a : BitVec 3) (p : BitVec 2)
  /-- KPOPC (R140): Counts active non-helper lanes of the sub-group with the predicate set. -/
  | kpopc (d : BitVec 6) (a : BitVec 3)
  /-- VLD_B8 (R172): Loads a zero-extended byte per lane from device memory. -/
  | vldB8 (d : BitVec 7) (a : BitVec 4) (o : BitVec 7) (l : BitVec 4) (p : BitVec 1)
  /-- VLD_B16 (R172): Loads a zero-extended halfword per lane. -/
  | vldB16 (d : BitVec 7) (a : BitVec 4) (o : BitVec 7) (l : BitVec 4) (p : BitVec 1)
  /-- VLD_B32 (R172): Loads a 32-bit word per lane. -/
  | vldB32 (d : BitVec 7) (a : BitVec 4) (o : BitVec 7) (l : BitVec 4) (p : BitVec 1)
  /-- VLD_B64 (R172): Loads 8 bytes per lane into a vector pair. -/
  | vldB64 (d : BitVec 6) (a : BitVec 4) (o : BitVec 7) (l : BitVec 4) (p : BitVec 1)
  /-- VLD_B128 (R172): Loads 16 bytes per lane into four vector registers. -/
  | vldB128 (d : BitVec 5) (a : BitVec 4) (o : BitVec 7) (l : BitVec 4) (p : BitVec 1)
  /-- VST_B8 (R172): Stores a byte per lane to device memory. -/
  | vstB8 (s : BitVec 7) (a : BitVec 4) (o : BitVec 7) (p : BitVec 1)
  /-- VST_B16 (R172): Stores a halfword per lane. -/
  | vstB16 (s : BitVec 7) (a : BitVec 4) (o : BitVec 7) (p : BitVec 1)
  /-- VST_B32 (R172): Stores a 32-bit word per lane. -/
  | vstB32 (s : BitVec 7) (a : BitVec 4) (o : BitVec 7) (p : BitVec 1)
  /-- VST_B64 (R172): Stores a vector pair per lane. -/
  | vstB64 (s : BitVec 6) (a : BitVec 4) (o : BitVec 7) (p : BitVec 1)
  /-- VST_B128 (R172): Stores four vector registers per lane. -/
  | vstB128 (s : BitVec 5) (a : BitVec 4) (o : BitVec 7) (p : BitVec 1)
  /-- VLDS_B32 (R173): Loads a word per lane from the cluster window. -/
  | vldsB32 (d : BitVec 7) (a : BitVec 4) (o : BitVec 7) (l : BitVec 4) (p : BitVec 1)
  /-- VLDS_B64 (R173): Loads 8 bytes per lane from the cluster window. -/
  | vldsB64 (d : BitVec 6) (a : BitVec 4) (o : BitVec 7) (l : BitVec 4) (p : BitVec 1)
  /-- VLDS_B128 (R173): Loads 16 bytes per lane from the cluster window. -/
  | vldsB128 (d : BitVec 5) (a : BitVec 4) (o : BitVec 7) (l : BitVec 4) (p : BitVec 1)
  /-- VSTS_B32 (R173): Stores a word per lane to the cluster window. -/
  | vstsB32 (s : BitVec 7) (a : BitVec 4) (o : BitVec 7) (p : BitVec 1)
  /-- VSTS_B64 (R173): Stores 8 bytes per lane to the cluster window. -/
  | vstsB64 (s : BitVec 6) (a : BitVec 4) (o : BitVec 7) (p : BitVec 1)
  /-- VSTS_B128 (R173): Stores 16 bytes per lane to the cluster window. -/
  | vstsB128 (s : BitVec 5) (a : BitVec 4) (o : BitVec 7) (p : BitVec 1)
  /-- SLD (R174): Loads 8 bytes into a scalar register once per issue. -/
  | sld (d : BitVec 6) (a : BitVec 4) (i : BitVec 8) (l : BitVec 4)
  /-- SST (R174): Stores a scalar register as 8 bytes once per issue. -/
  | sst (s : BitVec 6) (a : BitVec 4) (i : BitVec 8)
  /-- TLDG (R175): Loads a 32x32-byte tensor tile named by a tile handle, one row or column per lane. -/
  | tldg (d a l : BitVec 4) (p : BitVec 1)
  /-- PREF (R176): Prefetches a strip into L1 or a sector into L2; never faults. -/
  | pref (n : BitVec 7) (a : BitVec 4) (o : BitVec 7) (p : BitVec 1)
  /-- ATOM_ADD_B32 (R178): Returning 32-bit atomic add on local memory. -/
  | atomAddB32 (d : BitVec 7) (a : BitVec 4) (o : BitVec 7) (l : BitVec 4) (p : BitVec 1)
  /-- ATOM_MIN_S32 (R178): Returning signed atomic minimum. -/
  | atomMinS32 (d : BitVec 7) (a : BitVec 4) (o : BitVec 7) (l : BitVec 4) (p : BitVec 1)
  /-- ATOM_MAX_S32 (R178): Returning signed atomic maximum. -/
  | atomMaxS32 (d : BitVec 7) (a : BitVec 4) (o : BitVec 7) (l : BitVec 4) (p : BitVec 1)
  /-- ATOM_AND_B32 (R178): Returning atomic AND. -/
  | atomAndB32 (d : BitVec 7) (a : BitVec 4) (o : BitVec 7) (l : BitVec 4) (p : BitVec 1)
  /-- ATOM_OR_B32 (R178): Returning atomic OR. -/
  | atomOrB32 (d : BitVec 7) (a : BitVec 4) (o : BitVec 7) (l : BitVec 4) (p : BitVec 1)
  /-- ATOM_XOR_B32 (R178): Returning atomic XOR. -/
  | atomXorB32 (d : BitVec 7) (a : BitVec 4) (o : BitVec 7) (l : BitVec 4) (p : BitVec 1)
  /-- ATOM_EXCH_B32 (R178): Returning 32-bit atomic exchange. -/
  | atomExchB32 (d : BitVec 7) (a : BitVec 4) (o : BitVec 7) (l : BitVec 4) (p : BitVec 1)
  /-- ATOM_CAS_B32 (R178): Returning 32-bit atomic compare-and-swap. -/
  | atomCasB32 (d : BitVec 6) (a : BitVec 4) (o : BitVec 7) (l : BitVec 4) (p : BitVec 1)
  /-- ATOM_ADD_B64 (R178): Returning 64-bit atomic add. -/
  | atomAddB64 (d : BitVec 6) (a : BitVec 4) (o : BitVec 7) (l : BitVec 4) (p : BitVec 1)
  /-- ATOM_EXCH_B64 (R178): Returning 64-bit atomic exchange. -/
  | atomExchB64 (d : BitVec 6) (a : BitVec 4) (o : BitVec 7) (l : BitVec 4) (p : BitVec 1)
  /-- ATOM_CAS_B64 (R178): Returning 64-bit atomic compare-and-swap. -/
  | atomCasB64 (d : BitVec 5) (a : BitVec 4) (o : BitVec 7) (l : BitVec 4) (p : BitVec 1)
  /-- ATOM_ADD_F32 (R178): Returning FP32 atomic add rounded to nearest. -/
  | atomAddF32 (d : BitVec 7) (a : BitVec 4) (o : BitVec 7) (l : BitVec 4) (p : BitVec 1)
  /-- RED_ADD_B32 (R180): Non-returning 32-bit reduction add, mergeable in routers. -/
  | redAddB32 (s : BitVec 7) (a : BitVec 4) (o : BitVec 7) (p : BitVec 1)
  /-- RED_MIN_S32 (R180): Non-returning signed minimum reduction. -/
  | redMinS32 (s : BitVec 7) (a : BitVec 4) (o : BitVec 7) (p : BitVec 1)
  /-- RED_MAX_S32 (R180): Non-returning signed maximum reduction. -/
  | redMaxS32 (s : BitVec 7) (a : BitVec 4) (o : BitVec 7) (p : BitVec 1)
  /-- RED_OR_B32 (R180): Non-returning OR reduction. -/
  | redOrB32 (s : BitVec 7) (a : BitVec 4) (o : BitVec 7) (p : BitVec 1)
  /-- RED_ADD_B64 (R180): Non-returning 64-bit reduction add. -/
  | redAddB64 (s : BitVec 6) (a : BitVec 4) (o : BitVec 7) (p : BitVec 1)
  /-- RED_ADD_F32 (R180): Non-returning FP32 reduction add, never merged. -/
  | redAddF32 (s : BitVec 7) (a : BitVec 4) (o : BitVec 7) (p : BitVec 1)
  /-- RED_ADD_BF16 (R180): Non-returning BF16 reduction add on a 2-byte target. -/
  | redAddBf16 (s : BitVec 7) (a : BitVec 4) (o : BitVec 7) (p : BitVec 1)
  /-- ATOMS_ADD_B32 (R181): Returning 32-bit add on the cluster window (LA 0 to 14). -/
  | atomsAddB32 (d : BitVec 7) (a : BitVec 4) (o : BitVec 7) (l : BitVec 4) (p : BitVec 1)
  /-- ATOMS_ADD_B32_NON_RETURNING (R181): Non-returning 32-bit add on the cluster window (LA 15). -/
  | atomsAddB32NonReturning (d : BitVec 7) (a : BitVec 4) (o : BitVec 7) (p : BitVec 1)
  /-- ATOMS_MIN_S32 (R181): Returning signed minimum on the cluster window. -/
  | atomsMinS32 (d : BitVec 7) (a : BitVec 4) (o : BitVec 7) (l : BitVec 4) (p : BitVec 1)
  /-- ATOMS_MIN_S32_NON_RETURNING (R181): Non-returning signed minimum on the cluster window. -/
  | atomsMinS32NonReturning (d : BitVec 7) (a : BitVec 4) (o : BitVec 7) (p : BitVec 1)
  /-- ATOMS_MAX_S32 (R181): Returning signed maximum on the cluster window. -/
  | atomsMaxS32 (d : BitVec 7) (a : BitVec 4) (o : BitVec 7) (l : BitVec 4) (p : BitVec 1)
  /-- ATOMS_MAX_S32_NON_RETURNING (R181): Non-returning signed maximum on the cluster window. -/
  | atomsMaxS32NonReturning (d : BitVec 7) (a : BitVec 4) (o : BitVec 7) (p : BitVec 1)
  /-- ATOMS_EXCH_B32 (R181): Returning exchange on the cluster window. -/
  | atomsExchB32 (d : BitVec 7) (a : BitVec 4) (o : BitVec 7) (l : BitVec 4) (p : BitVec 1)
  /-- ATOMS_EXCH_B32_NON_RETURNING (R181): Non-returning exchange on the cluster window. -/
  | atomsExchB32NonReturning (d : BitVec 7) (a : BitVec 4) (o : BitVec 7) (p : BitVec 1)
  /-- ATOMS_CAS_B32 (R181): Returning compare-and-swap on the cluster window. -/
  | atomsCasB32 (d : BitVec 6) (a : BitVec 4) (o : BitVec 7) (l : BitVec 4) (p : BitVec 1)
  /-- ATOMS_CAS_B32_NON_RETURNING (R181): Non-returning compare-and-swap on the cluster window. -/
  | atomsCasB32NonReturning (d : BitVec 6) (a : BitVec 4) (o : BitVec 7) (p : BitVec 1)
  /-- ATOMS_ADD_F32 (R181): Returning FP32 add on the cluster window. -/
  | atomsAddF32 (d : BitVec 7) (a : BitVec 4) (o : BitVec 7) (l : BitVec 4) (p : BitVec 1)
  /-- ATOMS_ADD_F32_NON_RETURNING (R181): Non-returning FP32 add on the cluster window. -/
  | atomsAddF32NonReturning (d : BitVec 7) (a : BitVec 4) (o : BitVec 7) (p : BitVec 1)
  /-- REDST_ANY_F32 (R182): Memory-side FP32 reduce-store applied at the home slice in arrival order. -/
  | redstAnyF32 (s : BitVec 7) (a : BitVec 4) (o : BitVec 7) (p : BitVec 1)
  /-- REDST_ORD_F32 (R183): Memory-side FP32 reduce-store applied in index order. -/
  | redstOrdF32 (s : BitVec 6) (a : BitVec 4) (o : BitVec 7) (p : BitVec 1)
  /-- REDST_ANY_B32 (R182): Memory-side 32-bit integer reduce-store. -/
  | redstAnyB32 (s : BitVec 7) (a : BitVec 4) (o : BitVec 7) (p : BitVec 1)
  /-- CPY (R191): Checks and pushes a byte-copy command into q0. -/
  | cpy (q a : BitVec 4)
  /-- CPYT_ROW (R191): Pushes a tile copy command in row orientation. -/
  | cpytRow (q a : BitVec 4)
  /-- CPYT_COL (R191): Pushes a transposing tile copy command. -/
  | cpytCol (q a : BitVec 4)
  /-- CPYM (R191): Pushes a multicast copy into several ranks' scratchpads. -/
  | cpym (q a : BitVec 4)
  /-- GTH_B32 (R195): Pushes a 32-bit gather command into q2. -/
  | gthB32 (q : BitVec 4) (a : BitVec 6) (p : BitVec 1)
  /-- GTH_B64 (R195): Pushes a 64-bit gather command into q2. -/
  | gthB64 (q : BitVec 4) (a : BitVec 6) (p : BitVec 1)
  /-- GTH_B128 (R195): Pushes a 128-bit gather command into q2. -/
  | gthB128 (q : BitVec 4) (a : BitVec 6) (p : BitVec 1)
  /-- SCT_B32 (R196): Pushes a 32-bit scatter command into q2. -/
  | sctB32 (q : BitVec 4) (a : BitVec 6) (b : BitVec 7) (p : BitVec 1)
  /-- SCT_B64 (R196): Pushes a 64-bit scatter command into q2. -/
  | sctB64 (q : BitVec 4) (a b : BitVec 6) (p : BitVec 1)
  /-- SCT_B128 (R196): Pushes a 128-bit scatter command into q2. -/
  | sctB128 (q : BitVec 4) (a : BitVec 6) (b : BitVec 5) (p : BitVec 1)
  /-- QPUSH_B32 (R186): Pushes one entry of 32-bit lane values to a queue. -/
  | qpushB32 (q : BitVec 4) (a : BitVec 7) (p : BitVec 1)
  /-- QPUSH_B64 (R186): Pushes one entry of 64-bit lane values to a queue. -/
  | qpushB64 (q : BitVec 4) (a : BitVec 6) (p : BitVec 1)
  /-- QPOP_B32 (R187): Pops the head entry into 32-bit lane registers. -/
  | qpopB32 (q : BitVec 4) (a : BitVec 7) (l : BitVec 4) (p : BitVec 1)
  /-- QPOP_B64 (R187): Pops the head entry into vector pairs. -/
  | qpopB64 (q : BitVec 4) (a : BitVec 6) (l : BitVec 4) (p : BitVec 1)
  /-- QPEEK_B32 (R187): Reads the head entry into 32-bit registers without removing it. -/
  | qpeekB32 (q : BitVec 4) (a : BitVec 7) (l : BitVec 4) (p : BitVec 1)
  /-- QPEEK_B64 (R187): Reads the head entry into pairs without removing it. -/
  | qpeekB64 (q : BitVec 4) (a : BitVec 6) (l : BitVec 4) (p : BitVec 1)
  /-- QLEN (R188): Writes a queue's entry count into a scalar. -/
  | qlen (q : BitVec 4) (a : BitVec 6)
  /-- BRA (R201): Unconditional relative branch. -/
  | bra (f : BitVec 19)
  /-- BRC (R201): Conditional relative branch on a possibly negated predicate. -/
  | brc (k : BitVec 3) (n : BitVec 1) (f : BitVec 19)
  /-- BRX (R202): Per-lane indirect branch by a word offset in v(A). -/
  | brx (a : BitVec 7) (p : BitVec 2)
  /-- BRX_PACK (R203): Indirect branch that parks lanes for a gathering and repack by target. -/
  | brxPack (a : BitVec 7) (p : BitVec 2)
  /-- CALL (R204): Branches and writes the fall-through into the link pair. -/
  | call (k : BitVec 3) (n : BitVec 1) (f : BitVec 19)
  /-- RET (R205): Moves each taking lane to the address in a vector pair. -/
  | ret (a : BitVec 6) (p : BitVec 2)
  /-- JMPI (R205): Moves taking lanes to the address in an address register. -/
  | jmpi (a : BitVec 4) (p : BitVec 2)
  /-- LOOP (R207): Pushes a counted loop entry or skips the body when the count is zero. -/
  | loop (a : BitVec 7) (i : BitVec 9)
  /-- EXIT (R210): Ends the thread of each taking lane. -/
  | exit (p : BitVec 2)
  /-- NOP (R212): Takes one issue slot and one stride count. -/
  | nop
  /-- YIELD (R212): Makes the heat most recently issued in its scheduler. -/
  | yield
  /-- SLEEP (R212): Makes the heat ineligible for 16 x n cycles. -/
  | sleep (i : BitVec 9)
  /-- HREG_S (R217): Registers the heat as a signaller of a hurdle. -/
  | hregS (c : BitVec 1) (h : BitVec 8)
  /-- HREG_W (R217): Registers the heat as a waiter of a hurdle. -/
  | hregW (c : BitVec 1) (h : BitVec 8)
  /-- HREG_SW (R217): Registers the heat as signaller and waiter. -/
  | hregSw (c : BitVec 1) (h : BitVec 8)
  /-- HDROP (R218): Removes the heat from a hurdle at the next boundary. -/
  | hdrop (c : BitVec 1) (h : BitVec 8)
  /-- HARR (R219): Counts the heat's arrival at a hurdle. -/
  | harr (c : BitVec 1) (h : BitVec 8)
  /-- HARR_CP (R219): Arrival whose count is deferred until earlier copies complete. -/
  | harrCp (c : BitVec 1) (h : BitVec 8)
  /-- HWAIT (R220): Parks the heat until the hurdle phase passes its wait target. -/
  | hwait (c : BitVec 1) (h : BitVec 8)
  /-- HARRW (R220): Arrives and then waits in one issue. -/
  | harrw (c : BitVec 1) (h : BitVec 8)
  /-- HTEST (R220): Writes whether HWAIT would not park into a predicate. -/
  | htest (d : BitVec 3) (c : BitVec 1) (h : BitVec 8)
  /-- COMMIT (R226): Makes a commit point; deferred stores perform and a new lap begins. -/
  | commit
  /-- FENCE (R227): Holds until earlier loads, stores and engine commands are complete. -/
  | fence
  /-- FENCE_R (R228): Holds until earlier fabric accesses and relay operations are complete. -/
  | fenceR
  /-- SPAWN (R229): Creates one thread per taking lane in a spawn bin. -/
  | spawn (d : BitVec 4) (a : BitVec 6) (b : BitVec 7) (p : BitVec 2)
  /-- LAUNCH (R230): Reads a launch record per lane and queues a child grid. -/
  | launch (d : BitVec 7) (a : BitVec 4) (o : BitVec 7) (l : BitVec 4) (p : BitVec 1)
  /-- WAITC (R232): Parks until each lane's 64-bit counter reaches its target. -/
  | waitc (s : BitVec 6) (a : BitVec 4) (o : BitVec 7) (p : BitVec 1)
  /-- RSMP (R234): Issues a member's weight to a resample with a drawn U. -/
  | rsmp (a : BitVec 7) (b : BitVec 6)
  /-- RSMP_U (R234): Issues a member's weight to a resample supplying U. -/
  | rsmpU (d : BitVec 6) (a : BitVec 7) (b : BitVec 6)
  /-- RATOM_ADD (R238): Exactly-once remote 64-bit atomic add through the relay. -/
  | ratomAdd (d : BitVec 6) (a : BitVec 4) (o : BitVec 7) (l : BitVec 4) (p : BitVec 1)
  /-- RATOM_MAX (R238): Exactly-once remote signed 64-bit maximum. -/
  | ratomMax (d : BitVec 6) (a : BitVec 4) (o : BitVec 7) (l : BitVec 4) (p : BitVec 1)
  /-- RATOM_CAS (R238): Exactly-once remote 64-bit compare-and-swap. -/
  | ratomCas (d : BitVec 5) (a : BitVec 4) (o : BitVec 7) (l : BitVec 4) (p : BitVec 1)
  /-- RATOM_EXCH (R238): Exactly-once remote 64-bit exchange. -/
  | ratomExch (d : BitVec 6) (a : BitVec 4) (o : BitVec 7) (l : BitVec 4) (p : BitVec 1)
  /-- RRED_ADD_B64 (R238): Exactly-once remote 64-bit reduction add. -/
  | rredAddB64 (s : BitVec 6) (a : BitVec 4) (o : BitVec 7) (p : BitVec 1)
  /-- RRED_ADD_F32 (R238): Exactly-once remote FP32 reduction add. -/
  | rredAddF32 (s : BitVec 7) (a : BitVec 4) (o : BitVec 7) (p : BitVec 1)
  /-- RHARR (R238): Exactly-once remote increment that retests WAITC waiters. -/
  | rharr (a : BitVec 4) (o : BitVec 7) (p : BitVec 1)
  /-- RLAUNCH (R238): Exactly-once remote launch of a grid at the owner. -/
  | rlaunch (d : BitVec 7) (a : BitVec 4) (o : BitVec 7) (l : BitVec 4) (p : BitVec 1)
  /-- RACK (R242): Sends acknowledgement packets on streams whose ack-through advanced. -/
  | rack
  /-- COLL (R243): Checks and pushes a collective command into q4. -/
  | coll (q a : BitVec 4)
  /-- TLD (R256): Sequencer loads 4 KiB unchanged into a tile register. -/
  | tld (t b : BitVec 4) (m : BitVec 1)
  /-- TLDT (R256): Sequencer loads a tile register transposed. -/
  | tldt (t b : BitVec 4) (m : BitVec 3)
  /-- MMA_E4M3_E4M3 (R262): Multi-step E4M3 x E4M3 matrix multiply-accumulate into a tile. -/
  | mmaE4m3E4m3 (t : BitVec 4) (k : BitVec 1) (c : BitVec 8) (r : BitVec 3) (b : BitVec 4) (m : BitVec 3)
  /-- MMA_E4M3_E5M2 (R262): Matrix multiply-accumulate with E4M3 A and E5M2 B. -/
  | mmaE4m3E5m2 (t : BitVec 4) (k : BitVec 1) (c : BitVec 8) (r : BitVec 3) (b : BitVec 4) (m : BitVec 3)
  /-- MMA_E5M2_E4M3 (R262): Matrix multiply-accumulate with E5M2 A and E4M3 B. -/
  | mmaE5m2E4m3 (t : BitVec 4) (k : BitVec 1) (c : BitVec 8) (r : BitVec 3) (b : BitVec 4) (m : BitVec 3)
  /-- MMA_E5M2_E5M2 (R262): Matrix multiply-accumulate with E5M2 operands. -/
  | mmaE5m2E5m2 (t : BitVec 4) (k : BitVec 1) (c : BitVec 8) (r : BitVec 3) (b : BitVec 4) (m : BitVec 3)
  /-- MMA_E2M1_E2M1 (R262): Matrix multiply-accumulate with E2M1 operands, K 128. -/
  | mmaE2m1E2m1 (t : BitVec 4) (k : BitVec 1) (c : BitVec 8) (r : BitVec 3) (b : BitVec 4) (m : BitVec 3)
  /-- MMA_E4M3_E2M1 (R262): Matrix multiply-accumulate with E4M3 A and E2M1 B. -/
  | mmaE4m3E2m1 (t : BitVec 4) (k : BitVec 1) (c : BitVec 8) (r : BitVec 3) (b : BitVec 4) (m : BitVec 3)
  /-- MMA_BF16_BF16 (R262): Matrix multiply-accumulate with BF16 operands, K 32. -/
  | mmaBf16Bf16 (t : BitVec 4) (k : BitVec 1) (c : BitVec 8) (r : BitVec 3) (b : BitVec 4) (m : BitVec 3)
  /-- MMAS_E4M3_E4M3 (R265): Scaled E4M3 matrix multiply-accumulate with block scales from a heat. -/
  | mmasE4m3E4m3 (t : BitVec 4) (k : BitVec 1) (c : BitVec 8) (r : BitVec 3) (b : BitVec 4) (s : BitVec 3)
  /-- MMAS_E5M2_E5M2 (R265): Scaled E5M2 matrix multiply-accumulate. -/
  | mmasE5m2E5m2 (t : BitVec 4) (k : BitVec 1) (c : BitVec 8) (r : BitVec 3) (b : BitVec 4) (s : BitVec 3)
  /-- MMAS_E2M1_E2M1 (R265): Scaled E2M1 matrix multiply-accumulate. -/
  | mmasE2m1E2m1 (t : BitVec 4) (k : BitVec 1) (c : BitVec 8) (r : BitVec 3) (b : BitVec 4) (s : BitVec 3)
  /-- ZACC (R267): Zeroes accumulator tiles with their monitors and rounding counters. -/
  | zacc (c : BitVec 8) (m : BitVec 3)
  /-- ACCLD (R267): Loads an accumulator tile from memory or the cluster window. -/
  | accld (c : BitVec 8) (b : BitVec 4) (m : BitVec 1)
  /-- ACCST (R267): Stores an accumulator tile to memory or the cluster window. -/
  | accst (c : BitVec 8) (b : BitVec 4) (m : BitVec 1)
  /-- DRAIN (R268): Pushes a tile's 64 rows into an epilogue heat's q7. -/
  | drain (c : BitVec 8) (e : BitVec 3)
  /-- DRAIN_AXPY (R269): Memory-side W = W + alpha x G over a tile. -/
  | drainAxpy (c : BitVec 8) (b : BitVec 4) (m : BitVec 1)
  /-- DRAIN_RED (R270): Memory-side REDST of a tile into an FP32 array. -/
  | drainRed (c : BitVec 8) (b : BitVec 4)
  /-- SETSP (R259): Installs a summation profile word from a sequencer register. -/
  | setsp (p : BitVec 3) (a : BitVec 4)
  /-- SWRD (R271): Reads and clears a tile's swamping monitors. -/
  | swrd (d : BitVec 4) (c : BitVec 8)
  /-- MLOOP (R252): Decrements a sequencer register and branches while nonzero. -/
  | mloop (k : BitVec 3) (f : BitVec 19)
  /-- MBR (R252): Sequencer branch when a register is nonzero. -/
  | mbr (k : BitVec 3) (f : BitVec 19)
  /-- MADD (R251): Adds a scaled immediate to a sequencer register. -/
  | madd (d a : BitVec 4) (s : BitVec 2) (n : BitVec 7)
  /-- MMOV (R251): Copies one sequencer register to another. -/
  | mmov (d a : BitVec 4)
  /-- MMOV_I (R251): Loads a sign-extended immediate into a sequencer register. -/
  | mmovI (d : BitVec 4) (i : BitVec 16)
  /-- MHARR (R254): Sequencer arrival at a hurdle, deferred until earlier work is done (action 0). -/
  | mharr (c : BitVec 1) (h : BitVec 8)
  /-- MHARR_REGISTER (R253): Registers the sequencer as a signaller (action 1). -/
  | mharrRegister (c : BitVec 1) (h : BitVec 8)
  /-- MHARR_DROP (R253): Drops the sequencer from a hurdle (action 2). -/
  | mharrDrop (c : BitVec 1) (h : BitVec 8)
  /-- MHWAIT (R253): Parks the sequencer until the hurdle phase advances (action 0). -/
  | mhwait (c : BitVec 1) (h : BitVec 8)
  /-- MHWAIT_REGISTER (R253): Registers the sequencer as a waiter (action 1). -/
  | mhwaitRegister (c : BitVec 1) (h : BitVec 8)
  /-- MEND (R252): Ends the matrix stream. -/
  | mend
  /-- SRD (R279): Reads a system register into a vector or scalar register. -/
  | srd (d : BitVec 7) (s : BitVec 16)
  /-- SWR (R279): Privileged write of a system register that has no row of its own. -/
  | swr (d : BitVec 7) (s : BitVec 16)
  /-- SWR_POOLRB (R60): Writes the register-region boundary; pool-busy fault if teams are resident. -/
  | swrPoolrb (d : BitVec 6)
  /-- SWR_POOLSB (R60): Writes the scratchpad boundary; pool-busy fault if teams are resident. -/
  | swrPoolsb (d : BitVec 6)
  /-- SWR_POOLCB (R60): Writes the commit-buffer boundary; pool-busy fault if teams are resident. -/
  | swrPoolcb (d : BitVec 6)
  /-- SWR_TDBASE (R343): Writes the tensor table base and empties the descriptor cache. -/
  | swrTdbase (d : BitVec 6)
  /-- SWR_TDCNT (R343): Writes the descriptor count and empties the descriptor cache. -/
  | swrTdcnt (d : BitVec 6)
  /-- SWR_DUMPC (R464): Starts a dump of context TASID, or sets BADADDR. -/
  | swrDumpc (d : BitVec 6)
  /-- SWR_TACTION (R475): Sets the ERET action of one share. -/
  | swrTaction (d : BitVec 6)
  /-- SWR_CPOSH (R476): Moves the selected lane's saved position header address. -/
  | swrCposh (d : BitVec 6)
  /-- SWR_CPOSI (R476): Moves the selected lane's saved position index. -/
  | swrCposi (d : BitVec 6)
  /-- SWR_CPRED (R476): Writes k1 to k7 of the selected lane's saved state. -/
  | swrCpred (d : BitVec 6)
  /-- SWR_XV (R476): Writes a vector row of the selected lane, cancelling a pending delivery. -/
  | swrXv (d : BitVec 6) (r : BitVec 7)
  /-- SWR_XS (R476): Writes a scalar register of the selected heat. -/
  | swrXs (d r : BitVec 6)
  /-- SWR_XA (R476): Writes address bits 63:0 of the selected heat. -/
  | swrXa (d : BitVec 6) (r : BitVec 4)
  /-- SWR_XAH (R476): Writes address bits 71:64 of the selected heat. -/
  | swrXah (d : BitVec 6) (r : BitVec 4)
  /-- SWR_XM (R476): Writes a sequencer register of the selected sequencer. -/
  | swrXm (d : BitVec 6) (r : BitVec 4)
  /-- ERET (R280): Ends trap handling; applies TACTION and resumes the core. -/
  | eret
  /-- TLBI_ALL (R281): Drops every translation and waits for affected accesses. -/
  | tlbiAll
  /-- TLBI_ASID (R281): Drops every translation of one address-space identifier. -/
  | tlbiAsid (b : BitVec 6)
  /-- TLBI_VA (R281): Drops translations of one virtual address in one identifier. -/
  | tlbiVa (a : BitVec 4) (b : BitVec 6)
  /-- HALT (R282): Stops, stops with broadcast, or removes a context. -/
  | halt (a : BitVec 6)
  /-- CLKRD (R283): Reads the core's cycle count. -/
  | clkrd (d : BitVec 6)
  /-- CALLH (R285): Sends a trap-call request to the control node and parks for the reply. -/
  | callh (d a b : BitVec 7) (p : BitVec 2)
  /-- BRK (R287): Completes and raises the breakpoint trap with a code. -/
  | brk (i : BitVec 9)
  /-- TMARK (R288): Writes a trace mark record. -/
  | tmark (a : BitVec 6) (i : BitVec 9)
  /-- CNTRD (R284): Reads a stall or event counter. -/
  | cntrd (d : BitVec 6) (n : BitVec 5)
  /-- TRAP_HEAT_ENTRY (R474): The trap heat starts at THENTRY 8 cycles after a freeze. -/
  | evTrapHeatEntry (core : Nat)
  /-- WATCHDOG_FAULT (R473): A team issues nothing for its watchdog limit. -/
  | evWatchdogFault (team : Nat)
  /-- BROADCAST_FETCH (R302): A clause fetched for a granted sub-group arrives and is checked. -/
  | evBroadcastFetch (team heat : Nat)
  /-- SLEEP_EXPIRY (R212): A sleeping heat becomes eligible again. -/
  | evSleepExpiry (team heat : Nat)
  /-- LOAD_LANDS (R170): A pending register result is written and its scoreboard slot freed. -/
  | evLoadLands (team heat slot : Nat)
  /-- STORE_ACKNOWLEDGED (R170): A store, reduction or non-returning atomic performs and is acknowledged. -/
  | evStoreAcknowledged (team heat i : Nat)
  /-- REDST_ORD_ARRIVAL (R183): An ordered contribution arrives at the home slice and is applied, held or refused. -/
  | evRedstOrdArrival (i : Nat)
  /-- REDST_ORD_RESEND (R183): A refused ordered contribution is resent after 256 cycles. -/
  | evRedstOrdResend (i : Nat)
  /-- PREDICTOR_NEAR_RETURN (R338): A far-mode entry returns to near after 1,024 quiet cycles. -/
  | evPredictorNearReturn (sector : Nat)
  /-- COPY_ENGINE_ACCEPT (R192): The copy engine takes a command from a heat's q0 and takes ownership of destinations. -/
  | evCopyEngineAccept (core : Nat)
  /-- SCRATCHPAD_LINE_WRITTEN (R328): A copy or restore writes a scratchpad line and its presence bit is set. -/
  | evScratchpadLineWritten (team line : Nat)
  /-- COPY_COMPLETE (R193): A copy's bytes have performed and its completion word is pushed. -/
  | evCopyComplete (id : Nat)
  /-- GATHER_ENGINE_ACCEPT (R195): The gather engine takes a gather or scatter sequence from q2. -/
  | evGatherEngineAccept (core : Nat)
  /-- GATHER_RESULT (R195): Gathered elements are pushed into the results queue. -/
  | evGatherResult (id : Nat)
  /-- SCATTER_COMPLETE (R196): A scatter's writes perform and its completion word is pushed. -/
  | evScatterComplete (id : Nat)
  /-- GATHERING_CLOSE (R203): A BRX.pack gathering closes and the gathered heats are repacked. -/
  | evGatheringClose (team role : Nat)
  /-- BIN_TIMER_EXPIRY (R401): A spawn bin's timer expires. -/
  | evBinTimerExpiry (core bin : Nat)
  /-- BIN_HEAT_LAUNCH (R401): A spawn bin launches its threads as a heat of its team. -/
  | evBinHeatLaunch (core bin : Nat)
  /-- LAUNCH_RECORD_TAKE (R399): The starter moves a team's next launch record into its grid queue. -/
  | evLaunchRecordTake (team : Nat)
  /-- GRID_DEPENDENCE_SATISFIED (R393): A head grid's dependence counter reaches WAITVAL. -/
  | evGridDependenceSatisfied (queue : Nat)
  /-- TEAM_PLACEMENT (R394): Every 16 cycles the starter places one team or cluster. -/
  | evTeamPlacement
  /-- UNIT_START (R391): A placed team or cluster first issues 80 cycles after placement. -/
  | evUnitStart (team : Nat)
  /-- SWAP_THRESHOLD_EXPIRY (R386): A WAITC, CALLH or RSMP park passes the swap threshold. -/
  | evSwapThresholdExpiry (team : Nat)
  /-- SHADOW_WRITEBACK_DONE (R406): The outgoing image is written to the save area and the shadow bank empties. -/
  | evShadowWritebackDone (core : Nat)
  /-- SWAP_IN (R386): A swapped-out team returns once its parks are satisfied. -/
  | evSwapIn (team core : Nat)
  /-- DET_TIME_SLICE (R411): A 50 µs slice expires and logical quartets are rotated. -/
  | evDetTimeSlice (quartet : Nat)
  /-- TEAM_EXIT (R211): A team's last heat and sequencer have ended and its work has completed. -/
  | evTeamExit (team : Nat)
  /-- RESAMPLE_COMPLETION (R432): Copy counts are applied: threads exit, survive or are cloned into bins. -/
  | evResampleCompletion (grid : Nat)
  /-- TEAM_ROLLBACK (R483): A team is undone to its lap start once its accesses complete. -/
  | evTeamRollback (team : Nat)
  /-- DUMP_BEGIN (R466): The journal engine starts writing a dump once in-flight work has settled. -/
  | evDumpBegin (core : Nat)
  /-- DUMP_FINISH (R466): The dump header is written and BUSY clears. -/
  | evDumpFinish (core : Nat)
  /-- ENGINE_GRANT (R273): The matrix engine grants the longest-ready MMA or MMAS. -/
  | evEngineGrant (core : Nat)
  /-- MMA_STEP_START (R273): A granted word starts its next step after 32 cycles. -/
  | evMmaStepStart (team : Nat)
  /-- MMA_COMPLETE (R276): The last step's result reaches the accumulator tile. -/
  | evMmaComplete (team : Nat)
  /-- TILE_LOAD_LANDS (R256): A TLD, TLDT or ACCLD lands in its register or tile. -/
  | evTileLoadLands (team op : Nat)
  /-- ACCUMULATOR_WRITE_PERFORMS (R269): An ACCST or drain element write performs. -/
  | evAccumulatorWritePerforms (team op : Nat)
  /-- DRAIN_ROW_PUSH (R268): A DRAIN pushes a row into q7 when there is room. -/
  | evDrainRowPush (team op : Nat)
  /-- COLL_ACCEPT (R244): A collective engine accepts a COLL command and numbers it in its group. -/
  | evCollAccept (team heat : Nat)
  /-- COLL_MESSAGE_RECEIPT (R459): A collective message is stored once in its tagged place. -/
  | evCollMessageReceipt (group k device : Nat) (words : List (BitVec 64)) (data : List (BitVec 8))
  /-- COLL_RESEND (R459): An unacknowledged collective message is resent after 20 µs. -/
  | evCollResend (group : Nat)
  /-- COLL_JOIN_TIMEOUT (R460): A member does not join within LIMIT. -/
  | evCollJoinTimeout (group : Nat)
  /-- COLL_COMPLETE (R246): A collective's destination performs and its result entry is pushed. -/
  | evCollComplete (group : Nat)
  /-- FABRIC_ACCESS_ARRIVAL (R442): A plain fabric access arrives and is translated or refused at the target. -/
  | evFabricAccessArrival (src offset size : Nat) (isWrite : Bool) (data : List (BitVec 8))
  /-- UPLI_ATOMIC_ARRIVAL (R439): A UPLI atomic from another agent executes once at the home slice. -/
  | evUpliAtomicArrival (src offset op : Nat) (x y : BitVec 64)
  /-- FABRIC_RESPONSE (R444): A response to a plain fabric access reaches the requester. -/
  | evFabricResponse (id reason : Nat) (data : List (BitVec 8))
  /-- FABRIC_RETRY_LATER_RESEND (R444): A request refused for migration is resent after 20 µs. -/
  | evFabricRetryLaterResend (id : Nat)
  /-- FABRIC_ACCESS_TIMEOUT (R444): No response within 340 µs raises the timeout. -/
  | evFabricAccessTimeout (id : Nat)
  /-- RELAY_REQUEST_RECEIPT (R451): An owner handles a relay request against its stream record. -/
  | evRelayRequestReceipt (packet : List (BitVec 8))
  /-- RELAY_RESPONSE_RECEIPT (R454): A requester handles a relay response and completes serials in order. -/
  | evRelayResponseReceipt (packet : List (BitVec 8))
  /-- RELAY_ACKNOWLEDGEMENT_RECEIPT (R452): An owner retires cache entries up to the ack-through. -/
  | evRelayAcknowledgementReceipt (packet : List (BitVec 8))
  /-- RELAY_CLOSE_RECEIPT (R457): An owner deletes a closed stream's record. -/
  | evRelayCloseReceipt (packet : List (BitVec 8))
  /-- RELAY_RETRANSMISSION (R454): An unanswered serial is resent after 20 µs, or times out after 16. -/
  | evRelayRetransmission (asid dev : Nat) (serial : BitVec 32)
  /-- RELAY_RETRY_LATER_RESEND (R454): A serial answered RETRY_LATER is resent after 20 µs. -/
  | evRelayRetryLaterResend (asid dev : Nat) (serial : BitVec 32)
  /-- RELAY_RETRY_LATER_TIMEOUT (R454): A serial receiving only RETRY_LATER for 100 ms times out. -/
  | evRelayRetryLaterTimeout (asid dev : Nat) (serial : BitVec 32)
  /-- RELAY_CLOSE_RESEND (R457): An unanswered close packet is resent every 20 µs. -/
  | evRelayCloseResend (asid dev : Nat)
  /-- RELAY_RESTART (R453): A relay restarts and loses only its held requests. -/
  | evRelayRestart (die : Nat)
  /-- PAGE_WALK_COMPLETE (R491): A page walk ends and held accesses are translated or faulted. -/
  | evPageWalkComplete (asid : Nat) (va : BitVec 72)
  /-- EQUALITY_DIGEST_COMPARE (R512): The primary's and checker's lap digests are compared. -/
  | evEqualityDigestCompare (team : Nat) (h0 h1 : BitVec 64)
  /-- STALL_SAMPLE (R518): A scheduler writes a stall sample every P cycles, or every 256 during a throttle capture. -/
  | evStallSample (core sched : Nat)
  /-- TRACE_DRAIN (R516): The trace network moves buffered records into the trace ring. -/
  | evTraceDrain (src : Nat)
  /-- PACER_MEASUREMENT (R536): Every 10 µs the pacer measures power and temperature and adjusts states. -/
  | evPacerMeasurement (die avg1 avg10 temp : Nat)
  /-- VF_STATE_CHANGE_DONE (R535): A 2 µs voltage-frequency change ends and issue resumes. -/
  | evVfStateChangeDone (die : Nat)
  /-- AGEING_CHECK (R538): Every 60 s the pacer caps or fences quartets by drift. -/
  | evAgeingCheck (quartet drift : Nat)
  /-- PATROL_SCRUB (R532): The controller scrubs a unit and writes back corrections. -/
  | evPatrolScrub (unit outcome : Nat)
  /-- LAUNCH_FRAME_INLINE (R390): The host launches a grid with an inline record. -/
  | evLaunchFrameInline (tag ack : BitVec 32) (payload : List (BitVec 8))
  /-- LAUNCH_FRAME_POINTER (R390): The host launches a grid with a record read by pointer. -/
  | evLaunchFramePointer (tag ack : BitVec 32) (payload : List (BitVec 8))
  /-- HOST_READ (R526): A host read frame is translated and performed as the host agent. -/
  | evHostRead (tag ack : BitVec 32) (scale : Bool) (payload : List (BitVec 8))
  /-- HOST_WRITE (R526): A host write frame performs whole or not at all. -/
  | evHostWrite (tag ack : BitVec 32) (scale : Bool) (payload : List (BitVec 8))
  /-- TRAP_CALL_REPLY (R286): A trap-call reply releases a parked CALLH. -/
  | evTrapCallReply (tag ack : BitVec 32) (payload : List (BitVec 8))
  /-- FRAME_RESEND (R524): Unacknowledged Opina Link frames are resent after 10 µs. -/
  | evFrameResend
  /-- WAVELENGTH_FAILURE (R522): One wavelength fails and frames move to the other. -/
  | evWavelengthFailure
  /-- LINK_DOWN (R522): Both wavelengths are down for over 100 ms. -/
  | evLinkDown
  /-- LINK_RESTORED (R522): Opina Link comes back and event 1 is sent. -/
  | evLinkRestored
  /-- UALINK_PORT_TRAINING (R439): A UALink port trains; fewer than four lanes leaves it down. -/
  | evUalinkPortTraining (port lanes : Nat)
  /-- COLD_RESET (R541): Power-on clears all state except flash and fuses. -/
  | evColdReset
  /-- FORCED_WARM_RESET (R541): A link or power fault forces a warm reset. -/
  | evForcedWarmReset
  /-- CREATE_CONTEXT (R528): Management creates a context with its pinned areas. -/
  | evCreateContext (tag : BitVec 32) (asid root places save lap lapseg log loglen relayc lspill bspill wdog : Nat) (eqchk : Bool)
  /-- REMOVE_CONTEXT (R409): Management requests fatal removal of a context. -/
  | evRemoveContext (tag : BitVec 32) (asid : Nat)
  /-- RELEASE_FROZEN_CONTEXT (R465): Management releases a context halted by HALT. -/
  | evReleaseFrozenContext (tag : BitVec 32) (asid : Nat)
  /-- INVALIDATE_TRANSLATIONS_ASID (R281): Management drops the translations of one identifier. -/
  | evInvalidateTranslationsAsid (tag : BitVec 32) (asid : Nat)
  /-- INVALIDATE_TRANSLATIONS_VA (R281): Management drops the translations of one address. -/
  | evInvalidateTranslationsVa (tag : BitVec 32) (asid : Nat) (va : BitVec 72)
  /-- WRITE_DOMAIN_TABLE_ENTRY (R441): Management writes a domain table entry. -/
  | evWriteDomainTableEntry (tag : BitVec 32) (dev : Nat) (entry : BitVec 128)
  /-- WRITE_EXPORT_TABLE_ENTRY (R442): Management writes an export table entry. -/
  | evWriteExportTableEntry (tag : BitVec 32) (index : Nat) (entry : BitVec 256)
  /-- WRITE_GROUP_TABLE_ENTRY (R458): Management writes a group table entry. -/
  | evWriteGroupTableEntry (tag : BitVec 32) (index : Nat) (entry : BitVec 128)
  /-- WRITE_REMAP_TABLE (R411): Management writes the deterministic remap table. -/
  | evWriteRemapTable (tag : BitVec 32) (quartets : List Nat)
  /-- SET_THENTRY (R475): Management sets a core's trap handler entry. -/
  | evSetThentry (tag : BitVec 32) (core : Nat) (entry : BitVec 64)
  /-- TRACE_SETUP (R516): Management sets the trace ring, read pointer, kinds and sampling period. -/
  | evTraceSetup (tag : BitVec 32) (base len read kinds k : Nat)
  /-- EVENT_COUNTER_SELECT (R520): Management selects an event counter's source. -/
  | evEventCounterSelect (tag : BitVec 32) (core i source : Nat)
  /-- EVENT_COUNTER_ZERO (R520): Management zeroes an event counter. -/
  | evEventCounterZero (tag : BitVec 32) (core i : Nat)
  /-- READ_BLACK_BOX (R521): Management reads the black box entries. -/
  | evReadBlackBox (tag : BitVec 32)
  /-- SET_GTC (R513): Management sets GTC at cold reset. -/
  | evSetGtc (tag : BitVec 32) (value : BitVec 64)
  /-- SET_POWER_LIMIT (R536): Management sets the module power limit. -/
  | evSetPowerLimit (tag : BitVec 32) (watts : Nat)
  /-- COPY_FRAME (R534): The controller copies a frame for retirement and reports the counts. -/
  | evCopyFrame (tag : BitVec 32) (old new : Nat)
  /-- SET_SCALE_METADATA_MODE (R531): Management sets a frame's scale-metadata mode. -/
  | evSetScaleMetadataMode (tag : BitVec 32) (frame layout : Nat)
  /-- ATTEST (R540): The device returns a signed attestation report for a nonce. -/
  | evAttest (tag : BitVec 32) (nonce : List (BitVec 8))
  /-- FIRMWARE_UPDATE (R539): A new firmware image is written to flash. -/
  | evFirmwareUpdate (tag : BitVec 32) (stage : Nat) (image : List (BitVec 8))
  /-- WARM_RESET (R541): Management requests a warm reset. -/
  | evWarmReset (tag : BitVec 32)
  /-- STOP (R500): A debugger stops a team and captures the stop image. -/
  | evStop (tag : BitVec 32) (team : Nat)
  /-- RUN (R499): A debugger resumes a stopped team. -/
  | evRun (tag : BitVec 32) (team : Nat)
  /-- RUNTO (R501): A debugger runs or replays a team to a point. -/
  | evRunto (tag : BitVec 32) (team lap heat stride : Nat)
  /-- RUNTO_POINT_REACHED (R501): The named heat reaches the point and the team stops. -/
  | evRuntoPointReached (team : Nat)
  /-- STEP (R507): A debugger issues one word of a stopped heat. -/
  | evStep (tag : BitVec 32) (team heat : Nat)
  /-- QSTEP (R508): A debugger issues one word for chosen quads. -/
  | evQstep (tag : BitVec 32) (team heat : Nat) (quads : BitVec 8)
  /-- READ (R499): A debugger reads state of a stopped team. -/
  | evRead (tag : BitVec 32) (team : Nat) (sel : BitVec 64) (reg : BitVec 16)
  /-- WRITE (R476): A debugger writes state of a stopped team. -/
  | evWrite (tag : BitVec 32) (team : Nat) (sel : BitVec 64) (reg : BitVec 16) (value : BitVec 64)
  /-- RETURN (R505): A debugger restores the stop image. -/
  | evReturn (tag : BitVec 32) (team : Nat)
  /-- ARITHMETIC_CYCLE (R405): Each arithmetic-clock cycle every scheduler picks its word or charges exactly one stall counter, and the core cycle count advances. -/
  | evArithmeticCycle (core : Nat)
  /-- GTC_TICK (R61): The global timestamp GTC advances by one 1 GHz tick, kept in step across dies and the domain. -/
  | evGtcTick
  /-- ZACC_COMPLETE (R267): A ZACC finishes zeroing its tiles, 16 cycles per tile after issue. -/
  | evZaccComplete (team op : Nat)
  /-- ACCUMULATOR_TILE_RESTORE (R407): The journal engine finishes restoring an accumulator tile of a restored team, releasing a sequencer word that waits for it. -/
  | evAccumulatorTileRestore (team tile : Nat)
  /-- WAVELENGTH_RESTORED (R522): A failed Opina Link wavelength returns and frames are again striped across both wavelengths. -/
  | evWavelengthRestored
  /-- OPINA_FRAME_DROP (R524): A received frame with a bad CRC, a nonzero reserved bit, an out-of-order SEQ or an unlisted TYPE is dropped and counted in the link error counter. -/
  | evOpinaFrameDrop (frame : List (BitVec 8))
  /-- DEBUGGER_ATTACH (R499): A debugger attaches to a context through management frames, after which BRK in that context stops the team instead of freezing the core. -/
  | evDebuggerAttach (tag : BitVec 32) (asid : Nat)
  deriving DecidableEq, Repr

end Sys2Proof
end

