-- ==== Sys2Proof/WellFormed.lean ====
section
/-! DEFINITION. The conditions on an instruction word that its bit layout alone does not express
(R27, R28 and the instruction descriptions): a word that breaks one raises the
illegal-instruction trap. -/

namespace Sys2Proof

/-- Elements a format packs into a 32-bit word (R151), by SRC code. -/
def elemsOf (s : BitVec 3) : Nat :=
  match s.toNat with
  | 0 => 1
  | 1 => 2
  | 2 => 4
  | 3 => 4
  | 4 => 8
  | _ => 1

/-- VCVT source (R151): SRC is not 7 and the element index is below the packing. -/
abbrev vcvtOk (s e : BitVec 3) : Prop := s ≠ 7#3 ∧ e.toNat < elemsOf s

/-- VQNT and VDQNT registers (R141, R155): both ranges stay within v127 and the scale register
lies in neither. -/
abbrev quantOk (float packed b n : Nat) : Prop :=
  float + 32 ≤ 128 ∧ packed + n ≤ 128 ∧ ¬ (float ≤ b ∧ b < float + 32) ∧
    ¬ (packed ≤ b ∧ b < packed + n)

/-- A cluster hurdle number is below 64 (R216). -/
abbrev hurdleOk (c : BitVec 1) (h : BitVec 8) : Prop := c = 1#1 → h.toNat < 64

/-- The words of R224 and R253 do not name team hurdle h0. -/
abbrev notBarrier (c : BitVec 1) (h : BitVec 8) : Prop := ¬ (c = 0#1 ∧ h = 0#8)

/-- Lane-scope system registers (R56). -/
def sysLane (n : Nat) : Bool := n == 0x00 || n == 0x30 || n == 0x31 || n == 0x32

/-- The assigned system register numbers below 0x1000 (R56). -/
def sysLow (n : Nat) : Bool :=
  n ≤ 7 || n == 0x10 || n == 0x11 || (0x20 ≤ n && n ≤ 0x22) || (0x30 ≤ n && n ≤ 0x32) ||
    n == 0x40 || n == 0x41 || (0x50 ≤ n && n ≤ 0x52) || n == 0x60

/-- The assigned trap-heat register numbers (R464, R475). -/
def sysTrap (n : Nat) : Bool :=
  (0x1000 ≤ n && n ≤ 0x100E) || n == 0x1010 || (0x1020 ≤ n && n ≤ 0x1025) || n == 0x1030 ||
    (0x1040 ≤ n && n ≤ 0x1042) || (0x1060 ≤ n && n ≤ 0x109F) || (0x1100 ≤ n && n ≤ 0x117F) ||
    (0x1180 ≤ n && n ≤ 0x11BF) || (0x11C0 ≤ n && n ≤ 0x11DF) || (0x11F0 ≤ n && n ≤ 0x11FF)

/-- A system register number that is assigned (R56, R475), with a D field of the class the
register calls for (R57, R279): LANEID, LINEAGE, POPIDX and CVCNT go to vector registers, the
64-bit ones to an even pair; every other to a scalar. -/
abbrev sysOk (d : BitVec 7) (s : BitVec 16) : Prop :=
  (sysLow s.toNat || sysTrap s.toNat) = true ∧
    (if sysLane s.toNat then s.toNat = 0 ∨ d.toNat % 2 = 0 else d.toNat < 64)

/-- System registers whose SWR has a row of its own in the table. -/
def swrHasRow (s : BitVec 16) : Bool :=
  let n := s.toNat
  (0x20 ≤ n && n ≤ 0x22) || n == 0x51 || n == 0x52 || n == 0x1041 || n == 0x1030 ||
    n == 0x1021 || n == 0x1022 || n == 0x1024 || (0x1100 ≤ n && n ≤ 0x117F) ||
    (0x1180 ≤ n && n ≤ 0x11BF) || (0x11C0 ≤ n && n ≤ 0x11DF) || (0x11F0 ≤ n && n ≤ 0x11FF)

/-- The word-only conditions of every instruction (R28). -/
def Instr.wellFormed : Instr → Bool
  | .asplit d _ b => decide (d ≠ b)
  | .vcvtF32Rn _ _ e s => decide (vcvtOk s e)
  | .vcvtF32Rz _ _ e s => decide (vcvtOk s e)
  | .vcvtF32Sr _ _ e s => decide (vcvtOk s e)
  | .vcvtBf16Rn _ _ _ e s => decide (vcvtOk s e)
  | .vcvtBf16Rz _ _ _ e s => decide (vcvtOk s e)
  | .vcvtBf16Sr _ _ _ e s => decide (vcvtOk s e)
  | .vcvtE4m3Rn _ _ _ e s => decide (vcvtOk s e)
  | .vcvtE4m3Rz _ _ _ e s => decide (vcvtOk s e)
  | .vcvtE4m3Sr _ _ _ e s => decide (vcvtOk s e)
  | .vcvtE5m2Rn _ _ _ e s => decide (vcvtOk s e)
  | .vcvtE5m2Rz _ _ _ e s => decide (vcvtOk s e)
  | .vcvtE5m2Sr _ _ _ e s => decide (vcvtOk s e)
  | .vcvtE2m1Rn _ _ _ e s => decide (vcvtOk s e)
  | .vcvtE2m1Rz _ _ _ e s => decide (vcvtOk s e)
  | .vcvtE2m1Sr _ _ _ e s => decide (vcvtOk s e)
  | .vcvtS32Rn _ _ e s => decide (vcvtOk s e)
  | .vcvtS32Rz _ _ e s => decide (vcvtOk s e)
  | .vcvtS32Sr _ _ e s => decide (vcvtOk s e)
  | .vcvtN32Rn _ _ e s => decide (vcvtOk s e)
  | .vcvtN32Rz _ _ e s => decide (vcvtOk s e)
  | .vcvtN32Sr _ _ e s => decide (vcvtOk s e)
  | .vqntE4m3E8m0 d a b _ => decide (quantOk a.toNat d.toNat b.toNat 8)
  | .vqntE4m3S32scale d a b _ => decide (quantOk a.toNat d.toNat b.toNat 8)
  | .vqntE5m2E8m0 d a b _ => decide (quantOk a.toNat d.toNat b.toNat 8)
  | .vqntE5m2S32scale d a b _ => decide (quantOk a.toNat d.toNat b.toNat 8)
  | .vqntE2m1E8m0 d a b _ => decide (quantOk a.toNat d.toNat b.toNat 4)
  | .vqntE2m1S32scale d a b _ => decide (quantOk a.toNat d.toNat b.toNat 4)
  | .vdqntE4m3E8m0 d a b _ => decide (quantOk d.toNat a.toNat b.toNat 8)
  | .vdqntE4m3S32scale d a b _ => decide (quantOk d.toNat a.toNat b.toNat 8)
  | .vdqntE5m2E8m0 d a b _ => decide (quantOk d.toNat a.toNat b.toNat 8)
  | .vdqntE5m2S32scale d a b _ => decide (quantOk d.toNat a.toNat b.toNat 8)
  | .vdqntE2m1E8m0 d a b _ => decide (quantOk d.toNat a.toNat b.toNat 4)
  | .vdqntE2m1S32scale d a b _ => decide (quantOk d.toNat a.toNat b.toNat 4)
  | .pref n _ _ _ => decide (n.toNat ≤ 2)
  | .cpy q _ => decide (q.toNat ≤ 1 ∨ 8 ≤ q.toNat)
  | .cpytRow q _ => decide (q.toNat ≤ 1 ∨ 8 ≤ q.toNat)
  | .cpytCol q _ => decide (q.toNat ≤ 1 ∨ 8 ≤ q.toNat)
  | .cpym q _ => decide (q.toNat ≤ 1 ∨ 8 ≤ q.toNat)
  | .gthB32 q _ _ => decide (q.toNat = 3 ∨ 8 ≤ q.toNat)
  | .gthB64 q _ _ => decide (q.toNat = 3 ∨ 8 ≤ q.toNat)
  | .gthB128 q _ _ => decide (q.toNat = 3 ∨ 8 ≤ q.toNat)
  | .sctB32 q _ _ _ => decide (q.toNat = 0 ∨ q.toNat = 3 ∨ 8 ≤ q.toNat)
  | .sctB64 q _ _ _ => decide (q.toNat = 0 ∨ q.toNat = 3 ∨ 8 ≤ q.toNat)
  | .sctB128 q _ _ _ => decide (q.toNat = 0 ∨ q.toNat = 3 ∨ 8 ≤ q.toNat)
  | .loop _ i => decide (i ≠ 0#9)
  | .hregS c h => decide (hurdleOk c h ∧ notBarrier c h)
  | .hregW c h => decide (hurdleOk c h ∧ notBarrier c h)
  | .hregSw c h => decide (hurdleOk c h ∧ notBarrier c h)
  | .hdrop c h => decide (hurdleOk c h ∧ notBarrier c h)
  | .harr c h => decide (hurdleOk c h)
  | .harrCp c h => decide (hurdleOk c h)
  | .hwait c h => decide (hurdleOk c h)
  | .harrw c h => decide (hurdleOk c h)
  | .htest _ c h => decide (hurdleOk c h)
  | .spawn _ _ b _ => decide (b.toNat ≤ 8)
  | .coll q _ => decide (q.toNat = 5 ∨ 8 ≤ q.toNat)
  | .tldt _ _ m => decide (m.toNat / 2 ≠ 3)
  | .mmaE4m3E4m3 t k _ _ _ m => decide (t.toNat + m.toNat ≤ 15 ∧ (k = 1#1 → m = 0#3))
  | .mmaE4m3E5m2 t k _ _ _ m => decide (t.toNat + m.toNat ≤ 15 ∧ (k = 1#1 → m = 0#3))
  | .mmaE5m2E4m3 t k _ _ _ m => decide (t.toNat + m.toNat ≤ 15 ∧ (k = 1#1 → m = 0#3))
  | .mmaE5m2E5m2 t k _ _ _ m => decide (t.toNat + m.toNat ≤ 15 ∧ (k = 1#1 → m = 0#3))
  | .mmaE2m1E2m1 t k _ _ _ m => decide (t.toNat + m.toNat ≤ 15 ∧ (k = 1#1 → m = 0#3))
  | .mmaE4m3E2m1 t k _ _ _ m => decide (t.toNat + m.toNat ≤ 15 ∧ (k = 1#1 → m = 0#3))
  | .mmaBf16Bf16 t k _ _ _ m => decide (t.toNat + m.toNat ≤ 15 ∧ (k = 1#1 → m = 0#3))
  | .mmasE4m3E4m3 _ _ _ _ b _ => decide (b ≠ 15#4)
  | .mmasE5m2E5m2 _ _ _ _ b _ => decide (b ≠ 15#4)
  | .mmasE2m1E2m1 _ _ _ _ b _ => decide (b ≠ 15#4)
  | .drainAxpy _ b _ => decide (b ≠ 15#4)
  | .drainRed _ b => decide (b ≠ 15#4)
  | .mharr c h => decide (hurdleOk c h ∧ notBarrier c h)
  | .mharrRegister c h => decide (hurdleOk c h ∧ notBarrier c h)
  | .mharrDrop c h => decide (hurdleOk c h ∧ notBarrier c h)
  | .mhwait c h => decide (hurdleOk c h ∧ notBarrier c h)
  | .mhwaitRegister c h => decide (hurdleOk c h ∧ notBarrier c h)
  | .srd d s => decide (sysOk d s)
  | .swr d s => decide (sysOk d s ∧ ¬ swrHasRow s)
  | .callh _ a b _ => decide (1 ≤ b.toNat ∧ b.toNat ≤ 8 ∧ a.toNat + b.toNat ≤ 128)
  | .sadd .. | .ssub .. | .smul .. | .smulhS64 .. | .smulhN64 .. | .sand ..
  | .sor .. | .sxor .. | .sshl .. | .sshr .. | .ssra .. | .sminS64 ..
  | .sminN64 .. | .smaxS64 .. | .smaxN64 .. | .ssel .. | .saddImm .. | .ssubImm ..
  | .smulImm .. | .sandImm .. | .sorImm .. | .sxorImm .. | .sshlImm .. | .sshrImm ..
  | .ssraImm .. | .sminS64Imm .. | .smaxS64Imm .. | .scmpEq .. | .scmpNe .. | .scmpLtS64 ..
  | .scmpLeS64 .. | .scmpLtN64 .. | .scmpLeN64 .. | .smov .. | .smovi .. | .sluiH1 ..
  | .sluiH2 .. | .sluiH3 .. | .sclz .. | .spopc .. | .aadd .. | .aaddImm ..
  | .amovA .. | .amovS .. | .aldiH0 .. | .aldiH1 .. | .aldiH2 .. | .aldiH3 ..
  | .aldiH4 .. | .acmp .. | .vadd .. | .vsub .. | .vmul .. | .vmulhS32 ..
  | .vmulhN32 .. | .vmad .. | .vand .. | .vor .. | .vxor .. | .vshl ..
  | .vshr .. | .vsra .. | .vminS32 .. | .vminN32 .. | .vmaxS32 .. | .vmaxN32 ..
  | .vaddSatS32 .. | .vsubSatS32 .. | .vaddSatN32 .. | .vsubSatN32 .. | .vaddN64 .. | .vsubN64 ..
  | .vmulN64 .. | .vshlB64 .. | .vshrB64 .. | .vsraS64 .. | .vabsS32 .. | .vclz ..
  | .vpopc .. | .vmov .. | .vmovScalar .. | .vsel .. | .vaddImm .. | .vandImm ..
  | .vorImm .. | .vxorImm .. | .vshlImm .. | .vshrImm .. | .vsraImm .. | .vmulImm ..
  | .vminS32Imm .. | .vmaxS32Imm .. | .vbfeS32 .. | .vbfeN32 .. | .vbfi .. | .vmovi ..
  | .vmoviHi .. | .vcmpEq .. | .vcmpNe .. | .vcmpLtS32 .. | .vcmpLeS32 .. | .vcmpLtN32 ..
  | .vcmpLeN32 .. | .vdp4S8 .. | .vdp4N8 .. | .vdp2S16 .. | .vfadd .. | .vfsub ..
  | .vfmul .. | .vfma .. | .vfmin .. | .vfmax .. | .vfscl .. | .vfaddRz ..
  | .vfmulRz .. | .vfmaRz .. | .vfcmpEq .. | .vfcmpNe .. | .vfcmpLt .. | .vfcmpLe ..
  | .vfcmpUn .. | .vfrcp .. | .vfrsq .. | .vfexp2 .. | .vflog2 .. | .vftanh ..
  | .vfclass .. | .vhadd .. | .vhmul .. | .vhfma .. | .vhsub .. | .vhmin ..
  | .vhmax .. | .vpackB8 .. | .vpackB16 .. | .vunpkB4 .. | .vunpkB4Sx .. | .vunpkB8 ..
  | .vunpkB8Sx .. | .vunpkB16 .. | .vunpkB16Sx .. | .vfrndRn .. | .vfrndRz .. | .vfrndRm ..
  | .vfrndRp .. | .qswpH .. | .qswpV .. | .qswpD .. | .qbcast .. | .vshflIdx ..
  | .vshflUp .. | .vshflDown .. | .vshflXor .. | .vredAddS32 .. | .vredAddF32 .. | .vredMinS32 ..
  | .vredMaxS32 .. | .vredMinF32 .. | .vredMaxF32 .. | .vredAndB32 .. | .vredOrB32 .. | .vredXorB32 ..
  | .vscanAddS32 .. | .vscanAddF32 .. | .vscanMinS32 .. | .vscanMaxS32 .. | .vscanOrB32 .. | .vballot ..
  | .vvoteAll .. | .vvoteAny .. | .vvoteUni .. | .kand .. | .kor .. | .kxor ..
  | .knot .. | .kmov .. | .kmovV2k .. | .kmovK2v .. | .kpopc .. | .vldB8 ..
  | .vldB16 .. | .vldB32 .. | .vldB64 .. | .vldB128 .. | .vstB8 .. | .vstB16 ..
  | .vstB32 .. | .vstB64 .. | .vstB128 .. | .vldsB32 .. | .vldsB64 .. | .vldsB128 ..
  | .vstsB32 .. | .vstsB64 .. | .vstsB128 .. | .sld .. | .sst .. | .tldg ..
  | .atomAddB32 .. | .atomMinS32 .. | .atomMaxS32 .. | .atomAndB32 .. | .atomOrB32 .. | .atomXorB32 ..
  | .atomExchB32 .. | .atomCasB32 .. | .atomAddB64 .. | .atomExchB64 .. | .atomCasB64 .. | .atomAddF32 ..
  | .redAddB32 .. | .redMinS32 .. | .redMaxS32 .. | .redOrB32 .. | .redAddB64 .. | .redAddF32 ..
  | .redAddBf16 .. | .atomsAddB32 .. | .atomsAddB32NonReturning .. | .atomsMinS32 .. | .atomsMinS32NonReturning .. | .atomsMaxS32 ..
  | .atomsMaxS32NonReturning .. | .atomsExchB32 .. | .atomsExchB32NonReturning .. | .atomsCasB32 .. | .atomsCasB32NonReturning .. | .atomsAddF32 ..
  | .atomsAddF32NonReturning .. | .redstAnyF32 .. | .redstOrdF32 .. | .redstAnyB32 .. | .qpushB32 .. | .qpushB64 ..
  | .qpopB32 .. | .qpopB64 .. | .qpeekB32 .. | .qpeekB64 .. | .qlen .. | .bra ..
  | .brc .. | .brx .. | .brxPack .. | .call .. | .ret .. | .jmpi ..
  | .exit .. | .nop | .yield | .sleep .. | .commit | .fence
  | .fenceR | .launch .. | .waitc .. | .rsmp .. | .rsmpU .. | .ratomAdd ..
  | .ratomMax .. | .ratomCas .. | .ratomExch .. | .rredAddB64 .. | .rredAddF32 .. | .rharr ..
  | .rlaunch .. | .rack | .tld .. | .zacc .. | .accld .. | .accst ..
  | .drain .. | .setsp .. | .swrd .. | .mloop .. | .mbr .. | .madd ..
  | .mmov .. | .mmovI .. | .mend | .swrPoolrb .. | .swrPoolsb .. | .swrPoolcb ..
  | .swrTdbase .. | .swrTdcnt .. | .swrDumpc .. | .swrTaction .. | .swrCposh .. | .swrCposi ..
  | .swrCpred .. | .swrXv .. | .swrXs .. | .swrXa .. | .swrXah .. | .swrXm ..
  | .eret | .tlbiAll | .tlbiAsid .. | .tlbiVa .. | .halt .. | .clkrd ..
  | .brk .. | .tmark .. | .cntrd .. | .evTrapHeatEntry .. | .evWatchdogFault .. | .evBroadcastFetch ..
  | .evSleepExpiry .. | .evLoadLands .. | .evStoreAcknowledged .. | .evRedstOrdArrival .. | .evRedstOrdResend .. | .evPredictorNearReturn ..
  | .evCopyEngineAccept .. | .evScratchpadLineWritten .. | .evCopyComplete .. | .evGatherEngineAccept .. | .evGatherResult .. | .evScatterComplete ..
  | .evGatheringClose .. | .evBinTimerExpiry .. | .evBinHeatLaunch .. | .evLaunchRecordTake .. | .evGridDependenceSatisfied .. | .evTeamPlacement
  | .evUnitStart .. | .evSwapThresholdExpiry .. | .evShadowWritebackDone .. | .evSwapIn .. | .evDetTimeSlice .. | .evTeamExit ..
  | .evResampleCompletion .. | .evTeamRollback .. | .evDumpBegin .. | .evDumpFinish .. | .evEngineGrant .. | .evMmaStepStart ..
  | .evMmaComplete .. | .evTileLoadLands .. | .evAccumulatorWritePerforms .. | .evDrainRowPush .. | .evCollAccept .. | .evCollMessageReceipt ..
  | .evCollResend .. | .evCollJoinTimeout .. | .evCollComplete .. | .evFabricAccessArrival .. | .evUpliAtomicArrival .. | .evFabricResponse ..
  | .evFabricRetryLaterResend .. | .evFabricAccessTimeout .. | .evRelayRequestReceipt .. | .evRelayResponseReceipt .. | .evRelayAcknowledgementReceipt .. | .evRelayCloseReceipt ..
  | .evRelayRetransmission .. | .evRelayRetryLaterResend .. | .evRelayRetryLaterTimeout .. | .evRelayCloseResend .. | .evRelayRestart .. | .evPageWalkComplete ..
  | .evEqualityDigestCompare .. | .evStallSample .. | .evTraceDrain .. | .evPacerMeasurement .. | .evVfStateChangeDone .. | .evAgeingCheck ..
  | .evPatrolScrub .. | .evLaunchFrameInline .. | .evLaunchFramePointer .. | .evHostRead .. | .evHostWrite .. | .evTrapCallReply ..
  | .evFrameResend | .evWavelengthFailure | .evLinkDown | .evLinkRestored | .evUalinkPortTraining .. | .evColdReset
  | .evForcedWarmReset | .evCreateContext .. | .evRemoveContext .. | .evReleaseFrozenContext .. | .evInvalidateTranslationsAsid .. | .evInvalidateTranslationsVa ..
  | .evWriteDomainTableEntry .. | .evWriteExportTableEntry .. | .evWriteGroupTableEntry .. | .evWriteRemapTable .. | .evSetThentry .. | .evTraceSetup ..
  | .evEventCounterSelect .. | .evEventCounterZero .. | .evReadBlackBox .. | .evSetGtc .. | .evSetPowerLimit .. | .evCopyFrame ..
  | .evSetScaleMetadataMode .. | .evAttest .. | .evFirmwareUpdate .. | .evWarmReset .. | .evStop .. | .evRun ..
  | .evRunto .. | .evRuntoPointReached .. | .evStep .. | .evQstep .. | .evRead .. | .evWrite ..
  | .evReturn .. | .evArithmeticCycle .. | .evGtcTick | .evZaccComplete .. | .evAccumulatorTileRestore .. | .evWavelengthRestored
  | .evOpinaFrameDrop .. | .evDebuggerAttach .. => true

end Sys2Proof
end

