-- ==== Sys2Proof/Decode.lean ====
section
/-! DEFINITION. The decoder of instruction words (R26–R28 and the encodings of each
instruction) and the encoder. Bits are taken from the word as a number; bit 0 is the least
significant bit. The definitions are noncomputable only for Lean's code generator, which
cannot build values of an inductive with more than 244 constructors; the kernel evaluates
them. -/

namespace Sys2Proof

noncomputable section

/-- Why a word is not an instruction; each raises the illegal-instruction trap (R28). -/
inductive Reject where
  /-- The opcode is not assigned. -/
  | unassigned (op : Nat)
  /-- A field that must be zero is not, or a register field is outside its class. -/
  | badField (op : Nat)
  /-- A combination of fields that the instruction's description forbids. -/
  | illFormed (op : Nat)
  deriving DecidableEq, Repr

/-- The `w` bits of `n` from bit `lo` up. -/
def bits (lo w n : Nat) : Nat := n / 2 ^ lo % 2 ^ w

/-- The field of width `w` at bit `lo` as a bit vector. -/
def bfld (w lo n : Nat) : BitVec w := BitVec.ofNat w (n / 2 ^ lo)

/-- Opcodes 0x000 to 0x00f. -/
def decodeGroup0 (op n : Nat) : Except Reject Instr :=
  if op = 0x001 then
    if bits 22 1 n = 0 ∧ bits 15 1 n = 0 ∧ bits 8 1 n = 0 ∧ bits 0 2 n = 0 then .ok (.sadd (bfld 6 16 n) (bfld 6 9 n) (bfld 6 2 n)) else
    .error (.badField op)
  else
  if op = 0x002 then
    if bits 22 1 n = 0 ∧ bits 15 1 n = 0 ∧ bits 8 1 n = 0 ∧ bits 0 2 n = 0 then .ok (.ssub (bfld 6 16 n) (bfld 6 9 n) (bfld 6 2 n)) else
    .error (.badField op)
  else
  if op = 0x003 then
    if bits 22 1 n = 0 ∧ bits 15 1 n = 0 ∧ bits 8 1 n = 0 ∧ bits 0 2 n = 0 then .ok (.smul (bfld 6 16 n) (bfld 6 9 n) (bfld 6 2 n)) else
    .error (.badField op)
  else
  if op = 0x004 then
    if bits 22 1 n = 0 ∧ bits 15 1 n = 0 ∧ bits 8 1 n = 0 ∧ bits 0 2 n = 0 then .ok (.smulhS64 (bfld 6 16 n) (bfld 6 9 n) (bfld 6 2 n)) else
    .error (.badField op)
  else
  if op = 0x005 then
    if bits 22 1 n = 0 ∧ bits 15 1 n = 0 ∧ bits 8 1 n = 0 ∧ bits 0 2 n = 0 then .ok (.smulhN64 (bfld 6 16 n) (bfld 6 9 n) (bfld 6 2 n)) else
    .error (.badField op)
  else
  if op = 0x006 then
    if bits 22 1 n = 0 ∧ bits 15 1 n = 0 ∧ bits 8 1 n = 0 ∧ bits 0 2 n = 0 then .ok (.sand (bfld 6 16 n) (bfld 6 9 n) (bfld 6 2 n)) else
    .error (.badField op)
  else
  if op = 0x007 then
    if bits 22 1 n = 0 ∧ bits 15 1 n = 0 ∧ bits 8 1 n = 0 ∧ bits 0 2 n = 0 then .ok (.sor (bfld 6 16 n) (bfld 6 9 n) (bfld 6 2 n)) else
    .error (.badField op)
  else
  if op = 0x008 then
    if bits 22 1 n = 0 ∧ bits 15 1 n = 0 ∧ bits 8 1 n = 0 ∧ bits 0 2 n = 0 then .ok (.sxor (bfld 6 16 n) (bfld 6 9 n) (bfld 6 2 n)) else
    .error (.badField op)
  else
  if op = 0x009 then
    if bits 22 1 n = 0 ∧ bits 15 1 n = 0 ∧ bits 8 1 n = 0 ∧ bits 0 2 n = 0 then .ok (.sshl (bfld 6 16 n) (bfld 6 9 n) (bfld 6 2 n)) else
    .error (.badField op)
  else
  if op = 0x00a then
    if bits 22 1 n = 0 ∧ bits 15 1 n = 0 ∧ bits 8 1 n = 0 ∧ bits 0 2 n = 0 then .ok (.sshr (bfld 6 16 n) (bfld 6 9 n) (bfld 6 2 n)) else
    .error (.badField op)
  else
  if op = 0x00b then
    if bits 22 1 n = 0 ∧ bits 15 1 n = 0 ∧ bits 8 1 n = 0 ∧ bits 0 2 n = 0 then .ok (.ssra (bfld 6 16 n) (bfld 6 9 n) (bfld 6 2 n)) else
    .error (.badField op)
  else
  if op = 0x00c then
    if bits 22 1 n = 0 ∧ bits 15 1 n = 0 ∧ bits 8 1 n = 0 ∧ bits 0 2 n = 0 then .ok (.sminS64 (bfld 6 16 n) (bfld 6 9 n) (bfld 6 2 n)) else
    .error (.badField op)
  else
  if op = 0x00d then
    if bits 22 1 n = 0 ∧ bits 15 1 n = 0 ∧ bits 8 1 n = 0 ∧ bits 0 2 n = 0 then .ok (.sminN64 (bfld 6 16 n) (bfld 6 9 n) (bfld 6 2 n)) else
    .error (.badField op)
  else
  if op = 0x00e then
    if bits 22 1 n = 0 ∧ bits 15 1 n = 0 ∧ bits 8 1 n = 0 ∧ bits 0 2 n = 0 then .ok (.smaxS64 (bfld 6 16 n) (bfld 6 9 n) (bfld 6 2 n)) else
    .error (.badField op)
  else
  if op = 0x00f then
    if bits 22 1 n = 0 ∧ bits 15 1 n = 0 ∧ bits 8 1 n = 0 ∧ bits 0 2 n = 0 then .ok (.smaxN64 (bfld 6 16 n) (bfld 6 9 n) (bfld 6 2 n)) else
    .error (.badField op)
  else
  .error (.unassigned op)

/-- Opcodes 0x010 to 0x01f. -/
def decodeGroup1 (op n : Nat) : Except Reject Instr :=
  if op = 0x010 then
    if bits 22 1 n = 0 ∧ bits 15 1 n = 0 ∧ bits 8 1 n = 0 ∧ bits 0 2 n = 0 then .ok (.ssel (bfld 6 16 n) (bfld 6 9 n) (bfld 6 2 n)) else
    .error (.badField op)
  else
  if op = 0x011 then
    if bits 22 1 n = 0 ∧ bits 15 1 n = 0 then .ok (.saddImm (bfld 6 16 n) (bfld 6 9 n) (bfld 9 0 n)) else
    .error (.badField op)
  else
  if op = 0x012 then
    if bits 22 1 n = 0 ∧ bits 15 1 n = 0 then .ok (.ssubImm (bfld 6 16 n) (bfld 6 9 n) (bfld 9 0 n)) else
    .error (.badField op)
  else
  if op = 0x013 then
    if bits 22 1 n = 0 ∧ bits 15 1 n = 0 then .ok (.smulImm (bfld 6 16 n) (bfld 6 9 n) (bfld 9 0 n)) else
    .error (.badField op)
  else
  if op = 0x014 then
    if bits 22 1 n = 0 ∧ bits 15 1 n = 0 then .ok (.sandImm (bfld 6 16 n) (bfld 6 9 n) (bfld 9 0 n)) else
    .error (.badField op)
  else
  if op = 0x015 then
    if bits 22 1 n = 0 ∧ bits 15 1 n = 0 then .ok (.sorImm (bfld 6 16 n) (bfld 6 9 n) (bfld 9 0 n)) else
    .error (.badField op)
  else
  if op = 0x016 then
    if bits 22 1 n = 0 ∧ bits 15 1 n = 0 then .ok (.sxorImm (bfld 6 16 n) (bfld 6 9 n) (bfld 9 0 n)) else
    .error (.badField op)
  else
  if op = 0x017 then
    if bits 22 1 n = 0 ∧ bits 15 1 n = 0 ∧ bits 6 3 n = 0 then .ok (.sshlImm (bfld 6 16 n) (bfld 6 9 n) (bfld 6 0 n)) else
    .error (.badField op)
  else
  if op = 0x018 then
    if bits 22 1 n = 0 ∧ bits 15 1 n = 0 ∧ bits 6 3 n = 0 then .ok (.sshrImm (bfld 6 16 n) (bfld 6 9 n) (bfld 6 0 n)) else
    .error (.badField op)
  else
  if op = 0x019 then
    if bits 22 1 n = 0 ∧ bits 15 1 n = 0 ∧ bits 6 3 n = 0 then .ok (.ssraImm (bfld 6 16 n) (bfld 6 9 n) (bfld 6 0 n)) else
    .error (.badField op)
  else
  if op = 0x01a then
    if bits 22 1 n = 0 ∧ bits 15 1 n = 0 then .ok (.sminS64Imm (bfld 6 16 n) (bfld 6 9 n) (bfld 9 0 n)) else
    .error (.badField op)
  else
  if op = 0x01b then
    if bits 22 1 n = 0 ∧ bits 15 1 n = 0 then .ok (.smaxS64Imm (bfld 6 16 n) (bfld 6 9 n) (bfld 9 0 n)) else
    .error (.badField op)
  else
  if op = 0x01c then
    if bits 22 1 n = 0 ∧ bits 15 1 n = 0 ∧ bits 8 1 n = 0 ∧ bits 0 2 n = 0 then .ok (.scmpEq (bfld 6 16 n) (bfld 6 9 n) (bfld 6 2 n)) else
    .error (.badField op)
  else
  if op = 0x01d then
    if bits 22 1 n = 0 ∧ bits 15 1 n = 0 ∧ bits 8 1 n = 0 ∧ bits 0 2 n = 0 then .ok (.scmpNe (bfld 6 16 n) (bfld 6 9 n) (bfld 6 2 n)) else
    .error (.badField op)
  else
  if op = 0x01e then
    if bits 22 1 n = 0 ∧ bits 15 1 n = 0 ∧ bits 8 1 n = 0 ∧ bits 0 2 n = 0 then .ok (.scmpLtS64 (bfld 6 16 n) (bfld 6 9 n) (bfld 6 2 n)) else
    .error (.badField op)
  else
  if op = 0x01f then
    if bits 22 1 n = 0 ∧ bits 15 1 n = 0 ∧ bits 8 1 n = 0 ∧ bits 0 2 n = 0 then .ok (.scmpLeS64 (bfld 6 16 n) (bfld 6 9 n) (bfld 6 2 n)) else
    .error (.badField op)
  else
  .error (.unassigned op)

/-- Opcodes 0x020 to 0x02f. -/
def decodeGroup2 (op n : Nat) : Except Reject Instr :=
  if op = 0x020 then
    if bits 22 1 n = 0 ∧ bits 15 1 n = 0 ∧ bits 8 1 n = 0 ∧ bits 0 2 n = 0 then .ok (.scmpLtN64 (bfld 6 16 n) (bfld 6 9 n) (bfld 6 2 n)) else
    .error (.badField op)
  else
  if op = 0x021 then
    if bits 22 1 n = 0 ∧ bits 15 1 n = 0 ∧ bits 8 1 n = 0 ∧ bits 0 2 n = 0 then .ok (.scmpLeN64 (bfld 6 16 n) (bfld 6 9 n) (bfld 6 2 n)) else
    .error (.badField op)
  else
  if op = 0x022 then
    if bits 22 1 n = 0 ∧ bits 15 1 n = 0 ∧ bits 0 9 n = 0 then .ok (.smov (bfld 6 16 n) (bfld 6 9 n)) else
    .error (.badField op)
  else
  if op = 0x023 then
    if bits 22 1 n = 0 then .ok (.smovi (bfld 6 16 n) (bfld 16 0 n)) else
    .error (.badField op)
  else
  if op = 0x024 then
    if bits 22 1 n = 0 then .ok (.sluiH1 (bfld 6 16 n) (bfld 16 0 n)) else
    .error (.badField op)
  else
  if op = 0x025 then
    if bits 22 1 n = 0 then .ok (.sluiH2 (bfld 6 16 n) (bfld 16 0 n)) else
    .error (.badField op)
  else
  if op = 0x026 then
    if bits 22 1 n = 0 then .ok (.sluiH3 (bfld 6 16 n) (bfld 16 0 n)) else
    .error (.badField op)
  else
  if op = 0x027 then
    if bits 22 1 n = 0 ∧ bits 15 1 n = 0 ∧ bits 0 9 n = 0 then .ok (.sclz (bfld 6 16 n) (bfld 6 9 n)) else
    .error (.badField op)
  else
  if op = 0x028 then
    if bits 22 1 n = 0 ∧ bits 15 1 n = 0 ∧ bits 0 9 n = 0 then .ok (.spopc (bfld 6 16 n) (bfld 6 9 n)) else
    .error (.badField op)
  else
  .error (.unassigned op)

/-- Opcodes 0x030 to 0x03f. -/
def decodeGroup3 (op n : Nat) : Except Reject Instr :=
  if op = 0x030 then
    if bits 20 3 n = 0 ∧ bits 13 3 n = 0 ∧ bits 8 1 n = 0 ∧ bits 0 2 n = 0 then .ok (.aadd (bfld 4 16 n) (bfld 4 9 n) (bfld 6 2 n)) else
    .error (.badField op)
  else
  if op = 0x031 then
    if bits 20 3 n = 0 ∧ bits 13 3 n = 0 then .ok (.aaddImm (bfld 4 16 n) (bfld 4 9 n) (bfld 9 0 n)) else
    .error (.badField op)
  else
  if op = 0x032 then
    if bits 20 3 n = 0 ∧ bits 13 3 n = 0 ∧ bits 0 9 n = 0 then .ok (.amovA (bfld 4 16 n) (bfld 4 9 n)) else
    .error (.badField op)
  else
  if op = 0x033 then
    if bits 20 3 n = 0 ∧ bits 15 1 n = 0 ∧ bits 0 9 n = 0 then .ok (.amovS (bfld 4 16 n) (bfld 6 9 n)) else
    .error (.badField op)
  else
  if op = 0x034 then
    if bits 20 3 n = 0 then .ok (.aldiH0 (bfld 4 16 n) (bfld 16 0 n)) else
    .error (.badField op)
  else
  if op = 0x035 then
    if bits 20 3 n = 0 then .ok (.aldiH1 (bfld 4 16 n) (bfld 16 0 n)) else
    .error (.badField op)
  else
  if op = 0x036 then
    if bits 20 3 n = 0 then .ok (.aldiH2 (bfld 4 16 n) (bfld 16 0 n)) else
    .error (.badField op)
  else
  if op = 0x037 then
    if bits 20 3 n = 0 then .ok (.aldiH3 (bfld 4 16 n) (bfld 16 0 n)) else
    .error (.badField op)
  else
  if op = 0x038 then
    if bits 20 3 n = 0 ∧ bits 8 8 n = 0 then .ok (.aldiH4 (bfld 4 16 n) (bfld 8 0 n)) else
    .error (.badField op)
  else
  if op = 0x039 then
    if bits 22 1 n = 0 ∧ bits 13 3 n = 0 ∧ bits 6 3 n = 0 ∧ bits 0 2 n = 0 then .ok (.acmp (bfld 6 16 n) (bfld 4 9 n) (bfld 4 2 n)) else
    .error (.badField op)
  else
  if op = 0x03a then
    if bits 22 1 n = 0 ∧ bits 13 3 n = 0 ∧ bits 8 1 n = 0 ∧ bits 0 2 n = 0 then .ok (.asplit (bfld 6 16 n) (bfld 4 9 n) (bfld 6 2 n)) else
    .error (.badField op)
  else
  .error (.unassigned op)

/-- Opcodes 0x040 to 0x04f. -/
def decodeGroup4 (op n : Nat) : Except Reject Instr :=
  if op = 0x040 then
    .ok (.vadd (bfld 7 16 n) (bfld 7 9 n) (bfld 7 2 n) (bfld 2 0 n))
  else
  if op = 0x041 then
    .ok (.vsub (bfld 7 16 n) (bfld 7 9 n) (bfld 7 2 n) (bfld 2 0 n))
  else
  if op = 0x042 then
    .ok (.vmul (bfld 7 16 n) (bfld 7 9 n) (bfld 7 2 n) (bfld 2 0 n))
  else
  if op = 0x043 then
    .ok (.vmulhS32 (bfld 7 16 n) (bfld 7 9 n) (bfld 7 2 n) (bfld 2 0 n))
  else
  if op = 0x044 then
    .ok (.vmulhN32 (bfld 7 16 n) (bfld 7 9 n) (bfld 7 2 n) (bfld 2 0 n))
  else
  if op = 0x045 then
    .ok (.vmad (bfld 7 16 n) (bfld 7 9 n) (bfld 7 2 n) (bfld 2 0 n))
  else
  if op = 0x046 then
    .ok (.vand (bfld 7 16 n) (bfld 7 9 n) (bfld 7 2 n) (bfld 2 0 n))
  else
  if op = 0x047 then
    .ok (.vor (bfld 7 16 n) (bfld 7 9 n) (bfld 7 2 n) (bfld 2 0 n))
  else
  if op = 0x048 then
    .ok (.vxor (bfld 7 16 n) (bfld 7 9 n) (bfld 7 2 n) (bfld 2 0 n))
  else
  if op = 0x049 then
    .ok (.vshl (bfld 7 16 n) (bfld 7 9 n) (bfld 7 2 n) (bfld 2 0 n))
  else
  if op = 0x04a then
    .ok (.vshr (bfld 7 16 n) (bfld 7 9 n) (bfld 7 2 n) (bfld 2 0 n))
  else
  if op = 0x04b then
    .ok (.vsra (bfld 7 16 n) (bfld 7 9 n) (bfld 7 2 n) (bfld 2 0 n))
  else
  if op = 0x04c then
    .ok (.vminS32 (bfld 7 16 n) (bfld 7 9 n) (bfld 7 2 n) (bfld 2 0 n))
  else
  if op = 0x04d then
    .ok (.vminN32 (bfld 7 16 n) (bfld 7 9 n) (bfld 7 2 n) (bfld 2 0 n))
  else
  if op = 0x04e then
    .ok (.vmaxS32 (bfld 7 16 n) (bfld 7 9 n) (bfld 7 2 n) (bfld 2 0 n))
  else
  if op = 0x04f then
    .ok (.vmaxN32 (bfld 7 16 n) (bfld 7 9 n) (bfld 7 2 n) (bfld 2 0 n))
  else
  .error (.unassigned op)

/-- Opcodes 0x050 to 0x05f. -/
def decodeGroup5 (op n : Nat) : Except Reject Instr :=
  if op = 0x050 then
    .ok (.vaddSatS32 (bfld 7 16 n) (bfld 7 9 n) (bfld 7 2 n) (bfld 2 0 n))
  else
  if op = 0x051 then
    .ok (.vsubSatS32 (bfld 7 16 n) (bfld 7 9 n) (bfld 7 2 n) (bfld 2 0 n))
  else
  if op = 0x052 then
    .ok (.vaddSatN32 (bfld 7 16 n) (bfld 7 9 n) (bfld 7 2 n) (bfld 2 0 n))
  else
  if op = 0x053 then
    .ok (.vsubSatN32 (bfld 7 16 n) (bfld 7 9 n) (bfld 7 2 n) (bfld 2 0 n))
  else
  if op = 0x054 then
    if bits 16 1 n = 0 ∧ bits 9 1 n = 0 ∧ bits 2 1 n = 0 then .ok (.vaddN64 (bfld 6 17 n) (bfld 6 10 n) (bfld 6 3 n) (bfld 2 0 n)) else
    .error (.badField op)
  else
  if op = 0x055 then
    if bits 16 1 n = 0 ∧ bits 9 1 n = 0 ∧ bits 2 1 n = 0 then .ok (.vsubN64 (bfld 6 17 n) (bfld 6 10 n) (bfld 6 3 n) (bfld 2 0 n)) else
    .error (.badField op)
  else
  if op = 0x056 then
    if bits 16 1 n = 0 ∧ bits 9 1 n = 0 ∧ bits 2 1 n = 0 then .ok (.vmulN64 (bfld 6 17 n) (bfld 6 10 n) (bfld 6 3 n) (bfld 2 0 n)) else
    .error (.badField op)
  else
  if op = 0x057 then
    if bits 16 1 n = 0 ∧ bits 9 1 n = 0 then .ok (.vshlB64 (bfld 6 17 n) (bfld 6 10 n) (bfld 7 2 n) (bfld 2 0 n)) else
    .error (.badField op)
  else
  if op = 0x058 then
    if bits 16 1 n = 0 ∧ bits 9 1 n = 0 then .ok (.vshrB64 (bfld 6 17 n) (bfld 6 10 n) (bfld 7 2 n) (bfld 2 0 n)) else
    .error (.badField op)
  else
  if op = 0x059 then
    if bits 16 1 n = 0 ∧ bits 9 1 n = 0 then .ok (.vsraS64 (bfld 6 17 n) (bfld 6 10 n) (bfld 7 2 n) (bfld 2 0 n)) else
    .error (.badField op)
  else
  if op = 0x05a then
    if bits 2 7 n = 0 then .ok (.vabsS32 (bfld 7 16 n) (bfld 7 9 n) (bfld 2 0 n)) else
    .error (.badField op)
  else
  if op = 0x05b then
    if bits 2 7 n = 0 then .ok (.vclz (bfld 7 16 n) (bfld 7 9 n) (bfld 2 0 n)) else
    .error (.badField op)
  else
  if op = 0x05c then
    if bits 2 7 n = 0 then .ok (.vpopc (bfld 7 16 n) (bfld 7 9 n) (bfld 2 0 n)) else
    .error (.badField op)
  else
  if op = 0x05d then
    if bits 15 1 n = 0 ∧ bits 2 7 n = 1 then .ok (.vmovScalar (bfld 7 16 n) (bfld 6 9 n) (bfld 2 0 n)) else
    if bits 2 7 n = 0 then .ok (.vmov (bfld 7 16 n) (bfld 7 9 n) (bfld 2 0 n)) else
    .error (.badField op)
  else
  if op = 0x05e then
    .ok (.vsel (bfld 7 16 n) (bfld 7 9 n) (bfld 7 2 n) (bfld 2 0 n))
  else
  .error (.unassigned op)

/-- Opcodes 0x060 to 0x06f. -/
def decodeGroup6 (op n : Nat) : Except Reject Instr :=
  if op = 0x060 then
    .ok (.vaddImm (bfld 7 16 n) (bfld 7 9 n) (bfld 9 0 n))
  else
  if op = 0x061 then
    .ok (.vandImm (bfld 7 16 n) (bfld 7 9 n) (bfld 9 0 n))
  else
  if op = 0x062 then
    .ok (.vorImm (bfld 7 16 n) (bfld 7 9 n) (bfld 9 0 n))
  else
  if op = 0x063 then
    .ok (.vxorImm (bfld 7 16 n) (bfld 7 9 n) (bfld 9 0 n))
  else
  if op = 0x064 then
    if bits 5 4 n = 0 then .ok (.vshlImm (bfld 7 16 n) (bfld 7 9 n) (bfld 5 0 n)) else
    .error (.badField op)
  else
  if op = 0x065 then
    if bits 5 4 n = 0 then .ok (.vshrImm (bfld 7 16 n) (bfld 7 9 n) (bfld 5 0 n)) else
    .error (.badField op)
  else
  if op = 0x066 then
    if bits 5 4 n = 0 then .ok (.vsraImm (bfld 7 16 n) (bfld 7 9 n) (bfld 5 0 n)) else
    .error (.badField op)
  else
  if op = 0x067 then
    .ok (.vmulImm (bfld 7 16 n) (bfld 7 9 n) (bfld 9 0 n))
  else
  if op = 0x068 then
    .ok (.vminS32Imm (bfld 7 16 n) (bfld 7 9 n) (bfld 9 0 n))
  else
  if op = 0x069 then
    .ok (.vmaxS32Imm (bfld 7 16 n) (bfld 7 9 n) (bfld 9 0 n))
  else
  if op = 0x06a then
    .ok (.vbfeS32 (bfld 7 16 n) (bfld 7 9 n) (bfld 7 2 n) (bfld 2 0 n))
  else
  if op = 0x06b then
    .ok (.vbfeN32 (bfld 7 16 n) (bfld 7 9 n) (bfld 7 2 n) (bfld 2 0 n))
  else
  if op = 0x06c then
    .ok (.vbfi (bfld 7 16 n) (bfld 7 9 n) (bfld 7 2 n) (bfld 2 0 n))
  else
  if op = 0x06d then
    .ok (.vmovi (bfld 7 16 n) (bfld 16 0 n))
  else
  if op = 0x06e then
    .ok (.vmoviHi (bfld 7 16 n) (bfld 16 0 n))
  else
  .error (.unassigned op)

/-- Opcodes 0x070 to 0x07f. -/
def decodeGroup7 (op n : Nat) : Except Reject Instr :=
  if op = 0x070 then
    if bits 19 4 n = 0 then .ok (.vcmpEq (bfld 3 16 n) (bfld 7 9 n) (bfld 7 2 n) (bfld 2 0 n)) else
    .error (.badField op)
  else
  if op = 0x071 then
    if bits 19 4 n = 0 then .ok (.vcmpNe (bfld 3 16 n) (bfld 7 9 n) (bfld 7 2 n) (bfld 2 0 n)) else
    .error (.badField op)
  else
  if op = 0x072 then
    if bits 19 4 n = 0 then .ok (.vcmpLtS32 (bfld 3 16 n) (bfld 7 9 n) (bfld 7 2 n) (bfld 2 0 n)) else
    .error (.badField op)
  else
  if op = 0x073 then
    if bits 19 4 n = 0 then .ok (.vcmpLeS32 (bfld 3 16 n) (bfld 7 9 n) (bfld 7 2 n) (bfld 2 0 n)) else
    .error (.badField op)
  else
  if op = 0x074 then
    if bits 19 4 n = 0 then .ok (.vcmpLtN32 (bfld 3 16 n) (bfld 7 9 n) (bfld 7 2 n) (bfld 2 0 n)) else
    .error (.badField op)
  else
  if op = 0x075 then
    if bits 19 4 n = 0 then .ok (.vcmpLeN32 (bfld 3 16 n) (bfld 7 9 n) (bfld 7 2 n) (bfld 2 0 n)) else
    .error (.badField op)
  else
  if op = 0x076 then
    .ok (.vdp4S8 (bfld 7 16 n) (bfld 7 9 n) (bfld 7 2 n) (bfld 2 0 n))
  else
  if op = 0x077 then
    .ok (.vdp4N8 (bfld 7 16 n) (bfld 7 9 n) (bfld 7 2 n) (bfld 2 0 n))
  else
  if op = 0x078 then
    .ok (.vdp2S16 (bfld 7 16 n) (bfld 7 9 n) (bfld 7 2 n) (bfld 2 0 n))
  else
  .error (.unassigned op)

/-- Opcodes 0x080 to 0x08f. -/
def decodeGroup8 (op n : Nat) : Except Reject Instr :=
  if op = 0x080 then
    .ok (.vfadd (bfld 7 16 n) (bfld 7 9 n) (bfld 7 2 n) (bfld 2 0 n))
  else
  if op = 0x081 then
    .ok (.vfsub (bfld 7 16 n) (bfld 7 9 n) (bfld 7 2 n) (bfld 2 0 n))
  else
  if op = 0x082 then
    .ok (.vfmul (bfld 7 16 n) (bfld 7 9 n) (bfld 7 2 n) (bfld 2 0 n))
  else
  if op = 0x083 then
    .ok (.vfma (bfld 7 16 n) (bfld 7 9 n) (bfld 7 2 n) (bfld 2 0 n))
  else
  if op = 0x084 then
    .ok (.vfmin (bfld 7 16 n) (bfld 7 9 n) (bfld 7 2 n) (bfld 2 0 n))
  else
  if op = 0x085 then
    .ok (.vfmax (bfld 7 16 n) (bfld 7 9 n) (bfld 7 2 n) (bfld 2 0 n))
  else
  if op = 0x086 then
    .ok (.vfscl (bfld 7 16 n) (bfld 7 9 n) (bfld 7 2 n) (bfld 2 0 n))
  else
  if op = 0x087 then
    .ok (.vfaddRz (bfld 7 16 n) (bfld 7 9 n) (bfld 7 2 n) (bfld 2 0 n))
  else
  if op = 0x088 then
    .ok (.vfmulRz (bfld 7 16 n) (bfld 7 9 n) (bfld 7 2 n) (bfld 2 0 n))
  else
  if op = 0x089 then
    .ok (.vfmaRz (bfld 7 16 n) (bfld 7 9 n) (bfld 7 2 n) (bfld 2 0 n))
  else
  if op = 0x08a then
    if bits 19 4 n = 0 then .ok (.vfcmpEq (bfld 3 16 n) (bfld 7 9 n) (bfld 7 2 n) (bfld 2 0 n)) else
    .error (.badField op)
  else
  if op = 0x08b then
    if bits 19 4 n = 0 then .ok (.vfcmpNe (bfld 3 16 n) (bfld 7 9 n) (bfld 7 2 n) (bfld 2 0 n)) else
    .error (.badField op)
  else
  if op = 0x08c then
    if bits 19 4 n = 0 then .ok (.vfcmpLt (bfld 3 16 n) (bfld 7 9 n) (bfld 7 2 n) (bfld 2 0 n)) else
    .error (.badField op)
  else
  if op = 0x08d then
    if bits 19 4 n = 0 then .ok (.vfcmpLe (bfld 3 16 n) (bfld 7 9 n) (bfld 7 2 n) (bfld 2 0 n)) else
    .error (.badField op)
  else
  if op = 0x08e then
    if bits 19 4 n = 0 then .ok (.vfcmpUn (bfld 3 16 n) (bfld 7 9 n) (bfld 7 2 n) (bfld 2 0 n)) else
    .error (.badField op)
  else
  .error (.unassigned op)

/-- Opcodes 0x090 to 0x09f. -/
def decodeGroup9 (op n : Nat) : Except Reject Instr :=
  if op = 0x090 then
    if bits 2 7 n = 0 then .ok (.vfrcp (bfld 7 16 n) (bfld 7 9 n) (bfld 2 0 n)) else
    .error (.badField op)
  else
  if op = 0x091 then
    if bits 2 7 n = 0 then .ok (.vfrsq (bfld 7 16 n) (bfld 7 9 n) (bfld 2 0 n)) else
    .error (.badField op)
  else
  if op = 0x092 then
    if bits 2 7 n = 0 then .ok (.vfexp2 (bfld 7 16 n) (bfld 7 9 n) (bfld 2 0 n)) else
    .error (.badField op)
  else
  if op = 0x093 then
    if bits 2 7 n = 0 then .ok (.vflog2 (bfld 7 16 n) (bfld 7 9 n) (bfld 2 0 n)) else
    .error (.badField op)
  else
  if op = 0x094 then
    if bits 2 7 n = 0 then .ok (.vftanh (bfld 7 16 n) (bfld 7 9 n) (bfld 2 0 n)) else
    .error (.badField op)
  else
  if op = 0x095 then
    if bits 2 7 n = 0 then .ok (.vfclass (bfld 7 16 n) (bfld 7 9 n) (bfld 2 0 n)) else
    .error (.badField op)
  else
  if op = 0x098 then
    .ok (.vhadd (bfld 7 16 n) (bfld 7 9 n) (bfld 7 2 n) (bfld 2 0 n))
  else
  if op = 0x099 then
    .ok (.vhmul (bfld 7 16 n) (bfld 7 9 n) (bfld 7 2 n) (bfld 2 0 n))
  else
  if op = 0x09a then
    .ok (.vhfma (bfld 7 16 n) (bfld 7 9 n) (bfld 7 2 n) (bfld 2 0 n))
  else
  if op = 0x09b then
    .ok (.vhsub (bfld 7 16 n) (bfld 7 9 n) (bfld 7 2 n) (bfld 2 0 n))
  else
  if op = 0x09c then
    .ok (.vhmin (bfld 7 16 n) (bfld 7 9 n) (bfld 7 2 n) (bfld 2 0 n))
  else
  if op = 0x09d then
    .ok (.vhmax (bfld 7 16 n) (bfld 7 9 n) (bfld 7 2 n) (bfld 2 0 n))
  else
  .error (.unassigned op)

/-- Opcodes 0x0a0 to 0x0af. -/
def decodeGroup10 (op n : Nat) : Except Reject Instr :=
  if op = 0x0a0 then
    if bits 6 3 n = 0 then .ok (.vcvtF32Rn (bfld 7 16 n) (bfld 7 9 n) (bfld 3 3 n) (bfld 3 0 n)) else
    .error (.badField op)
  else
  if op = 0x0a1 then
    if bits 6 3 n = 0 then .ok (.vcvtF32Rz (bfld 7 16 n) (bfld 7 9 n) (bfld 3 3 n) (bfld 3 0 n)) else
    .error (.badField op)
  else
  if op = 0x0a2 then
    if bits 6 3 n = 0 then .ok (.vcvtF32Sr (bfld 7 16 n) (bfld 7 9 n) (bfld 3 3 n) (bfld 3 0 n)) else
    .error (.badField op)
  else
  if op = 0x0a3 then
    if bits 7 2 n = 0 then .ok (.vcvtBf16Rn (bfld 7 16 n) (bfld 7 9 n) (bfld 1 6 n) (bfld 3 3 n) (bfld 3 0 n)) else
    .error (.badField op)
  else
  if op = 0x0a4 then
    if bits 7 2 n = 0 then .ok (.vcvtBf16Rz (bfld 7 16 n) (bfld 7 9 n) (bfld 1 6 n) (bfld 3 3 n) (bfld 3 0 n)) else
    .error (.badField op)
  else
  if op = 0x0a5 then
    if bits 7 2 n = 0 then .ok (.vcvtBf16Sr (bfld 7 16 n) (bfld 7 9 n) (bfld 1 6 n) (bfld 3 3 n) (bfld 3 0 n)) else
    .error (.badField op)
  else
  if op = 0x0a6 then
    if bits 8 1 n = 0 then .ok (.vcvtE4m3Rn (bfld 7 16 n) (bfld 7 9 n) (bfld 2 6 n) (bfld 3 3 n) (bfld 3 0 n)) else
    .error (.badField op)
  else
  if op = 0x0a7 then
    if bits 8 1 n = 0 then .ok (.vcvtE4m3Rz (bfld 7 16 n) (bfld 7 9 n) (bfld 2 6 n) (bfld 3 3 n) (bfld 3 0 n)) else
    .error (.badField op)
  else
  if op = 0x0a8 then
    if bits 8 1 n = 0 then .ok (.vcvtE4m3Sr (bfld 7 16 n) (bfld 7 9 n) (bfld 2 6 n) (bfld 3 3 n) (bfld 3 0 n)) else
    .error (.badField op)
  else
  if op = 0x0a9 then
    if bits 8 1 n = 0 then .ok (.vcvtE5m2Rn (bfld 7 16 n) (bfld 7 9 n) (bfld 2 6 n) (bfld 3 3 n) (bfld 3 0 n)) else
    .error (.badField op)
  else
  if op = 0x0aa then
    if bits 8 1 n = 0 then .ok (.vcvtE5m2Rz (bfld 7 16 n) (bfld 7 9 n) (bfld 2 6 n) (bfld 3 3 n) (bfld 3 0 n)) else
    .error (.badField op)
  else
  if op = 0x0ab then
    if bits 8 1 n = 0 then .ok (.vcvtE5m2Sr (bfld 7 16 n) (bfld 7 9 n) (bfld 2 6 n) (bfld 3 3 n) (bfld 3 0 n)) else
    .error (.badField op)
  else
  if op = 0x0ac then
    .ok (.vcvtE2m1Rn (bfld 7 16 n) (bfld 7 9 n) (bfld 3 6 n) (bfld 3 3 n) (bfld 3 0 n))
  else
  if op = 0x0ad then
    .ok (.vcvtE2m1Rz (bfld 7 16 n) (bfld 7 9 n) (bfld 3 6 n) (bfld 3 3 n) (bfld 3 0 n))
  else
  if op = 0x0ae then
    .ok (.vcvtE2m1Sr (bfld 7 16 n) (bfld 7 9 n) (bfld 3 6 n) (bfld 3 3 n) (bfld 3 0 n))
  else
  if op = 0x0af then
    if bits 6 3 n = 0 then .ok (.vcvtS32Rn (bfld 7 16 n) (bfld 7 9 n) (bfld 3 3 n) (bfld 3 0 n)) else
    .error (.badField op)
  else
  .error (.unassigned op)

/-- Opcodes 0x0b0 to 0x0bf. -/
def decodeGroup11 (op n : Nat) : Except Reject Instr :=
  if op = 0x0b0 then
    if bits 6 3 n = 0 then .ok (.vcvtS32Rz (bfld 7 16 n) (bfld 7 9 n) (bfld 3 3 n) (bfld 3 0 n)) else
    .error (.badField op)
  else
  if op = 0x0b1 then
    if bits 6 3 n = 0 then .ok (.vcvtS32Sr (bfld 7 16 n) (bfld 7 9 n) (bfld 3 3 n) (bfld 3 0 n)) else
    .error (.badField op)
  else
  if op = 0x0b2 then
    if bits 6 3 n = 0 then .ok (.vcvtN32Rn (bfld 7 16 n) (bfld 7 9 n) (bfld 3 3 n) (bfld 3 0 n)) else
    .error (.badField op)
  else
  if op = 0x0b3 then
    if bits 6 3 n = 0 then .ok (.vcvtN32Rz (bfld 7 16 n) (bfld 7 9 n) (bfld 3 3 n) (bfld 3 0 n)) else
    .error (.badField op)
  else
  if op = 0x0b4 then
    if bits 6 3 n = 0 then .ok (.vcvtN32Sr (bfld 7 16 n) (bfld 7 9 n) (bfld 3 3 n) (bfld 3 0 n)) else
    .error (.badField op)
  else
  if op = 0x0b8 then
    .ok (.vpackB8 (bfld 7 16 n) (bfld 7 9 n) (bfld 7 2 n) (bfld 2 0 n))
  else
  if op = 0x0b9 then
    .ok (.vpackB16 (bfld 7 16 n) (bfld 7 9 n) (bfld 7 2 n) (bfld 2 0 n))
  else
  if op = 0x0ba then
    if bits 3 6 n = 0 then .ok (.vunpkB4 (bfld 7 16 n) (bfld 7 9 n) (bfld 3 0 n)) else
    if bits 3 6 n = 32 then .ok (.vunpkB4Sx (bfld 7 16 n) (bfld 7 9 n) (bfld 3 0 n)) else
    .error (.badField op)
  else
  if op = 0x0bb then
    if bits 2 7 n = 0 then .ok (.vunpkB8 (bfld 7 16 n) (bfld 7 9 n) (bfld 2 0 n)) else
    if bits 2 7 n = 64 then .ok (.vunpkB8Sx (bfld 7 16 n) (bfld 7 9 n) (bfld 2 0 n)) else
    .error (.badField op)
  else
  if op = 0x0bc then
    if bits 1 8 n = 0 then .ok (.vunpkB16 (bfld 7 16 n) (bfld 7 9 n) (bfld 1 0 n)) else
    if bits 1 8 n = 128 then .ok (.vunpkB16Sx (bfld 7 16 n) (bfld 7 9 n) (bfld 1 0 n)) else
    .error (.badField op)
  else
  .error (.unassigned op)

/-- Opcodes 0x0c0 to 0x0cf. -/
def decodeGroup12 (op n : Nat) : Except Reject Instr :=
  if op = 0x0c0 then
    .ok (.vqntE4m3E8m0 (bfld 7 16 n) (bfld 7 9 n) (bfld 7 2 n) (bfld 2 0 n))
  else
  if op = 0x0c1 then
    .ok (.vqntE4m3S32scale (bfld 7 16 n) (bfld 7 9 n) (bfld 7 2 n) (bfld 2 0 n))
  else
  if op = 0x0c2 then
    .ok (.vqntE5m2E8m0 (bfld 7 16 n) (bfld 7 9 n) (bfld 7 2 n) (bfld 2 0 n))
  else
  if op = 0x0c3 then
    .ok (.vqntE5m2S32scale (bfld 7 16 n) (bfld 7 9 n) (bfld 7 2 n) (bfld 2 0 n))
  else
  if op = 0x0c4 then
    .ok (.vqntE2m1E8m0 (bfld 7 16 n) (bfld 7 9 n) (bfld 7 2 n) (bfld 2 0 n))
  else
  if op = 0x0c5 then
    .ok (.vqntE2m1S32scale (bfld 7 16 n) (bfld 7 9 n) (bfld 7 2 n) (bfld 2 0 n))
  else
  if op = 0x0c8 then
    .ok (.vdqntE4m3E8m0 (bfld 7 16 n) (bfld 7 9 n) (bfld 7 2 n) (bfld 2 0 n))
  else
  if op = 0x0c9 then
    .ok (.vdqntE4m3S32scale (bfld 7 16 n) (bfld 7 9 n) (bfld 7 2 n) (bfld 2 0 n))
  else
  if op = 0x0ca then
    .ok (.vdqntE5m2E8m0 (bfld 7 16 n) (bfld 7 9 n) (bfld 7 2 n) (bfld 2 0 n))
  else
  if op = 0x0cb then
    .ok (.vdqntE5m2S32scale (bfld 7 16 n) (bfld 7 9 n) (bfld 7 2 n) (bfld 2 0 n))
  else
  if op = 0x0cc then
    .ok (.vdqntE2m1E8m0 (bfld 7 16 n) (bfld 7 9 n) (bfld 7 2 n) (bfld 2 0 n))
  else
  if op = 0x0cd then
    .ok (.vdqntE2m1S32scale (bfld 7 16 n) (bfld 7 9 n) (bfld 7 2 n) (bfld 2 0 n))
  else
  if op = 0x0ce then
    if bits 2 7 n = 0 then .ok (.vfrndRn (bfld 7 16 n) (bfld 7 9 n) (bfld 2 0 n)) else
    .error (.badField op)
  else
  if op = 0x0cf then
    if bits 2 7 n = 0 then .ok (.vfrndRz (bfld 7 16 n) (bfld 7 9 n) (bfld 2 0 n)) else
    .error (.badField op)
  else
  .error (.unassigned op)

/-- Opcodes 0x0d0 to 0x0df. -/
def decodeGroup13 (op n : Nat) : Except Reject Instr :=
  if op = 0x0d0 then
    if bits 2 7 n = 0 then .ok (.vfrndRm (bfld 7 16 n) (bfld 7 9 n) (bfld 2 0 n)) else
    .error (.badField op)
  else
  if op = 0x0d1 then
    if bits 2 7 n = 0 then .ok (.vfrndRp (bfld 7 16 n) (bfld 7 9 n) (bfld 2 0 n)) else
    .error (.badField op)
  else
  .error (.unassigned op)

/-- Opcodes 0x100 to 0x10f. -/
def decodeGroup16 (op n : Nat) : Except Reject Instr :=
  if op = 0x100 then
    if bits 2 7 n = 0 then .ok (.qswpH (bfld 7 16 n) (bfld 7 9 n) (bfld 2 0 n)) else
    .error (.badField op)
  else
  if op = 0x101 then
    if bits 2 7 n = 0 then .ok (.qswpV (bfld 7 16 n) (bfld 7 9 n) (bfld 2 0 n)) else
    .error (.badField op)
  else
  if op = 0x102 then
    if bits 2 7 n = 0 then .ok (.qswpD (bfld 7 16 n) (bfld 7 9 n) (bfld 2 0 n)) else
    .error (.badField op)
  else
  if op = 0x103 then
    if bits 2 7 n = 0 then .ok (.qbcast (bfld 7 16 n) (bfld 7 9 n) (bfld 2 0 n)) else
    .error (.badField op)
  else
  if op = 0x104 then
    .ok (.vshflIdx (bfld 7 16 n) (bfld 7 9 n) (bfld 7 2 n) (bfld 2 0 n))
  else
  if op = 0x105 then
    if bits 5 4 n = 0 then .ok (.vshflUp (bfld 7 16 n) (bfld 7 9 n) (bfld 5 0 n)) else
    .error (.badField op)
  else
  if op = 0x106 then
    if bits 5 4 n = 0 then .ok (.vshflDown (bfld 7 16 n) (bfld 7 9 n) (bfld 5 0 n)) else
    .error (.badField op)
  else
  if op = 0x107 then
    if bits 5 4 n = 0 then .ok (.vshflXor (bfld 7 16 n) (bfld 7 9 n) (bfld 5 0 n)) else
    .error (.badField op)
  else
  if op = 0x108 then
    if bits 2 7 n = 0 then .ok (.vredAddS32 (bfld 7 16 n) (bfld 7 9 n) (bfld 2 0 n)) else
    .error (.badField op)
  else
  if op = 0x109 then
    if bits 2 7 n = 0 then .ok (.vredAddF32 (bfld 7 16 n) (bfld 7 9 n) (bfld 2 0 n)) else
    .error (.badField op)
  else
  if op = 0x10a then
    if bits 2 7 n = 0 then .ok (.vredMinS32 (bfld 7 16 n) (bfld 7 9 n) (bfld 2 0 n)) else
    .error (.badField op)
  else
  if op = 0x10b then
    if bits 2 7 n = 0 then .ok (.vredMaxS32 (bfld 7 16 n) (bfld 7 9 n) (bfld 2 0 n)) else
    .error (.badField op)
  else
  if op = 0x10c then
    if bits 2 7 n = 0 then .ok (.vredMinF32 (bfld 7 16 n) (bfld 7 9 n) (bfld 2 0 n)) else
    .error (.badField op)
  else
  if op = 0x10d then
    if bits 2 7 n = 0 then .ok (.vredMaxF32 (bfld 7 16 n) (bfld 7 9 n) (bfld 2 0 n)) else
    .error (.badField op)
  else
  if op = 0x10e then
    if bits 2 7 n = 0 then .ok (.vredAndB32 (bfld 7 16 n) (bfld 7 9 n) (bfld 2 0 n)) else
    .error (.badField op)
  else
  if op = 0x10f then
    if bits 2 7 n = 0 then .ok (.vredOrB32 (bfld 7 16 n) (bfld 7 9 n) (bfld 2 0 n)) else
    .error (.badField op)
  else
  .error (.unassigned op)

/-- Opcodes 0x110 to 0x11f. -/
def decodeGroup17 (op n : Nat) : Except Reject Instr :=
  if op = 0x110 then
    if bits 2 7 n = 0 then .ok (.vredXorB32 (bfld 7 16 n) (bfld 7 9 n) (bfld 2 0 n)) else
    .error (.badField op)
  else
  if op = 0x111 then
    if bits 2 7 n = 0 then .ok (.vscanAddS32 (bfld 7 16 n) (bfld 7 9 n) (bfld 2 0 n)) else
    .error (.badField op)
  else
  if op = 0x112 then
    if bits 2 7 n = 0 then .ok (.vscanAddF32 (bfld 7 16 n) (bfld 7 9 n) (bfld 2 0 n)) else
    .error (.badField op)
  else
  if op = 0x113 then
    if bits 2 7 n = 0 then .ok (.vscanMinS32 (bfld 7 16 n) (bfld 7 9 n) (bfld 2 0 n)) else
    .error (.badField op)
  else
  if op = 0x114 then
    if bits 2 7 n = 0 then .ok (.vscanMaxS32 (bfld 7 16 n) (bfld 7 9 n) (bfld 2 0 n)) else
    .error (.badField op)
  else
  if op = 0x115 then
    if bits 2 7 n = 0 then .ok (.vscanOrB32 (bfld 7 16 n) (bfld 7 9 n) (bfld 2 0 n)) else
    .error (.badField op)
  else
  if op = 0x116 then
    if bits 12 4 n = 0 ∧ bits 2 7 n = 0 then .ok (.vballot (bfld 7 16 n) (bfld 3 9 n) (bfld 2 0 n)) else
    .error (.badField op)
  else
  if op = 0x117 then
    if bits 19 4 n = 0 ∧ bits 12 4 n = 0 ∧ bits 2 7 n = 0 then .ok (.vvoteAll (bfld 3 16 n) (bfld 3 9 n) (bfld 2 0 n)) else
    .error (.badField op)
  else
  if op = 0x118 then
    if bits 19 4 n = 0 ∧ bits 12 4 n = 0 ∧ bits 2 7 n = 0 then .ok (.vvoteAny (bfld 3 16 n) (bfld 3 9 n) (bfld 2 0 n)) else
    .error (.badField op)
  else
  if op = 0x119 then
    if bits 19 4 n = 0 ∧ bits 2 7 n = 0 then .ok (.vvoteUni (bfld 3 16 n) (bfld 7 9 n) (bfld 2 0 n)) else
    .error (.badField op)
  else
  .error (.unassigned op)

/-- Opcodes 0x120 to 0x12f. -/
def decodeGroup18 (op n : Nat) : Except Reject Instr :=
  if op = 0x120 then
    if bits 19 4 n = 0 ∧ bits 12 4 n = 0 ∧ bits 5 4 n = 0 then .ok (.kand (bfld 3 16 n) (bfld 3 9 n) (bfld 3 2 n) (bfld 2 0 n)) else
    .error (.badField op)
  else
  if op = 0x121 then
    if bits 19 4 n = 0 ∧ bits 12 4 n = 0 ∧ bits 5 4 n = 0 then .ok (.kor (bfld 3 16 n) (bfld 3 9 n) (bfld 3 2 n) (bfld 2 0 n)) else
    .error (.badField op)
  else
  if op = 0x122 then
    if bits 19 4 n = 0 ∧ bits 12 4 n = 0 ∧ bits 5 4 n = 0 then .ok (.kxor (bfld 3 16 n) (bfld 3 9 n) (bfld 3 2 n) (bfld 2 0 n)) else
    .error (.badField op)
  else
  if op = 0x123 then
    if bits 19 4 n = 0 ∧ bits 12 4 n = 0 ∧ bits 2 7 n = 0 then .ok (.knot (bfld 3 16 n) (bfld 3 9 n) (bfld 2 0 n)) else
    .error (.badField op)
  else
  if op = 0x124 then
    if bits 19 4 n = 0 ∧ bits 12 4 n = 0 ∧ bits 2 7 n = 0 then .ok (.kmov (bfld 3 16 n) (bfld 3 9 n) (bfld 2 0 n)) else
    .error (.badField op)
  else
  if op = 0x125 then
    if bits 19 4 n = 0 ∧ bits 2 7 n = 0 then .ok (.kmovV2k (bfld 3 16 n) (bfld 7 9 n) (bfld 2 0 n)) else
    .error (.badField op)
  else
  if op = 0x126 then
    if bits 12 4 n = 0 ∧ bits 2 7 n = 0 then .ok (.kmovK2v (bfld 7 16 n) (bfld 3 9 n) (bfld 2 0 n)) else
    .error (.badField op)
  else
  if op = 0x127 then
    if bits 22 1 n = 0 ∧ bits 12 4 n = 0 ∧ bits 0 9 n = 0 then .ok (.kpopc (bfld 6 16 n) (bfld 3 9 n)) else
    .error (.badField op)
  else
  .error (.unassigned op)

/-- Opcodes 0x140 to 0x14f. -/
def decodeGroup20 (op n : Nat) : Except Reject Instr :=
  if op = 0x140 then
    .ok (.vldB8 (bfld 7 16 n) (bfld 4 12 n) (bfld 7 5 n) (bfld 4 1 n) (bfld 1 0 n))
  else
  if op = 0x141 then
    .ok (.vldB16 (bfld 7 16 n) (bfld 4 12 n) (bfld 7 5 n) (bfld 4 1 n) (bfld 1 0 n))
  else
  if op = 0x142 then
    .ok (.vldB32 (bfld 7 16 n) (bfld 4 12 n) (bfld 7 5 n) (bfld 4 1 n) (bfld 1 0 n))
  else
  if op = 0x143 then
    if bits 16 1 n = 0 then .ok (.vldB64 (bfld 6 17 n) (bfld 4 12 n) (bfld 7 5 n) (bfld 4 1 n) (bfld 1 0 n)) else
    .error (.badField op)
  else
  if op = 0x144 then
    if bits 16 2 n = 0 then .ok (.vldB128 (bfld 5 18 n) (bfld 4 12 n) (bfld 7 5 n) (bfld 4 1 n) (bfld 1 0 n)) else
    .error (.badField op)
  else
  if op = 0x145 then
    if bits 1 4 n = 0 then .ok (.vstB8 (bfld 7 16 n) (bfld 4 12 n) (bfld 7 5 n) (bfld 1 0 n)) else
    .error (.badField op)
  else
  if op = 0x146 then
    if bits 1 4 n = 0 then .ok (.vstB16 (bfld 7 16 n) (bfld 4 12 n) (bfld 7 5 n) (bfld 1 0 n)) else
    .error (.badField op)
  else
  if op = 0x147 then
    if bits 1 4 n = 0 then .ok (.vstB32 (bfld 7 16 n) (bfld 4 12 n) (bfld 7 5 n) (bfld 1 0 n)) else
    .error (.badField op)
  else
  if op = 0x148 then
    if bits 16 1 n = 0 ∧ bits 1 4 n = 0 then .ok (.vstB64 (bfld 6 17 n) (bfld 4 12 n) (bfld 7 5 n) (bfld 1 0 n)) else
    .error (.badField op)
  else
  if op = 0x149 then
    if bits 16 2 n = 0 ∧ bits 1 4 n = 0 then .ok (.vstB128 (bfld 5 18 n) (bfld 4 12 n) (bfld 7 5 n) (bfld 1 0 n)) else
    .error (.badField op)
  else
  if op = 0x14a then
    .ok (.vldsB32 (bfld 7 16 n) (bfld 4 12 n) (bfld 7 5 n) (bfld 4 1 n) (bfld 1 0 n))
  else
  if op = 0x14b then
    if bits 16 1 n = 0 then .ok (.vldsB64 (bfld 6 17 n) (bfld 4 12 n) (bfld 7 5 n) (bfld 4 1 n) (bfld 1 0 n)) else
    .error (.badField op)
  else
  if op = 0x14c then
    if bits 16 2 n = 0 then .ok (.vldsB128 (bfld 5 18 n) (bfld 4 12 n) (bfld 7 5 n) (bfld 4 1 n) (bfld 1 0 n)) else
    .error (.badField op)
  else
  if op = 0x14d then
    if bits 1 4 n = 0 then .ok (.vstsB32 (bfld 7 16 n) (bfld 4 12 n) (bfld 7 5 n) (bfld 1 0 n)) else
    .error (.badField op)
  else
  if op = 0x14e then
    if bits 16 1 n = 0 ∧ bits 1 4 n = 0 then .ok (.vstsB64 (bfld 6 17 n) (bfld 4 12 n) (bfld 7 5 n) (bfld 1 0 n)) else
    .error (.badField op)
  else
  if op = 0x14f then
    if bits 16 2 n = 0 ∧ bits 1 4 n = 0 then .ok (.vstsB128 (bfld 5 18 n) (bfld 4 12 n) (bfld 7 5 n) (bfld 1 0 n)) else
    .error (.badField op)
  else
  .error (.unassigned op)

/-- Opcodes 0x150 to 0x15f. -/
def decodeGroup21 (op n : Nat) : Except Reject Instr :=
  if op = 0x150 then
    if bits 22 1 n = 0 then .ok (.sld (bfld 6 16 n) (bfld 4 12 n) (bfld 8 4 n) (bfld 4 0 n)) else
    .error (.badField op)
  else
  if op = 0x151 then
    if bits 22 1 n = 0 ∧ bits 0 4 n = 0 then .ok (.sst (bfld 6 16 n) (bfld 4 12 n) (bfld 8 4 n)) else
    .error (.badField op)
  else
  if op = 0x152 then
    if bits 16 3 n = 0 ∧ bits 5 7 n = 127 then .ok (.tldg (bfld 4 19 n) (bfld 4 12 n) (bfld 4 1 n) (bfld 1 0 n)) else
    .error (.badField op)
  else
  if op = 0x153 then
    if bits 1 4 n = 0 then .ok (.pref (bfld 7 16 n) (bfld 4 12 n) (bfld 7 5 n) (bfld 1 0 n)) else
    .error (.badField op)
  else
  if op = 0x154 then
    .ok (.atomAddB32 (bfld 7 16 n) (bfld 4 12 n) (bfld 7 5 n) (bfld 4 1 n) (bfld 1 0 n))
  else
  if op = 0x155 then
    .ok (.atomMinS32 (bfld 7 16 n) (bfld 4 12 n) (bfld 7 5 n) (bfld 4 1 n) (bfld 1 0 n))
  else
  if op = 0x156 then
    .ok (.atomMaxS32 (bfld 7 16 n) (bfld 4 12 n) (bfld 7 5 n) (bfld 4 1 n) (bfld 1 0 n))
  else
  if op = 0x157 then
    .ok (.atomAndB32 (bfld 7 16 n) (bfld 4 12 n) (bfld 7 5 n) (bfld 4 1 n) (bfld 1 0 n))
  else
  if op = 0x158 then
    .ok (.atomOrB32 (bfld 7 16 n) (bfld 4 12 n) (bfld 7 5 n) (bfld 4 1 n) (bfld 1 0 n))
  else
  if op = 0x159 then
    .ok (.atomXorB32 (bfld 7 16 n) (bfld 4 12 n) (bfld 7 5 n) (bfld 4 1 n) (bfld 1 0 n))
  else
  if op = 0x15a then
    .ok (.atomExchB32 (bfld 7 16 n) (bfld 4 12 n) (bfld 7 5 n) (bfld 4 1 n) (bfld 1 0 n))
  else
  if op = 0x15b then
    if bits 16 1 n = 0 then .ok (.atomCasB32 (bfld 6 17 n) (bfld 4 12 n) (bfld 7 5 n) (bfld 4 1 n) (bfld 1 0 n)) else
    .error (.badField op)
  else
  if op = 0x15c then
    if bits 16 1 n = 0 then .ok (.atomAddB64 (bfld 6 17 n) (bfld 4 12 n) (bfld 7 5 n) (bfld 4 1 n) (bfld 1 0 n)) else
    .error (.badField op)
  else
  if op = 0x15d then
    if bits 16 1 n = 0 then .ok (.atomExchB64 (bfld 6 17 n) (bfld 4 12 n) (bfld 7 5 n) (bfld 4 1 n) (bfld 1 0 n)) else
    .error (.badField op)
  else
  if op = 0x15e then
    if bits 16 2 n = 0 then .ok (.atomCasB64 (bfld 5 18 n) (bfld 4 12 n) (bfld 7 5 n) (bfld 4 1 n) (bfld 1 0 n)) else
    .error (.badField op)
  else
  if op = 0x15f then
    .ok (.atomAddF32 (bfld 7 16 n) (bfld 4 12 n) (bfld 7 5 n) (bfld 4 1 n) (bfld 1 0 n))
  else
  .error (.unassigned op)

/-- Opcodes 0x160 to 0x16f. -/
def decodeGroup22 (op n : Nat) : Except Reject Instr :=
  if op = 0x160 then
    if bits 1 4 n = 0 then .ok (.redAddB32 (bfld 7 16 n) (bfld 4 12 n) (bfld 7 5 n) (bfld 1 0 n)) else
    .error (.badField op)
  else
  if op = 0x161 then
    if bits 1 4 n = 0 then .ok (.redMinS32 (bfld 7 16 n) (bfld 4 12 n) (bfld 7 5 n) (bfld 1 0 n)) else
    .error (.badField op)
  else
  if op = 0x162 then
    if bits 1 4 n = 0 then .ok (.redMaxS32 (bfld 7 16 n) (bfld 4 12 n) (bfld 7 5 n) (bfld 1 0 n)) else
    .error (.badField op)
  else
  if op = 0x163 then
    if bits 1 4 n = 0 then .ok (.redOrB32 (bfld 7 16 n) (bfld 4 12 n) (bfld 7 5 n) (bfld 1 0 n)) else
    .error (.badField op)
  else
  if op = 0x164 then
    if bits 16 1 n = 0 ∧ bits 1 4 n = 0 then .ok (.redAddB64 (bfld 6 17 n) (bfld 4 12 n) (bfld 7 5 n) (bfld 1 0 n)) else
    .error (.badField op)
  else
  if op = 0x165 then
    if bits 1 4 n = 0 then .ok (.redAddF32 (bfld 7 16 n) (bfld 4 12 n) (bfld 7 5 n) (bfld 1 0 n)) else
    .error (.badField op)
  else
  if op = 0x166 then
    if bits 1 4 n = 0 then .ok (.redAddBf16 (bfld 7 16 n) (bfld 4 12 n) (bfld 7 5 n) (bfld 1 0 n)) else
    .error (.badField op)
  else
  if op = 0x167 then
    if bits 1 4 n = 15 then .ok (.atomsAddB32NonReturning (bfld 7 16 n) (bfld 4 12 n) (bfld 7 5 n) (bfld 1 0 n)) else
    .ok (.atomsAddB32 (bfld 7 16 n) (bfld 4 12 n) (bfld 7 5 n) (bfld 4 1 n) (bfld 1 0 n))
  else
  if op = 0x168 then
    if bits 1 4 n = 15 then .ok (.atomsMinS32NonReturning (bfld 7 16 n) (bfld 4 12 n) (bfld 7 5 n) (bfld 1 0 n)) else
    .ok (.atomsMinS32 (bfld 7 16 n) (bfld 4 12 n) (bfld 7 5 n) (bfld 4 1 n) (bfld 1 0 n))
  else
  if op = 0x169 then
    if bits 1 4 n = 15 then .ok (.atomsMaxS32NonReturning (bfld 7 16 n) (bfld 4 12 n) (bfld 7 5 n) (bfld 1 0 n)) else
    .ok (.atomsMaxS32 (bfld 7 16 n) (bfld 4 12 n) (bfld 7 5 n) (bfld 4 1 n) (bfld 1 0 n))
  else
  if op = 0x16a then
    if bits 1 4 n = 15 then .ok (.atomsExchB32NonReturning (bfld 7 16 n) (bfld 4 12 n) (bfld 7 5 n) (bfld 1 0 n)) else
    .ok (.atomsExchB32 (bfld 7 16 n) (bfld 4 12 n) (bfld 7 5 n) (bfld 4 1 n) (bfld 1 0 n))
  else
  if op = 0x16b then
    if bits 16 1 n = 0 ∧ bits 1 4 n = 15 then .ok (.atomsCasB32NonReturning (bfld 6 17 n) (bfld 4 12 n) (bfld 7 5 n) (bfld 1 0 n)) else
    if bits 16 1 n = 0 then .ok (.atomsCasB32 (bfld 6 17 n) (bfld 4 12 n) (bfld 7 5 n) (bfld 4 1 n) (bfld 1 0 n)) else
    .error (.badField op)
  else
  if op = 0x16c then
    if bits 1 4 n = 15 then .ok (.atomsAddF32NonReturning (bfld 7 16 n) (bfld 4 12 n) (bfld 7 5 n) (bfld 1 0 n)) else
    .ok (.atomsAddF32 (bfld 7 16 n) (bfld 4 12 n) (bfld 7 5 n) (bfld 4 1 n) (bfld 1 0 n))
  else
  if op = 0x16d then
    if bits 1 4 n = 0 then .ok (.redstAnyF32 (bfld 7 16 n) (bfld 4 12 n) (bfld 7 5 n) (bfld 1 0 n)) else
    .error (.badField op)
  else
  if op = 0x16e then
    if bits 16 1 n = 0 ∧ bits 1 4 n = 0 then .ok (.redstOrdF32 (bfld 6 17 n) (bfld 4 12 n) (bfld 7 5 n) (bfld 1 0 n)) else
    .error (.badField op)
  else
  if op = 0x16f then
    if bits 1 4 n = 0 then .ok (.redstAnyB32 (bfld 7 16 n) (bfld 4 12 n) (bfld 7 5 n) (bfld 1 0 n)) else
    .error (.badField op)
  else
  .error (.unassigned op)

/-- Opcodes 0x170 to 0x17f. -/
def decodeGroup23 (op n : Nat) : Except Reject Instr :=
  if op = 0x170 then
    if bits 18 1 n = 0 ∧ bits 0 14 n = 0 then .ok (.cpy (bfld 4 19 n) (bfld 4 14 n)) else
    .error (.badField op)
  else
  if op = 0x171 then
    if bits 18 1 n = 0 ∧ bits 0 14 n = 0 then .ok (.cpytRow (bfld 4 19 n) (bfld 4 14 n)) else
    .error (.badField op)
  else
  if op = 0x172 then
    if bits 18 1 n = 0 ∧ bits 0 14 n = 0 then .ok (.cpytCol (bfld 4 19 n) (bfld 4 14 n)) else
    .error (.badField op)
  else
  if op = 0x173 then
    if bits 18 1 n = 0 ∧ bits 0 14 n = 0 then .ok (.cpym (bfld 4 19 n) (bfld 4 14 n)) else
    .error (.badField op)
  else
  if op = 0x174 then
    if bits 1 12 n = 0 then .ok (.gthB32 (bfld 4 19 n) (bfld 6 13 n) (bfld 1 0 n)) else
    .error (.badField op)
  else
  if op = 0x175 then
    if bits 1 12 n = 0 then .ok (.gthB64 (bfld 4 19 n) (bfld 6 13 n) (bfld 1 0 n)) else
    .error (.badField op)
  else
  if op = 0x176 then
    if bits 1 12 n = 0 then .ok (.gthB128 (bfld 4 19 n) (bfld 6 13 n) (bfld 1 0 n)) else
    .error (.badField op)
  else
  if op = 0x177 then
    if bits 12 1 n = 0 ∧ bits 1 4 n = 0 then .ok (.sctB32 (bfld 4 19 n) (bfld 6 13 n) (bfld 7 5 n) (bfld 1 0 n)) else
    .error (.badField op)
  else
  if op = 0x178 then
    if bits 12 1 n = 0 ∧ bits 1 5 n = 0 then .ok (.sctB64 (bfld 4 19 n) (bfld 6 13 n) (bfld 6 6 n) (bfld 1 0 n)) else
    .error (.badField op)
  else
  if op = 0x179 then
    if bits 12 1 n = 0 ∧ bits 1 6 n = 0 then .ok (.sctB128 (bfld 4 19 n) (bfld 6 13 n) (bfld 5 7 n) (bfld 1 0 n)) else
    .error (.badField op)
  else
  .error (.unassigned op)

/-- Opcodes 0x180 to 0x18f. -/
def decodeGroup24 (op n : Nat) : Except Reject Instr :=
  if op = 0x180 then
    if bits 1 11 n = 0 then .ok (.qpushB32 (bfld 4 19 n) (bfld 7 12 n) (bfld 1 0 n)) else
    .error (.badField op)
  else
  if op = 0x181 then
    if bits 1 12 n = 0 then .ok (.qpushB64 (bfld 4 19 n) (bfld 6 13 n) (bfld 1 0 n)) else
    .error (.badField op)
  else
  if op = 0x182 then
    if bits 5 7 n = 0 then .ok (.qpopB32 (bfld 4 19 n) (bfld 7 12 n) (bfld 4 1 n) (bfld 1 0 n)) else
    .error (.badField op)
  else
  if op = 0x183 then
    if bits 5 8 n = 0 then .ok (.qpopB64 (bfld 4 19 n) (bfld 6 13 n) (bfld 4 1 n) (bfld 1 0 n)) else
    .error (.badField op)
  else
  if op = 0x184 then
    if bits 5 7 n = 0 then .ok (.qpeekB32 (bfld 4 19 n) (bfld 7 12 n) (bfld 4 1 n) (bfld 1 0 n)) else
    .error (.badField op)
  else
  if op = 0x185 then
    if bits 5 8 n = 0 then .ok (.qpeekB64 (bfld 4 19 n) (bfld 6 13 n) (bfld 4 1 n) (bfld 1 0 n)) else
    .error (.badField op)
  else
  if op = 0x186 then
    if bits 18 1 n = 0 ∧ bits 0 12 n = 0 then .ok (.qlen (bfld 4 19 n) (bfld 6 12 n)) else
    .error (.badField op)
  else
  .error (.unassigned op)

/-- Opcodes 0x1a0 to 0x1af. -/
def decodeGroup26 (op n : Nat) : Except Reject Instr :=
  if op = 0x1a0 then
    if bits 19 4 n = 0 then .ok (.bra (bfld 19 0 n)) else
    .error (.badField op)
  else
  if op = 0x1a1 then
    .ok (.brc (bfld 3 20 n) (bfld 1 19 n) (bfld 19 0 n))
  else
  if op = 0x1a2 then
    if bits 16 7 n = 0 ∧ bits 2 7 n = 0 then .ok (.brx (bfld 7 9 n) (bfld 2 0 n)) else
    if bits 16 7 n = 0 ∧ bits 2 7 n = 1 then .ok (.brxPack (bfld 7 9 n) (bfld 2 0 n)) else
    .error (.badField op)
  else
  if op = 0x1a3 then
    .ok (.call (bfld 3 20 n) (bfld 1 19 n) (bfld 19 0 n))
  else
  if op = 0x1a4 then
    if bits 16 7 n = 0 ∧ bits 2 8 n = 0 then .ok (.ret (bfld 6 10 n) (bfld 2 0 n)) else
    .error (.badField op)
  else
  if op = 0x1a5 then
    if bits 13 10 n = 0 ∧ bits 2 7 n = 0 then .ok (.jmpi (bfld 4 9 n) (bfld 2 0 n)) else
    .error (.badField op)
  else
  if op = 0x1a6 then
    if bits 16 7 n = 0 then .ok (.loop (bfld 7 9 n) (bfld 9 0 n)) else
    .error (.badField op)
  else
  if op = 0x1a7 then
    if bits 2 21 n = 0 then .ok (.exit (bfld 2 0 n)) else
    .error (.badField op)
  else
  if op = 0x1a8 then
    if bits 0 23 n = 0 then .ok (.nop) else
    .error (.badField op)
  else
  if op = 0x1a9 then
    if bits 0 23 n = 0 then .ok (.yield) else
    .error (.badField op)
  else
  if op = 0x1aa then
    if bits 9 14 n = 0 then .ok (.sleep (bfld 9 0 n)) else
    .error (.badField op)
  else
  .error (.unassigned op)

/-- Opcodes 0x1b0 to 0x1bf. -/
def decodeGroup27 (op n : Nat) : Except Reject Instr :=
  if op = 0x1b0 then
    if bits 9 14 n = 0 then .ok (.hregS (bfld 1 8 n) (bfld 8 0 n)) else
    .error (.badField op)
  else
  if op = 0x1b1 then
    if bits 9 14 n = 0 then .ok (.hregW (bfld 1 8 n) (bfld 8 0 n)) else
    .error (.badField op)
  else
  if op = 0x1b2 then
    if bits 9 14 n = 0 then .ok (.hregSw (bfld 1 8 n) (bfld 8 0 n)) else
    .error (.badField op)
  else
  if op = 0x1b3 then
    if bits 9 14 n = 0 then .ok (.hdrop (bfld 1 8 n) (bfld 8 0 n)) else
    .error (.badField op)
  else
  if op = 0x1b4 then
    if bits 9 14 n = 0 then .ok (.harr (bfld 1 8 n) (bfld 8 0 n)) else
    .error (.badField op)
  else
  if op = 0x1b5 then
    if bits 9 14 n = 0 then .ok (.harrCp (bfld 1 8 n) (bfld 8 0 n)) else
    .error (.badField op)
  else
  if op = 0x1b6 then
    if bits 9 14 n = 0 then .ok (.hwait (bfld 1 8 n) (bfld 8 0 n)) else
    .error (.badField op)
  else
  if op = 0x1b7 then
    if bits 9 14 n = 0 then .ok (.harrw (bfld 1 8 n) (bfld 8 0 n)) else
    .error (.badField op)
  else
  if op = 0x1b8 then
    if bits 19 4 n = 0 ∧ bits 9 7 n = 0 then .ok (.htest (bfld 3 16 n) (bfld 1 8 n) (bfld 8 0 n)) else
    .error (.badField op)
  else
  if op = 0x1b9 then
    if bits 0 23 n = 0 then .ok (.commit) else
    .error (.badField op)
  else
  if op = 0x1ba then
    if bits 0 23 n = 0 then .ok (.fence) else
    .error (.badField op)
  else
  if op = 0x1bb then
    if bits 0 23 n = 0 then .ok (.fenceR) else
    .error (.badField op)
  else
  .error (.unassigned op)

/-- Opcodes 0x1c0 to 0x1cf. -/
def decodeGroup28 (op n : Nat) : Except Reject Instr :=
  if op = 0x1c0 then
    if bits 20 3 n = 0 ∧ bits 9 1 n = 0 then .ok (.spawn (bfld 4 16 n) (bfld 6 10 n) (bfld 7 2 n) (bfld 2 0 n)) else
    .error (.badField op)
  else
  if op = 0x1c1 then
    .ok (.launch (bfld 7 16 n) (bfld 4 12 n) (bfld 7 5 n) (bfld 4 1 n) (bfld 1 0 n))
  else
  if op = 0x1c2 then
    if bits 16 1 n = 0 ∧ bits 1 4 n = 0 then .ok (.waitc (bfld 6 17 n) (bfld 4 12 n) (bfld 7 5 n) (bfld 1 0 n)) else
    .error (.badField op)
  else
  if op = 0x1c3 then
    if bits 16 7 n = 0 ∧ bits 8 1 n = 0 ∧ bits 0 2 n = 0 then .ok (.rsmp (bfld 7 9 n) (bfld 6 2 n)) else
    .error (.badField op)
  else
  if op = 0x1c4 then
    if bits 22 1 n = 0 ∧ bits 8 1 n = 0 ∧ bits 0 2 n = 0 then .ok (.rsmpU (bfld 6 16 n) (bfld 7 9 n) (bfld 6 2 n)) else
    .error (.badField op)
  else
  if op = 0x1c5 then
    if bits 16 1 n = 0 then .ok (.ratomAdd (bfld 6 17 n) (bfld 4 12 n) (bfld 7 5 n) (bfld 4 1 n) (bfld 1 0 n)) else
    .error (.badField op)
  else
  if op = 0x1c6 then
    if bits 16 1 n = 0 then .ok (.ratomMax (bfld 6 17 n) (bfld 4 12 n) (bfld 7 5 n) (bfld 4 1 n) (bfld 1 0 n)) else
    .error (.badField op)
  else
  if op = 0x1c7 then
    if bits 16 2 n = 0 then .ok (.ratomCas (bfld 5 18 n) (bfld 4 12 n) (bfld 7 5 n) (bfld 4 1 n) (bfld 1 0 n)) else
    .error (.badField op)
  else
  if op = 0x1c8 then
    if bits 16 1 n = 0 then .ok (.ratomExch (bfld 6 17 n) (bfld 4 12 n) (bfld 7 5 n) (bfld 4 1 n) (bfld 1 0 n)) else
    .error (.badField op)
  else
  if op = 0x1c9 then
    if bits 16 1 n = 0 ∧ bits 1 4 n = 0 then .ok (.rredAddB64 (bfld 6 17 n) (bfld 4 12 n) (bfld 7 5 n) (bfld 1 0 n)) else
    .error (.badField op)
  else
  if op = 0x1ca then
    if bits 1 4 n = 0 then .ok (.rredAddF32 (bfld 7 16 n) (bfld 4 12 n) (bfld 7 5 n) (bfld 1 0 n)) else
    .error (.badField op)
  else
  if op = 0x1cb then
    if bits 16 7 n = 0 ∧ bits 1 4 n = 0 then .ok (.rharr (bfld 4 12 n) (bfld 7 5 n) (bfld 1 0 n)) else
    .error (.badField op)
  else
  if op = 0x1cc then
    .ok (.rlaunch (bfld 7 16 n) (bfld 4 12 n) (bfld 7 5 n) (bfld 4 1 n) (bfld 1 0 n))
  else
  if op = 0x1cd then
    if bits 0 23 n = 0 then .ok (.rack) else
    .error (.badField op)
  else
  if op = 0x1ce then
    if bits 18 1 n = 0 ∧ bits 0 14 n = 0 then .ok (.coll (bfld 4 19 n) (bfld 4 14 n)) else
    .error (.badField op)
  else
  .error (.unassigned op)

/-- Opcodes 0x1d0 to 0x1df. -/
def decodeGroup29 (op n : Nat) : Except Reject Instr :=
  if op = 0x1d0 then
    if bits 7 12 n = 0 ∧ bits 1 2 n = 0 then .ok (.tld (bfld 4 19 n) (bfld 4 3 n) (bfld 1 0 n)) else
    .error (.badField op)
  else
  if op = 0x1d1 then
    if bits 7 12 n = 0 then .ok (.tldt (bfld 4 19 n) (bfld 4 3 n) (bfld 3 0 n)) else
    .error (.badField op)
  else
  if op = 0x1d2 then
    .ok (.mmaE4m3E4m3 (bfld 4 19 n) (bfld 1 18 n) (bfld 8 10 n) (bfld 3 7 n) (bfld 4 3 n) (bfld 3 0 n))
  else
  if op = 0x1d3 then
    .ok (.mmaE4m3E5m2 (bfld 4 19 n) (bfld 1 18 n) (bfld 8 10 n) (bfld 3 7 n) (bfld 4 3 n) (bfld 3 0 n))
  else
  if op = 0x1d4 then
    .ok (.mmaE5m2E4m3 (bfld 4 19 n) (bfld 1 18 n) (bfld 8 10 n) (bfld 3 7 n) (bfld 4 3 n) (bfld 3 0 n))
  else
  if op = 0x1d5 then
    .ok (.mmaE5m2E5m2 (bfld 4 19 n) (bfld 1 18 n) (bfld 8 10 n) (bfld 3 7 n) (bfld 4 3 n) (bfld 3 0 n))
  else
  if op = 0x1d6 then
    .ok (.mmaE2m1E2m1 (bfld 4 19 n) (bfld 1 18 n) (bfld 8 10 n) (bfld 3 7 n) (bfld 4 3 n) (bfld 3 0 n))
  else
  if op = 0x1d7 then
    .ok (.mmaE4m3E2m1 (bfld 4 19 n) (bfld 1 18 n) (bfld 8 10 n) (bfld 3 7 n) (bfld 4 3 n) (bfld 3 0 n))
  else
  if op = 0x1d8 then
    .ok (.mmaBf16Bf16 (bfld 4 19 n) (bfld 1 18 n) (bfld 8 10 n) (bfld 3 7 n) (bfld 4 3 n) (bfld 3 0 n))
  else
  if op = 0x1d9 then
    .ok (.mmasE4m3E4m3 (bfld 4 19 n) (bfld 1 18 n) (bfld 8 10 n) (bfld 3 7 n) (bfld 4 3 n) (bfld 3 0 n))
  else
  if op = 0x1da then
    .ok (.mmasE5m2E5m2 (bfld 4 19 n) (bfld 1 18 n) (bfld 8 10 n) (bfld 3 7 n) (bfld 4 3 n) (bfld 3 0 n))
  else
  if op = 0x1db then
    .ok (.mmasE2m1E2m1 (bfld 4 19 n) (bfld 1 18 n) (bfld 8 10 n) (bfld 3 7 n) (bfld 4 3 n) (bfld 3 0 n))
  else
  if op = 0x1dc then
    if bits 18 5 n = 0 ∧ bits 3 7 n = 0 then .ok (.zacc (bfld 8 10 n) (bfld 3 0 n)) else
    .error (.badField op)
  else
  if op = 0x1dd then
    if bits 18 5 n = 0 ∧ bits 7 3 n = 0 ∧ bits 1 2 n = 0 then .ok (.accld (bfld 8 10 n) (bfld 4 3 n) (bfld 1 0 n)) else
    .error (.badField op)
  else
  if op = 0x1de then
    if bits 18 5 n = 0 ∧ bits 7 3 n = 0 ∧ bits 1 2 n = 0 then .ok (.accst (bfld 8 10 n) (bfld 4 3 n) (bfld 1 0 n)) else
    .error (.badField op)
  else
  if op = 0x1df then
    if bits 18 5 n = 0 ∧ bits 3 7 n = 0 then .ok (.drain (bfld 8 10 n) (bfld 3 0 n)) else
    .error (.badField op)
  else
  .error (.unassigned op)

/-- Opcodes 0x1e0 to 0x1ef. -/
def decodeGroup30 (op n : Nat) : Except Reject Instr :=
  if op = 0x1e0 then
    if bits 18 5 n = 0 ∧ bits 7 3 n = 0 ∧ bits 1 2 n = 0 then .ok (.drainAxpy (bfld 8 10 n) (bfld 4 3 n) (bfld 1 0 n)) else
    .error (.badField op)
  else
  if op = 0x1e1 then
    if bits 18 5 n = 0 ∧ bits 7 3 n = 0 ∧ bits 0 3 n = 0 then .ok (.drainRed (bfld 8 10 n) (bfld 4 3 n)) else
    .error (.badField op)
  else
  if op = 0x1e2 then
    if bits 19 4 n = 0 ∧ bits 13 3 n = 0 ∧ bits 0 9 n = 0 then .ok (.setsp (bfld 3 16 n) (bfld 4 9 n)) else
    .error (.badField op)
  else
  if op = 0x1e3 then
    if bits 20 3 n = 0 ∧ bits 8 8 n = 0 then .ok (.swrd (bfld 4 16 n) (bfld 8 0 n)) else
    .error (.badField op)
  else
  if op = 0x1e4 then
    if bits 19 1 n = 0 then .ok (.mloop (bfld 3 20 n) (bfld 19 0 n)) else
    .error (.badField op)
  else
  if op = 0x1e5 then
    if bits 19 1 n = 0 then .ok (.mbr (bfld 3 20 n) (bfld 19 0 n)) else
    .error (.badField op)
  else
  if op = 0x1e6 then
    if bits 20 3 n = 0 ∧ bits 13 3 n = 0 then .ok (.madd (bfld 4 16 n) (bfld 4 9 n) (bfld 2 7 n) (bfld 7 0 n)) else
    .error (.badField op)
  else
  if op = 0x1e7 then
    if bits 20 3 n = 0 ∧ bits 13 3 n = 0 ∧ bits 0 9 n = 0 then .ok (.mmov (bfld 4 16 n) (bfld 4 9 n)) else
    .error (.badField op)
  else
  if op = 0x1e8 then
    if bits 20 3 n = 0 then .ok (.mmovI (bfld 4 16 n) (bfld 16 0 n)) else
    .error (.badField op)
  else
  if op = 0x1e9 then
    if bits 9 14 n = 0 then .ok (.mharr (bfld 1 8 n) (bfld 8 0 n)) else
    if bits 9 14 n = 128 then .ok (.mharrRegister (bfld 1 8 n) (bfld 8 0 n)) else
    if bits 9 14 n = 256 then .ok (.mharrDrop (bfld 1 8 n) (bfld 8 0 n)) else
    .error (.badField op)
  else
  if op = 0x1ea then
    if bits 9 14 n = 0 then .ok (.mhwait (bfld 1 8 n) (bfld 8 0 n)) else
    if bits 9 14 n = 128 then .ok (.mhwaitRegister (bfld 1 8 n) (bfld 8 0 n)) else
    .error (.badField op)
  else
  if op = 0x1eb then
    if bits 0 23 n = 0 then .ok (.mend) else
    .error (.badField op)
  else
  .error (.unassigned op)

/-- Opcodes 0x1f0 to 0x1ff. -/
def decodeGroup31 (op n : Nat) : Except Reject Instr :=
  if op = 0x1f0 then
    .ok (.srd (bfld 7 16 n) (bfld 16 0 n))
  else
  if op = 0x1f1 then
    if bits 22 1 n = 0 ∧ bits 0 16 n = 32 then .ok (.swrPoolrb (bfld 6 16 n)) else
    if bits 22 1 n = 0 ∧ bits 0 16 n = 33 then .ok (.swrPoolsb (bfld 6 16 n)) else
    if bits 22 1 n = 0 ∧ bits 0 16 n = 34 then .ok (.swrPoolcb (bfld 6 16 n)) else
    if bits 22 1 n = 0 ∧ bits 0 16 n = 81 then .ok (.swrTdbase (bfld 6 16 n)) else
    if bits 22 1 n = 0 ∧ bits 0 16 n = 82 then .ok (.swrTdcnt (bfld 6 16 n)) else
    if bits 22 1 n = 0 ∧ bits 0 16 n = 4161 then .ok (.swrDumpc (bfld 6 16 n)) else
    if bits 22 1 n = 0 ∧ bits 0 16 n = 4144 then .ok (.swrTaction (bfld 6 16 n)) else
    if bits 22 1 n = 0 ∧ bits 0 16 n = 4129 then .ok (.swrCposh (bfld 6 16 n)) else
    if bits 22 1 n = 0 ∧ bits 0 16 n = 4130 then .ok (.swrCposi (bfld 6 16 n)) else
    if bits 22 1 n = 0 ∧ bits 0 16 n = 4132 then .ok (.swrCpred (bfld 6 16 n)) else
    if bits 22 1 n = 0 ∧ bits 4 12 n = 284 then .ok (.swrXa (bfld 6 16 n) (bfld 4 0 n)) else
    if bits 22 1 n = 0 ∧ bits 4 12 n = 285 then .ok (.swrXah (bfld 6 16 n) (bfld 4 0 n)) else
    if bits 22 1 n = 0 ∧ bits 4 12 n = 287 then .ok (.swrXm (bfld 6 16 n) (bfld 4 0 n)) else
    if bits 22 1 n = 0 ∧ bits 6 10 n = 70 then .ok (.swrXs (bfld 6 16 n) (bfld 6 0 n)) else
    if bits 22 1 n = 0 ∧ bits 7 9 n = 34 then .ok (.swrXv (bfld 6 16 n) (bfld 7 0 n)) else
    .ok (.swr (bfld 7 16 n) (bfld 16 0 n))
  else
  if op = 0x1f2 then
    if bits 0 23 n = 0 then .ok (.eret) else
    .error (.badField op)
  else
  if op = 0x1f3 then
    if bits 0 23 n = 0 then .ok (.tlbiAll) else
    .error (.badField op)
  else
  if op = 0x1f4 then
    if bits 8 15 n = 0 ∧ bits 0 2 n = 0 then .ok (.tlbiAsid (bfld 6 2 n)) else
    .error (.badField op)
  else
  if op = 0x1f5 then
    if bits 13 10 n = 0 ∧ bits 8 1 n = 0 ∧ bits 0 2 n = 0 then .ok (.tlbiVa (bfld 4 9 n) (bfld 6 2 n)) else
    .error (.badField op)
  else
  if op = 0x1f6 then
    if bits 15 8 n = 0 ∧ bits 0 9 n = 0 then .ok (.halt (bfld 6 9 n)) else
    .error (.badField op)
  else
  if op = 0x1f7 then
    if bits 22 1 n = 0 ∧ bits 0 16 n = 0 then .ok (.clkrd (bfld 6 16 n)) else
    .error (.badField op)
  else
  if op = 0x1f8 then
    .ok (.callh (bfld 7 16 n) (bfld 7 9 n) (bfld 7 2 n) (bfld 2 0 n))
  else
  if op = 0x1f9 then
    if bits 9 14 n = 0 then .ok (.brk (bfld 9 0 n)) else
    .error (.badField op)
  else
  if op = 0x1fa then
    if bits 15 8 n = 0 then .ok (.tmark (bfld 6 9 n) (bfld 9 0 n)) else
    .error (.badField op)
  else
  if op = 0x1fb then
    if bits 22 1 n = 0 ∧ bits 5 11 n = 0 then .ok (.cntrd (bfld 6 16 n) (bfld 5 0 n)) else
    .error (.badField op)
  else
  .error (.unassigned op)

/-- The instruction a word encodes by its fields alone. -/
def decodeFields (n : Nat) : Except Reject Instr :=
  let op := bits 23 9 n
  let g := op / 16
  if g = 0 then decodeGroup0 op n else
  if g = 1 then decodeGroup1 op n else
  if g = 2 then decodeGroup2 op n else
  if g = 3 then decodeGroup3 op n else
  if g = 4 then decodeGroup4 op n else
  if g = 5 then decodeGroup5 op n else
  if g = 6 then decodeGroup6 op n else
  if g = 7 then decodeGroup7 op n else
  if g = 8 then decodeGroup8 op n else
  if g = 9 then decodeGroup9 op n else
  if g = 10 then decodeGroup10 op n else
  if g = 11 then decodeGroup11 op n else
  if g = 12 then decodeGroup12 op n else
  if g = 13 then decodeGroup13 op n else
  if g = 16 then decodeGroup16 op n else
  if g = 17 then decodeGroup17 op n else
  if g = 18 then decodeGroup18 op n else
  if g = 20 then decodeGroup20 op n else
  if g = 21 then decodeGroup21 op n else
  if g = 22 then decodeGroup22 op n else
  if g = 23 then decodeGroup23 op n else
  if g = 24 then decodeGroup24 op n else
  if g = 26 then decodeGroup26 op n else
  if g = 27 then decodeGroup27 op n else
  if g = 28 then decodeGroup28 op n else
  if g = 29 then decodeGroup29 op n else
  if g = 30 then decodeGroup30 op n else
  if g = 31 then decodeGroup31 op n else
  .error (.unassigned op)

/-- The instruction a word encodes (R28): its fields, and the conditions of `wellFormed`. -/
def decodeWord (n : Nat) : Except Reject Instr :=
  match decodeFields n with
  | .error e => .error e
  | .ok i => if i.wellFormed then .ok i else .error (.illFormed (bits 23 9 n))

/-- The instruction at the head of a list of bytes, little-endian (R9, R13), with the bytes
after it. Fewer than four bytes hold no word. -/
def decode : List (BitVec 8) → Option (Except Reject Instr × List (BitVec 8))
  | b0 :: b1 :: b2 :: b3 :: t =>
    some (decodeWord (b0.toNat + 256 * b1.toNat + 65536 * b2.toNat + 16777216 * b3.toNat), t)
  | _ => none

/-- The instruction read from a table word: its low `nbits` bits laid out as the four bytes the
machine stores. -/
def decodeTableWord (nbits w : Nat) : Option Instr :=
  let n := w % 2 ^ nbits
  match decode [BitVec.ofNat 8 n, BitVec.ofNat 8 (n / 256), BitVec.ofNat 8 (n / 65536),
      BitVec.ofNat 8 (n / 16777216)] with
  | some (.ok i, _) => some i
  | _ => none

/-- The word of an instruction, from the encodings of the table; events have none. -/
def encode : Instr → Option Nat
  | .sadd d a b => some (0x800000 + d.toNat * 65536 + a.toNat * 512 + b.toNat * 4)
  | .ssub d a b => some (0x1000000 + d.toNat * 65536 + a.toNat * 512 + b.toNat * 4)
  | .smul d a b => some (0x1800000 + d.toNat * 65536 + a.toNat * 512 + b.toNat * 4)
  | .smulhS64 d a b => some (0x2000000 + d.toNat * 65536 + a.toNat * 512 + b.toNat * 4)
  | .smulhN64 d a b => some (0x2800000 + d.toNat * 65536 + a.toNat * 512 + b.toNat * 4)
  | .sand d a b => some (0x3000000 + d.toNat * 65536 + a.toNat * 512 + b.toNat * 4)
  | .sor d a b => some (0x3800000 + d.toNat * 65536 + a.toNat * 512 + b.toNat * 4)
  | .sxor d a b => some (0x4000000 + d.toNat * 65536 + a.toNat * 512 + b.toNat * 4)
  | .sshl d a b => some (0x4800000 + d.toNat * 65536 + a.toNat * 512 + b.toNat * 4)
  | .sshr d a b => some (0x5000000 + d.toNat * 65536 + a.toNat * 512 + b.toNat * 4)
  | .ssra d a b => some (0x5800000 + d.toNat * 65536 + a.toNat * 512 + b.toNat * 4)
  | .sminS64 d a b => some (0x6000000 + d.toNat * 65536 + a.toNat * 512 + b.toNat * 4)
  | .sminN64 d a b => some (0x6800000 + d.toNat * 65536 + a.toNat * 512 + b.toNat * 4)
  | .smaxS64 d a b => some (0x7000000 + d.toNat * 65536 + a.toNat * 512 + b.toNat * 4)
  | .smaxN64 d a b => some (0x7800000 + d.toNat * 65536 + a.toNat * 512 + b.toNat * 4)
  | .ssel d a b => some (0x8000000 + d.toNat * 65536 + a.toNat * 512 + b.toNat * 4)
  | .saddImm d a i => some (0x8800000 + d.toNat * 65536 + a.toNat * 512 + i.toNat)
  | .ssubImm d a i => some (0x9000000 + d.toNat * 65536 + a.toNat * 512 + i.toNat)
  | .smulImm d a i => some (0x9800000 + d.toNat * 65536 + a.toNat * 512 + i.toNat)
  | .sandImm d a i => some (0xa000000 + d.toNat * 65536 + a.toNat * 512 + i.toNat)
  | .sorImm d a i => some (0xa800000 + d.toNat * 65536 + a.toNat * 512 + i.toNat)
  | .sxorImm d a i => some (0xb000000 + d.toNat * 65536 + a.toNat * 512 + i.toNat)
  | .sshlImm d a i => some (0xb800000 + d.toNat * 65536 + a.toNat * 512 + i.toNat)
  | .sshrImm d a i => some (0xc000000 + d.toNat * 65536 + a.toNat * 512 + i.toNat)
  | .ssraImm d a i => some (0xc800000 + d.toNat * 65536 + a.toNat * 512 + i.toNat)
  | .sminS64Imm d a i => some (0xd000000 + d.toNat * 65536 + a.toNat * 512 + i.toNat)
  | .smaxS64Imm d a i => some (0xd800000 + d.toNat * 65536 + a.toNat * 512 + i.toNat)
  | .scmpEq d a b => some (0xe000000 + d.toNat * 65536 + a.toNat * 512 + b.toNat * 4)
  | .scmpNe d a b => some (0xe800000 + d.toNat * 65536 + a.toNat * 512 + b.toNat * 4)
  | .scmpLtS64 d a b => some (0xf000000 + d.toNat * 65536 + a.toNat * 512 + b.toNat * 4)
  | .scmpLeS64 d a b => some (0xf800000 + d.toNat * 65536 + a.toNat * 512 + b.toNat * 4)
  | .scmpLtN64 d a b => some (0x10000000 + d.toNat * 65536 + a.toNat * 512 + b.toNat * 4)
  | .scmpLeN64 d a b => some (0x10800000 + d.toNat * 65536 + a.toNat * 512 + b.toNat * 4)
  | .smov d a => some (0x11000000 + d.toNat * 65536 + a.toNat * 512)
  | .smovi d i => some (0x11800000 + d.toNat * 65536 + i.toNat)
  | .sluiH1 d i => some (0x12000000 + d.toNat * 65536 + i.toNat)
  | .sluiH2 d i => some (0x12800000 + d.toNat * 65536 + i.toNat)
  | .sluiH3 d i => some (0x13000000 + d.toNat * 65536 + i.toNat)
  | .sclz d a => some (0x13800000 + d.toNat * 65536 + a.toNat * 512)
  | .spopc d a => some (0x14000000 + d.toNat * 65536 + a.toNat * 512)
  | .aadd d a b => some (0x18000000 + d.toNat * 65536 + a.toNat * 512 + b.toNat * 4)
  | .aaddImm d a i => some (0x18800000 + d.toNat * 65536 + a.toNat * 512 + i.toNat)
  | .amovA d a => some (0x19000000 + d.toNat * 65536 + a.toNat * 512)
  | .amovS d a => some (0x19800000 + d.toNat * 65536 + a.toNat * 512)
  | .aldiH0 d i => some (0x1a000000 + d.toNat * 65536 + i.toNat)
  | .aldiH1 d i => some (0x1a800000 + d.toNat * 65536 + i.toNat)
  | .aldiH2 d i => some (0x1b000000 + d.toNat * 65536 + i.toNat)
  | .aldiH3 d i => some (0x1b800000 + d.toNat * 65536 + i.toNat)
  | .aldiH4 d i => some (0x1c000000 + d.toNat * 65536 + i.toNat)
  | .acmp d a b => some (0x1c800000 + d.toNat * 65536 + a.toNat * 512 + b.toNat * 4)
  | .asplit d a b => some (0x1d000000 + d.toNat * 65536 + a.toNat * 512 + b.toNat * 4)
  | .vadd d a b p => some (0x20000000 + d.toNat * 65536 + a.toNat * 512 + b.toNat * 4 + p.toNat)
  | .vsub d a b p => some (0x20800000 + d.toNat * 65536 + a.toNat * 512 + b.toNat * 4 + p.toNat)
  | .vmul d a b p => some (0x21000000 + d.toNat * 65536 + a.toNat * 512 + b.toNat * 4 + p.toNat)
  | .vmulhS32 d a b p => some (0x21800000 + d.toNat * 65536 + a.toNat * 512 + b.toNat * 4 + p.toNat)
  | .vmulhN32 d a b p => some (0x22000000 + d.toNat * 65536 + a.toNat * 512 + b.toNat * 4 + p.toNat)
  | .vmad d a b p => some (0x22800000 + d.toNat * 65536 + a.toNat * 512 + b.toNat * 4 + p.toNat)
  | .vand d a b p => some (0x23000000 + d.toNat * 65536 + a.toNat * 512 + b.toNat * 4 + p.toNat)
  | .vor d a b p => some (0x23800000 + d.toNat * 65536 + a.toNat * 512 + b.toNat * 4 + p.toNat)
  | .vxor d a b p => some (0x24000000 + d.toNat * 65536 + a.toNat * 512 + b.toNat * 4 + p.toNat)
  | .vshl d a b p => some (0x24800000 + d.toNat * 65536 + a.toNat * 512 + b.toNat * 4 + p.toNat)
  | .vshr d a b p => some (0x25000000 + d.toNat * 65536 + a.toNat * 512 + b.toNat * 4 + p.toNat)
  | .vsra d a b p => some (0x25800000 + d.toNat * 65536 + a.toNat * 512 + b.toNat * 4 + p.toNat)
  | .vminS32 d a b p => some (0x26000000 + d.toNat * 65536 + a.toNat * 512 + b.toNat * 4 + p.toNat)
  | .vminN32 d a b p => some (0x26800000 + d.toNat * 65536 + a.toNat * 512 + b.toNat * 4 + p.toNat)
  | .vmaxS32 d a b p => some (0x27000000 + d.toNat * 65536 + a.toNat * 512 + b.toNat * 4 + p.toNat)
  | .vmaxN32 d a b p => some (0x27800000 + d.toNat * 65536 + a.toNat * 512 + b.toNat * 4 + p.toNat)
  | .vaddSatS32 d a b p => some (0x28000000 + d.toNat * 65536 + a.toNat * 512 + b.toNat * 4 + p.toNat)
  | .vsubSatS32 d a b p => some (0x28800000 + d.toNat * 65536 + a.toNat * 512 + b.toNat * 4 + p.toNat)
  | .vaddSatN32 d a b p => some (0x29000000 + d.toNat * 65536 + a.toNat * 512 + b.toNat * 4 + p.toNat)
  | .vsubSatN32 d a b p => some (0x29800000 + d.toNat * 65536 + a.toNat * 512 + b.toNat * 4 + p.toNat)
  | .vaddN64 d a b p => some (0x2a000000 + d.toNat * 131072 + a.toNat * 1024 + b.toNat * 8 + p.toNat)
  | .vsubN64 d a b p => some (0x2a800000 + d.toNat * 131072 + a.toNat * 1024 + b.toNat * 8 + p.toNat)
  | .vmulN64 d a b p => some (0x2b000000 + d.toNat * 131072 + a.toNat * 1024 + b.toNat * 8 + p.toNat)
  | .vshlB64 d a b p => some (0x2b800000 + d.toNat * 131072 + a.toNat * 1024 + b.toNat * 4 + p.toNat)
  | .vshrB64 d a b p => some (0x2c000000 + d.toNat * 131072 + a.toNat * 1024 + b.toNat * 4 + p.toNat)
  | .vsraS64 d a b p => some (0x2c800000 + d.toNat * 131072 + a.toNat * 1024 + b.toNat * 4 + p.toNat)
  | .vabsS32 d a p => some (0x2d000000 + d.toNat * 65536 + a.toNat * 512 + p.toNat)
  | .vclz d a p => some (0x2d800000 + d.toNat * 65536 + a.toNat * 512 + p.toNat)
  | .vpopc d a p => some (0x2e000000 + d.toNat * 65536 + a.toNat * 512 + p.toNat)
  | .vmov d a p => some (0x2e800000 + d.toNat * 65536 + a.toNat * 512 + p.toNat)
  | .vmovScalar d a p => some (0x2e800004 + d.toNat * 65536 + a.toNat * 512 + p.toNat)
  | .vsel d a b k => some (0x2f000000 + d.toNat * 65536 + a.toNat * 512 + b.toNat * 4 + k.toNat)
  | .vaddImm d a i => some (0x30000000 + d.toNat * 65536 + a.toNat * 512 + i.toNat)
  | .vandImm d a i => some (0x30800000 + d.toNat * 65536 + a.toNat * 512 + i.toNat)
  | .vorImm d a i => some (0x31000000 + d.toNat * 65536 + a.toNat * 512 + i.toNat)
  | .vxorImm d a i => some (0x31800000 + d.toNat * 65536 + a.toNat * 512 + i.toNat)
  | .vshlImm d a i => some (0x32000000 + d.toNat * 65536 + a.toNat * 512 + i.toNat)
  | .vshrImm d a i => some (0x32800000 + d.toNat * 65536 + a.toNat * 512 + i.toNat)
  | .vsraImm d a i => some (0x33000000 + d.toNat * 65536 + a.toNat * 512 + i.toNat)
  | .vmulImm d a i => some (0x33800000 + d.toNat * 65536 + a.toNat * 512 + i.toNat)
  | .vminS32Imm d a i => some (0x34000000 + d.toNat * 65536 + a.toNat * 512 + i.toNat)
  | .vmaxS32Imm d a i => some (0x34800000 + d.toNat * 65536 + a.toNat * 512 + i.toNat)
  | .vbfeS32 d a b p => some (0x35000000 + d.toNat * 65536 + a.toNat * 512 + b.toNat * 4 + p.toNat)
  | .vbfeN32 d a b p => some (0x35800000 + d.toNat * 65536 + a.toNat * 512 + b.toNat * 4 + p.toNat)
  | .vbfi d a b p => some (0x36000000 + d.toNat * 65536 + a.toNat * 512 + b.toNat * 4 + p.toNat)
  | .vmovi d i => some (0x36800000 + d.toNat * 65536 + i.toNat)
  | .vmoviHi d i => some (0x37000000 + d.toNat * 65536 + i.toNat)
  | .vcmpEq d a b p => some (0x38000000 + d.toNat * 65536 + a.toNat * 512 + b.toNat * 4 + p.toNat)
  | .vcmpNe d a b p => some (0x38800000 + d.toNat * 65536 + a.toNat * 512 + b.toNat * 4 + p.toNat)
  | .vcmpLtS32 d a b p => some (0x39000000 + d.toNat * 65536 + a.toNat * 512 + b.toNat * 4 + p.toNat)
  | .vcmpLeS32 d a b p => some (0x39800000 + d.toNat * 65536 + a.toNat * 512 + b.toNat * 4 + p.toNat)
  | .vcmpLtN32 d a b p => some (0x3a000000 + d.toNat * 65536 + a.toNat * 512 + b.toNat * 4 + p.toNat)
  | .vcmpLeN32 d a b p => some (0x3a800000 + d.toNat * 65536 + a.toNat * 512 + b.toNat * 4 + p.toNat)
  | .vdp4S8 d a b p => some (0x3b000000 + d.toNat * 65536 + a.toNat * 512 + b.toNat * 4 + p.toNat)
  | .vdp4N8 d a b p => some (0x3b800000 + d.toNat * 65536 + a.toNat * 512 + b.toNat * 4 + p.toNat)
  | .vdp2S16 d a b p => some (0x3c000000 + d.toNat * 65536 + a.toNat * 512 + b.toNat * 4 + p.toNat)
  | .vfadd d a b p => some (0x40000000 + d.toNat * 65536 + a.toNat * 512 + b.toNat * 4 + p.toNat)
  | .vfsub d a b p => some (0x40800000 + d.toNat * 65536 + a.toNat * 512 + b.toNat * 4 + p.toNat)
  | .vfmul d a b p => some (0x41000000 + d.toNat * 65536 + a.toNat * 512 + b.toNat * 4 + p.toNat)
  | .vfma d a b p => some (0x41800000 + d.toNat * 65536 + a.toNat * 512 + b.toNat * 4 + p.toNat)
  | .vfmin d a b p => some (0x42000000 + d.toNat * 65536 + a.toNat * 512 + b.toNat * 4 + p.toNat)
  | .vfmax d a b p => some (0x42800000 + d.toNat * 65536 + a.toNat * 512 + b.toNat * 4 + p.toNat)
  | .vfscl d a b p => some (0x43000000 + d.toNat * 65536 + a.toNat * 512 + b.toNat * 4 + p.toNat)
  | .vfaddRz d a b p => some (0x43800000 + d.toNat * 65536 + a.toNat * 512 + b.toNat * 4 + p.toNat)
  | .vfmulRz d a b p => some (0x44000000 + d.toNat * 65536 + a.toNat * 512 + b.toNat * 4 + p.toNat)
  | .vfmaRz d a b p => some (0x44800000 + d.toNat * 65536 + a.toNat * 512 + b.toNat * 4 + p.toNat)
  | .vfcmpEq d a b p => some (0x45000000 + d.toNat * 65536 + a.toNat * 512 + b.toNat * 4 + p.toNat)
  | .vfcmpNe d a b p => some (0x45800000 + d.toNat * 65536 + a.toNat * 512 + b.toNat * 4 + p.toNat)
  | .vfcmpLt d a b p => some (0x46000000 + d.toNat * 65536 + a.toNat * 512 + b.toNat * 4 + p.toNat)
  | .vfcmpLe d a b p => some (0x46800000 + d.toNat * 65536 + a.toNat * 512 + b.toNat * 4 + p.toNat)
  | .vfcmpUn d a b p => some (0x47000000 + d.toNat * 65536 + a.toNat * 512 + b.toNat * 4 + p.toNat)
  | .vfrcp d a p => some (0x48000000 + d.toNat * 65536 + a.toNat * 512 + p.toNat)
  | .vfrsq d a p => some (0x48800000 + d.toNat * 65536 + a.toNat * 512 + p.toNat)
  | .vfexp2 d a p => some (0x49000000 + d.toNat * 65536 + a.toNat * 512 + p.toNat)
  | .vflog2 d a p => some (0x49800000 + d.toNat * 65536 + a.toNat * 512 + p.toNat)
  | .vftanh d a p => some (0x4a000000 + d.toNat * 65536 + a.toNat * 512 + p.toNat)
  | .vfclass d a p => some (0x4a800000 + d.toNat * 65536 + a.toNat * 512 + p.toNat)
  | .vhadd d a b p => some (0x4c000000 + d.toNat * 65536 + a.toNat * 512 + b.toNat * 4 + p.toNat)
  | .vhmul d a b p => some (0x4c800000 + d.toNat * 65536 + a.toNat * 512 + b.toNat * 4 + p.toNat)
  | .vhfma d a b p => some (0x4d000000 + d.toNat * 65536 + a.toNat * 512 + b.toNat * 4 + p.toNat)
  | .vhsub d a b p => some (0x4d800000 + d.toNat * 65536 + a.toNat * 512 + b.toNat * 4 + p.toNat)
  | .vhmin d a b p => some (0x4e000000 + d.toNat * 65536 + a.toNat * 512 + b.toNat * 4 + p.toNat)
  | .vhmax d a b p => some (0x4e800000 + d.toNat * 65536 + a.toNat * 512 + b.toNat * 4 + p.toNat)
  | .vcvtF32Rn d a e s => some (0x50000000 + d.toNat * 65536 + a.toNat * 512 + e.toNat * 8 + s.toNat)
  | .vcvtF32Rz d a e s => some (0x50800000 + d.toNat * 65536 + a.toNat * 512 + e.toNat * 8 + s.toNat)
  | .vcvtF32Sr d a e s => some (0x51000000 + d.toNat * 65536 + a.toNat * 512 + e.toNat * 8 + s.toNat)
  | .vcvtBf16Rn d a p e s => some (0x51800000 + d.toNat * 65536 + a.toNat * 512 + p.toNat * 64 + e.toNat * 8 + s.toNat)
  | .vcvtBf16Rz d a p e s => some (0x52000000 + d.toNat * 65536 + a.toNat * 512 + p.toNat * 64 + e.toNat * 8 + s.toNat)
  | .vcvtBf16Sr d a p e s => some (0x52800000 + d.toNat * 65536 + a.toNat * 512 + p.toNat * 64 + e.toNat * 8 + s.toNat)
  | .vcvtE4m3Rn d a p e s => some (0x53000000 + d.toNat * 65536 + a.toNat * 512 + p.toNat * 64 + e.toNat * 8 + s.toNat)
  | .vcvtE4m3Rz d a p e s => some (0x53800000 + d.toNat * 65536 + a.toNat * 512 + p.toNat * 64 + e.toNat * 8 + s.toNat)
  | .vcvtE4m3Sr d a p e s => some (0x54000000 + d.toNat * 65536 + a.toNat * 512 + p.toNat * 64 + e.toNat * 8 + s.toNat)
  | .vcvtE5m2Rn d a p e s => some (0x54800000 + d.toNat * 65536 + a.toNat * 512 + p.toNat * 64 + e.toNat * 8 + s.toNat)
  | .vcvtE5m2Rz d a p e s => some (0x55000000 + d.toNat * 65536 + a.toNat * 512 + p.toNat * 64 + e.toNat * 8 + s.toNat)
  | .vcvtE5m2Sr d a p e s => some (0x55800000 + d.toNat * 65536 + a.toNat * 512 + p.toNat * 64 + e.toNat * 8 + s.toNat)
  | .vcvtE2m1Rn d a p e s => some (0x56000000 + d.toNat * 65536 + a.toNat * 512 + p.toNat * 64 + e.toNat * 8 + s.toNat)
  | .vcvtE2m1Rz d a p e s => some (0x56800000 + d.toNat * 65536 + a.toNat * 512 + p.toNat * 64 + e.toNat * 8 + s.toNat)
  | .vcvtE2m1Sr d a p e s => some (0x57000000 + d.toNat * 65536 + a.toNat * 512 + p.toNat * 64 + e.toNat * 8 + s.toNat)
  | .vcvtS32Rn d a e s => some (0x57800000 + d.toNat * 65536 + a.toNat * 512 + e.toNat * 8 + s.toNat)
  | .vcvtS32Rz d a e s => some (0x58000000 + d.toNat * 65536 + a.toNat * 512 + e.toNat * 8 + s.toNat)
  | .vcvtS32Sr d a e s => some (0x58800000 + d.toNat * 65536 + a.toNat * 512 + e.toNat * 8 + s.toNat)
  | .vcvtN32Rn d a e s => some (0x59000000 + d.toNat * 65536 + a.toNat * 512 + e.toNat * 8 + s.toNat)
  | .vcvtN32Rz d a e s => some (0x59800000 + d.toNat * 65536 + a.toNat * 512 + e.toNat * 8 + s.toNat)
  | .vcvtN32Sr d a e s => some (0x5a000000 + d.toNat * 65536 + a.toNat * 512 + e.toNat * 8 + s.toNat)
  | .vpackB8 d a b p => some (0x5c000000 + d.toNat * 65536 + a.toNat * 512 + b.toNat * 4 + p.toNat)
  | .vpackB16 d a b p => some (0x5c800000 + d.toNat * 65536 + a.toNat * 512 + b.toNat * 4 + p.toNat)
  | .vunpkB4 d a i => some (0x5d000000 + d.toNat * 65536 + a.toNat * 512 + i.toNat)
  | .vunpkB4Sx d a i => some (0x5d000100 + d.toNat * 65536 + a.toNat * 512 + i.toNat)
  | .vunpkB8 d a i => some (0x5d800000 + d.toNat * 65536 + a.toNat * 512 + i.toNat)
  | .vunpkB8Sx d a i => some (0x5d800100 + d.toNat * 65536 + a.toNat * 512 + i.toNat)
  | .vunpkB16 d a i => some (0x5e000000 + d.toNat * 65536 + a.toNat * 512 + i.toNat)
  | .vunpkB16Sx d a i => some (0x5e000100 + d.toNat * 65536 + a.toNat * 512 + i.toNat)
  | .vqntE4m3E8m0 d a b p => some (0x60000000 + d.toNat * 65536 + a.toNat * 512 + b.toNat * 4 + p.toNat)
  | .vqntE4m3S32scale d a b p => some (0x60800000 + d.toNat * 65536 + a.toNat * 512 + b.toNat * 4 + p.toNat)
  | .vqntE5m2E8m0 d a b p => some (0x61000000 + d.toNat * 65536 + a.toNat * 512 + b.toNat * 4 + p.toNat)
  | .vqntE5m2S32scale d a b p => some (0x61800000 + d.toNat * 65536 + a.toNat * 512 + b.toNat * 4 + p.toNat)
  | .vqntE2m1E8m0 d a b p => some (0x62000000 + d.toNat * 65536 + a.toNat * 512 + b.toNat * 4 + p.toNat)
  | .vqntE2m1S32scale d a b p => some (0x62800000 + d.toNat * 65536 + a.toNat * 512 + b.toNat * 4 + p.toNat)
  | .vdqntE4m3E8m0 d a b p => some (0x64000000 + d.toNat * 65536 + a.toNat * 512 + b.toNat * 4 + p.toNat)
  | .vdqntE4m3S32scale d a b p => some (0x64800000 + d.toNat * 65536 + a.toNat * 512 + b.toNat * 4 + p.toNat)
  | .vdqntE5m2E8m0 d a b p => some (0x65000000 + d.toNat * 65536 + a.toNat * 512 + b.toNat * 4 + p.toNat)
  | .vdqntE5m2S32scale d a b p => some (0x65800000 + d.toNat * 65536 + a.toNat * 512 + b.toNat * 4 + p.toNat)
  | .vdqntE2m1E8m0 d a b p => some (0x66000000 + d.toNat * 65536 + a.toNat * 512 + b.toNat * 4 + p.toNat)
  | .vdqntE2m1S32scale d a b p => some (0x66800000 + d.toNat * 65536 + a.toNat * 512 + b.toNat * 4 + p.toNat)
  | .vfrndRn d a p => some (0x67000000 + d.toNat * 65536 + a.toNat * 512 + p.toNat)
  | .vfrndRz d a p => some (0x67800000 + d.toNat * 65536 + a.toNat * 512 + p.toNat)
  | .vfrndRm d a p => some (0x68000000 + d.toNat * 65536 + a.toNat * 512 + p.toNat)
  | .vfrndRp d a p => some (0x68800000 + d.toNat * 65536 + a.toNat * 512 + p.toNat)
  | .qswpH d a p => some (0x80000000 + d.toNat * 65536 + a.toNat * 512 + p.toNat)
  | .qswpV d a p => some (0x80800000 + d.toNat * 65536 + a.toNat * 512 + p.toNat)
  | .qswpD d a p => some (0x81000000 + d.toNat * 65536 + a.toNat * 512 + p.toNat)
  | .qbcast d a j => some (0x81800000 + d.toNat * 65536 + a.toNat * 512 + j.toNat)
  | .vshflIdx d a b p => some (0x82000000 + d.toNat * 65536 + a.toNat * 512 + b.toNat * 4 + p.toNat)
  | .vshflUp d a c => some (0x82800000 + d.toNat * 65536 + a.toNat * 512 + c.toNat)
  | .vshflDown d a c => some (0x83000000 + d.toNat * 65536 + a.toNat * 512 + c.toNat)
  | .vshflXor d a c => some (0x83800000 + d.toNat * 65536 + a.toNat * 512 + c.toNat)
  | .vredAddS32 d a p => some (0x84000000 + d.toNat * 65536 + a.toNat * 512 + p.toNat)
  | .vredAddF32 d a p => some (0x84800000 + d.toNat * 65536 + a.toNat * 512 + p.toNat)
  | .vredMinS32 d a p => some (0x85000000 + d.toNat * 65536 + a.toNat * 512 + p.toNat)
  | .vredMaxS32 d a p => some (0x85800000 + d.toNat * 65536 + a.toNat * 512 + p.toNat)
  | .vredMinF32 d a p => some (0x86000000 + d.toNat * 65536 + a.toNat * 512 + p.toNat)
  | .vredMaxF32 d a p => some (0x86800000 + d.toNat * 65536 + a.toNat * 512 + p.toNat)
  | .vredAndB32 d a p => some (0x87000000 + d.toNat * 65536 + a.toNat * 512 + p.toNat)
  | .vredOrB32 d a p => some (0x87800000 + d.toNat * 65536 + a.toNat * 512 + p.toNat)
  | .vredXorB32 d a p => some (0x88000000 + d.toNat * 65536 + a.toNat * 512 + p.toNat)
  | .vscanAddS32 d a p => some (0x88800000 + d.toNat * 65536 + a.toNat * 512 + p.toNat)
  | .vscanAddF32 d a p => some (0x89000000 + d.toNat * 65536 + a.toNat * 512 + p.toNat)
  | .vscanMinS32 d a p => some (0x89800000 + d.toNat * 65536 + a.toNat * 512 + p.toNat)
  | .vscanMaxS32 d a p => some (0x8a000000 + d.toNat * 65536 + a.toNat * 512 + p.toNat)
  | .vscanOrB32 d a p => some (0x8a800000 + d.toNat * 65536 + a.toNat * 512 + p.toNat)
  | .vballot d a p => some (0x8b000000 + d.toNat * 65536 + a.toNat * 512 + p.toNat)
  | .vvoteAll d a p => some (0x8b800000 + d.toNat * 65536 + a.toNat * 512 + p.toNat)
  | .vvoteAny d a p => some (0x8c000000 + d.toNat * 65536 + a.toNat * 512 + p.toNat)
  | .vvoteUni d a p => some (0x8c800000 + d.toNat * 65536 + a.toNat * 512 + p.toNat)
  | .kand d a b p => some (0x90000000 + d.toNat * 65536 + a.toNat * 512 + b.toNat * 4 + p.toNat)
  | .kor d a b p => some (0x90800000 + d.toNat * 65536 + a.toNat * 512 + b.toNat * 4 + p.toNat)
  | .kxor d a b p => some (0x91000000 + d.toNat * 65536 + a.toNat * 512 + b.toNat * 4 + p.toNat)
  | .knot d a p => some (0x91800000 + d.toNat * 65536 + a.toNat * 512 + p.toNat)
  | .kmov d a p => some (0x92000000 + d.toNat * 65536 + a.toNat * 512 + p.toNat)
  | .kmovV2k d a p => some (0x92800000 + d.toNat * 65536 + a.toNat * 512 + p.toNat)
  | .kmovK2v d a p => some (0x93000000 + d.toNat * 65536 + a.toNat * 512 + p.toNat)
  | .kpopc d a => some (0x93800000 + d.toNat * 65536 + a.toNat * 512)
  | .vldB8 d a o l p => some (0xa0000000 + d.toNat * 65536 + a.toNat * 4096 + o.toNat * 32 + l.toNat * 2 + p.toNat)
  | .vldB16 d a o l p => some (0xa0800000 + d.toNat * 65536 + a.toNat * 4096 + o.toNat * 32 + l.toNat * 2 + p.toNat)
  | .vldB32 d a o l p => some (0xa1000000 + d.toNat * 65536 + a.toNat * 4096 + o.toNat * 32 + l.toNat * 2 + p.toNat)
  | .vldB64 d a o l p => some (0xa1800000 + d.toNat * 131072 + a.toNat * 4096 + o.toNat * 32 + l.toNat * 2 + p.toNat)
  | .vldB128 d a o l p => some (0xa2000000 + d.toNat * 262144 + a.toNat * 4096 + o.toNat * 32 + l.toNat * 2 + p.toNat)
  | .vstB8 s a o p => some (0xa2800000 + s.toNat * 65536 + a.toNat * 4096 + o.toNat * 32 + p.toNat)
  | .vstB16 s a o p => some (0xa3000000 + s.toNat * 65536 + a.toNat * 4096 + o.toNat * 32 + p.toNat)
  | .vstB32 s a o p => some (0xa3800000 + s.toNat * 65536 + a.toNat * 4096 + o.toNat * 32 + p.toNat)
  | .vstB64 s a o p => some (0xa4000000 + s.toNat * 131072 + a.toNat * 4096 + o.toNat * 32 + p.toNat)
  | .vstB128 s a o p => some (0xa4800000 + s.toNat * 262144 + a.toNat * 4096 + o.toNat * 32 + p.toNat)
  | .vldsB32 d a o l p => some (0xa5000000 + d.toNat * 65536 + a.toNat * 4096 + o.toNat * 32 + l.toNat * 2 + p.toNat)
  | .vldsB64 d a o l p => some (0xa5800000 + d.toNat * 131072 + a.toNat * 4096 + o.toNat * 32 + l.toNat * 2 + p.toNat)
  | .vldsB128 d a o l p => some (0xa6000000 + d.toNat * 262144 + a.toNat * 4096 + o.toNat * 32 + l.toNat * 2 + p.toNat)
  | .vstsB32 s a o p => some (0xa6800000 + s.toNat * 65536 + a.toNat * 4096 + o.toNat * 32 + p.toNat)
  | .vstsB64 s a o p => some (0xa7000000 + s.toNat * 131072 + a.toNat * 4096 + o.toNat * 32 + p.toNat)
  | .vstsB128 s a o p => some (0xa7800000 + s.toNat * 262144 + a.toNat * 4096 + o.toNat * 32 + p.toNat)
  | .sld d a i l => some (0xa8000000 + d.toNat * 65536 + a.toNat * 4096 + i.toNat * 16 + l.toNat)
  | .sst s a i => some (0xa8800000 + s.toNat * 65536 + a.toNat * 4096 + i.toNat * 16)
  | .tldg d a l p => some (0xa9000fe0 + d.toNat * 524288 + a.toNat * 4096 + l.toNat * 2 + p.toNat)
  | .pref n a o p => some (0xa9800000 + n.toNat * 65536 + a.toNat * 4096 + o.toNat * 32 + p.toNat)
  | .atomAddB32 d a o l p => some (0xaa000000 + d.toNat * 65536 + a.toNat * 4096 + o.toNat * 32 + l.toNat * 2 + p.toNat)
  | .atomMinS32 d a o l p => some (0xaa800000 + d.toNat * 65536 + a.toNat * 4096 + o.toNat * 32 + l.toNat * 2 + p.toNat)
  | .atomMaxS32 d a o l p => some (0xab000000 + d.toNat * 65536 + a.toNat * 4096 + o.toNat * 32 + l.toNat * 2 + p.toNat)
  | .atomAndB32 d a o l p => some (0xab800000 + d.toNat * 65536 + a.toNat * 4096 + o.toNat * 32 + l.toNat * 2 + p.toNat)
  | .atomOrB32 d a o l p => some (0xac000000 + d.toNat * 65536 + a.toNat * 4096 + o.toNat * 32 + l.toNat * 2 + p.toNat)
  | .atomXorB32 d a o l p => some (0xac800000 + d.toNat * 65536 + a.toNat * 4096 + o.toNat * 32 + l.toNat * 2 + p.toNat)
  | .atomExchB32 d a o l p => some (0xad000000 + d.toNat * 65536 + a.toNat * 4096 + o.toNat * 32 + l.toNat * 2 + p.toNat)
  | .atomCasB32 d a o l p => some (0xad800000 + d.toNat * 131072 + a.toNat * 4096 + o.toNat * 32 + l.toNat * 2 + p.toNat)
  | .atomAddB64 d a o l p => some (0xae000000 + d.toNat * 131072 + a.toNat * 4096 + o.toNat * 32 + l.toNat * 2 + p.toNat)
  | .atomExchB64 d a o l p => some (0xae800000 + d.toNat * 131072 + a.toNat * 4096 + o.toNat * 32 + l.toNat * 2 + p.toNat)
  | .atomCasB64 d a o l p => some (0xaf000000 + d.toNat * 262144 + a.toNat * 4096 + o.toNat * 32 + l.toNat * 2 + p.toNat)
  | .atomAddF32 d a o l p => some (0xaf800000 + d.toNat * 65536 + a.toNat * 4096 + o.toNat * 32 + l.toNat * 2 + p.toNat)
  | .redAddB32 s a o p => some (0xb0000000 + s.toNat * 65536 + a.toNat * 4096 + o.toNat * 32 + p.toNat)
  | .redMinS32 s a o p => some (0xb0800000 + s.toNat * 65536 + a.toNat * 4096 + o.toNat * 32 + p.toNat)
  | .redMaxS32 s a o p => some (0xb1000000 + s.toNat * 65536 + a.toNat * 4096 + o.toNat * 32 + p.toNat)
  | .redOrB32 s a o p => some (0xb1800000 + s.toNat * 65536 + a.toNat * 4096 + o.toNat * 32 + p.toNat)
  | .redAddB64 s a o p => some (0xb2000000 + s.toNat * 131072 + a.toNat * 4096 + o.toNat * 32 + p.toNat)
  | .redAddF32 s a o p => some (0xb2800000 + s.toNat * 65536 + a.toNat * 4096 + o.toNat * 32 + p.toNat)
  | .redAddBf16 s a o p => some (0xb3000000 + s.toNat * 65536 + a.toNat * 4096 + o.toNat * 32 + p.toNat)
  | .atomsAddB32 d a o l p => some (0xb3800000 + d.toNat * 65536 + a.toNat * 4096 + o.toNat * 32 + l.toNat * 2 + p.toNat)
  | .atomsAddB32NonReturning d a o p => some (0xb380001e + d.toNat * 65536 + a.toNat * 4096 + o.toNat * 32 + p.toNat)
  | .atomsMinS32 d a o l p => some (0xb4000000 + d.toNat * 65536 + a.toNat * 4096 + o.toNat * 32 + l.toNat * 2 + p.toNat)
  | .atomsMinS32NonReturning d a o p => some (0xb400001e + d.toNat * 65536 + a.toNat * 4096 + o.toNat * 32 + p.toNat)
  | .atomsMaxS32 d a o l p => some (0xb4800000 + d.toNat * 65536 + a.toNat * 4096 + o.toNat * 32 + l.toNat * 2 + p.toNat)
  | .atomsMaxS32NonReturning d a o p => some (0xb480001e + d.toNat * 65536 + a.toNat * 4096 + o.toNat * 32 + p.toNat)
  | .atomsExchB32 d a o l p => some (0xb5000000 + d.toNat * 65536 + a.toNat * 4096 + o.toNat * 32 + l.toNat * 2 + p.toNat)
  | .atomsExchB32NonReturning d a o p => some (0xb500001e + d.toNat * 65536 + a.toNat * 4096 + o.toNat * 32 + p.toNat)
  | .atomsCasB32 d a o l p => some (0xb5800000 + d.toNat * 131072 + a.toNat * 4096 + o.toNat * 32 + l.toNat * 2 + p.toNat)
  | .atomsCasB32NonReturning d a o p => some (0xb580001e + d.toNat * 131072 + a.toNat * 4096 + o.toNat * 32 + p.toNat)
  | .atomsAddF32 d a o l p => some (0xb6000000 + d.toNat * 65536 + a.toNat * 4096 + o.toNat * 32 + l.toNat * 2 + p.toNat)
  | .atomsAddF32NonReturning d a o p => some (0xb600001e + d.toNat * 65536 + a.toNat * 4096 + o.toNat * 32 + p.toNat)
  | .redstAnyF32 s a o p => some (0xb6800000 + s.toNat * 65536 + a.toNat * 4096 + o.toNat * 32 + p.toNat)
  | .redstOrdF32 s a o p => some (0xb7000000 + s.toNat * 131072 + a.toNat * 4096 + o.toNat * 32 + p.toNat)
  | .redstAnyB32 s a o p => some (0xb7800000 + s.toNat * 65536 + a.toNat * 4096 + o.toNat * 32 + p.toNat)
  | .cpy q a => some (0xb8000000 + q.toNat * 524288 + a.toNat * 16384)
  | .cpytRow q a => some (0xb8800000 + q.toNat * 524288 + a.toNat * 16384)
  | .cpytCol q a => some (0xb9000000 + q.toNat * 524288 + a.toNat * 16384)
  | .cpym q a => some (0xb9800000 + q.toNat * 524288 + a.toNat * 16384)
  | .gthB32 q a p => some (0xba000000 + q.toNat * 524288 + a.toNat * 8192 + p.toNat)
  | .gthB64 q a p => some (0xba800000 + q.toNat * 524288 + a.toNat * 8192 + p.toNat)
  | .gthB128 q a p => some (0xbb000000 + q.toNat * 524288 + a.toNat * 8192 + p.toNat)
  | .sctB32 q a b p => some (0xbb800000 + q.toNat * 524288 + a.toNat * 8192 + b.toNat * 32 + p.toNat)
  | .sctB64 q a b p => some (0xbc000000 + q.toNat * 524288 + a.toNat * 8192 + b.toNat * 64 + p.toNat)
  | .sctB128 q a b p => some (0xbc800000 + q.toNat * 524288 + a.toNat * 8192 + b.toNat * 128 + p.toNat)
  | .qpushB32 q a p => some (0xc0000000 + q.toNat * 524288 + a.toNat * 4096 + p.toNat)
  | .qpushB64 q a p => some (0xc0800000 + q.toNat * 524288 + a.toNat * 8192 + p.toNat)
  | .qpopB32 q a l p => some (0xc1000000 + q.toNat * 524288 + a.toNat * 4096 + l.toNat * 2 + p.toNat)
  | .qpopB64 q a l p => some (0xc1800000 + q.toNat * 524288 + a.toNat * 8192 + l.toNat * 2 + p.toNat)
  | .qpeekB32 q a l p => some (0xc2000000 + q.toNat * 524288 + a.toNat * 4096 + l.toNat * 2 + p.toNat)
  | .qpeekB64 q a l p => some (0xc2800000 + q.toNat * 524288 + a.toNat * 8192 + l.toNat * 2 + p.toNat)
  | .qlen q a => some (0xc3000000 + q.toNat * 524288 + a.toNat * 4096)
  | .bra f => some (0xd0000000 + f.toNat)
  | .brc k n f => some (0xd0800000 + k.toNat * 1048576 + n.toNat * 524288 + f.toNat)
  | .brx a p => some (0xd1000000 + a.toNat * 512 + p.toNat)
  | .brxPack a p => some (0xd1000004 + a.toNat * 512 + p.toNat)
  | .call k n f => some (0xd1800000 + k.toNat * 1048576 + n.toNat * 524288 + f.toNat)
  | .ret a p => some (0xd2000000 + a.toNat * 1024 + p.toNat)
  | .jmpi a p => some (0xd2800000 + a.toNat * 512 + p.toNat)
  | .loop a i => some (0xd3000000 + a.toNat * 512 + i.toNat)
  | .exit p => some (0xd3800000 + p.toNat)
  | .nop => some (0xd4000000)
  | .yield => some (0xd4800000)
  | .sleep i => some (0xd5000000 + i.toNat)
  | .hregS c h => some (0xd8000000 + c.toNat * 256 + h.toNat)
  | .hregW c h => some (0xd8800000 + c.toNat * 256 + h.toNat)
  | .hregSw c h => some (0xd9000000 + c.toNat * 256 + h.toNat)
  | .hdrop c h => some (0xd9800000 + c.toNat * 256 + h.toNat)
  | .harr c h => some (0xda000000 + c.toNat * 256 + h.toNat)
  | .harrCp c h => some (0xda800000 + c.toNat * 256 + h.toNat)
  | .hwait c h => some (0xdb000000 + c.toNat * 256 + h.toNat)
  | .harrw c h => some (0xdb800000 + c.toNat * 256 + h.toNat)
  | .htest d c h => some (0xdc000000 + d.toNat * 65536 + c.toNat * 256 + h.toNat)
  | .commit => some (0xdc800000)
  | .fence => some (0xdd000000)
  | .fenceR => some (0xdd800000)
  | .spawn d a b p => some (0xe0000000 + d.toNat * 65536 + a.toNat * 1024 + b.toNat * 4 + p.toNat)
  | .launch d a o l p => some (0xe0800000 + d.toNat * 65536 + a.toNat * 4096 + o.toNat * 32 + l.toNat * 2 + p.toNat)
  | .waitc s a o p => some (0xe1000000 + s.toNat * 131072 + a.toNat * 4096 + o.toNat * 32 + p.toNat)
  | .rsmp a b => some (0xe1800000 + a.toNat * 512 + b.toNat * 4)
  | .rsmpU d a b => some (0xe2000000 + d.toNat * 65536 + a.toNat * 512 + b.toNat * 4)
  | .ratomAdd d a o l p => some (0xe2800000 + d.toNat * 131072 + a.toNat * 4096 + o.toNat * 32 + l.toNat * 2 + p.toNat)
  | .ratomMax d a o l p => some (0xe3000000 + d.toNat * 131072 + a.toNat * 4096 + o.toNat * 32 + l.toNat * 2 + p.toNat)
  | .ratomCas d a o l p => some (0xe3800000 + d.toNat * 262144 + a.toNat * 4096 + o.toNat * 32 + l.toNat * 2 + p.toNat)
  | .ratomExch d a o l p => some (0xe4000000 + d.toNat * 131072 + a.toNat * 4096 + o.toNat * 32 + l.toNat * 2 + p.toNat)
  | .rredAddB64 s a o p => some (0xe4800000 + s.toNat * 131072 + a.toNat * 4096 + o.toNat * 32 + p.toNat)
  | .rredAddF32 s a o p => some (0xe5000000 + s.toNat * 65536 + a.toNat * 4096 + o.toNat * 32 + p.toNat)
  | .rharr a o p => some (0xe5800000 + a.toNat * 4096 + o.toNat * 32 + p.toNat)
  | .rlaunch d a o l p => some (0xe6000000 + d.toNat * 65536 + a.toNat * 4096 + o.toNat * 32 + l.toNat * 2 + p.toNat)
  | .rack => some (0xe6800000)
  | .coll q a => some (0xe7000000 + q.toNat * 524288 + a.toNat * 16384)
  | .tld t b m => some (0xe8000000 + t.toNat * 524288 + b.toNat * 8 + m.toNat)
  | .tldt t b m => some (0xe8800000 + t.toNat * 524288 + b.toNat * 8 + m.toNat)
  | .mmaE4m3E4m3 t k c r b m => some (0xe9000000 + t.toNat * 524288 + k.toNat * 262144 + c.toNat * 1024 + r.toNat * 128 + b.toNat * 8 + m.toNat)
  | .mmaE4m3E5m2 t k c r b m => some (0xe9800000 + t.toNat * 524288 + k.toNat * 262144 + c.toNat * 1024 + r.toNat * 128 + b.toNat * 8 + m.toNat)
  | .mmaE5m2E4m3 t k c r b m => some (0xea000000 + t.toNat * 524288 + k.toNat * 262144 + c.toNat * 1024 + r.toNat * 128 + b.toNat * 8 + m.toNat)
  | .mmaE5m2E5m2 t k c r b m => some (0xea800000 + t.toNat * 524288 + k.toNat * 262144 + c.toNat * 1024 + r.toNat * 128 + b.toNat * 8 + m.toNat)
  | .mmaE2m1E2m1 t k c r b m => some (0xeb000000 + t.toNat * 524288 + k.toNat * 262144 + c.toNat * 1024 + r.toNat * 128 + b.toNat * 8 + m.toNat)
  | .mmaE4m3E2m1 t k c r b m => some (0xeb800000 + t.toNat * 524288 + k.toNat * 262144 + c.toNat * 1024 + r.toNat * 128 + b.toNat * 8 + m.toNat)
  | .mmaBf16Bf16 t k c r b m => some (0xec000000 + t.toNat * 524288 + k.toNat * 262144 + c.toNat * 1024 + r.toNat * 128 + b.toNat * 8 + m.toNat)
  | .mmasE4m3E4m3 t k c r b s => some (0xec800000 + t.toNat * 524288 + k.toNat * 262144 + c.toNat * 1024 + r.toNat * 128 + b.toNat * 8 + s.toNat)
  | .mmasE5m2E5m2 t k c r b s => some (0xed000000 + t.toNat * 524288 + k.toNat * 262144 + c.toNat * 1024 + r.toNat * 128 + b.toNat * 8 + s.toNat)
  | .mmasE2m1E2m1 t k c r b s => some (0xed800000 + t.toNat * 524288 + k.toNat * 262144 + c.toNat * 1024 + r.toNat * 128 + b.toNat * 8 + s.toNat)
  | .zacc c m => some (0xee000000 + c.toNat * 1024 + m.toNat)
  | .accld c b m => some (0xee800000 + c.toNat * 1024 + b.toNat * 8 + m.toNat)
  | .accst c b m => some (0xef000000 + c.toNat * 1024 + b.toNat * 8 + m.toNat)
  | .drain c e => some (0xef800000 + c.toNat * 1024 + e.toNat)
  | .drainAxpy c b m => some (0xf0000000 + c.toNat * 1024 + b.toNat * 8 + m.toNat)
  | .drainRed c b => some (0xf0800000 + c.toNat * 1024 + b.toNat * 8)
  | .setsp p a => some (0xf1000000 + p.toNat * 65536 + a.toNat * 512)
  | .swrd d c => some (0xf1800000 + d.toNat * 65536 + c.toNat)
  | .mloop k f => some (0xf2000000 + k.toNat * 1048576 + f.toNat)
  | .mbr k f => some (0xf2800000 + k.toNat * 1048576 + f.toNat)
  | .madd d a s n => some (0xf3000000 + d.toNat * 65536 + a.toNat * 512 + s.toNat * 128 + n.toNat)
  | .mmov d a => some (0xf3800000 + d.toNat * 65536 + a.toNat * 512)
  | .mmovI d i => some (0xf4000000 + d.toNat * 65536 + i.toNat)
  | .mharr c h => some (0xf4800000 + c.toNat * 256 + h.toNat)
  | .mharrRegister c h => some (0xf4810000 + c.toNat * 256 + h.toNat)
  | .mharrDrop c h => some (0xf4820000 + c.toNat * 256 + h.toNat)
  | .mhwait c h => some (0xf5000000 + c.toNat * 256 + h.toNat)
  | .mhwaitRegister c h => some (0xf5010000 + c.toNat * 256 + h.toNat)
  | .mend => some (0xf5800000)
  | .srd d s => some (0xf8000000 + d.toNat * 65536 + s.toNat)
  | .swr d s => some (0xf8800000 + d.toNat * 65536 + s.toNat)
  | .swrPoolrb d => some (0xf8800020 + d.toNat * 65536)
  | .swrPoolsb d => some (0xf8800021 + d.toNat * 65536)
  | .swrPoolcb d => some (0xf8800022 + d.toNat * 65536)
  | .swrTdbase d => some (0xf8800051 + d.toNat * 65536)
  | .swrTdcnt d => some (0xf8800052 + d.toNat * 65536)
  | .swrDumpc d => some (0xf8801041 + d.toNat * 65536)
  | .swrTaction d => some (0xf8801030 + d.toNat * 65536)
  | .swrCposh d => some (0xf8801021 + d.toNat * 65536)
  | .swrCposi d => some (0xf8801022 + d.toNat * 65536)
  | .swrCpred d => some (0xf8801024 + d.toNat * 65536)
  | .swrXv d r => some (0xf8801100 + d.toNat * 65536 + r.toNat)
  | .swrXs d r => some (0xf8801180 + d.toNat * 65536 + r.toNat)
  | .swrXa d r => some (0xf88011c0 + d.toNat * 65536 + r.toNat)
  | .swrXah d r => some (0xf88011d0 + d.toNat * 65536 + r.toNat)
  | .swrXm d r => some (0xf88011f0 + d.toNat * 65536 + r.toNat)
  | .eret => some (0xf9000000)
  | .tlbiAll => some (0xf9800000)
  | .tlbiAsid b => some (0xfa000000 + b.toNat * 4)
  | .tlbiVa a b => some (0xfa800000 + a.toNat * 512 + b.toNat * 4)
  | .halt a => some (0xfb000000 + a.toNat * 512)
  | .clkrd d => some (0xfb800000 + d.toNat * 65536)
  | .callh d a b p => some (0xfc000000 + d.toNat * 65536 + a.toNat * 512 + b.toNat * 4 + p.toNat)
  | .brk i => some (0xfc800000 + i.toNat)
  | .tmark a i => some (0xfd000000 + a.toNat * 512 + i.toNat)
  | .cntrd d n => some (0xfd800000 + d.toNat * 65536 + n.toNat)
  | .evTrapHeatEntry .. | .evWatchdogFault .. | .evBroadcastFetch .. | .evSleepExpiry .. | .evLoadLands .. | .evStoreAcknowledged ..
  | .evRedstOrdArrival .. | .evRedstOrdResend .. | .evPredictorNearReturn .. | .evCopyEngineAccept .. | .evScratchpadLineWritten .. | .evCopyComplete ..
  | .evGatherEngineAccept .. | .evGatherResult .. | .evScatterComplete .. | .evGatheringClose .. | .evBinTimerExpiry .. | .evBinHeatLaunch ..
  | .evLaunchRecordTake .. | .evGridDependenceSatisfied .. | .evTeamPlacement | .evUnitStart .. | .evSwapThresholdExpiry .. | .evShadowWritebackDone ..
  | .evSwapIn .. | .evDetTimeSlice .. | .evTeamExit .. | .evResampleCompletion .. | .evTeamRollback .. | .evDumpBegin ..
  | .evDumpFinish .. | .evEngineGrant .. | .evMmaStepStart .. | .evMmaComplete .. | .evTileLoadLands .. | .evAccumulatorWritePerforms ..
  | .evDrainRowPush .. | .evCollAccept .. | .evCollMessageReceipt .. | .evCollResend .. | .evCollJoinTimeout .. | .evCollComplete ..
  | .evFabricAccessArrival .. | .evUpliAtomicArrival .. | .evFabricResponse .. | .evFabricRetryLaterResend .. | .evFabricAccessTimeout .. | .evRelayRequestReceipt ..
  | .evRelayResponseReceipt .. | .evRelayAcknowledgementReceipt .. | .evRelayCloseReceipt .. | .evRelayRetransmission .. | .evRelayRetryLaterResend .. | .evRelayRetryLaterTimeout ..
  | .evRelayCloseResend .. | .evRelayRestart .. | .evPageWalkComplete .. | .evEqualityDigestCompare .. | .evStallSample .. | .evTraceDrain ..
  | .evPacerMeasurement .. | .evVfStateChangeDone .. | .evAgeingCheck .. | .evPatrolScrub .. | .evLaunchFrameInline .. | .evLaunchFramePointer ..
  | .evHostRead .. | .evHostWrite .. | .evTrapCallReply .. | .evFrameResend | .evWavelengthFailure | .evLinkDown
  | .evLinkRestored | .evUalinkPortTraining .. | .evColdReset | .evForcedWarmReset | .evCreateContext .. | .evRemoveContext ..
  | .evReleaseFrozenContext .. | .evInvalidateTranslationsAsid .. | .evInvalidateTranslationsVa .. | .evWriteDomainTableEntry .. | .evWriteExportTableEntry .. | .evWriteGroupTableEntry ..
  | .evWriteRemapTable .. | .evSetThentry .. | .evTraceSetup .. | .evEventCounterSelect .. | .evEventCounterZero .. | .evReadBlackBox ..
  | .evSetGtc .. | .evSetPowerLimit .. | .evCopyFrame .. | .evSetScaleMetadataMode .. | .evAttest .. | .evFirmwareUpdate ..
  | .evWarmReset .. | .evStop .. | .evRun .. | .evRunto .. | .evRuntoPointReached .. | .evStep ..
  | .evQstep .. | .evRead .. | .evWrite .. | .evReturn .. | .evArithmeticCycle .. | .evGtcTick
  | .evZaccComplete .. | .evAccumulatorTileRestore .. | .evWavelengthRestored | .evOpinaFrameDrop .. | .evDebuggerAttach .. => none

end

end Sys2Proof
end

