-- ==== Sys2Proof/Machine/Map.lean ====
section
/-! DEFINITION. Operations of the sparse maps and the bit, sign and byte helpers that every
other file uses. -/

namespace Sys2Proof

/-- The value stored at key `k`, or `d` when the key is not listed. -/
def mget {α : Type} (d : α) (m : FMap α) (k : Nat) : α :=
  match m with
  | [] => d
  | (k', v) :: t => if k' = k then v else mget d t k

/-- The listed value at key `k`, if any. -/
def mfind {α : Type} (m : FMap α) (k : Nat) : Option α :=
  match m with
  | [] => none
  | (k', v) :: t => if k' = k then some v else mfind t k

/-- Remove every entry of key `k`. -/
def mdel {α : Type} (m : FMap α) (k : Nat) : FMap α :=
  match m with
  | [] => []
  | (k', v) :: t => if k' = k then mdel t k else (k', v) :: mdel t k

/-- Insert before the first larger key; used on maps that do not list `k`. -/
def mins {α : Type} (m : FMap α) (k : Nat) (v : α) : FMap α :=
  match m with
  | [] => [(k, v)]
  | (k', v') :: t => if k < k' then (k, v) :: (k', v') :: t else (k', v') :: mins t k v

/-- Store `v` at key `k`, replacing what stood there. -/
def mput {α : Type} (m : FMap α) (k : Nat) (v : α) : FMap α :=
  mins (mdel m k) k v

/-- Store `v` at key `k` in a map whose unlisted keys read as `d`: storing the default
removes the entry, so that equal contents are equal lists. -/
def mset {α : Type} [DecidableEq α] (d : α) (m : FMap α) (k : Nat) (v : α) : FMap α :=
  if v = d then mdel m k else mput m k v

/-- Keys strictly rising. -/
def mrising {α : Type} : FMap α → Bool
  | [] => true
  | [_] => true
  | (k, _) :: (k', v') :: t => decide (k < k') && mrising ((k', v') :: t)

/-- The canonical form: keys strictly rising and no entry equal to the default. -/
def mwf {α : Type} [DecidableEq α] (d : α) (m : FMap α) : Bool :=
  mrising m && m.all (fun e => decide (e.2 ≠ d))

/-- The numbers 0, 1, …, n − 1. -/
def upto (n : Nat) : List Nat := List.range n

/-- Bit `i` of a number. -/
def bitAt (x i : Nat) : Bool := x / 2 ^ i % 2 == 1

/-- The `w` bits of `x` from bit `lo` up. -/
def fld (x lo w : Nat) : Nat := x / 2 ^ lo % 2 ^ w

/-- Two's complement reading of the low `w` bits of `x`. -/
def sextN (w x : Nat) : Int :=
  let y := x % 2 ^ w
  if 2 * y < 2 ^ w then (y : Int) else (y : Int) - (2 ^ w : Nat)

/-- `n` bytes of a number, least significant first (R9). -/
def toBytes : Nat → Nat → List (BitVec 8)
  | 0, _ => []
  | n + 1, x => BitVec.ofNat 8 (x % 256) :: toBytes n (x / 256)

/-- The number whose bytes are listed least significant first (R9). -/
def ofBytes : List (BitVec 8) → Nat
  | [] => 0
  | b :: t => b.toNat + 256 * ofBytes t

/-- Replace element `i` of a list, leaving a list too short as it is. -/
def setNth {α : Type} (l : List α) (i : Nat) (v : α) : List α :=
  match l, i with
  | [], _ => []
  | _ :: t, 0 => v :: t
  | x :: t, i + 1 => x :: setNth t i v

/-- Remove element `i` of a list. -/
def delNth {α : Type} (l : List α) (i : Nat) : List α :=
  match l, i with
  | [], _ => []
  | _ :: t, 0 => t
  | x :: t, i + 1 => x :: delNth t i

/-- A lane mask from a predicate over lanes. -/
def maskOf (p : Nat → Bool) : BitVec 32 :=
  BitVec.ofNat 32 ((upto 32).foldl (fun acc l => if p l then acc + 2 ^ l else acc) 0)

/-- Whether lane `l` belongs to the mask. -/
def inMask (m : BitVec 32) (l : Nat) : Bool := m.getLsbD l

/-- The lanes of a mask, ascending. -/
def lanesOf (m : BitVec 32) : List Nat := (upto 32).filter (inMask m)

/-- The lowest lane of a mask, 0 for the empty one. -/
def lowLane (m : BitVec 32) : Nat := (lanesOf m).headD 0

/-- Ceiling of a division. -/
def cdiv (a b : Nat) : Nat := (a + b - 1) / b

/-- Floor of the base-2 logarithm by repeated halving, with fuel. -/
def log2Fuel : Nat → Nat → Nat
  | 0, _ => 0
  | f + 1, x => if x < 2 then 0 else log2Fuel f (x / 2) + 1

/-- Number of bits needed to write `x` (0 for 0). -/
def bitLen (x : Nat) : Nat := if x = 0 then 0 else Nat.log2 x + 1

end Sys2Proof
end

