-- ==== Sys2Proof/Machine/Float.lean ====
section
/-! DEFINITION. Number formats, exact values, ROUND and the random source (R91–R106). -/

namespace Sys2Proof

/-- Element formats (R91, R94). -/
inductive Fmt where
  | f32 | bf16 | e4m3 | e5m2 | e2m1 | s32 | n32
  deriving DecidableEq, Repr

/-- Rounding modes (R99); `rm` and `rp` serve VFRND only. -/
inductive RMode where
  | rn | rz | sr | rm | rp
  deriving DecidableEq, Repr

/-- An exact value: NaN, an infinity, or ± `m` × 2^`e` (with a signed zero). -/
inductive FVal where
  | nan
  | inf (neg : Bool)
  | fin (neg : Bool) (m : Nat) (e : Int)
  deriving DecidableEq, Repr

/-- Mantissa width (R91). -/
def Fmt.mbits : Fmt → Nat
  | .f32 => 23 | .bf16 => 7 | .e4m3 => 3 | .e5m2 => 2 | .e2m1 => 1 | .s32 => 0 | .n32 => 0

/-- Exponent width (R91). -/
def Fmt.ebits : Fmt → Nat
  | .f32 => 8 | .bf16 => 8 | .e4m3 => 4 | .e5m2 => 5 | .e2m1 => 2 | .s32 => 0 | .n32 => 0

/-- Exponent bias (R91). -/
def Fmt.bias : Fmt → Int
  | .f32 => 127 | .bf16 => 127 | .e4m3 => 7 | .e5m2 => 15 | .e2m1 => 1 | .s32 => 0 | .n32 => 0

/-- Exponent of the smallest normal value. -/
def Fmt.emin (f : Fmt) : Int := 1 - f.bias

/-- Exponent of the largest finite binade. -/
def Fmt.emax : Fmt → Int
  | .f32 => 127 | .bf16 => 127 | .e4m3 => 8 | .e5m2 => 15 | .e2m1 => 2 | .s32 => 0 | .n32 => 0

/-- Significand of the largest finite value, in units of the spacing of its binade. -/
def Fmt.kmax : Fmt → Nat
  | .f32 => 2 ^ 24 - 1 | .bf16 => 2 ^ 8 - 1 | .e4m3 => 14 | .e5m2 => 7 | .e2m1 => 3
  | .s32 => 0 | .n32 => 0

/-- Width of an encoding in bits. -/
def Fmt.width : Fmt → Nat
  | .f32 => 32 | .bf16 => 16 | .e4m3 => 8 | .e5m2 => 8 | .e2m1 => 4 | .s32 => 32 | .n32 => 32

/-- Integer formats (R94). -/
def Fmt.isInt : Fmt → Bool
  | .s32 => true | .n32 => true | _ => false

/-- The narrow formats of R101. -/
def Fmt.isNarrow : Fmt → Bool
  | .e4m3 => true | .e5m2 => true | .e2m1 => true | _ => false

/-- The canonical NaN, or what a NaN input gives (R92, R100 column "NaN in"). -/
def Fmt.nanOf : Fmt → Nat
  | .f32 => 0x7FC00000 | .bf16 => 0x7FC0 | .e4m3 => 0x7F | .e5m2 => 0x7E | .e2m1 => 0
  | .s32 => 0 | .n32 => 0

/-- The sign bit of an encoding. -/
def signBit (f : Fmt) (neg : Bool) : Nat := if neg then 2 ^ (f.width - 1) else 0

/-- The value of an encoding (R91, R92). -/
def valOf (f : Fmt) (x : Nat) : FVal :=
  match f with
  | .s32 => let z := sextN 32 x; .fin (decide (z < 0)) z.natAbs 0
  | .n32 => .fin false (x % 2 ^ 32) 0
  | _ =>
    let mb := f.mbits
    let neg := x / 2 ^ (f.width - 1) % 2 == 1
    let e := x / 2 ^ mb % 2 ^ f.ebits
    let m := x % 2 ^ mb
    let top := e == 2 ^ f.ebits - 1
    if top && (f == .f32 || f == .bf16 || f == .e5m2) then
      (if m = 0 then .inf neg else .nan)
    else if top && f == .e4m3 && m == 7 then .nan
    else if e = 0 then .fin neg m (f.emin - mb)
    else .fin neg (2 ^ mb + m) ((e : Int) - f.bias - mb)

/-- `m` × 2^`e` as numerator and denominator. -/
def ratio (m : Nat) (e : Int) : Nat × Nat :=
  if 0 ≤ e then (m * 2 ^ e.toNat, 1) else (m, 2 ^ (-e).toNat)

/-- Floor of log2 of a positive ratio. -/
def ilog2 (num den : Nat) : Int :=
  let e0 : Int := (Nat.log2 num : Int) - (Nat.log2 den : Int)
  let ge := if 0 ≤ e0 then den * 2 ^ e0.toNat ≤ num else den ≤ num * 2 ^ (-e0).toNat
  if ge then e0 else e0 - 1

/-- Quotient of a ratio by 2^`t`: floor, remainder and divisor. -/
def divPow (num den : Nat) (t : Int) : Nat × Nat × Nat :=
  let n := if 0 ≤ t then num else num * 2 ^ (-t).toNat
  let d := if 0 ≤ t then den * 2 ^ t.toNat else den
  (n / d, n % d, d)

/-- MIX64 (R104). -/
def mix64 (z : W64) : W64 :=
  let z := (z ^^^ (z >>> 30)) * 0xBF58476D1CE4E5B9#64
  let z := (z ^^^ (z >>> 27)) * 0x94D049BB133111EB#64
  z ^^^ (z >>> 31)

/-- DRAW (R104). -/
def draw (key stream ctr : W64) : W64 :=
  mix64 ((key ^^^ mix64 stream) + (ctr + 1#64) * 0x9E3779B97F4A7C15#64)

/-- The choice between `k` and `k + 1` when the exact value lies `r / d` of the way between
them (R99); `t` is DRAW >> 11. -/
def pick (mode : RMode) (neg : Bool) (k r d t : Nat) : Nat :=
  if r = 0 then k
  else match mode with
    | .rz => k
    | .rn => if 2 * r < d then k else if d < 2 * r then k + 1 else if k % 2 = 0 then k else k + 1
    | .sr => if t * d < r * 2 ^ 53 then k + 1 else k
    | .rm => if neg then k + 1 else k
    | .rp => if neg then k else k + 1

/-- Overflow and infinity results (R100); `isInf` marks an infinite input. -/
def ovf (f : Fmt) (neg : Bool) (mode : RMode) (isInf : Bool) : Nat :=
  let s := signBit f neg
  match f with
  | .f32 => if isInf || mode != .rz then s + 0x7F800000 else s + 0x7F7FFFFF
  | .bf16 => if isInf || mode != .rz then s + 0x7F80 else s + 0x7F7F
  | .e4m3 => if isInf then 0x7F else s + 0x7E
  | .e5m2 => if isInf || mode != .rz then s + 0x7C else s + 0x7B
  | .e2m1 => s + 0x7
  | .s32 => if neg then 2 ^ 31 else 2 ^ 31 - 1
  | .n32 => if neg then 0 else 2 ^ 32 - 1

/-- Magnitude below the smallest subnormal of a narrow format, and not zero (R101). -/
def belowMin (f : Fmt) (num den : Nat) : Bool :=
  f.isNarrow && num != 0 && decide (num * 2 ^ ((f.mbits : Int) - f.emin).toNat < den)

/-- ROUND of the exact magnitude `num / den` (R99). -/
def roundRatio (f : Fmt) (mode0 : RMode) (t : Nat) (neg : Bool) (num den : Nat) : Nat :=
  if num = 0 then (if f.isInt then 0 else signBit f neg)
  else
    let mode := if belowMin f num den then RMode.sr else mode0
    if f.isInt then
      let k := pick mode neg (num / den) (num % den) den t
      match f with
      | .s32 => if neg then (if 2 ^ 31 < k then ovf f neg mode false else (2 ^ 32 - k) % 2 ^ 32)
          else if 2 ^ 31 ≤ k then ovf f neg mode false else k
      | _ => if neg then 0 else if 2 ^ 32 ≤ k then ovf f neg mode false else k
    else
      let e := max f.emin (min f.emax (ilog2 num den))
      let q := divPow num den (e - f.mbits)
      let k := pick mode neg q.1 q.2.1 q.2.2 t
      if e = f.emax ∧ f.kmax < k then ovf f neg mode false
      else signBit f neg + (e - f.emin).toNat * 2 ^ f.mbits + k

/-- ROUND (R99): the encoding in `f` of an exact value; `t` is DRAW >> 11 of the consumer. -/
def round (f : Fmt) (mode : RMode) (t : Nat) (v : FVal) : Nat :=
  match v with
  | .nan => f.nanOf
  | .inf neg => ovf f neg mode true
  | .fin neg m e => let r := ratio m e; roundRatio f mode t neg r.1 r.2

/-- The rounding of every deterministic consumer: round to nearest even. -/
def roundRn (f : Fmt) (v : FVal) : Nat := round f .rn 0 v

/-- Signed numerators of two dyadics on a common exponent. -/
def alignTo (e : Int) (neg : Bool) (m : Nat) (e' : Int) : Int :=
  let z : Int := (m * 2 ^ (e' - e).toNat : Nat)
  if neg then -z else z

/-- Exact sum (R102). -/
def addV (a b : FVal) : FVal :=
  match a, b with
  | .nan, _ => .nan
  | _, .nan => .nan
  | .inf s, .inf s' => if s = s' then .inf s else .nan
  | .inf s, _ => .inf s
  | _, .inf s => .inf s
  | .fin s m e, .fin s' m' e' =>
    if m = 0 ∧ m' = 0 then .fin (s && s') 0 0
    else
      let lo := min e e'
      let z := alignTo lo s m e + alignTo lo s' m' e'
      if z = 0 then .fin false 0 0 else .fin (decide (z < 0)) z.natAbs lo

/-- Negation. -/
def negV : FVal → FVal
  | .nan => .nan
  | .inf s => .inf !s
  | .fin s m e => .fin (!s) m e

/-- Exact product (R102). -/
def mulV (a b : FVal) : FVal :=
  match a, b with
  | .nan, _ => .nan
  | _, .nan => .nan
  | .inf s, .inf s' => .inf (s != s')
  | .inf s, .fin s' m _ => if m = 0 then .nan else .inf (s != s')
  | .fin s m _, .inf s' => if m = 0 then .nan else .inf (s != s')
  | .fin s m e, .fin s' m' e' => .fin (s != s') (m * m') (e + e')

/-- Comparison of two values that are not NaN: less than. -/
def ltV (a b : FVal) : Bool :=
  match a, b with
  | .nan, _ => false
  | _, .nan => false
  | .inf s, .inf s' => s && !s'
  | .inf s, _ => s
  | _, .inf s' => !s'
  | .fin s m e, .fin s' m' e' =>
    let lo := min e e'
    decide (alignTo lo s m e < alignTo lo s' m' e')

/-- Numerical equality of two values that are not NaN; the zeros are equal. -/
def eqV (a b : FVal) : Bool :=
  match a, b with
  | .nan, _ => false
  | _, .nan => false
  | .inf s, .inf s' => s == s'
  | .inf _, _ => false
  | _, .inf _ => false
  | .fin s m e, .fin s' m' e' =>
    let lo := min e e'
    decide (alignTo lo s m e = alignTo lo s' m' e')

/-- Whether an encoding is a NaN. -/
def isNaN (f : Fmt) (x : Nat) : Bool := valOf f x == .nan

/-- VFMIN and VFMAX (R146): an exact copy of the smaller or larger operand. −0 is below +0. -/
def minMax (f : Fmt) (wantMax : Bool) (a b : Nat) : Nat :=
  if isNaN f a && isNaN f b then f.nanOf
  else if isNaN f a then b
  else if isNaN f b then a
  else
    let va := valOf f a
    let vb := valOf f b
    let less := ltV va vb ||
      (eqV va vb && a / 2 ^ (f.width - 1) % 2 == 1 && b / 2 ^ (f.width - 1) % 2 == 0)
    if less then (if wantMax then b else a) else (if wantMax then a else b)

/-- FP32 addition rounded to nearest (R102). -/
def addF32 (a b : W32) : W32 :=
  BitVec.ofNat 32 (roundRn .f32 (addV (valOf .f32 a.toNat) (valOf .f32 b.toNat)))

/-- BF16 addition rounded to nearest. -/
def addBF16 (a b : Nat) : Nat := roundRn .bf16 (addV (valOf .bf16 a) (valOf .bf16 b))

/-- An E8M0 scale (R95): 2^(e − 127), or NaN for 0xFF. -/
def e8m0 (x : Nat) : FVal := if x % 256 = 255 then .nan else .fin false 1 ((x % 256 : Nat) - 127)

/-- A 32-bit scale (R95): an FP32 word valid only when positive and normal. -/
def s32scale (x : Nat) : FVal :=
  let e := x / 2 ^ 23 % 256
  if x / 2 ^ 31 % 2 = 0 ∧ 1 ≤ e ∧ e ≤ 254 then valOf .f32 x else .nan

/-! ### Functions rounded correctly (R103, R149) -/

/-- Integer square root by Newton steps, with fuel. -/
def isqrtStep : Nat → Nat → Nat → Nat
  | 0, _, x => x
  | f + 1, n, x =>
    let y := (x + n / x) / 2
    if x ≤ y then x else isqrtStep f n y

/-- Integer square root. -/
def isqrt (n : Nat) : Nat :=
  if n = 0 then 0 else isqrtStep (bitLen n + 5) n (2 ^ (bitLen n / 2 + 1))

/-- Bits of fixed-point precision of the elementary functions. -/
def prec : Nat := 400

/-- The fixed-point number strictly between `x` and `x + 1` that stands for an irrational value
there, as a ratio: no breakpoint of FP32 rounding lies between. -/
def sticky (x : Nat) : Nat × Nat := (2 * x + 1, 2 ^ (prec + 1))

/-- Series of 2·atanh(z) in fixed point: `t` is the current odd power of z, `z2` = z². -/
def atanhSeries : Nat → Nat → Nat → Nat → Nat → Nat
  | 0, _, _, _, acc => acc
  | f + 1, k, t, z2, acc =>
    if t = 0 then acc
    else atanhSeries f (k + 2) (t * z2 / 2 ^ prec) z2 (acc + t / k)

/-- ln of the ratio (1 + z)/(1 − z) for z = num/den, in fixed point. -/
def lnOf (num den : Nat) : Nat :=
  let z := num * 2 ^ prec / den
  2 * atanhSeries 600 1 z (z * z / 2 ^ prec) 0

/-- ln 2 in fixed point. -/
def ln2 : Nat := lnOf 1 3

/-- Series of exp in fixed point: `t` is the current term. -/
def expSeries : Nat → Nat → Nat → Nat → Nat → Nat
  | 0, _, _, _, acc => acc
  | f + 1, k, t, x, acc =>
    if t = 0 then acc else expSeries f (k + 1) (t * x / 2 ^ prec / k) x (acc + t)

/-- exp of a fixed-point argument below 1. -/
def expFix (x : Nat) : Nat := expSeries 300 1 (2 ^ prec) x 0

/-- A fixed-point approximation of 2^f for 0 ≤ f < 1 given in fixed point. -/
def exp2Fix (f : Nat) : Nat := expFix (f * ln2 / 2 ^ prec)

/-- VFRCP (R149): 1/x. -/
def rcp (x : Nat) : Nat :=
  match valOf .f32 x with
  | .nan => Fmt.f32.nanOf
  | .inf s => signBit .f32 s
  | .fin s m e =>
    if m = 0 then signBit .f32 s + 0x7F800000
    else let r := ratio m e; roundRatio .f32 .rn 0 s r.2 r.1

/-- VFRSQ (R149): 1/√x. -/
def rsqrt (x : Nat) : Nat :=
  match valOf .f32 x with
  | .nan => Fmt.f32.nanOf
  | .inf s => if s then Fmt.f32.nanOf else 0
  | .fin s m e =>
    if m = 0 then signBit .f32 s + 0x7F800000
    else if s then Fmt.f32.nanOf
    else
      let odd := e % 2 != 0
      let m := if odd then 2 * m else m
      let h : Int := (if odd then e - 1 else e) / 2
      let y := isqrt (2 ^ 400 / m)
      let exact := y * y * m == 2 ^ 400
      let num := if exact then 2 * y else 2 * y + 1
      -- value num / 2^201 × 2^(−h)
      if 0 ≤ h then roundRatio .f32 .rn 0 false num (2 ^ 201 * 2 ^ h.toNat)
      else roundRatio .f32 .rn 0 false (num * 2 ^ (-h).toNat) (2 ^ 201)

/-- VFEXP2 (R149): 2^x. -/
def exp2 (x : Nat) : Nat :=
  match valOf .f32 x with
  | .nan => Fmt.f32.nanOf
  | .inf s => if s then 0 else 0x7F800000
  | .fin s m e =>
    if m = 0 then 0x3F800000
    else
      let r := ratio m e
      let big := decide (200 * r.2 ≤ r.1)
      if big then (if s then 0 else 0x7F800000)
      else
        -- x = i + f with f in fixed point
        let whole := r.1 / r.2
        let rem := r.1 % r.2
        let i : Int := if s then (if rem = 0 then -(whole : Int) else -(whole : Int) - 1) else whole
        let fnum := if rem = 0 then 0 else if s then r.2 - rem else rem
        let v := if fnum = 0 then (2, 2) else
          let y := exp2Fix (fnum * 2 ^ prec / r.2)
          sticky y
        if 0 ≤ i then roundRatio .f32 .rn 0 false (v.1 * 2 ^ i.toNat) v.2
        else roundRatio .f32 .rn 0 false v.1 (v.2 * 2 ^ (-i).toNat)

/-- VFLOG2 (R149): log2 x. -/
def log2F (x : Nat) : Nat :=
  match valOf .f32 x with
  | .nan => Fmt.f32.nanOf
  | .inf s => if s then Fmt.f32.nanOf else 0x7F800000
  | .fin s m e =>
    if m = 0 then 0xFF800000
    else if s then Fmt.f32.nanOf
    else
      let k := Nat.log2 m
      let i : Int := e + k
      if m = 2 ^ k then
        (if i = 0 then 0 else roundRatio .f32 .rn 0 (decide (i < 0)) i.natAbs 1)
      else
        -- log2(m / 2^k) from ln((1 + z)/(1 − z)) with z = (m − 2^k)/(m + 2^k)
        let y := lnOf (m - 2 ^ k) (m + 2 ^ k) * 2 ^ prec / ln2
        let tot : Int := i * (2 ^ prec : Nat) + y
        if 0 ≤ tot then (let v := sticky tot.toNat; roundRatio .f32 .rn 0 false v.1 v.2)
        else (let v := sticky (-tot - 1).toNat; roundRatio .f32 .rn 0 true v.1 v.2)

/-- VFTANH (R149). Below 2^−13 the correctly rounded value is x itself (tanh x = x − x³/3 + …),
from 16 up it is 1. -/
def tanhF (x : Nat) : Nat :=
  match valOf .f32 x with
  | .nan => Fmt.f32.nanOf
  | .inf s => signBit .f32 s + 0x3F800000
  | .fin s m e =>
    let r := ratio m e
    if r.1 * 2 ^ 13 < r.2 then x
    else if 16 * r.2 ≤ r.1 then signBit .f32 s + 0x3F800000
    else
      -- e^(2x) = 2^(n + f) with n + f = 2x / ln 2
      let y := 2 * r.1 * 2 ^ prec * 2 ^ prec / (r.2 * ln2)
      let n := y / 2 ^ prec
      let w := exp2Fix (y % 2 ^ prec) * 2 ^ n
      roundRatio .f32 .rn 0 s (w - 2 ^ prec) (w + 2 ^ prec)

/-- VFRND (R148): round to an integer by value, as an FP32 encoding with the operand's sign. -/
def rndInt (mode : RMode) (x : Nat) : Nat :=
  match valOf .f32 x with
  | .nan => Fmt.f32.nanOf
  | .inf _ => x
  | .fin s m e =>
    let r := ratio m e
    let k := pick mode s (r.1 / r.2) (r.1 % r.2) r.2 0
    roundRatio .f32 .rn 0 s k 1

/-- VFSCL (R145): x × 2^n. Counts beyond ±1000 act as ±1000: every finite nonzero operand is
then far outside the range in the same direction. -/
def scl (x : Nat) (n : Int) : Nat :=
  match valOf .f32 x with
  | .nan => Fmt.f32.nanOf
  | .inf _ => x
  | .fin s m e =>
    if m = 0 then x
    else roundRn .f32 (.fin s m (e + max (-1000) (min 1000 n)))

/-- VFCLASS (R148): one bit set. -/
def fclass (x : Nat) : Nat :=
  let s := x / 2 ^ 31 % 2 == 1
  match valOf .f32 x with
  | .nan => 256
  | .inf s => if s then 1 else 128
  | .fin _ m _ =>
    if m = 0 then (if s then 8 else 16)
    else if x / 2 ^ 23 % 256 = 0 then (if s then 4 else 32)
    else (if s then 2 else 64)

end Sys2Proof
end

