-- ==== Sys2Proof/Config.lean ====
section
/-! DEFINITION. What the spec fixes for every AZ9 (sizes and counts, R1–R12 and the chapters
named) and the free values: what the spec leaves open. A free value has no body, so no proof
can see which value it is. -/

namespace Sys2Proof.Config

/-- Lanes of a heat (R4). -/
def lanes : Nat := 32

/-- Physical cores of a device: 0 to 63 on die A, 64 to 127 on die B (R56). -/
def cores : Nat := 128

/-- Entries a queue register holds (R47). -/
def queueDepth : Nat := 16

/-- Scoreboard slots of a heat (R33). -/
def slotCount : Nat := 16

/-- Pages the binding table holds (R356). -/
def bindingPages : Nat := 16384

/-- Grids one grid queue holds (R392). -/
def gridQueueDepth : Nat := 1024

/-- Records of a context's launch spill area (R399). -/
def launchSpill : Nat := 65536

/-- Threads of a context's bin spill area (R400). -/
def binSpill : Nat := 1048576

/-- Unacknowledged serials a relay stream may have (R237). -/
def relayWindow : Nat := 1024

/-- Entries of a context's relay completion area (R241). -/
def relayCompletions : Nat := 4096

/-- Queued faults a core holds (R472). -/
def faultQueue : Nat := 64

/-- The reset value of a summation profile word (R249, R258). -/
def resetProfile : BitVec 32 := 0x0001C71F#32

/-- FREE VALUE (R492): which of the 32 level-3 entries of a 2 MiB page an access takes its
translation from, when the entries are not identical; applied to the stamp of the step and the
virtual address. Assumption log entry 5. -/
opaque pteChoice : Nat → Nat → BitVec 5

/-- FREE VALUE (R493, R495): whether an access uses a cached translation that no longer agrees
with the page table, or walks again; applied to the stamp of the step and the virtual address.
Assumption log entry 5. -/
opaque tlbKeeps : Nat → Nat → Bool

/-- FREE VALUE (R521): the CODE of the black-box entry of a page-table uncorrectable error, which
the spec does not give. Assumption log entry 5. -/
opaque pageErrorCode : Nat

/-- FREE VALUE (R520): the count of an event source that the model does not hold (sectors that the L1 holds or does
not hold, sources 5 and 6); applied to the stamp of the step. Assumption log entry 6. -/
opaque eventCount : Nat → BitVec 64

/-- FREE VALUE (R539): whether the SLH-DSA-SHA2-192s signature of a firmware image, given as
its bytes, verifies against the fused key. Assumption log entry 7. -/
opaque imageVerifies : List (BitVec 8) → Bool

/-- FREE VALUE (R539): the version that a firmware image, given as its bytes, carries. Assumption log
entry 7. -/
opaque imageVersion : List (BitVec 8) → Nat

/-- FREE VALUE (R541): whether the boot firmware zeroes a 64-byte unit of device memory at a warm reset; applied to the
unit number and the stamp of the step. Assumption log entry 7. -/
opaque bootZeroes : Nat → Nat → Bool

/-- FREE VALUE (R540): the attestation signature over a report. Assumption log entry 7. -/
opaque attestSignature : List (BitVec 8) → List (BitVec 8)

/-- FREE VALUE (R540): the device serial number and stepping, fused at manufacture.
Assumption log entry 7. -/
opaque deviceIdentity : List (BitVec 8)

/-- FREE VALUE (R534): the stack's internal redundancy rebuilds an uncorrectable unit of this
physical unit number; applied to the unit number and the stamp of the step. Assumption log
entry 8. -/
opaque unitRebuilds : Nat → Nat → Bool

/-- FREE VALUE (R534): how many units a copy of this frame corrected on the way; applied to the frame and
the stamp of the step. Assumption log entry 8. -/
opaque correctedUnits : Nat → Nat → Nat

/-- FREE VALUE (R534): the bytes of a rebuilt unit. Assumption log entry 8. -/
opaque rebuiltUnit : Nat → Nat → List (BitVec 8)

/-- FREE VALUE (R512): how a digest record (kind, address, size, data) is packed into 64-bit words,
which the spec does not give. Assumption log entry 9. -/
opaque digestPack : Nat → Nat → Nat → Nat → List (BitVec 64)

/-- FREE VALUE (R499): how a debugger reply (request tag, reply, data) is laid out in the management
event that carries it, which the spec does not give. Assumption log entry 10. -/
opaque debugReply : BitVec 32 → Nat → List (BitVec 8) → List (BitVec 8)

/-- FREE VALUE (R343): whether an access uses a cached tensor descriptor that memory no longer
holds, or reads it again; applied to the stamp of the step and the descriptor's address.
Assumption log entry 11. -/
opaque descKeeps : Nat → Nat → Bool

/-- FREE VALUE (R523, R525): the TAG of a trap-call frame, which the spec leaves to the device; applied to
the stamp of the step. Assumption log entry 13. -/
opaque callTag : Nat → BitVec 32

/-- FREE VALUE (R464): what a read of DUMPC, a register the spec only lets software write, returns; applied
to the stamp of the step. Assumption log entry 14. -/
opaque dumpcRead : Nat → BitVec 64

/-- FREE VALUE (R544): bytes that an entry of the load-value log takes in the commit share or the lap area
besides its value, which the spec does not give; the model takes at most 992 of them. Assumption log entry 76. -/
opaque logEntryBytes : Nat

end Sys2Proof.Config
end

