-- ==== Sys2Proof/Machine/State.lean ====
section
/-! DEFINITION. The state of one AZ9 device as plain data: every register, queue, tile, table,
engine, page binding and record the spec gives the machine, each with its reset value, and
`State.reset`. -/

namespace Sys2Proof.Machine

/-- Why a step stops with a fault. Faults the spec describes are TAKEN (a next state with the
core frozen, R463–R475); this type is only for calls of a meaning outside `step`. -/
inductive Fault where
  /-- Raised by every meaning of an instruction word when `State.cur` names no existing issuer
  of the word's kind (a heat, the trap heat or a team sequencer). `step` never calls a meaning
  so. Safe: the hardware has no such situation. -/
  | noIssuer
  deriving DecidableEq, Repr

/-- Why a step refuses. -/
inductive Refusal where
  /-- Raised by an arm of `exec` whose instruction has no meaning yet. Safe. -/
  | notModelled (mnemonic : String)
  deriving DecidableEq, Repr

/-- One entry of a lane's loop stack (R50): remaining count, start and end header address. -/
structure LoopEntry where
  count : W32 := 0#32
  start : Addr := 0#72
  stop : Addr := 0#72
  deriving DecidableEq, Repr

/-- What a lane or a sequencer waits on (R50, R543). The `retry…` states leave the lane at
its word, which issues again when the wait is over; the others have issued and continue at the
next word. -/
inductive Park where
  | none
  /-- HARR of a heat already arrived, or HREG with its drop pending (R217–R219). -/
  | retryHurdle (cluster : Bool) (h : Nat)
  /-- HWAIT, HARRW or MHWAIT (R220). -/
  | waitHurdle (cluster : Bool) (h : Nat)
  /-- A pending registration (R217). -/
  | regHurdle (cluster : Bool) (h : Nat)
  /-- An empty queue q, or a full one as 16 + q (R20, R48, R186). -/
  | retryQueue (q : Nat)
  /-- An absent scratchpad line (R173, R256). -/
  | retryPresence
  /-- A counter (R232). -/
  | waitc
  /-- A full relay window or relay completion area (R237, R241). -/
  | retrySlot
  /-- A trap-call reply (R285); the destination register, the taking lanes, the frame's tag. -/
  | callh (dest : Nat) (mask : Mask) (tag : W32)
  /-- The close of a resample gathering (R234). -/
  | rsmp
  /-- A resample that failed: the word issues again and raises the population trap of this reason, or with 0
  joins a new gathering (R420, R427, R472). -/
  | retryRsmp (reason : Nat)
  /-- A BRX.pack gathering (R203); the position the lane takes when it closes, and the stamp of the
  issue, which counts in STRIDE when the gathering closes (R306). -/
  | brxPack (target : Addr) (issue : Nat)
  deriving DecidableEq, Repr

/-- Which unfinished operations a clause waits for, or a FENCE. -/
inductive OpKind where
  /-- A store, reduction or non-returning atomic without its acknowledgement. -/
  | ack
  /-- Of a fabric store alone (R228). -/
  | fabAck
  | copy
  | relay
  deriving DecidableEq, Repr

/-- An unfinished operation of another heat of the team that a thread brought along in a repack (R17,
R308): the heat that issued it, its stamp, its kind. -/
structure Carried where
  heat : Nat := 0
  id : Nat := 0
  kind : OpKind := .ack
  deriving DecidableEq, Repr

/-- Per-lane state (R50) other than the register rows and predicates. The home lane of a thread
is the lane slot it stands in, in every heat that holds it (R307). -/
structure Lane where
  live : Bool := false
  hdr : Addr := 0#72
  idx : Nat := 0
  /-- Loop stack, top first, at most four entries. -/
  loops : List LoopEntry := []
  /-- Conversion counter CVCNT (R106). -/
  cvcnt : W64 := 0#64
  /-- LINEAGE (R58). -/
  lineage : W64 := 0#64
  /-- Whether the thread is a member of its grid's population (R419). -/
  member : Bool := false
  park : Park := .none
  /-- Stamp of the moment the lane took up its clause: what WA, WS and WL cover (R37). -/
  clauseStamp : Nat := 0
  /-- Words of the clause the lane stands in (R14). -/
  n : Nat := 1
  /-- Core cycle of the lane's last issue, for STALL (R18). -/
  lastCycle : Option Nat := .none
  /-- Stamp at which the thread came to this heat: older operations of the heat are not its own. -/
  since : Nat := 0
  /-- Operations the thread brought from another heat. -/
  carried : List Carried := []
  deriving DecidableEq, Repr

/-- One queue entry (R47): a 64-bit value per lane and the mask of the pushing lanes. -/
structure QEntry where
  vals : FMap W64 := []
  mask : Mask := 0#32
  /-- The pushing heat and its STRIDE (R503); 255 for an engine. -/
  heat : Nat := 255
  stride : Nat := 0
  /-- Stamp of the push, which names an engine command, and the lap of the push. -/
  id : Nat := 0
  lap : Nat := 0
  deriving DecidableEq, Repr

/-- A fault record (R464, R475, R39, R166). -/
structure TrapRec where
  cls : Nat := 0
  asid : Nat := 0
  /-- Share of the faulting team, 255 for none. -/
  share : Nat := 255
  /-- HEATID, 255 the sequencer, 254 none. -/
  heat : Nat := 254
  isAsync : Bool := false
  hdr : Addr := 0#72
  idx : Nat := 0
  word : W32 := 0#32
  mask : Mask := 0#32
  live : Mask := 0#32
  info : W64 := 0#64
  addr : Addr := 0#72
  /-- Lane codes, lane l in bits 4l + 3 : 4l. -/
  codes : BitVec 128 := 0#128
  laneAddrs : FMap Addr := []
  lap : W64 := 0#64
  stride : W64 := 0#64
  gtc : W64 := 0#64
  deriving DecidableEq, Repr

/-- A plain fabric access sent and not yet answered (R444), or an engine's part of one. -/
structure FabReq where
  id : Nat := 0
  dev : Nat := 0
  offset : Nat := 0
  size : Nat := 0
  /-- Bytes to write; none for a read. -/
  data : Option (List Byte) := .none
  team : Nat := 0
  heat : Nat := 0
  lane : Nat := 0
  /-- Stamp of the slot, acknowledgement or engine command it belongs to. -/
  stamp : Nat := 0
  engine : Bool := false
  /-- Byte position in an engine's buffer. -/
  pos : Nat := 0
  hdr : Addr := 0#72
  idx : Nat := 0
  word : W32 := 0#32
  /-- A store, whose acknowledgement it is part of. -/
  isStore : Bool := false
  /-- The lanes it stands for, and the heat's STRIDE before the word (R445, R475). -/
  mask : Mask := 0#32
  stride : W64 := 0#64
  /-- Refused for migration, to be sent again (R444). -/
  retry : Bool := false
  deriving DecidableEq, Repr

/-- Where a pending result goes. -/
inductive Dest where
  /-- `n` vector registers from `base`. -/
  | vec (base n : Nat)
  | scalar (r : Nat)
  deriving DecidableEq, Repr

/-- One scoreboard slot (R33): a pending register result and its lookahead window (R31, R34). -/
structure Slot where
  dest : Dest := .vec 0 1
  /-- Lane values (as numbers of 32·n bits), or the one value of a scalar. -/
  vals : FMap Nat := []
  /-- Lanes of the window. -/
  mask : Mask := 0#32
  /-- Words still allowed in the window; none for LA = 0. -/
  allow : Option Nat := .none
  /-- Producer position. -/
  hdr : Addr := 0#72
  idx : Nat := 0
  word : W32 := 0#32
  stamp : Nat := 0
  lap : Nat := 0
  stride : Nat := 0
  /-- Counted by WL (R17). -/
  isLoad : Bool := true
  /-- A fabric load (R228). -/
  isFabric : Bool := false
  /-- Remote parts not yet answered; the result lands when none is left. -/
  waiting : Nat := 0
  /-- Lanes whose data carries an uncorrectable error, with the lowest address (R167). -/
  poison : Mask := 0#32
  poisonAddr : Addr := 0#72
  /-- Frames of device memory in which its data was found uncorrectable (R533). -/
  frames : List Nat := []
  /-- The data comes from the cluster window, not from device memory (R473). -/
  isWindow : Bool := false
  /-- Cancelled by a write of the trap heat or a debugger (R476). -/
  cancelled : Bool := false
  /-- The result of a relay operation or a LAUNCH, which a checker takes from its primary (R511). -/
  isRemote : Bool := false
  /-- The fabric parts of the load, which a save cancels and a restore issues again (R171). -/
  reqs : List FabReq := []
  /-- The tile handle of a TLDG. -/
  handle : Addr := 0#72
  deriving DecidableEq, Repr

/-- A store, reduction or non-returning atomic not yet acknowledged (R170). -/
structure Ack where
  stamp : Nat := 0
  mask : Mask := 0#32
  isFabric : Bool := false
  waiting : Nat := 0
  /-- An old value carried an uncorrectable error: the fault raised at the acknowledgement (R167) and the
  frames of device memory in which it was found (R533). -/
  fault : Option TrapRec := .none
  frames : List Nat := []
  deriving DecidableEq, Repr

/-- A piece of an engine command's range after its checks (R190). -/
inductive Piece where
  /-- Device memory: physical address, length, leaf of the page, virtual address. -/
  | mem (pa n leaf va : Nat)
  | fab (dev off n : Nat)
  | spad (team off n : Nat)
  deriving DecidableEq, Repr

/-- A copy command that WA, FENCE and HARR.CP wait for (R17, R219, R227). -/
structure CopyRec where
  id : Nat := 0
  mask : Mask := 0#32
  covered : Bool := false
  /-- A COLL command, which owns sectors but which WA and FENCE do not wait for. -/
  coll : Bool := false
  /-- The issuing word and its position. -/
  hdr : Addr := 0#72
  idx : Nat := 0
  word : W32 := 0#32
  /-- Physical 1 KiB sectors that the engine owns from the issue on (R192); an accepted command holds them
  itself. -/
  owned : List Nat := []
  /-- Source and destination pieces with their positions in the data. -/
  src : List (Nat × Piece) := []
  dst : List (Nat × Piece) := []
  deriving DecidableEq, Repr

/-- Registration modes of a hurdle (R215). -/
inductive HMode where
  | none | s | w | sw
  deriving DecidableEq, Repr

/-- Membership of one heat or sequencer in one hurdle (R215). -/
structure HMember where
  mode : HMode := .none
  /-- Pending mode, which takes effect at the next boundary. -/
  pending : Option HMode := .none
  arrived : Bool := false
  wait : W32 := 0#32
  deriving DecidableEq, Repr

/-- A deferred HARR.CP or MHARR arrival (R219, R254). -/
structure DefArr where
  cluster : Bool := false
  h : Nat := 0
  /-- Copy commands (HARR.CP) still to complete. -/
  ids : List Nat := []
  /-- MHARR: stamps of sequencer words still to complete. -/
  words : List Nat := []
  deriving DecidableEq, Repr

/-- Per-heat state (R53) with its lanes, rows and predicates (R50, R52). -/
structure Heat where
  role : Nat := 0
  /-- Register budget B (R42). -/
  budget : Nat := 128
  /-- Resident slot 0 to 63 (R548). -/
  slot : Nat := 0
  ended : Bool := false
  lanes : FMap Lane := []
  /-- v r of lane l at key 32·r + l. -/
  rows : FMap W32 := []
  /-- k r of lane l at key 32·r + l, for r from 1 to 7. -/
  preds : FMap Bool := []
  s : FMap W64 := []
  a : FMap Addr := []
  /-- q0 to q7, oldest entry first. -/
  queues : FMap (List QEntry) := []
  slots : List Slot := []
  acks : List Ack := []
  copies : List CopyRec := []
  arrivals : List DefArr := []
  /-- STRIDE (R56). -/
  stride : W64 := 0#64
  /-- Hurdle membership: team hurdle h at key h, cluster hurdle at 256 + h. -/
  hmem : FMap HMember := []
  /-- Reference key of the arbiter (R298). -/
  refKey : Nat := 31
  /-- Key of the sub-group that holds the turn while it waits (R299). -/
  turn : Option Nat := .none
  /-- Stamp of the last issue; none before the first (R404). -/
  lastIssue : Option Nat := .none
  /-- Deferred by Y or YIELD until another heat had the next cycle (R19). -/
  yielded : Bool := false
  /-- Core cycle up to which the heat sleeps (R212). -/
  sleepUntil : Option Nat := .none
  /-- Order number (R405) of the cause that held the heat at its last attempt. -/
  hold : Nat := 0
  /-- Producer blamed for counters 2 and 3 (R31–R33): its position. -/
  blamed : Addr := 0#72
  blamedIdx : Nat := 0
  /-- Clauses held in the loop buffers, newest first: address, header and words (R302). -/
  loopBuf : List (Addr × List W32) := []
  /-- Waves of the last scratchpad access still to send, that of the current cycle included (R326). -/
  waves : Nat := 0
  /-- Lanes that have not issued since the heat was last stopped: WQ applies to them again (R37). -/
  resumed : Mask := 0#32
  /-- Entries of a sequence that q2 held incomplete at a stop, taken by the gather engine (R194). -/
  gseq : List QEntry := []
  /-- Registers whose rows the journal holds for this lap (R481), and those with an uncorrectable error
  (R473). -/
  journalled : List Nat := []
  badRows : List Nat := []
  /-- Stamp of the heat's start: older operations belong to an ended heat that had its HEATID (R401). -/
  born : Nat := 0
  deriving DecidableEq, Repr

/-- An accumulator tile (R249): 64 × 64 FP32 elements at key 64·i + j, its monitors and its
rounding counter. -/
structure AccTile where
  elems : FMap W32 := []
  lost : W32 := 0#32
  swamped : W32 := 0#32
  counter : W64 := 0#64
  deriving DecidableEq, Repr

/-- The two operand formats and the K of an MMA form (R260), and whether it is an MMAS. -/
structure MmaForm where
  afmt : Nat := 0
  bfmt : Nat := 0
  scaled : Bool := false
  deriving DecidableEq, Repr

/-- What an issued sequencer word still has to do. -/
inductive SeqOpKind where
  /-- TLD and TLDT: tile register, element width (0: plain copy). -/
  | tileLoad (t : Nat) (w : Nat)
  | zacc (tile n : Nat)
  | accLoad (tile : Nat)
  | accStore (tile : Nat)
  /-- DRAIN.AXPY: tile, α, BF16 target?. -/
  | axpy (tile : Nat) (alpha : W32) (bf16 : Bool)
  | red (tile : Nat)
  /-- DRAIN: tile, target heat, next row. -/
  | drain (tile heat row : Nat)
  /-- MMA, MMAS: form, TA, KEEP, tile, profile word, resolved B (scratchpad's team, offset), steps,
  step index, scale descriptor, scale selector, whether the engine is granted to it. -/
  | mma (form : MmaForm) (ta : Nat) (keep : Bool) (tile : Nat) (prof : BitVec 32) (bTeam bOff : Nat)
      (steps step : Nat) (desc : W64) (sigma : Nat) (granted : Bool)
  deriving DecidableEq, Repr

/-- One issued sequencer word that has not finished (R249, R272). -/
structure SeqOp where
  stamp : Nat := 0
  kind : SeqOpKind := .zacc 0 0
  /-- Position, word and number in the lap of the issue. -/
  hdr : Addr := 0#72
  idx : Nat := 0
  word : W32 := 0#32
  count : Nat := 0
  /-- What a load reads or a store writes, with the position of each part, and its first address. -/
  places : List (Nat × Piece) := []
  addr : Nat := 0
  /-- Elements already written by an ACCST, DRAIN.AXPY or DRAIN.RED. -/
  written : Nat := 0
  /-- Stamp at which the word became ready for the engine (R273). -/
  readyAt : Option Nat := .none
  /-- Lap of the issue. -/
  lap : Nat := 0
  deriving DecidableEq, Repr

/-- Team sequencer state (R249). -/
structure Seq where
  /-- The kernel has a matrix stream and MEND has not been executed. -/
  running : Bool := false
  hdr : Addr := 0#72
  idx : Nat := 0
  m : FMap W64 := []
  /-- Byte b of tile register t at key 4096·t + b. -/
  t : FMap Byte := []
  prof : FMap (BitVec 32) := []
  /-- Keep latch: the register number and the 4 KiB operand (R264). -/
  latch : Option (Nat × FMap Byte) := .none
  ops : List SeqOp := []
  hmem : FMap HMember := []
  arrivals : List DefArr := []
  park : Park := .none
  /-- Words issued since the lap began (R498). -/
  count : W64 := 0#64
  clauseStamp : Nat := 0
  /-- Words of the clause the sequencer stands in. -/
  n : Nat := 1
  /-- Core cycle of the last issue, for STALL (R18). -/
  lastCycle : Option Nat := .none
  loopBuf : List (Addr × List W32) := []
  deriving DecidableEq, Repr

/-- A WAITC in progress (R232): taking lanes with their addresses and targets. -/
structure Waiter where
  heat : Nat := 0
  mask : Mask := 0#32
  /-- (lane, virtual address, target). -/
  conds : List (Nat × Nat × Nat) := []
  /-- A write has brought every counter to its target. -/
  met : Bool := false
  deriving DecidableEq, Repr

/-- A LAUNCH record in a team's pending order (R231). -/
structure PendLaunch where
  record : List Byte := []
  heat : Nat := 0
  lane : Nat := 0
  /-- Stamp of the scoreboard slot that waits for the GRIDID. -/
  slot : Nat := 0
  stamp : Nat := 0
  deriving DecidableEq, Repr

/-- A relay operation still to complete (R446). -/
structure RelayOp where
  serial : W32 := 0#32
  op : Nat := 0
  offset : Nat := 0
  x : W64 := 0#64
  y : W64 := 0#64
  team : Nat := 0
  heat : Nat := 0
  lane : Nat := 0
  /-- Stamp of the issue, which also names the scoreboard slot of a returning operation. -/
  stamp : Nat := 0
  /-- Retransmissions made (R454). -/
  sends : Nat := 0
  /-- Owner incarnation it was sent with. -/
  oinc : W32 := 0#32
  /-- Answered, waiting for earlier serials: status and result. -/
  answer : Option (Nat × W64) := .none
  /-- Answered with RETRY_LATER only. -/
  retry : Bool := false
  /-- Lap of the issue. -/
  lap : Nat := 0
  deriving DecidableEq, Repr

/-- Requester state of one relay stream (R446). -/
structure Stream where
  used : Bool := false
  next : W32 := 1#32
  ackt : W32 := 0#32
  oinc : W32 := 0#32
  ops : List RelayOp := []
  /-- ACKT carried by the last acknowledgement packet (R242). -/
  lastAck : W32 := 0#32
  /-- Close packets sent when the context is removed (R457); none while it lives. -/
  closes : Option Nat := .none
  deriving DecidableEq, Repr

/-- One collective of a group at this member: its command, once accepted, and what the members have sent
(R243, R244, R459, R460). -/
structure CollCmd where
  group : Nat := 0
  /-- Collective number k of the group. -/
  k : Nat := 0
  accepted : Bool := false
  words : List W64 := []
  team : Nat := 0
  heat : Nat := 0
  /-- Stamp of the push, which names its record. -/
  id : Nat := 0
  lap : Nat := 0
  /-- What each member, this one included, has sent: index, command words, source bytes (R459). -/
  parts : List (Nat × List W64 × List Byte) := []
  /-- The verdict of each member, this one included: 0 ready to write, 1 to 4 its own failure, 15 none of its
  own after another's failure (R460). -/
  verdicts : List (Nat × Nat) := []
  /-- Decided with this status, the same at every member: for 0 the destination is then written (R246, R437,
  R460). -/
  done : Option Nat := .none
  deriving DecidableEq, Repr

/-- A command accepted by an engine: copy, gather, scatter or collective (R192, R195, R246). -/
structure EngCmd where
  id : Nat := 0
  core : Nat := 0
  team : Nat := 0
  heat : Nat := 0
  stride : Nat := 0
  lap : Nat := 0
  /-- 0 CPY, 1 CPYT.row, 2 CPYT.col, 3 CPYM, 4 SCT, 5 GTH, 6 COLL. -/
  opc : Nat := 0
  /-- Reply queue (0 none), tag, and element size of a gather or scatter. -/
  queue : Nat := 0
  tag : Nat := 0
  elem : Nat := 0
  mask : Mask := 0#32
  /-- The issuing word and its position. -/
  hdr : Addr := 0#72
  idx : Nat := 0
  word : W32 := 0#32
  src : List (Nat × Piece) := []
  dst : List (Nat × Piece) := []
  /-- Local source parts not yet read, each within one sector or line (R352). -/
  todo : List (Nat × Piece) := []
  /-- Bytes read so far, local and from the fabric, by position. -/
  parts : FMap (List Byte) := []
  /-- Fabric parts not yet answered. -/
  waiting : Nat := 0
  /-- The whole source, once it is read (a scatter's from its issue). -/
  buf : Option (List Byte) := .none
  /-- Positions whose byte carries an uncorrectable error, and ranges a fabric source refused. -/
  bads : List Nat := []
  skips : List (Nat × Nat) := []
  /-- A fabric destination refused a part. -/
  refused : Bool := false
  /-- Memory sectors that it owns until it has written them (R192). -/
  owned : List Nat := []
  /-- Scratchpad lines not yet written: (team, line). -/
  lines : List (Nat × Nat) := []
  /-- Entries still to push: (queue, entry). -/
  outs : List (Nat × QEntry) := []
  deriving DecidableEq, Repr

/-- The part of a team that a rollback restores (R481): heats, sequencer, team queues,
scratchpad, tiles and their pending work. -/
structure TeamBody where
  heats : FMap Heat := []
  seq : Seq := {}
  /-- q8 to q15. -/
  queues : FMap (List QEntry) := []
  spad : FMap Byte := []
  /-- Scratchpad lines poisoned by a copy that read an error (R193). -/
  spadPoison : List Nat := []
  /-- Scratchpad lines and accumulator tiles that the journal holds for this lap (R481), and tiles with an
  uncorrectable error (R473). -/
  lineJournal : List Nat := []
  tileJournal : List Nat := []
  badTiles : List Nat := []
  /-- What the journal engine has read with an uncorrectable error and not yet reported: the code of class 0x23
  (R473). -/
  journalFault : Option Nat := .none
  acc : FMap AccTile := []
  waiters : List Waiter := []
  deriving DecidableEq, Repr

/-- Where a team is. -/
inductive Residence where
  | unplaced
  /-- In the active bank of a core: share, sequencer slot, accumulator base. -/
  | active (core share seqSlot accBase : Nat)
  /-- In the shadow bank of a core (R406). -/
  | shadow (core : Nat)
  /-- In its save area (R406). -/
  | saved
  /-- Exited; its scratchpad stays installed for its cluster (R314). -/
  | exited (core share : Nat)
  deriving DecidableEq, Repr

/-- One entry of the load-value log (R482): heat, STRIDE, lane, address, value. -/
structure LogEntry where
  heat : Nat := 0
  stride : Nat := 0
  lane : Nat := 0
  addr : Nat := 0
  value : Nat := 0
  /-- 0 load, 1 HTEST, 2 registration, 3 HWAIT parked, 4 QLEN, 5 clock read, 6 CALLH status,
  7 CALLH word, 8 pop of a team queue, 9 phase advance (R503). -/
  kind : Nat := 0
  deriving DecidableEq, Repr

/-- What entered a team's state in a lap without an issue of that lap: values of words of earlier laps, and
completion entries (R482, second and third kinds). -/
inductive Delivered where
  /-- A pending result, as it landed. -/
  | result (slot : Slot)
  /-- An entry of queue q. -/
  | entry (q : Nat) (e : QEntry)
  /-- An engine command is complete: the heat's deferred arrivals no longer wait for it. -/
  | forget (id : Nat)
  /-- The reply of a CALLH with this tag. -/
  | call (tag : W32) (status : Nat) (words : List Byte)
  deriving DecidableEq, Repr

/-- One entry of the second and third kinds of the log (R482): heat, its STRIDE when it came, and for the
entry of a command of the lap the heat and STRIDE of the command. -/
structure Delivery where
  heat : Nat := 0
  stride : Nat := 0
  what : Delivered := .forget 0
  own : Option (Nat × Nat) := .none
  /-- Its lap, for a checker. -/
  lap : Nat := 0
  deriving DecidableEq, Repr

/-- A store accepted by the commit buffer (R358): virtual and physical address and bytes. -/
structure DefStore where
  va : Nat := 0
  pa : Nat := 0
  bytes : List Byte := []
  /-- Leaf of the page it translated through. -/
  leaf : Nat := 0
  deriving DecidableEq, Repr

/-- A debugger point (R498): lap, heat (255 the sequencer), stride. -/
structure Point where
  lap : Nat := 0
  heat : Nat := 0
  stride : Nat := 0
  deriving DecidableEq, Repr

/-- A thread waiting in a spawn bin or in a bin spill area (R400). -/
structure BinThread where
  team : Nat := 0
  entry : Addr := 0#72
  args : List W32 := []
  lineage : W64 := 0#64
  cvcnt : W64 := 0#64
  role : Nat := 0
  budget : Nat := 128
  /-- A clone of RSMP (R415): membership, position index, loop stack, predicates. -/
  member : Bool := false
  idx : Nat := 0
  loops : List LoopEntry := []
  rows : FMap W32 := []
  preds : FMap Bool := []
  deriving DecidableEq, Repr

/-- One RSMP issue waiting in a gathering (R421). -/
structure RsmpRec where
  team : Nat := 0
  heat : Nat := 0
  lane : Nat := 0
  weight : W32 := 0#32
  count : Nat := 0
  u : Option Nat := .none
  deriving DecidableEq, Repr

/-- The copy of a team's state that its first stop in a lap makes (R500): the body, and what goes with it:
deferred stores, log, journal with the bytes it covers, advances, digest records, bin threads. -/
structure StopImage where
  body : TeamBody := {}
  deferred : List DefStore := []
  log : List LogEntry := []
  undo : FMap Byte := []
  bytes : List (Nat × Byte) := []
  advances : Nat := 0
  recs : List (Nat × Nat × Nat × Nat × Nat) := []
  bins : List BinThread := []
  /-- Number of values of the log's second and third kinds when it was made, those that a replay had still to
  deliver, and whether it was one. -/
  delivered : Nat := 0
  due : List Delivery := []
  replaying : Bool := false
  /-- Units of TEAM pages that were poisoned before the lap wrote them, engine commands of the lap in progress, and
  the team's issues to the open gathering of its grid. -/
  undoPoison : List Nat := []
  engines : List EngCmd := []
  gathering : List RsmpRec := []
  deriving DecidableEq, Repr

/-- A decoded launch record (R388). -/
structure Record where
  entry : Nat := 0
  eepi : Nat := 0
  ecmp : Nat := 0
  ecpy : Nat := 0
  ment : Nat := 0
  pval : Bool := false
  pophi : Nat := 0
  poplo : Nat := 0
  queue : Nat := 0
  det : Bool := false
  pop : Bool := false
  /-- Code of the residency: 0 for 1, 1 for 2, 2 for 4. -/
  res : Nat := 0
  /-- Code of the cluster size: 0 for 1, 1 for 2, 2 for 4. -/
  csize : Nat := 0
  teams : Nat := 0
  seed : W64 := 0#64
  /-- Tensor table address: bits 63:16 in the record, the rest zero. -/
  tdaddr : Nat := 0
  tdcnt : Nat := 0
  order : Nat := 0
  bepi : Nat := 0
  hepi : Nat := 0
  bcmp : Nat := 0
  hcmp : Nat := 0
  bcpy : Nat := 0
  hcpy : Nat := 0
  done : Nat := 0
  acct : Nat := 0
  bint : Nat := 16
  swapt : Nat := 20
  poolcb : Nat := 128
  poolsb : Nat := 112
  poolrb : Nat := 32
  args : List W64 := []
  /-- A reserved field of the record is nonzero (check 3 of R389). -/
  reservedBad : Bool := false
  deriving DecidableEq, Repr

/-- A grid (R384, R388). -/
structure Grid where
  record : Record := {}
  asid : Nat := 0
  /-- TAG of a frame-launched grid (R390); none for a child. -/
  tag : Option W32 := .none
  waitAddr : Nat := 0
  waitVal : Nat := 0
  /-- A write has brought the counter to the value (R393). -/
  met : Bool := false
  /-- Memory as fetch sees it: the contents when the record was accepted (R55). -/
  code : FMap Byte := []
  nextTeam : Nat := 0
  finished : List Nat := []
  /-- First cause that befell the grid (R546). -/
  status : Nat := 0
  /-- Resample rounds completed (R413) and the open gathering. -/
  round : W64 := 0#64
  gathering : List RsmpRec := []
  /-- The population after the last resample: size, none before the first. -/
  popSize : Option Nat := .none
  accepted : Nat := 0
  deriving DecidableEq, Repr

/-- A team (R54) and what the starter, the journal engine and a debugger keep for it. -/
structure Team where
  grid : Nat := 0
  asid : Nat := 0
  teamId : Nat := 0
  /-- Cluster size and rank. -/
  csize : Nat := 1
  rank : Nat := 0
  /-- Keys of the cluster's teams in rank order (itself alone for size 1). -/
  cluster : List Nat := []
  res : Residence := .unplaced
  /-- The core it stands on, or stood on before a swap. -/
  lastCore : Nat := 0
  /-- Scratchpad size S and commit share in bytes (R320). -/
  size : Nat := 0
  commitShare : Nat := 0
  /-- Tiles of the accumulator allocation (R266). -/
  accCount : Nat := 0
  body : TeamBody := {}
  /-- The lap-start image, journal and image together (R481). -/
  lapBody : TeamBody := {}
  /-- LAP (R56). -/
  lap : W64 := 0#64
  /-- The lap-start image was taken; false before the team's units start. -/
  started : Bool := false
  deferred : List DefStore := []
  log : List LogEntry := []
  /-- The values of the log's second and third kinds, in order (R482), and those a replay has still to
  deliver (R484). -/
  deliveries : List Delivery := []
  due : List Delivery := []
  /-- Errors in the journal, the log and the lap-start image (R485), and bytes of journal and log in the
  team's lap-area segment (R544). -/
  badJournal : Bool := false
  badLog : Bool := false
  badImage : Bool := false
  spilled : Nat := 0
  /-- Old bytes of TEAM pages written in the lap: (physical address, old byte) (R481); units among them that were
  poisoned. -/
  undo : FMap Byte := []
  undoPoison : List Nat := []
  launches : List PendLaunch := []
  /-- Absent scratchpad lines: line number to the number of writers still due (R328). -/
  absent : FMap Nat := []
  /-- Lines awaiting restore (R330), and accumulator tiles awaiting it (R407). -/
  restoring : List Nat := []
  restoringTiles : List Nat := []
  /-- Bin threads kept in the save area (R403), and those of the team at the lap start (R483). -/
  savedBins : List BinThread := []
  lapBins : List BinThread := []
  relaunches : Nat := 0
  /-- Hurdle phase advances in the lap (R503). -/
  advances : Nat := 0
  /-- Due action: 0 none, 1 rollback and relaunch, 2 kill, 3 rollback for replay (R477, R502). -/
  action : Nat := 0
  /-- Class of the fault the action answers, and the quartet where it arose, which a relaunch avoids
  (R484, R485). -/
  cause : Nat := 0
  avoid : Option Nat := .none
  /-- Issues a debugger step still grants: heat (255 the sequencer) and quads (R507, R508). -/
  grant : Option (Nat × BitVec 8) := .none
  /-- Tag of the debugger request in progress. -/
  dbgTag : W32 := 0#32
  /-- Replaying its lap from the log (R484, R502). -/
  replaying : Bool := false
  /-- Stopped by a debugger (R500) or by HALT (R282). -/
  stopped : Bool := false
  halted : Bool := false
  /-- RUNTO target and stop image (R500, R501). -/
  runTo : Option Point := .none
  stopImage : Option StopImage := .none
  /-- Limit strides: (heat, stride) of the stop image. -/
  limits : List (Nat × Nat) := []
  exited : Bool := false
  /-- Asynchronous faults found while the team was on no core. -/
  late : List TrapRec := []
  /-- TDBASE and TDCNT as its tensor accesses use them: the launch record's from its start, until an SWR
  (R56, R279). -/
  tdbase : W64 := 0#64
  tdcnt : W64 := 0#64
  /-- Lanes whose WAITC, CALLH or RSMP has outlasted the swap threshold: heat, lane, core cycle of the lane's last
  issue (R233, R386). -/
  overdue : List (Nat × Nat × Option Nat) := []
  /-- Key of the copy that checks this team; for a checker, the key of the team it checks (R510), and the grid as
  it was launched. -/
  checker : Option Nat := .none
  checks : Option Nat := .none
  launched : Option Grid := .none
  /-- Of a checker (R511): values forwarded and not yet taken, with their lap, and their number of bytes by lap;
  laps in which a read's address differed. -/
  feed : List (Nat × LogEntry) := []
  fed : FMap Nat := []
  mismatch : List Nat := []
  /-- Of a checker: digests of closed laps not yet compared, its own and the other side's, as (lap, digest)
  (R512). -/
  ours : List (Nat × W64 × W64) := []
  theirs : List (Nat × W64 × W64) := []
  /-- Sampled by the equality check (R510); the digest records (heat, kind, address, size, data)
  of the open lap (R512). -/
  sampled : Bool := false
  recs : List (Nat × Nat × Nat × Nat × Nat) := []
  deriving DecidableEq, Repr

/-- A context (R528) with its relay streams, lineage log and spill areas. -/
structure Context where
  root : Nat := 0
  places : Nat := 4096
  save : Nat := 0
  lapArea : Nat := 0
  lapSeg : Nat := 0x400000
  logBase : Nat := 0
  logLen : Nat := 0
  relayc : Nat := 0
  lspill : Nat := 0
  bspill : Nat := 0
  wdog : Nat := 0
  eqchk : Bool := false
  cgen : BitVec 16 := 1#16
  /-- TDBASE and TDCNT as the last start of a team of the context or the last SWR left them (R56, R59). -/
  tdbase : W64 := 0#64
  tdcnt : W64 := 0#64
  /-- Relay streams by target device. -/
  streams : FMap Stream := []
  /-- Lineage log HEAD, SEGS, WRAPS, LOST (R428). -/
  logHead : Nat := 64
  logSegs : Nat := 0
  logWraps : Nat := 0
  logLost : Nat := 0
  /-- Relay completion area: team, heat, entry (R241). -/
  relayArea : List (Nat × Nat × QEntry) := []
  /-- Bin spill area (R400). -/
  spill : List BinThread := []
  /-- Stopped by a HALT with broadcast (R282, R467). -/
  broadcast : Bool := false
  removing : Bool := false
  /-- A debugger is attached (R499). -/
  attached : Bool := false
  deriving DecidableEq, Repr

/-- How a page walk ends (R491). -/
inductive Walk where
  | invalid
  /-- A table word read with an uncorrectable error. -/
  | poisoned
  /-- Virtual base and size of the page, and its leaf. -/
  | page (base size leaf : Nat)
  deriving DecidableEq, Repr

/-- One cached translation (R493): where it is held (0 to 127 a core's micro-TLB, 128 and 129 the TLBs of die A
and B), identifier, page base, size, and the leaf. -/
structure TlbEntry where
  home : Nat := 128
  asid : Nat := 0
  base : Nat := 0
  size : Nat := 0
  leaf : W64 := 0#64
  deriving DecidableEq, Repr

/-- A table entry in a die's walk cache (R493): die, identifier, level, the address bits above the level's next,
and the entry as it was read. -/
structure TableEntry where
  die : Nat := 0
  asid : Nat := 0
  level : Nat := 0
  tag : Nat := 0
  value : Nat := 0
  deriving DecidableEq, Repr

/-- A page walk of a die (R494): identifier, number of the 64 KiB page, what it would give as it began, and the
accesses that wait for it as (core, team key, HEATID); ended, its result, which those accesses still have to
take. -/
structure OpenWalk where
  die : Nat := 0
  asid : Nat := 0
  page : Nat := 0
  begun : Walk := .invalid
  users : List (Nat × Nat × Nat) := []
  result : Option Walk := .none
  deriving DecidableEq, Repr

/-- A binding of a TEAM or CLUSTER page (R356): physical page base, size and the bound team or
the bound cluster (named by its rank-0 team). -/
structure Binding where
  base : Nat := 0
  size : Nat := 0
  owner : Nat := 0
  cluster : Bool := false
  deriving DecidableEq, Repr

/-- A wrong result of an arithmetic unit (R375, R376): the reason of the check that covers it, the lane or the
element 64i + j, the place within it (element of a lane's word, level-B or level-A group), and the bits that
the error flips. -/
structure Flip where
  reason : Nat := 1
  index : Nat := 0
  part : Nat := 0
  bits : Nat := 0
  deriving DecidableEq, Repr

/-- A hardware error from outside the program: an uncorrectable error in an SRAM (R473, R485), or a wrong
result of a core's arithmetic (R375). -/
inductive Upset where
  | row (team heat reg : Nat)
  | line (team line : Nat)
  | tile (team tile : Nat)
  | journal (team : Nat)
  | log (team : Nat)
  | image (team : Nat)
  | result (core : Nat) (f : Flip)
  deriving DecidableEq, Repr

/-- A spawn bin (R400). -/
structure Bin where
  key : Option (Nat × Addr) := .none
  threads : List BinThread := []
  /-- Core cycle at which the timer expires. -/
  expires : Nat := 0
  deriving DecidableEq, Repr

/-- One trace record (R514), by its fields. -/
structure TraceRec where
  gtc : W64 := 0#64
  src : Nat := 0
  kind : Nat := 0
  vfs : Nat := 0
  teamId : W32 := 0xFFFFFFFF#32
  gridId : W32 := 0xFFFFFFFF#32
  heatId : Nat := 254
  code : Nat := 0
  lap : W64 := 0#64
  stride : W64 := 0#64
  a : W64 := 0#64
  b : W64 := 0#64
  deriving DecidableEq, Repr

/-- A dump in progress (R466, R467). -/
structure Dump where
  /-- The fault that froze the core, whose context is dumped. -/
  fault : TrapRec := {}
  sect : Nat := 0
  base : Nat := 0
  /-- The sections are written, up to `written` bytes from DUMPA. -/
  begun : Bool := false
  written : Nat := 0
  /-- The fault of a write (R469): class, section, address. -/
  second : Option (Nat × Nat × Nat) := .none
  deriving DecidableEq, Repr

/-- A core: trap heat and its registers, pool, bins, counters, schedulers. -/
structure Core where
  /-- The fault that froze the core, while it is frozen (R463). -/
  frozen : Option TrapRec := .none
  /-- Cycle in which it was found, while another fault of that cycle may come before it (R472). -/
  frozenAt : Option W64 := .none
  /-- Queued faults (R472). -/
  queue : List TrapRec := []
  /-- The trap heat has started and has not executed ERET. -/
  trapOn : Bool := false
  trap : Heat := {}
  /-- A trap-heat fault, or THENTRY 0: frozen until management acts (R474). -/
  stuck : Bool := false
  thentry : W64 := 0#64
  csel : W64 := 0#64
  /-- TACTION of each share, and the last one accepted (R475). -/
  actions : FMap Nat := []
  lastAction : W64 := 0#64
  /-- Bit 63 of TPEND (R476). -/
  pendError : Bool := false
  dumpa : W64 := 0#64
  dumps : W64 := 0#64
  dump : Option Dump := .none
  /-- Removal requested by HALT action 2, effective at ERET (R282). -/
  removeAtEret : List Nat := []
  poolrb : W64 := 32#64
  poolsb : W64 := 112#64
  poolcb : W64 := 128#64
  /-- The carve in force: POOLRB, POOLSB, POOLCB as the starter last wrote them (R60). -/
  carve : Nat × Nat × Nat := (32, 112, 128)
  /-- Residency m of the carve in force. -/
  residency : Nat := 1
  bins : List Bin := []
  /-- Arithmetic cycles since reset (R283). -/
  cycles : W64 := 0#64
  /-- Stall counter n of scheduler k at key 16·k + n (R405). -/
  stalls : FMap W64 := []
  /-- Schedulers that issued in the current cycle. -/
  issued : List Nat := []
  /-- Highest HEATID that issued in the current cycle (R49), and the schedulers that had a word ready which
  the pacers withheld (R405). -/
  lastHeat : Option Nat := .none
  readied : List Nat := []
  /-- Schedulers that wrote their stall sample of the current cycle (R518). -/
  sampled : List Nat := []
  /-- Event sources and counters (R520). -/
  evSel : FMap Nat := []
  evCnt : FMap W64 := []
  /-- Trace buffer, oldest first, and records dropped (R516, R517). -/
  trace : List TraceRec := []
  traceLost : Nat := 0
  /-- HEATID and team the copy and gather engines served last (R192). -/
  copyLast : Nat × Nat := (255, 0)
  gatherLast : Nat × Nat := (255, 0)
  /-- Team in the shadow bank, and whether its image is written back (R406). -/
  shadowBusy : Option Nat := .none
  /-- Descriptor cache (R343): context, address, the 64 bytes; newest first, at most 64. -/
  descs : List (Nat × Nat × List Byte) := []
  /-- Wrong results that the core's arithmetic will give (R375): the next checked result of each place. -/
  flips : List Flip := []
  /-- Cycles of stall capture left after a throttle start (R519). -/
  capture : Nat := 0
  deriving DecidableEq, Repr

/-- A domain table entry (R441). -/
structure DomEntry where
  explen : Nat := 0
  incarn : W32 := 0#32
  valid : Bool := false
  deriving DecidableEq, Repr

/-- An export table entry (R442). -/
structure ExpEntry where
  vabase : Nat := 0
  len : Nat := 0
  offbase : Nat := 0
  asid : Nat := 0
  valid : Bool := false
  deriving DecidableEq, Repr

/-- A group table entry (R458). -/
structure GrpEntry where
  mlist : Nat := 0
  limit : Nat := 0
  self : Nat := 0
  m : Nat := 0
  valid : Bool := false
  deriving DecidableEq, Repr

/-- A relay packet (R448) by its fields. -/
structure Packet where
  kind : Nat := 1
  op : Nat := 0
  srcdev : Nat := 0
  asid : Nat := 0
  cgen : BitVec 16 := 0#16
  serial : W32 := 0#32
  ackthr : W32 := 0#32
  oinc : W32 := 0#32
  srcinc : W32 := 0#32
  offset : Nat := 0
  x : W64 := 0#64
  y : W64 := 0#64
  retrans : Bool := false
  reason : Nat := 0
  deriving DecidableEq, Repr

/-- An owner's stream record (R450), its held requests and its result cache entries. -/
structure OwnerRec where
  srcinc : W32 := 0#32
  cgen : BitVec 16 := 0#16
  e : W32 := 0#32
  a : W32 := 0#32
  held : List Packet := []
  /-- Cached (serial, status, reason, result). -/
  cache : List (W32 × Nat × Nat × W64) := []
  deriving DecidableEq, Repr

/-- A REDST.ord contribution on its way to the home slice (R183). -/
structure OrdMsg where
  pa : Nat := 0
  index : Nat := 0
  value : W32 := 0#32
  asid : Nat := 0
  team : Nat := 0
  heat : Nat := 0
  stamp : Nat := 0
  /-- Refused for want of room, to be sent again. -/
  refused : Bool := false
  /-- The virtual address. -/
  va : Nat := 0
  /-- Its page is a TEAM page: old bytes are kept for a rollback (R481). -/
  undo : Bool := false
  /-- Lap and lane of the issue, its STRIDE, word and position: for the fault of an uncorrectable old value (R167). -/
  lap : Nat := 0
  lane : Nat := 0
  stride : Nat := 0
  hdr : Addr := 0#72
  idx : Nat := 0
  word : W32 := 0#32
  deriving DecidableEq, Repr

/-- An ordered reduction record of one word (R183). -/
structure OrdRec where
  e : Nat := 0
  /-- Waiting contributions in order of arrival. -/
  waiting : List OrdMsg := []
  deriving DecidableEq, Repr

/-- A collective message to one member (R459): its device and index, group and number, command words (a
verdict alone in one word), source bytes. -/
structure CollMsg where
  id : Nat := 0
  dev : Nat := 0
  member : Nat := 0
  group : Nat := 0
  k : Nat := 0
  words : List W64 := []
  data : List Byte := []
  deriving DecidableEq, Repr

/-- A frame sent to the host (R523, R525): type, tag, payload. -/
structure Frame where
  type : Nat := 0
  flags : Nat := 0
  tag : W32 := 0#32
  payload : List Byte := []
  deriving DecidableEq, Repr

/-- Contention predictor entry of a sector (R338). -/
structure PredEntry where
  far : Bool := false
  owner : Nat := 0
  /-- Core of the last far ATOM; none since the switch to far. -/
  lastFar : Option Nat := .none
  transfers : List Nat := []
  used : Nat := 0
  deriving DecidableEq, Repr

/-- What a pacer counts for a die, in measurements of 10 µs (R536): since a power step down while over the
limit, below 95 % of it, and since a thermal step down; none while the condition is off. -/
structure Pacer where
  above : Option Nat := .none
  below : Nat := 0
  hot : Option Nat := .none
  deriving DecidableEq, Repr

/-- A black-box entry (R521). -/
structure BlackBox where
  gtc : W64 := 0#64
  src : Nat := 0
  kind : Nat := 0
  vfs : Nat := 0
  code : Nat := 0
  asid : Nat := 0
  a : W64 := 0#64
  b : W64 := 0#64
  deriving DecidableEq, Repr

/-- Who issues the word that `exec` runs. -/
inductive Issuer where
  | heat (team heat : Nat)
  | seq (team : Nat)
  | trap (core : Nat)
  deriving DecidableEq, Repr

/-- The issue in progress: who, on which core, which lanes, at which position, which word. -/
structure Cur where
  who : Issuer := .trap 0
  core : Nat := 0
  active : Mask := 0#32
  helpers : Mask := 0#32
  hdr : Addr := 0#72
  idx : Nat := 0
  /-- Words of the clause. -/
  n : Nat := 1
  word : W32 := 0#32
  deriving DecidableEq, Repr

/-- One turn of the machine: an issuer's next word, an event of the opcode table, or a hardware error. -/
inductive Turn where
  | issue (who : Issuer)
  | event (i : Instr)
  | upset (u : Upset)
  deriving DecidableEq, Repr

/-- The state of one device. -/
structure State where
  /-- Turns to come; when empty the machine chooses its own (the model's own field). -/
  inputs : List Turn := []
  /-- The issue in progress (the model's own field). -/
  cur : Cur := {}
  /-- Counts effective issues and events; names operations (the model's own field). -/
  stamp : Nat := 0
  /-- Device memory by physical address. -/
  mem : FMap Byte := []
  /-- Poisoned 64-byte units (R530), spare words (R530), frames in scale-metadata mode. -/
  poison : List Nat := []
  spare : FMap W32 := []
  scaleFrames : List (Nat × Nat) := []
  /-- Retirement list (flash), the frames of it that have been retired (R533, R534), and
  units corrected in the last 24 hours with the GTC of the correction. -/
  retireList : List Nat := []
  retired : List Nat := []
  corrections : List (Nat × W64) := []
  contexts : FMap Context := []
  /-- CGEN last given to each ASID (R446). -/
  cgens : FMap (BitVec 16) := []
  /-- Cached translations, the walk caches and the walks in progress (R493, R494). -/
  tlb : List TlbEntry := []
  tables : List TableEntry := []
  walks : List OpenWalk := []
  bindings : List Binding := []
  grids : FMap Grid := []
  /-- Grid queues 0 to 63: GRIDIDs in acceptance order (R392). -/
  gridQueues : FMap (List Nat) := []
  lastGrid : W32 := 0#32
  lastQueue : Nat := 63
  teams : FMap Team := []
  nextTeam : Nat := 0
  cores : FMap Core := []
  /-- This device's number in the domain. -/
  self : Nat := 0
  domain : FMap DomEntry := []
  exports : FMap ExpEntry := []
  groups : FMap GrpEntry := []
  /-- Logical quartet whose turn it is on a shared physical quartet (R411), where not the lowest. -/
  detTurn : FMap Nat := []
  /-- Remap table (R411): logical quartet to physical quartet, identity where not listed. -/
  remap : FMap Nat := []
  /-- Relay: incarnation, owner records by 1024·SRCDEV + ASID, error counter of each die's relay. -/
  incarnation : W32 := 0#32
  owners : FMap OwnerRec := []
  relayErrors : FMap W64 := []
  /-- Packets sent by the relays, oldest first: the target device and the 64 bytes written there (R448). -/
  packets : List (Nat × List Byte) := []
  /-- Plain fabric accesses not answered, and answers sent to requesters. -/
  fabric : List FabReq := []
  fabricOut : List (Nat × Nat × Nat × List Byte) := []
  /-- Engine commands accepted and not complete. -/
  engines : List EngCmd := []
  /-- Collective numbering by group, commands in progress, errors. -/
  collNext : FMap Nat := []
  colls : List CollCmd := []
  /-- Messages sent to members, and those not yet acknowledged (R459). -/
  collOut : List CollMsg := []
  collWait : List CollMsg := []
  /-- Error counters of the two collective engines (R458). -/
  collErrors : FMap W64 := []
  ordRecs : FMap OrdRec := []
  ordMsgs : List OrdMsg := []
  predictor : FMap PredEntry := []
  /-- Global timestamp (R61). -/
  gtc : W64 := 0#64
  /-- Management may still set GTC: from cold reset to the first setting (R61, R527). -/
  gtcOpen : Bool := true
  /-- Power: state of each die, dies whose state is changing, limit in W, what the pacers count, throttles
  in force (die, code of R515), quartet caps and fences (flash). -/
  vfsA : Nat := 11
  vfsB : Nat := 11
  vfChanging : List Nat := []
  powerLimit : Nat := 3000
  pacers : FMap Pacer := []
  throttled : List (Nat × Nat) := []
  capped : List Nat := []
  fenced : List Nat := []
  /-- The pacers withhold one issue slot in four (R536). -/
  withhold : Bool := false
  /-- Trace ring (R516): base, length, read and write pointers, kinds, sampling exponent. -/
  ringBase : Nat := 0
  ringLen : Nat := 0
  ringRead : Nat := 0
  ringWrite : Nat := 0
  traceKinds : Nat := 0
  samplePeriod : Nat := 0
  /-- Trace buffers of the pacers (128, 129) and the starter (130), and their loss counts. -/
  devTrace : FMap (List TraceRec) := []
  devLost : FMap Nat := []
  blackBox : List BlackBox := []
  blackWrite : Nat := 0
  /-- Opina Link: wavelengths up, down for more than 100 ms, next sequence numbers, frames not
  acknowledged, error counter. -/
  wavelengths : Nat := 2
  linkDown : Bool := false
  txSeq : W32 := 0#32
  rxSeq : W32 := 0#32
  unacked : List (W32 × Frame) := []
  linkErrors : W64 := 0#64
  /-- Frames sent to the host, oldest first, and what went over the link: header, payload and CRC of each
  (R523). -/
  hostOut : List Frame := []
  wire : List (List Byte) := []
  /-- UALink ports 0 to 23 that are up (R439). -/
  portsUp : List Nat := []
  /-- Boot: flash stages, measurement registers, rollback counter (fuse), recovery mode. -/
  flash : List (Nat × List Byte) := []
  measures : FMap (List Byte) := []
  rollback : Nat := 0
  recovery : Bool := false
  deriving DecidableEq, Repr

/-- The machine right after cold reset (R541): every field at the value its declaration
gives. -/
def State.reset : State := {}

end Sys2Proof.Machine
end

