-- ==== Sys2Proof/Machine/Command.lean ====
section
/-! DEFINITION. The commands of the copy, gather and collective engines as data (R189–R198, R243): the fields of
their words, their pieces, and what an engine makes of a queue entry as it accepts it (R192, R194, R195). -/

namespace Sys2Proof.Machine

/-! ### Words of a copy command (R189) -/

/-- Command word i as a number. -/
def cmdWord (w : List W64) (i : Nat) : Nat := (w.getD i 0#64).toNat

/-- Source address of a CPY or CPYM. -/
def cmdSrc (w : List W64) : Nat := cmdWord w 0 + fld (cmdWord w 2) 56 8 * 2 ^ 64
/-- Destination address of a CPY or CPYM. -/
def cmdDst (w : List W64) : Nat := cmdWord w 1 + fld (cmdWord w 2) 48 8 * 2 ^ 64
/-- OPC. -/
def cmdOpc (w : List W64) : Nat := fld (cmdWord w 3) 16 4
/-- CQ. -/
def cmdQueue (w : List W64) : Nat := fld (cmdWord w 3) 20 4
/-- TAG. -/
def cmdTag (w : List W64) : Nat := fld (cmdWord w 3) 0 16
/-- LEN. -/
def cmdLen (w : List W64) : Nat := fld (cmdWord w 2) 0 32
/-- RMASK. -/
def cmdRmask (w : List W64) : Nat := fld (cmdWord w 2) 36 4

/-! ### Words of a gather or scatter (R197) -/

/-- Element size of a size code. -/
def elemSize (n : Nat) : Nat := if n = 0 then 4 else if n = 1 then 8 else 16

/-- Entries of a sequence with this header. -/
def seqLength (w : W64) : Nat :=
  if fld w.toNat 0 4 = 0 then 2 else if fld w.toNat 4 2 = 2 then 4 else 3

/-- The first complete sequence of a list of q2 entries. -/
def headSeq (l : List QEntry) : List QEntry :=
  match l with
  | [] => []
  | e :: _ =>
    let n := seqLength (mget 0#64 e.vals 0)
    if l.length < n then [] else l.take n

/-- The data bytes of a scatter: its data entries' lanes, element by element. -/
def scatterBytes (mask : Mask) (size : Nat) (data : List QEntry) : List Byte :=
  (lanesOf mask).flatMap (fun l =>
    toBytes size ((upto data.length).foldl (fun v i =>
      v + (mget 0#64 (data.getD i {}).vals l).toNat * 2 ^ (64 * i)) 0))

/-! ### Pieces -/

/-- Drop repeated elements. -/
def distinct {α : Type} [DecidableEq α] : List α → List α
  | [] => []
  | e :: t => if e ∈ t then distinct t else e :: distinct t

/-- Bytes of a piece. -/
def Piece.len (p : Piece) : Nat :=
  match p with
  | .mem _ n _ _ => n
  | .fab _ _ n => n
  | .spad _ _ n => n

/-- The numbers of the granules of `g` bytes that a range touches. -/
def granules (g a n : Nat) : List Nat := (upto ((a + n - 1) / g + 1 - a / g)).map (a / g + ·)

/-- The scratchpad lines a piece touches. -/
def Piece.lines (p : Piece) : List (Nat × Nat) :=
  match p with
  | .spad t off n => (granules 128 off n).map (fun l => (t, l))
  | _ => []

/-- The memory sectors a piece touches. -/
def Piece.sectors (p : Piece) : List Nat :=
  match p with
  | .mem pa n _ _ => granules 1024 pa n
  | _ => []

/-- The lines a destination touches, each once. -/
def destLines (d : List (Nat × Piece)) : List (Nat × Nat) := distinct (d.flatMap (fun p => p.2.lines))

/-- The memory sectors a destination touches, each once: those its engine owns (R192). -/
def destSectors (d : List (Nat × Piece)) : List Nat := distinct (d.flatMap (fun p => p.2.sectors))

/-- The part of a range that lies in granule k of `g` bytes: start and end. -/
def clip (g k a n : Nat) : Nat × Nat := (max a (g * k), min (a + n) (g * k + g))

/-- A piece cut at the boundaries of sectors and lines, each part with its position: what an engine reads at
once (R192). -/
def Piece.cut (pos : Nat) (p : Piece) : List (Nat × Piece) :=
  match p with
  | .mem pa n leaf va => (granules 1024 pa n).map (fun k =>
      let r := clip 1024 k pa n
      (pos + (r.1 - pa), .mem r.1 (r.2 - r.1) leaf (va + (r.1 - pa))))
  | .spad t off n => (granules 128 off n).map (fun k =>
      let r := clip 128 k off n
      (pos + (r.1 - off), .spad t r.1 (r.2 - r.1)))
  | .fab dev off n => [(pos, .fab dev off n)]

/-- Whether a piece lies in the fabric. -/
def Piece.isFab (p : Piece) : Bool :=
  match p with
  | .fab _ _ _ => true
  | _ => false

/-- The parts of a source that its engine reads itself: a copy's whole sectors and lines; the element of a
gather is one access (R195). -/
def sourceParts (whole : Bool) (src : List (Nat × Piece)) : List (Nat × Piece) :=
  (src.flatMap (fun p => if whole then [p] else p.2.cut p.1)).filter (fun p => !p.2.isFab)

/-! ### Accepting (R192, R195) -/

/-- An accepted command, from its record and the entry that names it. -/
def EngCmd.start (core t heat : Nat) (e : QEntry) (r : CopyRec) : EngCmd :=
  { id := e.id, core := core, team := t, heat := heat, stride := e.stride, lap := e.lap, mask := e.mask
    hdr := r.hdr, idx := r.idx, word := r.word, src := r.src, dst := r.dst
    owned := r.owned, lines := destLines r.dst }

/-- The copy command of a q0 entry. -/
def copyCmd (core t heat : Nat) (e : QEntry) (r : CopyRec) : EngCmd :=
  let w := (upto 4).map (fun i => mget 0#64 e.vals i)
  { EngCmd.start core t heat e r with
    opc := cmdOpc w, queue := cmdQueue w, tag := cmdTag w, todo := sourceParts false r.src }

/-- The gather or scatter of a sequence of q2 entries, named by the last. -/
def gatherCmd (core t heat : Nat) (es : List QEntry) (r : CopyRec) : EngCmd :=
  let header := mget 0#64 (es.headD {}).vals 0
  let write := fld header.toNat 0 4 == 1
  let size := elemSize (fld header.toNat 4 2)
  let mask := (es.getD 1 {}).mask
  { EngCmd.start core t heat (es.getLastD {}) r with
    opc := if write then 4 else 5, queue := fld header.toNat 6 4, elem := size, mask := mask
    todo := sourceParts true r.src
    buf := if write then some (scatterBytes mask size (es.drop 2)) else none }

/-- The source of a COLL command of a q4 entry (R459). -/
def collSource (t heat : Nat) (e : QEntry) (r : CopyRec) : EngCmd :=
  { EngCmd.start 0 t heat e r with opc := 6, lines := [], todo := sourceParts false r.src }

/-! ### Data -/

/-- Whether a position is left unwritten: a fabric source refused it (R193). -/
def EngCmd.skipped (c : EngCmd) (i : Nat) : Bool := c.skips.any (fun r => decide (r.1 ≤ i ∧ i < r.1 + r.2))

/-- The writes of a range of addresses from a position of the data. -/
def EngCmd.pairs (c : EngCmd) (a pos n : Nat) : List (Nat × Byte) :=
  let b := ((c.buf.getD []).drop pos).take n
  ((upto n).zip b).filterMap (fun e => if c.skipped (pos + e.1) then none else some (a + e.1, e.2))

/-- Whether a range of the data carries an uncorrectable error. -/
def EngCmd.badIn (c : EngCmd) (pos n : Nat) : Bool := c.bads.any (fun i => decide (pos ≤ i ∧ i < pos + n))

/-- Whether every destination byte has been written. -/
def EngCmd.written (c : EngCmd) : Bool := c.buf.isSome && c.lines.isEmpty && c.owned.isEmpty && c.waiting == 0

/-- Position in a source tile of byte i of a transposed one (R191). -/
def transposeAt (i : Nat) : Nat := i / 1024 * 1024 + i % 32 * 32 + i % 1024 / 32

/-- The command with its whole source assembled from the parts read (R191). -/
def EngCmd.assemble (c : EngCmd) : EngCmd :=
  let b := c.parts.flatMap Prod.snd
  if c.opc = 2 then
    { c with
      parts := [], buf := some ((upto b.length).map (fun i => b.getD (transposeAt i) 0#8))
      bads := c.bads.map transposeAt
      skips := c.skips.flatMap (fun r => (upto r.2).map (fun i => (transposeAt (r.1 + i), 1))) }
  else { c with parts := [], buf := some b }

/-- A range of a fabric device as requests of at most 1 KiB; `write` carries the data. -/
def EngCmd.fabParts (c : EngCmd) (dev off pos n : Nat) (write : Bool) : List FabReq :=
  (upto (cdiv n 1024)).map (fun i =>
    let len := min 1024 (n - 1024 * i)
    { id := c.id * 2 ^ 40 + 2 ^ 39 + (if write then 2 ^ 38 else 0) + (pos + 1024 * i)
      dev := dev, offset := off + 1024 * i, size := len
      data := if write then some ((c.pairs 0 (pos + 1024 * i) len).map Prod.snd) else none
      team := c.team, heat := c.heat, stamp := c.id, engine := true, pos := pos + 1024 * i
      hdr := c.hdr, idx := c.idx, word := c.word, isStore := write })

/-- The fabric parts of a list of pieces; a part with a skipped byte is not written. -/
def EngCmd.fabricOf (c : EngCmd) (ps : List (Nat × Piece)) (write : Bool) : List FabReq :=
  (ps.flatMap (fun p => match p.2 with
    | .fab dev off n => c.fabParts dev off p.1 n write
    | _ => [])).filter (fun q => !write || !(upto q.size).any (fun i => c.skipped (q.pos + i)))

/-! ### Commands of a heat not yet accepted (R194, R409) -/

/-- A copy record by its identifier. -/
def Heat.copyRec (h : Heat) (id : Nat) : CopyRec := (h.copies.find? (fun r => r.id == id)).getD {}

/-- The entries of q2 sequences: those the engine holds from before a stop, then the queue's (R194). -/
def Heat.gatherList (h : Heat) : List QEntry := h.gseq ++ mget [] h.queues 2

/-- The complete sequences of a list of q2 entries (fuel: its length). -/
def fullSeqs : Nat → List QEntry → List (List QEntry)
  | 0, _ => []
  | f + 1, l => match headSeq l with
    | [] => []
    | es => es :: fullSeqs f (l.drop es.length)

/-- The copy, gather and scatter commands a heat has pushed and no engine has accepted. -/
def Heat.unaccepted (h : Heat) (core t heat : Nat) : List EngCmd :=
  (mget [] h.queues 0).map (fun e => copyCmd core t heat e (h.copyRec e.id)) ++
    (fullSeqs h.gatherList.length h.gatherList).map (fun es =>
      gatherCmd core t heat es (h.copyRec (es.getLastD {}).id))

end Sys2Proof.Machine
end

