-- ==== Sys2Proof/Machine/Hash.lean ====
section
/-! DEFINITION. The two public functions the spec names without a table: SHA-256, which the boot measures
with (R539), and the IEEE 802.3 CRC-32 of a link frame (R523). -/

namespace Sys2Proof.Machine

/-! ### SHA-256 -/

/-- Round constants 0 to 15. -/
def shaK0 : List W32 :=
  [0x428A2F98#32, 0x71374491#32, 0xB5C0FBCF#32, 0xE9B5DBA5#32, 0x3956C25B#32, 0x59F111F1#32, 0x923F82A4#32, 0xAB1C5ED5#32,
   0xD807AA98#32, 0x12835B01#32, 0x243185BE#32, 0x550C7DC3#32, 0x72BE5D74#32, 0x80DEB1FE#32, 0x9BDC06A7#32, 0xC19BF174#32]

/-- Round constants 16 to 31. -/
def shaK1 : List W32 :=
  [0xE49B69C1#32, 0xEFBE4786#32, 0x0FC19DC6#32, 0x240CA1CC#32, 0x2DE92C6F#32, 0x4A7484AA#32, 0x5CB0A9DC#32, 0x76F988DA#32,
   0x983E5152#32, 0xA831C66D#32, 0xB00327C8#32, 0xBF597FC7#32, 0xC6E00BF3#32, 0xD5A79147#32, 0x06CA6351#32, 0x14292967#32]

/-- Round constants 32 to 47. -/
def shaK2 : List W32 :=
  [0x27B70A85#32, 0x2E1B2138#32, 0x4D2C6DFC#32, 0x53380D13#32, 0x650A7354#32, 0x766A0ABB#32, 0x81C2C92E#32, 0x92722C85#32,
   0xA2BFE8A1#32, 0xA81A664B#32, 0xC24B8B70#32, 0xC76C51A3#32, 0xD192E819#32, 0xD6990624#32, 0xF40E3585#32, 0x106AA070#32]

/-- Round constants 48 to 63. -/
def shaK3 : List W32 :=
  [0x19A4C116#32, 0x1E376C08#32, 0x2748774C#32, 0x34B0BCB5#32, 0x391C0CB3#32, 0x4ED8AA4A#32, 0x5B9CCA4F#32, 0x682E6FF3#32,
   0x748F82EE#32, 0x78A5636F#32, 0x84C87814#32, 0x8CC70208#32, 0x90BEFFFA#32, 0xA4506CEB#32, 0xBEF9A3F7#32, 0xC67178F2#32]

/-- The initial hash value. -/
def shaInit : List W32 :=
  [0x6A09E667#32, 0xBB67AE85#32, 0x3C6EF372#32, 0xA54FF53A#32, 0x510E527F#32, 0x9B05688C#32, 0x1F83D9AB#32, 0x5BE0CD19#32]

/-- Rotate right. -/
def rotr32 (x : W32) (n : Nat) : W32 := (x >>> n) ||| (x <<< (32 - n))

/-- A big-endian number of a list of bytes. -/
def ofBytesBe (l : List Byte) : Nat := l.foldl (fun a b => 256 * a + b.toNat) 0

/-- A big-endian number as n bytes. -/
def toBytesBe (n x : Nat) : List Byte := (toBytes n x).reverse

/-- The padding of a message. -/
def shaPad (l : List Byte) : List Byte :=
  l ++ [0x80#8] ++ List.replicate ((119 - l.length % 64) % 64) 0#8 ++ toBytesBe 8 (8 * l.length)

/-- The next word of the message schedule, the last one first. -/
def shaNext (w : List W32) : W32 :=
  let x := w.getD 14 0#32
  let y := w.getD 1 0#32
  (rotr32 y 17 ^^^ rotr32 y 19 ^^^ (y >>> 10)) + w.getD 6 0#32 + (rotr32 x 7 ^^^ rotr32 x 18 ^^^ (x >>> 3)) +
    w.getD 15 0#32

/-- The message schedule, the last word first. -/
def shaExtend : Nat → List W32 → List W32
  | 0, w => w
  | n + 1, w => shaExtend n (shaNext w :: w)

/-- One round over the eight working variables. -/
def shaRound (v : List W32) (k w : W32) : List W32 :=
  let a := v.getD 0 0#32
  let b := v.getD 1 0#32
  let c := v.getD 2 0#32
  let e := v.getD 4 0#32
  let f := v.getD 5 0#32
  let g := v.getD 6 0#32
  let t1 := v.getD 7 0#32 + (rotr32 e 6 ^^^ rotr32 e 11 ^^^ rotr32 e 25) + ((e &&& f) ^^^ (~~~e &&& g)) + k + w
  let t2 := (rotr32 a 2 ^^^ rotr32 a 13 ^^^ rotr32 a 22) + ((a &&& b) ^^^ (a &&& c) ^^^ (b &&& c))
  [t1 + t2, a, b, c, v.getD 3 0#32 + t1, e, f, g]

/-- The compression of one 64-byte block. -/
def shaBlock (h : List W32) (b : List Byte) : List W32 :=
  let w0 := (upto 16).map (fun i => BitVec.ofNat 32 (ofBytesBe ((b.drop (4 * i)).take 4)))
  let w := (shaExtend 48 w0.reverse).reverse
  let v := ((shaK0 ++ shaK1 ++ shaK2 ++ shaK3).zip w).foldl (fun v p => shaRound v p.1 p.2) h
  (h.zip v).map (fun p => p.1 + p.2)

/-- SHA-256 of a message: 32 bytes. -/
def sha256 (l : List Byte) : List Byte :=
  let p := shaPad l
  let h := (upto (p.length / 64)).foldl (fun h i => shaBlock h ((p.drop (64 * i)).take 64)) shaInit
  h.foldl (fun acc x => acc ++ toBytesBe 4 x.toNat) []

/-! ### CRC-32 -/

/-- One bit of the reflected IEEE 802.3 polynomial. -/
def crcBit (c : W32) : W32 := if c.getLsbD 0 then (c >>> 1) ^^^ 0xEDB88320#32 else c >>> 1

/-- One byte. -/
def crcByte (c : W32) (b : Byte) : W32 := (upto 8).foldl (fun c _ => crcBit c) (c ^^^ b.setWidth 32)

/-- The CRC-32 of a list of bytes. -/
def crc32 (l : List Byte) : W32 := ~~~(l.foldl crcByte 0xFFFFFFFF#32)

end Sys2Proof.Machine
end

