-- ==== Sys2Proof/Machine/Ops.lean ====
section
/-! DEFINITION. Named operations over registers, lanes, teams and cores; the frames to the host,
the trace and the black box; taking a fault and returning from the trap heat (R463–R477). -/

namespace Sys2Proof.Machine

/-- What every meaning answers. -/
abbrev Out := Host.Outcome State Fault Refusal

/-! ### Device memory as bytes -/

/-- The canonical form of a byte memory: addresses strictly rising, no listed zero byte. -/
abbrev Memory.wf (m : FMap Byte) : Bool := mwf 0#8 m

/-- One byte of memory; an unlisted byte reads 0 (R541, assumption log entry 3). -/
def readByte (m : FMap Byte) (a : Nat) : Byte := mget 0#8 m a

/-- Write one byte, keeping the canonical form. -/
def writeByte (m : FMap Byte) (a : Nat) (b : Byte) : FMap Byte := mset 0#8 m a b

/-- `n` bytes from address `a`. -/
def readBytes (m : FMap Byte) (a : Nat) : Nat → List Byte
  | 0 => []
  | n + 1 => readByte m a :: readBytes m (a + 1) n

/-- Write bytes at consecutive addresses. -/
def writeBytes (m : FMap Byte) (a : Nat) : List Byte → FMap Byte
  | [] => m
  | b :: t => writeBytes (writeByte m a b) (a + 1) t

/-- Zero the 64-byte units of memory that `zeroed` names. -/
def zeroUnits (zeroed : Nat → Bool) (m : FMap Byte) : FMap Byte := m.filter (fun e => !zeroed (e.1 / 64))

/-- A little-endian number of `n` bytes (R9). -/
def readNat (m : FMap Byte) (a n : Nat) : Nat := ofBytes (readBytes m a n)

/-- Store the low `n` bytes of a number, little-endian. -/
def writeNat (m : FMap Byte) (a n x : Nat) : FMap Byte := writeBytes m a (toBytes n x)

/-! ### Registers of a heat (R40–R44) -/

/-- v r in lane l. -/
def Heat.v (h : Heat) (r l : Nat) : W32 := mget 0#32 h.rows (32 * r + l)

/-- Note an element in a list without repeats. -/
def noteIn (l : List Nat) (x : Nat) : List Nat := if l.contains x then l else x :: l

/-- Write v r in lane l; the journal has the row's old contents from the lap's first write on (R481). -/
def Heat.setV (h : Heat) (r l : Nat) (x : W32) : Heat :=
  { h with rows := mset 0#32 h.rows (32 * r + l) x, journalled := noteIn h.journalled r }

/-- The 64-bit pair v(r+1):v r in lane l (R41). -/
def Heat.pair (h : Heat) (r l : Nat) : W64 := h.v (r + 1) l ++ h.v r l

/-- Write both halves of a pair (R41). -/
def Heat.setPair (h : Heat) (r l : Nat) (x : W64) : Heat :=
  (h.setV r l (x.extractLsb' 0 32)).setV (r + 1) l (x.extractLsb' 32 32)

/-- k r in lane l; k0 reads as 1 (R43). -/
def Heat.k (h : Heat) (r l : Nat) : Bool :=
  if r = 0 then true else mget false h.preds (32 * r + l)

/-- Write k r in lane l; a write to k0 has no effect (R43). -/
def Heat.setK (h : Heat) (r l : Nat) (x : Bool) : Heat :=
  if r = 0 then h else { h with preds := mset false h.preds (32 * r + l) x }

/-- s r. -/
def Heat.sr (h : Heat) (r : Nat) : W64 := mget 0#64 h.s r

/-- Write s r. -/
def Heat.setS (h : Heat) (r : Nat) (x : W64) : Heat := { h with s := mset 0#64 h.s r x }

/-- a r. -/
def Heat.ar (h : Heat) (r : Nat) : Addr := mget 0#72 h.a r

/-- Write a r. -/
def Heat.setA (h : Heat) (r : Nat) (x : Addr) : Heat := { h with a := mset 0#72 h.a r x }

/-- Lane l. -/
def Heat.lane (h : Heat) (l : Nat) : Lane := mget {} h.lanes l

/-- Replace lane l. -/
def Heat.setLane (h : Heat) (l : Nat) (x : Lane) : Heat := { h with lanes := mput h.lanes l x }

/-- Queue q0 to q7 of the heat. -/
def Heat.queue (h : Heat) (q : Nat) : List QEntry := mget [] h.queues q

/-- Replace queue q. -/
def Heat.setQueue (h : Heat) (q : Nat) (x : List QEntry) : Heat :=
  { h with queues := mset [] h.queues q x }

/-- Whether an operation of the heat's current holder: an ended heat that had the HEATID before left older
ones behind (R401). -/
def Heat.owns (h : Heat) (stamp : Nat) : Bool := decide (h.born ≤ stamp)

/-- The pending results that occupy scoreboard slots of the heat (R33). -/
def Heat.pending (h : Heat) : List Slot := h.slots.filter (fun x => h.owns x.stamp)

/-- Unfinished operations of a kind, issued by this heat, in which the thread in lane l took part, and
that the test `f` picks by their stamps; `relay` lists those of the relay streams. -/
def Heat.unfinished (h : Heat) (l : Nat) (relay : List (Nat × Nat)) (k : OpKind) (f : Nat → Bool) : Bool :=
  let mine (n : Nat) : Bool := decide ((h.lane l).since ≤ n) && f n
  match k with
  | .ack => h.acks.any (fun a => inMask a.mask l && mine a.stamp)
  | .fabAck => h.acks.any (fun a => a.isFabric && inMask a.mask l && mine a.stamp)
  | .copy => h.copies.any (fun c => !c.coll && inMask c.mask l && mine c.id)
  | .relay => relay.any (fun r => r.1 == l && mine r.2)

/-- The live mask (R296). -/
def Heat.live (h : Heat) : Mask := maskOf (fun l => (h.lane l).live)

/-- Apply `f` to the heat for each lane of a mask, ascending. -/
def Heat.forLanes (h : Heat) (m : Mask) (f : Heat → Nat → Heat) : Heat :=
  (lanesOf m).foldl f h

/-- Lanes of a mask whose predicate k p is set. -/
def Heat.taking (h : Heat) (m : Mask) (p : Nat) : Mask := maskOf (fun l => inMask m l && h.k p l)

/-- v(n) of each lane of a mask as (lane, value). -/
def Heat.laneVals (h : Heat) (m : Mask) (r : Nat) : List (Nat × W32) :=
  (lanesOf m).map (fun l => (l, h.v r l))

/-! ### Sequencer registers (R249) -/

/-- m r. -/
def Seq.mr (q : Seq) (r : Nat) : W64 := mget 0#64 q.m r

/-- Write m r. -/
def Seq.setM (q : Seq) (r : Nat) (x : W64) : Seq := { q with m := mset 0#64 q.m r x }

/-- Profile word p (R258). -/
def Seq.profile (q : Seq) (p : Nat) : BitVec 32 := mget Config.resetProfile q.prof p

/-! ### Teams, cores, contexts -/

/-- Core c. -/
def State.core (s : State) (c : Nat) : Core := mget {} s.cores c

/-- Replace core c. -/
def State.putCore (s : State) (c : Nat) (k : Core) : State := { s with cores := mput s.cores c k }

/-- Team with key t. -/
def State.team? (s : State) (t : Nat) : Option Team := mfind s.teams t

/-- Replace team t. -/
def State.putTeam (s : State) (t : Nat) (x : Team) : State := { s with teams := mput s.teams t x }

/-- Change team t, if it exists. -/
def State.modTeam (s : State) (t : Nat) (f : Team → Team) : State :=
  match s.team? t with
  | none => s
  | some x => s.putTeam t (f x)

/-- Heat h of a team. -/
def Team.heat? (x : Team) (h : Nat) : Option Heat := mfind x.body.heats h

/-- Replace heat h of a team. -/
def Team.putHeat (x : Team) (h : Nat) (y : Heat) : Team :=
  { x with body := { x.body with heats := mput x.body.heats h y } }

/-- Keys from here on name the trap heats of cores where a team key is expected. -/
def trapBase : Nat := 2 ^ 40

/-- Heat h of team t, or the trap heat of core t − `trapBase`. -/
def State.heat? (s : State) (t h : Nat) : Option Heat :=
  if trapBase ≤ t then some (s.core (t - trapBase)).trap
  else match s.team? t with
    | none => none
    | some x => x.heat? h

/-- Replace heat h of team t. -/
def State.putHeat (s : State) (t h : Nat) (y : Heat) : State :=
  if trapBase ≤ t then s.putCore (t - trapBase) { s.core (t - trapBase) with trap := y }
  else s.modTeam t (fun x => x.putHeat h y)

/-- Change heat h of team t, if it exists. -/
def State.modHeat (s : State) (t h : Nat) (f : Heat → Heat) : State :=
  match s.heat? t h with
  | none => s
  | some y => s.putHeat t h (f y)

/-- Change the sequencer of team t. -/
def State.modSeq (s : State) (t : Nat) (f : Seq → Seq) : State :=
  s.modTeam t (fun x => { x with body := { x.body with seq := f x.body.seq } })

/-- Relay operations of a heat without a status, as (lane, stamp) (R228, R242). -/
def State.relayOps (s : State) (t heat : Nat) : List (Nat × Nat) :=
  match s.team? t with
  | none => []
  | some x => match mfind s.contexts x.asid with
    | none => []
    | some c => c.streams.foldl (fun acc (e : Nat × Stream) => acc ++
        (e.2.ops.filter (fun o => o.team == t && o.heat == heat)).map (fun o => (o.lane, o.stamp))) []

/-- Whether an operation that a thread brought along is of a kind and still unfinished (R17, R308). -/
def State.carriedOpen (s : State) (t : Nat) (k : OpKind) (c : Carried) : Bool :=
  let h := (s.heat? t c.heat).getD {}
  match k, c.kind with
  | .relay, .relay => (s.relayOps t c.heat).any (fun r => r.2 == c.id)
  | .ack, .ack => h.acks.any (fun a => a.stamp == c.id)
  | .fabAck, .ack => h.acks.any (fun a => a.isFabric && a.stamp == c.id)
  | .copy, .copy => h.copies.any (fun r => r.id == c.id)
  | _, _ => false

/-- Whether a thread of a mask has an unfinished operation of a kind that `f` picks by its stamp: of its
heat, or brought along from another (R17, R227, R228). -/
def State.unfinished (s : State) (t heat : Nat) (h : Heat) (m : Mask) (k : OpKind) (f : Nat → Nat → Bool) : Bool :=
  (lanesOf m).any (fun l =>
    h.unfinished l (s.relayOps t heat) k (f l) ||
      (h.lane l).carried.any (s.carriedOpen t k))

/-- Whether a load of these lanes has not landed (R17, R227). -/
def Heat.loading (h : Heat) (m : Mask) : Bool :=
  h.pending.any (fun x => x.isLoad && decide (x.mask &&& m ≠ 0#32))

/-- Context of an address-space identifier. -/
def State.ctx? (s : State) (a : Nat) : Option Context := mfind s.contexts a

/-- Change a context, if it exists. -/
def State.modCtx (s : State) (a : Nat) (f : Context → Context) : State :=
  match s.ctx? a with
  | none => s
  | some c => { s with contexts := mput s.contexts a (f c) }

/-- Change a grid, if it exists. -/
def State.modGrid (s : State) (g : Nat) (f : Grid → Grid) : State :=
  match mfind s.grids g with
  | none => s
  | some x => { s with grids := mput s.grids g (f x) }

/-- The core a team is active on. -/
def Team.core? (x : Team) : Option Nat :=
  match x.res with
  | .active c _ _ _ => some c
  | _ => none

/-- The logical core of a team of a deterministic grid (R410). -/
def Team.logicalCore (x : Team) : Nat :=
  if x.csize = 1 then x.teamId % 128 else 4 * (x.teamId / x.csize % 32) + x.rank

/-- The share a team holds, 255 for none. -/
def Team.share (x : Team) : Nat :=
  match x.res with
  | .active _ j _ _ => j
  | .exited _ j => j
  | _ => 255

/-- Keys of the teams active on a core. -/
def State.residents (s : State) (c : Nat) : List Nat :=
  (s.teams.filter (fun e => e.2.core? == some c)).map Prod.fst

/-- Whether a team is resident on a core, in its active or its shadow bank. -/
def State.coreBusy (s : State) (c : Nat) : Bool :=
  s.teams.any (fun e => match e.2.res with
    | .active k _ _ _ => k == c
    | .shadow k => k == c
    | .exited k _ => k == c
    | _ => false)

/-- The team resident in a share of a core. -/
def State.teamAt (s : State) (c share : Nat) : Option Nat :=
  (s.residents c).find? (fun t => match s.team? t with
    | some x => x.share == share
    | none => false)

/-- One more effective step: operations are named by this count. -/
def State.tick (s : State) : State := { s with stamp := s.stamp + 1 }

/-! ### The issuer (R277) -/

/-- The heat that issues: a heat of a team, or a core's trap heat. -/
def State.curHeat? (s : State) : Option Heat :=
  match s.cur.who with
  | .heat t h => s.heat? t h
  | .trap c => some (s.core c).trap
  | .seq _ => none

/-- Replace the issuing heat. -/
def State.putCurHeat (s : State) (y : Heat) : State :=
  match s.cur.who with
  | .heat t h => s.putHeat t h y
  | .trap c => s.putCore c { s.core c with trap := y }
  | .seq _ => s

/-- The sequencer that issues. -/
def State.curSeq? (s : State) : Option Seq :=
  match s.cur.who with
  | .seq t => (s.team? t).map (fun x => x.body.seq)
  | _ => none

/-- Replace the issuing sequencer. -/
def State.putCurSeq (s : State) (q : Seq) : State :=
  match s.cur.who with
  | .seq t => s.modSeq t (fun _ => q)
  | _ => s

/-- Key of the issuing team, if the issuer belongs to one. -/
def State.curTeam (s : State) : Option Nat :=
  match s.cur.who with
  | .heat t _ => some t
  | .seq t => some t
  | .trap _ => none

/-- Key under which the issuer's pending work is kept: its team, or its core's trap heat. -/
def State.curKey (s : State) : Nat :=
  match s.cur.who with
  | .heat t _ => t
  | .seq t => t
  | .trap c => trapBase + c

/-- LAP of the issuing team; 0 for the trap heat. -/
def State.curLap (s : State) : Nat :=
  match s.curTeam with
  | none => 0
  | some t => match s.team? t with
    | some x => x.lap.toNat
    | none => 0

/-- HEATID of the issuer; 255 for a sequencer. -/
def State.curHeatId (s : State) : Nat :=
  match s.cur.who with
  | .heat _ h => h
  | .seq _ => 255
  | .trap _ => 0

/-- Whether the trap heat issues: the only holder of privilege (R277). -/
def State.privileged (s : State) : Bool :=
  match s.cur.who with
  | .trap _ => true
  | _ => false

/-- Context the issuer's accesses translate in: the team's, or TASID for the trap heat. -/
def State.curAsid (s : State) : Nat :=
  match s.cur.who with
  | .trap c => match (s.core c).frozen with
    | some r => r.asid
    | none => 0
  | .heat t _ => match s.team? t with
    | some x => x.asid
    | none => 0
  | .seq t => match s.team? t with
    | some x => x.asid
    | none => 0

/-- The grid of a team; a checker's as it was launched (R511). -/
def State.gridOf (s : State) (x : Team) : Option Grid :=
  match x.launched with
  | some g => some g
  | none => mfind s.grids x.grid

/-- The grid of the issuing team. -/
def State.curGrid? (s : State) : Option Grid :=
  match s.curTeam with
  | none => none
  | some t => (s.team? t).bind s.gridOf

/-- Lanes that execute a lane-wise word: active lanes and helper lanes (R110). -/
def Cur.lanes (c : Cur) : Mask := c.active ||| c.helpers

/-! ### Positions (R37, R208) -/

/-- The fall-through address of the clause at `hdr` with `n` words (R15). -/
def fallThrough (hdr : Addr) (n : Nat) : Addr := hdr + BitVec.ofNat 72 (4 * (n + 1))

/-- The closing step of R208 at a newly taken position. -/
def closeLoops (p : Addr) : List LoopEntry → Addr × List LoopEntry
  | [] => (p, [])
  | e :: t =>
    if p = e.stop then
      if e.count - 1#32 = 0#32 then closeLoops p t
      else (e.start, { e with count := e.count - 1#32 } :: t)
    else (p, e :: t)

/-- A lane takes up position (p, 0) (R208). -/
def Lane.moveTo (x : Lane) (p : Addr) (stamp : Nat) : Lane :=
  let r := closeLoops p x.loops
  { x with hdr := r.1, idx := 0, loops := r.2, clauseStamp := stamp, park := .none }

/-- A lane goes on to the next word of its clause or to the fall-through (R15, R37). -/
def Lane.goOn (x : Lane) (stamp : Nat) : Lane :=
  if x.idx + 1 < x.n then { x with idx := x.idx + 1, park := .none }
  else x.moveTo (fallThrough x.hdr x.n) stamp

/-- Take up lanes parked on something at the next word. -/
def Heat.release (h : Heat) (stamp : Nat) (p : Park → Bool) : Heat :=
  h.forLanes (maskOf (fun l => p (h.lane l).park)) (fun y l => y.setLane l ((y.lane l).goOn stamp))

/-! ### End of an issue -/

/-- Windows over the issuing lanes lose one word (R31); a window opened by this issue does not. A window has one
allowance, which every issue that has one of its lanes takes from, also where its lanes have diverged (DESIGN CHOICE,
assumption log entry 77). -/
def Slot.count (x : Slot) (active : Mask) (stamp : Nat) : Slot :=
  match x.allow with
  | some n =>
    if x.stamp = stamp ∨ x.mask &&& active = 0#32 then x else { x with allow := some (n - 1) }
  | none => x

/-- The issuing heat after its word: STRIDE, windows, reference key, and each active lane moved
by `f` (R31, R56, R298). -/
def Heat.retire (h : Heat) (c : Cur) (stamp : Nat) (cyc : Nat) (f : Nat → Lane → Lane) : Heat :=
  let h := h.forLanes c.active
    (fun y l => y.setLane l { f l (y.lane l) with lastCycle := some cyc })
  { h with
    stride := h.stride + 1#64
    slots := h.slots.map (fun x => x.count c.active stamp)
    refKey := lowLane c.active
    turn := none
    lastIssue := some stamp
    resumed := h.resumed &&& ~~~c.active
    hold := 0 }

/-- Add n to every event counter of core c whose source is `src` (R520). -/
def State.count (s : State) (c src n : Nat) : State :=
  let k := s.core c
  let sel := (upto 16).filter (fun i => mget 0 k.evSel i == src)
  if sel.isEmpty ∨ n = 0 then s
  else s.putCore c { k with
    evCnt := sel.foldl (fun m i => mset 0#64 m i (mget 0#64 m i + BitVec.ofNat 64 n)) k.evCnt }

/-- Core bookkeeping of one issued word: the heat's scheduler has issued in this cycle. -/
def State.noteIssue (s : State) : State :=
  match s.cur.who with
  | .heat _ h =>
    let k := s.core s.cur.core
    (s.putCore s.cur.core { k with issued := (h % 4) :: k.issued, lastHeat := some (max h (k.lastHeat.getD 0)) }).count s.cur.core 2 1
  | _ => s

/-- End the issue of the current heat, moving its active lanes by `f`. -/
def State.finishBy (s : State) (h : Heat) (f : Nat → Lane → Lane) : State :=
  ((s.putCurHeat (h.retire s.cur s.stamp (s.core s.cur.core).cycles.toNat f)).noteIssue).tick

/-- End the issue of the current heat, its active lanes going on to the next word. -/
def State.finish (s : State) (h : Heat) : State :=
  s.finishBy h (fun _ x => x.goOn s.stamp)

/-- End the issue of a word after which the active lanes are parked (R220, R232, R285). -/
def State.finishPark (s : State) (h : Heat) (p : Park) : State :=
  s.finishBy h (fun _ x => { x with park := p })

/-- Leave the active lanes at the word, to issue it again when the wait is over; `cause` is the
order number of R405 it is charged under. Nothing else changes. -/
def State.hold (s : State) (h : Heat) (p : Park) (cause : Nat) : State :=
  s.putCurHeat { h.forLanes s.cur.active
      (fun y l => y.setLane l { y.lane l with park := p }) with
    turn := some (lowLane s.cur.active), hold := cause }

/-- The sequencer after its word. -/
def Seq.retire (q : Seq) (c : Cur) (stamp : Nat) : Seq :=
  if c.idx + 1 < c.n then { q with idx := c.idx + 1, count := q.count + 1#64, park := .none }
  else { q with hdr := fallThrough c.hdr c.n, idx := 0, count := q.count + 1#64, park := .none, clauseStamp := stamp }

/-- End the issue of the current sequencer's word, going on to the next. -/
def State.finishSeq (s : State) (q : Seq) : State :=
  ((s.putCurSeq { q.retire s.cur s.stamp with lastCycle := some (s.core s.cur.core).cycles.toNat }).count s.cur.core 3 1).tick

/-- End a sequencer transfer at position (p, 0). -/
def State.finishSeqAt (s : State) (q : Seq) (p : Addr) : State :=
  ((s.putCurSeq { q with
    hdr := p, idx := 0, count := q.count + 1#64, park := .none
    clauseStamp := s.stamp, lastCycle := some (s.core s.cur.core).cycles.toNat }).count s.cur.core 3 1).tick

/-- Leave the sequencer at its word. -/
def State.holdSeq (s : State) (q : Seq) (p : Park) : State := s.putCurSeq { q with park := p }

/-! ### Trace, black box, host frames -/

/-- Voltage-frequency state of the die of core c. -/
def State.vfsOf (s : State) (c : Nat) : Nat :=
  if c < 64 ∨ c = 128 then s.vfsA else s.vfsB

/-- Append a record to a buffer of 1,024 with its loss count (R516, R517). -/
def pushTrace (buf : List TraceRec) (lost : Nat) (r : TraceRec) : List TraceRec × Nat :=
  if lost = 0 then
    (if buf.length < 1024 then (buf ++ [r], 0) else (buf, 1))
  else if buf.length + 2 ≤ 1024 then
    (buf ++ [{ gtc := r.gtc, src := r.src, kind := 6, vfs := r.vfs, a := BitVec.ofNat 64 lost }, r],
      0)
  else (buf, lost + 1)

/-- Whether management enabled a record kind (R516). -/
def State.traces (s : State) (kind : Nat) : Bool := bitAt s.traceKinds kind

/-- A core writes a trace record, or counts its loss (R514–R517, R520). -/
def State.traceCore (s : State) (c : Nat) (r : TraceRec) : State :=
  if s.traces r.kind then
    let k := s.core c
    let p := pushTrace k.trace k.traceLost { r with gtc := s.gtc, src := c, vfs := s.vfsOf c }
    let s := s.putCore c { k with trace := p.1, traceLost := p.2 }
    if k.traceLost < p.2 then s.count c 0x10 1 else s
  else s

/-- A pacer (128, 129) or the starter (130) writes a trace record. -/
def State.traceDev (s : State) (src : Nat) (r : TraceRec) : State :=
  if s.traces r.kind then
    let p := pushTrace (mget [] s.devTrace src) (mget 0 s.devLost src)
      { r with gtc := s.gtc, src := src, vfs := s.vfsOf src }
    { s with devTrace := mset [] s.devTrace src p.1, devLost := mset 0 s.devLost src p.2 }
  else s

/-- Record an event in the black box, the last 4,096 kept (R521). -/
def State.blackBoxAdd (s : State) (b : BlackBox) : State :=
  { s with
    blackBox := (s.blackBox ++ [{ b with gtc := s.gtc, vfs := s.vfsOf b.src }]).drop
      (s.blackBox.length + 1 - 4096)
    blackWrite := (s.blackWrite + 1) % 4096 }

/-- Frames the link may carry before an acknowledgement (R524). -/
def linkWindow : Nat := 256

/-- Whether frames pass over the link (R522). -/
def State.linkUp (s : State) : Bool := !s.linkDown && decide (0 < s.wavelengths)

/-- A frame as it goes over the link: header, payload and CRC, little-endian (R9, R523). -/
def Frame.bytes (f : Frame) (seq ack : W32) : List Byte :=
  let body := toBytes 1 f.type ++ toBytes 1 f.flags ++ toBytes 2 f.payload.length ++ toBytes 4 seq.toNat ++
    toBytes 4 ack.toNat ++ toBytes 4 f.tag.toNat ++ f.payload
  body ++ toBytes 4 (crc32 body).toNat

/-- Send one frame: it goes over the link at once unless the link is down or 256 frames await their
acknowledgement (R522, R524). -/
def State.sendOne (s : State) (f : Frame) : State :=
  { s with
    hostOut := s.hostOut ++ [f]
    unacked := s.unacked ++ [(s.txSeq, f)]
    txSeq := s.txSeq + 1#32
    wire := if !s.linkUp ∨ linkWindow ≤ s.unacked.length then s.wire else s.wire ++ [f.bytes s.txSeq (s.rxSeq - 1#32)] }

/-- Send a message (R523, R524): frames of at most 4,096 bytes, LAST in the final one; fuel: its frames. -/
def State.sendChunks (s : State) (type : Nat) (tag : W32) : Nat → List Byte → State
  | 0, p => s.sendOne { type := type, flags := 2, tag := tag, payload := p }
  | n + 1, p =>
    if p.length ≤ 4096 then s.sendOne { type := type, flags := 2, tag := tag, payload := p }
    else (s.sendOne { type := type, flags := 0, tag := tag, payload := p.take 4096 }).sendChunks type tag n (p.drop 4096)

/-- Send a message to the host. -/
def State.sendFrame (s : State) (type : Nat) (tag : W32) (payload : List Byte) : State :=
  s.sendChunks type tag (payload.length / 4096) payload

/-- A management event: code (2 bytes), then data (R525). -/
def State.mgmtEvent (s : State) (code : Nat) (data : List Byte) : State :=
  s.sendFrame 12 0#32 (toBytes 2 code ++ data)

/-- A frame found with an uncorrectable unit becomes a candidate for retirement: it joins the retirement
list and the control node is told its address (R533). -/
def State.candidate (s : State) (frame : Nat) : State :=
  if s.retireList.contains frame then s
  else { s with retireList := s.retireList ++ [frame] }.mgmtEvent 4 (toBytes 8 (65536 * frame))

/-- `candidate` of several frames. -/
def State.candidates (s : State) (frames : List Nat) : State := frames.foldl State.candidate s

/-- A management reply: status (4 bytes), then data (R527). -/
def State.mgmtReply (s : State) (tag : W32) (status : Nat) (data : List Byte) : State :=
  s.sendFrame 11 tag (toBytes 4 status ++ data)

/-- A grid-complete event: GRIDID and status, frame-launched grids only (R390, R546). -/
def State.gridComplete (s : State) (gid : Nat) (g : Grid) (status : Nat) : State :=
  match g.tag with
  | some t => s.sendFrame 3 t (toBytes 4 gid ++ toBytes 4 status)
  | none => s

/-! ### Removing a context (R409) -/

/-- The tables no longer bind pages to the teams of a list. -/
def unbind (l : List Binding) (ts : List Nat) : List Binding :=
  l.filter (fun b => !ts.contains b.owner)

/-- Drop the threads of some teams from every bin of a core. -/
def Core.dropBins (k : Core) (ts : List Nat) : Core :=
  { k with bins := k.bins.map (fun b => match b.key with
      | some (t, _) => if ts.contains t then {} else b
      | none => b) }

/-- The 64 bytes of a relay packet (R448). -/
def Packet.bytes (p : Packet) : List Byte :=
  toBytes 1 p.kind ++ toBytes 1 p.op ++ toBytes 2 p.srcdev ++ toBytes 2 p.asid ++ toBytes 2 p.cgen.toNat ++
    toBytes 4 p.serial.toNat ++ toBytes 4 p.ackthr.toNat ++ toBytes 4 p.oinc.toNat ++ toBytes 4 p.srcinc.toNat ++
    toBytes 8 p.offset ++ toBytes 8 p.x.toNat ++ toBytes 8 p.y.toNat ++ toBytes 1 (if p.retrans then 1 else 0) ++
    toBytes 1 p.reason ++ toBytes 14 0

/-- Whether a UALink port is up: with none the fabric carries nothing (R439). -/
def State.fabricUp (s : State) : Bool := !s.portsUp.isEmpty

/-- Write a packet to a device's relay window (R448): SRCINC is the requester's incarnation, this device's
unless the packet is a response. With every port down it is lost (R439). -/
def State.sendPacket (s : State) (dev : Nat) (p : Packet) : State :=
  if !s.fabricUp then s
  else { s with packets := s.packets ++
      [(dev, { p with srcinc := if p.kind = 2 then p.srcinc else s.incarnation }.bytes)] }

/-- Change a stream of a context. -/
def State.modStream (s : State) (asid dev : Nat) (f : Stream → Stream) : State :=
  s.modCtx asid (fun c => { c with streams := mput c.streams dev (f (mget {} c.streams dev)) })

/-- Send the close packet of a stream (R457). -/
def State.sendClose (s : State) (asid dev : Nat) : State :=
  match s.ctx? asid with
  | none => s
  | some c =>
    let x := mget {} c.streams dev
    s.sendPacket dev { kind := 4, srcdev := s.self, asid := asid, cgen := c.cgen, ackthr := x.next - 1#32 }

/-- Close the idle streams of a context that is being removed, and forget the context once every close
has been answered (R457). -/
def State.closeIdle (s : State) (asid : Nat) : State :=
  match s.ctx? asid with
  | none => s
  | some c =>
    if !c.removing then s
    else if c.streams.isEmpty then { s with contexts := mdel s.contexts asid }
    else c.streams.foldl (fun s e =>
      if e.2.ops.isEmpty ∧ e.2.closes = none then
        (s.modStream asid e.1 (fun x => { x with closes := some 0 })).sendClose asid e.1
      else s) s

/-! ### Collectives: what members send (R459, R460) -/

/-- Members of a group other than this device. -/
def GrpEntry.others (g : GrpEntry) : List Nat := (upto g.m).filter (· != g.self)

/-- The device number of a member: 16 bits in the member list (R458). -/
def State.memberDev (s : State) (g : GrpEntry) (m : Nat) : Nat := readNat s.mem (g.mlist + 2 * m) 2

/-- Send a message of collective (group, k) to every other member, to be acknowledged: the command and this
member's source, or in one word its verdict. -/
def State.collSend (s : State) (group k : Nat) (words : List W64) (data : List Byte) : State :=
  let g : GrpEntry := mget {} s.groups group
  let kind := if words.length = 1 then 1 + (words.headD 0#64).toNat % 16 else 0
  let msgs := g.others.map (fun m => ({
    id := k * 2 ^ 40 + 2 ^ 37 + ((group * 1024 + m) * 32 + kind)
    dev := s.memberDev g m, member := m, group := group, k := k, words := words, data := data } : CollMsg))
  { s with collOut := if s.fabricUp then s.collOut ++ msgs else s.collOut, collWait := s.collWait ++ msgs }

/-- Whether a member's verdict is known: for this device, whether it has been sent. -/
def CollCmd.judged (c : CollCmd) (m : Nat) : Bool := c.verdicts.any (fun v => v.1 == m)

/-- The status of a collective once every verdict is known: the lowest failure of its own that a member names
(R460). -/
def collStatus (vs : List (Nat × Nat)) : Nat :=
  (vs.filter (fun v => v.2 != 0 && v.2 != 15)).foldl (fun m v => if m = 0 then v.2 else min m v.2) 0

/-- Note a member's verdict; the last one decides the collective, and so does a timeout, which a member may still
find after another verdict of its own (assumption log entry 70). -/
def CollCmd.judge (c : CollCmd) (members m v : Nat) : CollCmd :=
  if c.done.isSome ∨ (c.judged m ∧ v ≠ 1) then c
  else
    let vs := c.verdicts.filter (fun x => x.1 != m) ++ [(m, v)]
    { c with verdicts := vs
             done := if v = 1 then some 1 else if members ≤ vs.length then some (collStatus vs) else none }

/-- Replace the command (group, k). -/
def State.putColl (s : State) (c : CollCmd) : State :=
  { s with colls := s.colls.filter (fun x => !(x.group == c.group && x.k == c.k)) ++ [c] }

/-- This member gives its verdict on a collective, once, and tells every other member (R460). -/
def State.collVerdict (s : State) (c : CollCmd) (v : Nat) : State :=
  let g : GrpEntry := mget {} s.groups c.group
  if c.done.isSome ∨ (c.judged g.self ∧ v ≠ 1) then s
  else (s.putColl (c.judge g.m g.self v)).collSend c.group c.k [BitVec.ofNat 64 v] []

/-- The command at the head of a q4 is numbered in its group (R244). -/
def State.collNumber (s : State) (t heat : Nat) (e : QEntry) (words : List W64) (group : Nat) : State × CollCmd :=
  let k := mget 0 s.collNext group
  let early : CollCmd := (s.colls.find? (fun x => x.group == group && x.k == k)).getD {}
  let c : CollCmd := { early with
    group := group, k := k, accepted := true, words := words, team := t, heat := heat, id := e.id, lap := e.lap }
  ({ s with collNext := mset 0 s.collNext group (k + 1) }.putColl c, c)

/-- The engines take what teams that go have pushed: their copies, gathers and scatters, whose completions are
discarded (R194, R409), and their collectives, which are numbered and aborted at every member unless this
member has already judged them (R460). -/
def State.takeAll (s : State) (t : Nat) : State :=
  match s.team? t with
  | none => s
  | some x =>
    let cmds := x.body.heats.flatMap (fun e => e.2.unaccepted (x.core?.getD 0) t e.1)
    let s := cmds.foldl (fun (s : State) c =>
      let ps := c.fabricOf c.src false
      { s with engines := s.engines ++ [{ c with waiting := ps.length }], fabric := s.fabric ++ ps }) s
    let s := x.body.heats.foldl (fun s e => (mget [] e.2.queues 4).foldl (fun s q =>
      let w := (upto 4).map (fun i => mget 0#64 q.vals i)
      (s.collNumber t e.1 q w (fld (w.getD 2 0#64).toNat 48 8)).1) s) s
    (s.colls.filter (fun c => c.accepted && c.team == t)).foldl (fun s c => s.collVerdict c 4) s

/-- The check of a team ends without a result, which its core's event source 0x12 counts (R510, R511): its copies
go, and nothing else changes. -/
def State.endCheck (s : State) (t : Nat) : State :=
  match s.team? t with
  | none => s
  | some x =>
    if x.checks.isNone then s
    else
      let gone := x.cluster
      let s := (gone.filterMap (fun u => (s.team? u).bind (·.checks))).foldl (fun s u =>
        s.modTeam u (fun y => { y with checker := none, sampled := false })) s
      let c := ((x.core?.orElse (fun _ => (x.checks.bind s.team?).bind Team.core?)).getD 0)
      let s := s.count c 0x12 1
      { s with
        engines := s.engines.filter (fun e => !gone.contains e.team)
        teams := s.teams.filter (fun e => !gone.contains e.1)
        walks := s.walks.map (fun w => { w with users := w.users.filter (fun u => !gone.contains u.2.1) })
        contexts := s.contexts.map (fun (e : Nat × Context) =>
          (e.1, { e.2 with spill := e.2.spill.filter (fun b => !gone.contains b.team) }))
        cores := s.cores.map (fun (e : Nat × Core) => (e.1, e.2.dropBins gone)) }

/-- Whether a team is a checker. -/
def State.isCheck (s : State) (t : Nat) : Bool := (s.team? t).any (fun x => x.checks.isSome)

/-- The checks of teams that go, or of checkers among them, end. -/
def State.endChecks (s : State) (ts : List Nat) : State :=
  ts.foldl (fun s t => match s.team? t with
    | none => s
    | some x => match x.checker with
      | some c => s.endCheck c
      | none => s.endCheck t) s

/-- Teams go from the device (R409): commands they have pushed are taken and run, their collectives are
aborted, their bindings, bins and undelivered completions discarded. -/
def State.dropTeams (s : State) (gone : List Nat) : State :=
  let s := gone.foldl State.takeAll (s.endChecks gone)
  { s with
    engines := (s.engines.filter (fun c => !(gone.contains c.team && c.opc == 6 &&
        s.colls.any (fun k => k.id == c.id && k.verdicts.any (fun v => v.2 == 4))))).map (fun c =>
      if gone.contains c.team then { c with queue := 0 } else c)
    fabric := s.fabric.filter (fun q => q.engine || q.isStore || !gone.contains q.team)
    ordRecs := s.ordRecs.map (fun (e : Nat × OrdRec) =>
      (e.1, { e.2 with waiting := e.2.waiting.filter (fun w => !gone.contains w.team) }))
    teams := s.teams.filter (fun e => !gone.contains e.1)
    walks := s.walks.map (fun w => { w with users := w.users.filter (fun u => !gone.contains u.2.1) })
    bindings := unbind s.bindings gone
    cores := s.cores.map (fun (e : Nat × Core) => (e.1, e.2.dropBins gone)) }

/-- Fatal removal (R409): the context's teams, grids, queues, bins and spill areas go; its
frame-launched grids report status 1; its collectives are aborted at every member (R460); its relay
goes on until each serial completes (R457). -/
def State.removeContext (s : State) (asid : Nat) : State :=
  match s.ctx? asid with
  | none => s
  | some _ =>
    let gone := (s.teams.filter (fun e => e.2.asid == asid)).map Prod.fst
    let gs := s.grids.filter (fun e => e.2.asid == asid)
    let gids := gs.map Prod.fst
    let s := gs.foldl (fun s e => s.gridComplete e.1 e.2 (if e.2.status = 0 then 1 else e.2.status)) s
    let s := s.modCtx asid (fun c => { c with removing := true, spill := [], relayArea := [] })
    let s := s.dropTeams gone
    let s := { s with
      grids := s.grids.filter (fun e => e.2.asid != asid)
      gridQueues := s.gridQueues.map (fun (e : Nat × List Nat) => (e.1, e.2.filter (fun g => !gids.contains g)))
      ordRecs := s.ordRecs.map (fun (e : Nat × OrdRec) =>
        (e.1, { e.2 with waiting := e.2.waiting.filter (fun w => w.asid != asid) })) }
    (s.closeIdle asid).blackBoxAdd { kind := 8, asid := asid }

/-! ### Taking a fault (R463, R471, R472) and the trap heat -/

/-- The default TACTION of a class (R473). -/
def defaultAction (cls : Nat) : Nat := if cls = 0x20 ∨ cls = 0x22 ∨ cls = 0x23 then 1 else 0

/-- The priority number of a class (R473). -/
def faultPriority (cls : Nat) : Nat :=
  if cls = 0x22 ∨ cls = 0x23 then 1
  else if cls = 0x20 then 2
  else if cls = 0x01 ∨ cls = 0x0F then 3
  else if cls = 0x02 ∨ cls = 0x03 ∨ cls = 0x04 then 4
  else if cls = 0x21 then 6
  else if cls = 0x30 ∨ cls = 0x31 then 7
  else if cls = 0x40 ∨ cls = 0x41 then 8
  else 5

/-- The order in which faults of one cycle are reported (R472): priority number, share, HEATID, a sequencer
after the heats. -/
def TrapRec.order (r : TrapRec) : Nat := (faultPriority r.cls * 256 + r.share) * 256 + r.heat

/-- Lane codes as the 128-bit vector of R166. -/
def packCodes (codes : List (Nat × Nat)) : BitVec 128 :=
  BitVec.ofNat 128 (codes.foldl (fun acc e => acc + e.2 * 16 ^ e.1) 0)

/-- A core freezes for a fault: the record is kept, the faulting share takes the default
action, the other actions are 0 (R463, R473). -/
def Core.freeze (k : Core) (r : TrapRec) : Core :=
  { k with
    frozen := some r
    frozenAt := none
    trapOn := false
    actions := if r.share = 255 then [] else [(r.share, defaultAction r.cls)]
    lastAction := BitVec.ofNat 64 (if r.share = 255 then 0
      else defaultAction r.cls + 256 * r.share)
    csel := 0#64 }

/-- Record a fault in the black box and the trace (R515, R521). -/
def State.noteFault (s : State) (c : Nat) (r : TrapRec) : State :=
  let s := s.blackBoxAdd {
    src := c, kind := 3, code := r.cls, asid := r.asid
    a := r.hdr.setWidth 64, b := r.addr.setWidth 64 }
  s.traceCore c {
    kind := 3, code := r.cls, heatId := r.heat, lap := r.lap, stride := r.stride
    a := r.hdr.setWidth 64, b := r.addr.setWidth 64 }

/-- Whether a lane is parked at BRX.pack. -/
def Park.isPack (p : Park) : Bool :=
  match p with
  | .brxPack _ _ => true
  | _ => false

/-- Lanes parked at BRX.pack stand at the word again with no parked state: an open gathering is
abandoned at a freeze, a pre-emption or a debugger stop (R310); wait bits apply again (R37). -/
def Heat.unpack (h : Heat) : Heat :=
  { h with
    resumed := 0xFFFFFFFF#32
    lanes := h.lanes.map (fun (e : Nat × Lane) =>
      (e.1, if e.2.park.isPack then { e.2 with park := .none } else e.2)) }

/-- The engine is no longer granted to a word of the sequencer: it grants anew after a stop (R273). -/
def Seq.ungrant (q : Seq) : Seq :=
  { q with ops := q.ops.map (fun (o : SeqOp) => match o.kind with
      | .mma f ta k tile p bt bo n i d g _ => { o with kind := .mma f ta k tile p bt bo n i d g false }
      | _ => o) }

/-- A team stops: open BRX.pack gatherings are abandoned (R310) and the engine is given up (R273). -/
def State.unpackTeam (s : State) (t : Nat) : State :=
  s.modTeam t (fun x => { x with body := { x.body with
    heats := x.body.heats.map (fun (e : Nat × Heat) => (e.1, e.2.unpack))
    seq := x.body.seq.ungrant } })

/-- Whether a team's heats and sequencer may issue: it is active on a core that is not frozen, its
context is not halted there, and no stop or action holds it. -/
def State.runs (s : State) (t : Nat) : Bool :=
  match s.team? t with
  | none => false
  | some x => match x.core? with
    | none => false
    | some c =>
      (s.core c).frozen.isNone && !(s.core c).stuck && x.started && !x.stopped && !x.halted &&
        !x.exited && x.action == 0

/-- `Heat.unpack` for every heat of a core's teams. -/
def State.unpackCore (s : State) (c : Nat) : State := (s.residents c).foldl State.unpackTeam s

/-- A core freezes for a fault found in this cycle. -/
def State.freezeOn (s : State) (c : Nat) (r : TrapRec) : State :=
  s.putCore c { (s.core c).freeze { r with gtc := s.gtc } with frozenAt := some (s.core c).cycles }

/-- A fault that a frozen core does not report is queued, up to 64; a full queue removes its context (R472). -/
def State.queueFault (s : State) (c : Nat) (r : TrapRec) : State :=
  let k := s.core c
  if k.queue.length < Config.faultQueue then s.putCore c { k with queue := k.queue ++ [r] }
  else s.removeContext r.asid

/-- Whether a core's freeze is of this cycle and its trap heat has not started: another fault of the cycle may
come before the one it froze for (R472). -/
def Core.freezing (k : Core) : Bool := k.frozenAt == some k.cycles && !k.trapOn && !k.stuck

/-- A fault is found on core c: the core freezes. Of the faults of one cycle the first in `TrapRec.order` is
reported; a precise one that is not raises again, an asynchronous one is queued, as is every fault that
arrives later (R472). -/
def State.raiseOn (s : State) (c : Nat) (r : TrapRec) : State :=
  let r := { r with gtc := s.gtc }
  let k := s.core c
  match k.frozen with
  | none => (((s.noteFault c r).tick).freezeOn c r).unpackCore c
  | some f =>
    if k.freezing && decide (r.order < f.order) then
      let s := ((s.noteFault c r).tick).freezeOn c r
      if f.isAsync then s.queueFault c f else s
    else if k.freezing && !r.isAsync then s
    else ((s.noteFault c r).tick).queueFault c r

/-- A trap-heat fault leaves the core frozen and is reported with class 0x7F (R474). -/
def State.trapHeatFault (s : State) (c cls : Nat) : State :=
  let s := (s.putCore c { s.core c with stuck := true, trapOn := false }).tick
  let s := s.blackBoxAdd { src := c, kind := 3, code := 0x7F, a := BitVec.ofNat 64 cls }
  s.mgmtEvent 2 (toBytes 8 0x7F ++ toBytes 2 c ++ [BitVec.ofNat 8 cls])

/-- The record of a fault found at the issue of the current word (R39, R166, R475). -/
def State.curRecord (s : State) (cls : Nat) (info : Nat) : TrapRec :=
  let base : TrapRec := {
    cls := cls, info := BitVec.ofNat 64 info, hdr := s.cur.hdr
    idx := s.cur.idx, word := s.cur.word, mask := s.cur.active, asid := s.curAsid }
  match s.cur.who with
  | .trap _ => base
  | .heat t h => match s.team? t with
    | none => base
    | some x => match x.heat? h with
      | none => base
      | some y => { base with share := x.share, heat := h, live := y.live, lap := x.lap, stride := y.stride }
  | .seq t => match s.team? t with
    | none => base
    | some x => { base with share := x.share, heat := 255, mask := 0#32, lap := x.lap, stride := x.body.seq.count }

/-- The current word raises a precise fault: the core freezes, the word makes no change
(R471). A fault of the trap heat is a trap-heat fault (R474); one of a checker ends the check (R511; assumption log
entry 74). -/
def State.raiseRec (s : State) (r : TrapRec) : State :=
  match s.cur.who with
  | .trap c => s.trapHeatFault c r.cls
  | .heat t _ => if s.isCheck t then (s.endCheck t).tick else s.raiseOn s.cur.core r
  | .seq t => if s.isCheck t then (s.endCheck t).tick else s.raiseOn s.cur.core r

/-- `raiseRec` of a class and its TINFO. -/
def State.raise (s : State) (cls info : Nat) : State := s.raiseRec (s.curRecord cls info)

/-- The current word raises an address fault: class 0x10 plus the lowest nonzero code, with the
code and address of every failing lane (R166). -/
def State.raiseAddr (s : State) (bad : List (Nat × Nat × Addr)) : State :=
  let low := bad.foldl (fun m e => min m e.2.1) 15
  let r := s.curRecord (0x10 + low) 0
  s.raiseRec { r with
    codes := packCodes (bad.map (fun e => (e.1, e.2.1)))
    laneAddrs := bad.foldl (fun m e => mput m e.1 e.2.2) []
    addr := (bad.headD (0, 0, 0#72)).2.2 }

/-- An asynchronous fault of a heat (R471): its team's core freezes or queues it; of the trap heat it is
a trap-heat fault (R474). For a team that is on no core the fault is kept and raised where the team
returns (assumption log entry 61). -/
def State.raiseAsync (s : State) (t : Nat) (r : TrapRec) : State :=
  if trapBase ≤ t then s.trapHeatFault (t - trapBase) r.cls
  else match s.team? t with
    | none => s
    | some x => match x.core? with
      | none => s.putTeam t { x with late := x.late ++ [r] }
      | some c => if x.checks.isSome then s.endCheck t else s.raiseOn c { r with
          asid := x.asid, share := x.share, isAsync := true, lap := x.lap
          live := match x.heat? r.heat with
            | some h => h.live
            | none => 0#32 }

/-- A fault of an issued word of a team's sequencer, on the team's core; of a checker it ends the check. -/
def State.raiseOp (s : State) (t c : Nat) (r : TrapRec) : State :=
  if s.isCheck t then s.endCheck t else s.raiseOn c r

/-- Start the trap heat at (THENTRY, 0) (R474). -/
def State.startTrapHeat (s : State) (c : Nat) : State :=
  let k := s.core c
  if k.thentry = 0#64 then
    let cls := match k.frozen with
      | some r => r.cls
      | none => 0
    let s := (s.putCore c { k with stuck := true }).tick
    s.mgmtEvent 2 (toBytes 8 cls ++ toBytes 2 c ++ [BitVec.ofNat 8 cls])
  else
    let entry : Addr := k.thentry.setWidth 72
    let t : Heat := { budget := 128, lanes := (upto 32).map (fun l =>
      (l, { live := true, hdr := entry, lineage := 0xFFFFFFFFFFFFFFFE#64 })) }
    (s.putCore c { k with trap := t, trapOn := true }).tick

/-- The action a team takes at ERET (R477): that of its share, or that of the faulting share for
its cluster; classes 0x20, 0x22 and 0x23 take 0 as 1 on the faulting team. -/
def eretAction (k : Core) (r : TrapRec) (sameCluster : Bool) (share : Nat) : Nat :=
  let j := if sameCluster then r.share else share
  let a := mget 0 k.actions j
  if a = 0 ∧ j = r.share ∧ r.share ≠ 255 ∧ defaultAction r.cls = 1 then 1 else a

/-- Give a team and its cluster an action due, for a fault of class `cls` (R477, R479). -/
def State.setAction (s : State) (t a cls : Nat) : State :=
  if a = 0 then s
  else match s.team? t with
    | none => s
    | some x => x.cluster.foldl (fun s u => s.modTeam u (fun y => { y with
        action := max y.action a, cause := cls, avoid := y.core?.map (· / 4) })) s

/-- Freeze again for the oldest queued fault (R472). -/
def State.nextQueued (s : State) (c : Nat) : State :=
  let k := s.core c
  match k.queue with
  | [] => s
  | r :: t => s.putCore c ({ k with queue := t }.freeze { r with gtc := s.gtc })

/-- The return from the trap heat (R280, R477): each resident team takes its action, halted
contexts stay frozen, contexts HALT marked for removal go, the trap heat stops, the core
resumes or freezes for the oldest queued fault. With no freeze in effect nothing happens. -/
def State.eret (s : State) (c : Nat) : State :=
  let k := s.core c
  match k.frozen with
  | none => s
  | some r =>
    let faulty := if r.share = 255 then none else s.teamAt c r.share
    let fcl := match faulty with
      | none => []
      | some t => match s.team? t with
        | none => []
        | some x => x.cluster
    let s := (s.residents c).foldl (fun s t => match s.team? t with
      | none => s
      | some x => s.setAction t (eretAction k r (fcl.contains t) x.share) r.cls) s
    let s := k.removeAtEret.foldl (fun s a => s.removeContext a) s
    let k := s.core c
    let s := s.putCore c { k with frozen := none, frozenAt := none, trapOn := false, actions := [], removeAtEret := [] }
    s.nextQueued c

end Sys2Proof.Machine
end

