-- ==== Sys2Proof/Machine/Operands.lean ====
section
/-! DEFINITION. Operand forms: register operands with the budget check and the scoreboard hold,
immediates, lane addresses, branch targets, and the shapes of lane-wise, scalar and predicate
words. -/

namespace Sys2Proof.Machine

/-- A sign-extended immediate (R26). -/
def sext {n : Nat} (w : Nat) (i : BitVec n) : BitVec w := i.signExtend w

/-- A zero-extended immediate or field. -/
def zext {n : Nat} (w : Nat) (i : BitVec n) : BitVec w := i.setWidth w

/-- First register number of a pair operand: the field holds half of it (R27). -/
def pairReg {n : Nat} (x : BitVec n) : Nat := 2 * x.toNat

/-- First register number of a quad operand. -/
def quadReg {n : Nat} (x : BitVec n) : Nat := 4 * x.toNat

/-- The first vector register at or above the budget that a list of (first, count) operands
names (R42). -/
def overBudget (budget : Nat) : List (Nat × Nat) → Option Nat
  | [] => none
  | (r, n) :: t => if budget < r + n ∧ 0 < n then some (max r budget) else overBudget budget t

/-- Whether a pending result will write one of the named registers in one of the lanes (R32). -/
def Slot.touches (x : Slot) (lanes : Mask) (vr sr : List (Nat × Nat)) : Bool :=
  match x.dest with
  | .vec b n => vr.any (fun e => decide (e.1 < b + n ∧ b < e.1 + e.2)) &&
      x.vals.any (fun e => inMask lanes e.1)
  | .scalar r => sr.any (fun e => decide (e.1 ≤ r ∧ r < e.1 + e.2))

/-- Whether a window over the issuing lanes has no word left (R31). -/
def Slot.exhausted (x : Slot) (active : Mask) : Bool :=
  x.allow == some 0 && decide (x.mask &&& active ≠ 0#32)

/-- The registers that a word names: lanes whose rows it touches, vector and scalar registers as (first,
count). -/
structure Uses where
  lanes : Mask
  vr : List (Nat × Nat) := []
  sr : List (Nat × Nat) := []

/-- Whether a pending result touches a word's registers. -/
def Slot.meets (x : Slot) (us : List Uses) : Bool := us.any (fun u => x.touches u.lanes u.vr u.sr)

/-- The pending result that holds a word, with its order number of R405: a result inside its window that
the word touches (lookahead overrun, R32: 9), else a result that the word touches or whose window has no
word left (R31: 10). Of several the oldest is blamed (assumption log entry 59). -/
def Heat.blocker (h : Heat) (active : Mask) (us : List Uses) : Option (Slot × Nat) :=
  match h.pending.find? (fun x => x.allow.isSome && x.meets us) with
  | some x => some (x, 9)
  | none => (h.pending.find? (fun x => x.meets us || x.exhausted active)).map (fun x => (x, 10))

/-- Whether one of the vector registers that a word names has a row with an uncorrectable error (R473): a
partial write reads the row too. -/
def Heat.badRow (h : Heat) (vr : List (Nat × Nat)) : Bool :=
  h.badRows.any (fun r => vr.any (fun e => decide (e.1 ≤ r ∧ r < e.1 + e.2)))

/-- The issue of a heat word that names registers: the budget check (R42), the scoreboard hold (R31, R32), the
fault of an uncorrectable row, class 0x23, code 0 (R473), then the word's own part `f`. -/
def heatWordBy (s : State) (us : List Uses) (f : Heat → Out) : Out :=
  match s.curHeat? with
  | none => .fault .noIssuer
  | some h =>
    match overBudget h.budget (us.foldl (fun acc u => acc ++ u.vr) []) with
    | some r => .next (s.raise 4 (r % 128))
    | none =>
      match h.blocker s.cur.active us with
      | some (x, cause) => .next (s.hold { h with blamed := x.hdr, blamedIdx := x.idx } .none cause)
      | none =>
        if h.badRow (us.foldl (fun acc u => acc ++ u.vr) []) then
          .next (s.raiseRec { s.curRecord 0x23 0 with isAsync := true })
        else f h

/-- The issue of a heat word that names vector registers `vr` in the lanes `lanes`, and scalar registers
`sr`. -/
def heatWordIn (s : State) (lanes : Mask) (vr sr : List (Nat × Nat)) (f : Heat → Out) : Out :=
  heatWordBy s [{ lanes := lanes, vr := vr, sr := sr }] f

/-- `heatWordIn` over the lanes that execute the word (R110). -/
def heatWord (s : State) (vr sr : List (Nat × Nat)) (f : Heat → Out) : Out :=
  heatWordIn s s.cur.lanes vr sr f

/-- The condition under which a heat word's own part runs. -/
def State.ready (s : State) (h : Heat) (lanes : Mask) (vr sr : List (Nat × Nat)) : Prop :=
  s.curHeat? = some h ∧ overBudget h.budget vr = none ∧
    h.blocker s.cur.active [{ lanes := lanes, vr := vr, sr := sr }] = none ∧ h.badRow vr = false

/-- A word that writes v(d) of every executing lane with k p set (R110). -/
def vecWord (s : State) (vr sr : List (Nat × Nat)) (p d : Nat) (g : Heat → Nat → W32) : Out :=
  heatWord s vr sr (fun h =>
    .next (s.finish (h.forLanes (h.taking s.cur.lanes p) (fun y l => y.setV d l (g h l)))))

/-- A word that writes pair(d) of every executing lane with k p set (R129). -/
def pairWord (s : State) (vr : List (Nat × Nat)) (p d : Nat) (g : Heat → Nat → W64) : Out :=
  heatWord s vr [] (fun h =>
    .next (s.finish (h.forLanes (h.taking s.cur.lanes p) (fun y l => y.setPair d l (g h l)))))

/-- A word that writes k(d) of every executing lane with k p set (R136, R138). -/
def predWord (s : State) (vr : List (Nat × Nat)) (p d : Nat) (g : Heat → Nat → Bool) : Out :=
  heatWord s vr [] (fun h =>
    .next (s.finish (h.forLanes (h.taking s.cur.lanes p) (fun y l => y.setK d l (g h l)))))

/-- A word that writes s(d) once (R44, R109). -/
def scaWord (s : State) (sr : List (Nat × Nat)) (d : Nat) (g : Heat → W64) : Out :=
  heatWord s [] sr (fun h => .next (s.finish (h.setS d (g h))))

/-- A word that writes a(d) once (R121). -/
def addrWord (s : State) (sr : List (Nat × Nat)) (d : Nat) (g : Heat → Addr) : Out :=
  heatWord s [] sr (fun h => .next (s.finish (h.setA d (g h))))

/-- The lane address of an M-format word with a 32-bit offset; OFS 127 is none (R45). -/
def Heat.laneAddr (h : Heat) (a : BitVec 4) (o : BitVec 7) (l : Nat) : Addr :=
  if o = 127#7 then h.ar a.toNat else h.ar a.toNat + sext 72 (h.v o.toNat l)

/-- The vector register an M-format word names as its offset. -/
def ofsUse (o : BitVec 7) : List (Nat × Nat) := if o = 127#7 then [] else [(o.toNat, 1)]

/-- The address of an MI-format word of access size `size` (R45). -/
def Heat.miAddr (h : Heat) (a : BitVec 4) (i : BitVec 8) (size : Nat) : Addr :=
  h.ar a.toNat + sext 72 i * BitVec.ofNat 72 size

/-- The fall-through address of the current clause (R15). -/
def Cur.next (c : Cur) : Addr := fallThrough c.hdr c.n

/-- The target of a B-format word (R35). -/
def Cur.target (c : Cur) (f : BitVec 19) : Addr := c.next + 4#72 * sext 72 f

/-- The lookahead window of an LA field: none for 0 (R31, assumption log entry 12). -/
def window (n : Nat) : Option Nat := if n = 0 then none else some n

end Sys2Proof.Machine
end

