-- ==== Sys2Proof/Machine/Translate.lean ====
section
/-! DEFINITION. Address translation (R489–R497), sharing and binding (R356), the lane address
checks (R164–R166), and the ranges an access must wait for (R165, R183, R192, R354). -/

namespace Sys2Proof.Machine

/-- Whether `n` bytes from a physical address lie in one HBM stack (R529). -/
def inMemory (pa n : Nat) : Bool :=
  decide (pa / 2 ^ 36 < 12) && decide (pa % 2 ^ 36 + n ≤ 64 * 10 ^ 9)

/-- Whether a 64-byte unit reads with an uncorrectable error: poisoned (R530) or in a retired
frame (R533). -/
def State.unitBad (s : State) (unit : Nat) : Bool :=
  s.poison.contains unit || s.retired.contains (unit / 1024)

/-- Whether any of `n` bytes from a physical address carries an uncorrectable error. -/
def State.bytesBad (s : State) (pa n : Nat) : Bool :=
  (upto ((pa + n - 1) / 64 + 1 - pa / 64)).any (fun i => s.unitBad (pa / 64 + i))

/-- Frames of the uncorrectable units of a range. -/
def State.badFrames (s : State) (pa n : Nat) : List Nat :=
  ((upto ((pa + n - 1) / 64 + 1 - pa / 64)).filter (fun i => s.unitBad (pa / 64 + i))).map
    (fun i => (pa / 64 + i) / 1024)

/-! ### Page-table entries (R490) -/

/-- V. -/
def pteV (e : Nat) : Bool := bitAt e 0
/-- LEAF. -/
def pteLeaf (e : Nat) : Bool := bitAt e 1
/-- SZ2M. -/
def pteSz2M (e : Nat) : Bool := bitAt e 2
/-- RD. -/
def pteR (e : Nat) : Bool := bitAt e 3
/-- W. -/
def pteW (e : Nat) : Bool := bitAt e 4
/-- X. -/
def pteX (e : Nat) : Bool := bitAt e 5
/-- SW, the sharing width. -/
def pteSw (e : Nat) : Nat := fld e 6 2
/-- D. -/
def pteD (e : Nat) : Bool := bitAt e 8
/-- MIG. -/
def pteMig (e : Nat) : Nat := fld e 9 2
/-- PA as an address. -/
def ptePa (e : Nat) : Nat := fld e 16 36 * 65536
/-- A reserved bit is nonzero or MIG is 2 or 3 (R491). -/
def pteReserved (e : Nat) : Bool := fld e 52 12 != 0 || fld e 11 5 != 0 || decide (2 ≤ pteMig e)

/-- The index of a level, 0 the root (R489). -/
def walkIndex (va level : Nat) : Nat := fld va (58 - 14 * level) 14

/-- A leaf found at a level (R491, R529). -/
def leafAt (va level e : Nat) : Walk :=
  if level < 2 then .invalid
  else if level = 2 then
    if pteSz2M e || fld e 16 14 != 0 || !inMemory (ptePa e) (2 ^ 30) then .invalid
    else .page (va / 2 ^ 30 * 2 ^ 30) (2 ^ 30) e
  else if pteSz2M e then
    if fld e 16 5 != 0 || !inMemory (ptePa e) (2 ^ 21) then .invalid
    else .page (va / 2 ^ 21 * 2 ^ 21) (2 ^ 21) e
  else if !inMemory (ptePa e) (2 ^ 16) then .invalid
  else .page (va / 2 ^ 16 * 2 ^ 16) (2 ^ 16) e

/-- Physical address of the entry of a 2 MiB set that an access uses (R492): the access's own, or where the set
is not identical a chosen one, if it is a part of a 2 MiB page; one access has one choice. -/
def chosenEntry (s : State) (va t : Nat) : Nat :=
  let own := t + 8 * walkIndex va 3
  let first := t + 8 * (walkIndex va 3 / 32 * 32)
  let e (a : Nat) : Nat := readNat s.mem a 8
  if (upto 32).all (fun i => e (first + 8 * i) == e own) then own
  else
    let a := first + 8 * (Config.pteChoice s.stamp (va / 2 ^ 21)).toNat
    if pteV (e a) && pteLeaf (e a) && pteSz2M (e a) then a else own

/-- The number by which the walk cache knows an entry of a level: the address bits that lead to it. -/
def walkTag (va level : Nat) : Nat := va / 2 ^ (58 - 14 * level)

/-- A die's cached table entry of a level on the path of an address (R493). -/
def State.cachedTable (s : State) (die asid va level : Nat) : Option Nat :=
  (s.tables.find? (fun e => e.die == die && e.asid == asid && e.level == level && e.tag == walkTag va level)).map
    (·.value)

/-- An entry as a walk reads it (R491, R495): the word in memory, none when it is uncorrectable; or the die's
cached copy of a table entry, which may be older. -/
def State.readEntry (s : State) (die asid va level a : Nat) : Option Nat :=
  let now := if s.unitBad (a / 64) then none else some (readNat s.mem a 8)
  match s.cachedTable die asid va level with
  | none => now
  | some v => if now ≠ some v ∧ Config.tlbKeeps s.stamp va then some v else now

/-- The walk from a table, with the levels left (R491): how it ends, and the table entries it went through. -/
def walkFrom (s : State) (die asid va : Nat) : Nat → Nat → Walk × List TableEntry
  | 0, _ => (.invalid, [])
  | n + 1, t =>
    let level := 3 - n
    let a := if level = 3 then chosenEntry s va t else t + 8 * walkIndex va level
    match s.readEntry die asid va level a with
    | none => (.poisoned, [])
    | some e =>
      if !pteV e then (.invalid, [])
      else if pteReserved e then (.invalid, [])
      else if pteLeaf e then (leafAt va level e, [])
      else if n = 0 ∨ bitAt e 16 ∨ fld e 2 9 ≠ 0 then (.invalid, [])
      else
        let r := walkFrom s die asid va n (ptePa e)
        (r.1, { die := die, asid := asid, level := level, tag := walkTag va level, value := e } :: r.2)

/-- The page walk of a virtual address in a context by a die's walkers (R489, R491, R494). -/
def State.walkPath (s : State) (die asid va : Nat) : Walk × List TableEntry :=
  match s.ctx? asid with
  | none => (.invalid, [])
  | some c => walkFrom s die asid va 4 c.root

/-- How that walk ends. -/
def State.walk (s : State) (die asid va : Nat) : Walk := (s.walkPath die asid va).1

/-- The translation of an address that a micro-TLB or a die's TLB holds, if any (R493). -/
def State.cached (s : State) (home asid va : Nat) : Option TlbEntry :=
  s.tlb.find? (fun e => e.home == home && e.asid == asid && decide (e.base ≤ va ∧ va < e.base + e.size))

/-- The translation that a die gives: its TLB's until TLBI drops it or it is replaced, else the walk's (R493,
R495). -/
def State.translateOn (s : State) (die asid va : Nat) : Walk :=
  let w := s.walk die asid va
  match s.cached (128 + die) asid va with
  | none => w
  | some e =>
    let c := Walk.page e.base e.size e.leaf.toNat
    if w = c then w else if Config.tlbKeeps s.stamp va then c else w

/-- The translation of an agent that has no micro-TLB: the starter, the relays, the host, the journal engine,
and accesses that arrive through the fabric (assumption log entry 5). -/
def State.translate (s : State) (asid va : Nat) : Walk := s.translateOn 0 asid va

/-- Physical address of a byte of a page. -/
def pageAddr (leaf size va : Nat) : Nat := ptePa leaf + va % size

/-! ### The checks of R164 -/

/-- Kinds of access that check 5 distinguishes. -/
inductive Access where
  | read | write | fetch
  deriving DecidableEq, Repr

/-- Who accesses: a context, and the team it counts as (R356). -/
structure Who where
  asid : Nat := 0
  team : Option Nat := .none
  /-- The core whose micro-TLB it uses, and the issuer that waits for a walk: team key and HEATID. -/
  core : Option Nat := .none
  key : Nat := 0
  heat : Nat := 0
  /-- The trap heat passes the sharing check whatever the width (R474), and so does a checker, which counts as the
  team it checks (R511). -/
  trap : Bool := false
  deriving DecidableEq, Repr

/-- What an accessor's look-up of an address gives (R165): a translation, or a miss, for which it waits. -/
inductive Look where
  | found (w : Walk)
  | miss
  deriving DecidableEq, Repr

/-- Look an address up (R165, R493, R494): a hit in the core's micro-TLB, the result of a walk that this access
waited for, or a miss. An entry that no longer agrees with the tables may have been replaced. -/
def State.look (s : State) (w : Who) (va : Nat) : Look :=
  match w.core with
  | none => .found (s.translate w.asid va)
  | some c =>
    let mine := s.walks.find? (fun k => k.die == c / 64 && k.asid == w.asid && k.page == va / 65536 &&
      k.users.contains (c, w.key, w.heat))
    let waited : Look := match mine.bind (fun k => k.result) with
      | some r => .found r
      | none => .miss
    match s.cached c w.asid va with
    | none => waited
    | some e =>
      let p := Walk.page e.base e.size e.leaf.toNat
      if s.walk (c / 64) w.asid va = p then .found p
      else if Config.tlbKeeps s.stamp va then .found p
      else waited

/-- An access misses its core's micro-TLB, which event source 9 counts, and waits for a walk (R165, R494, R520): it
joins the open walk of its page, or its die's walkers open
one. -/
def State.openWalk (s : State) (w : Who) (va : Nat) : State :=
  match w.core with
  | none => s
  | some c =>
    let me := (c, w.key, w.heat)
    let it (k : OpenWalk) : Bool := k.die == c / 64 && k.asid == w.asid && k.page == va / 65536 && k.result.isNone
    if s.walks.any (fun k => it k && k.users.contains me) then s
    else
      let joined := s.walks.map (fun (k : OpenWalk) => if it k then { k with users := k.users ++ [me] } else k)
      let fresh : OpenWalk := {
        die := c / 64, asid := w.asid, page := va / 65536, begun := s.walk (c / 64) w.asid va, users := [me] }
      ({ s with walks := if s.walks.any it then joined else s.walks ++ [fresh] }.count c 9 1).tick

/-- The issuer's word is over: it no longer waits for a walk. -/
def State.endWalks (s : State) (core key heat : Nat) : State :=
  let left := s.walks.map (fun (k : OpenWalk) =>
    { k with users := k.users.filter (fun u => u != (core, key, heat)) })
  { s with walks := left.filter (fun k => k.result.isNone || !k.users.isEmpty) }

/-- The key that names a team's cluster: its rank-0 team. -/
def State.clusterKey (s : State) (t : Nat) : Nat :=
  match s.team? t with
  | some x => x.cluster.headD t
  | none => t

/-- Whether the page permits the access (R491). -/
def permits (k : Access) (leaf : Nat) : Bool :=
  match k with
  | .read => pteR leaf
  | .write => pteW leaf
  | .fetch => pteX leaf

/-- Check 6 (R356): the bindings after the access, or none when it fails. -/
def State.share (s : State) (bs : List Binding) (w : Who) (base size sw : Nat) :
    Option (List Binding) :=
  if w.trap ∨ 2 ≤ sw then some bs
  else match w.team with
    | none => none
    | some t =>
      let cluster := sw == 1
      let owner := if cluster then s.clusterKey t else t
      match bs.find? (fun b => b.base == base && b.size == size && b.cluster == cluster) with
      | some b => if b.owner = owner then some bs else none
      | none =>
        if bs.length < Config.bindingPages then
          some (bs ++ [{ base := base, size := size, owner := owner, cluster := cluster }])
        else none

/-- What a checked address names. -/
inductive Target where
  /-- Device memory: physical address and leaf of the page. -/
  | mem (pa leaf : Nat)
  /-- A fabric device and offset. -/
  | fab (dev off : Nat)
  /-- A scratchpad of the cluster: key of its team and byte offset. -/
  | spad (team off : Nat)
  deriving DecidableEq, Repr

/-- Frames of the uncorrectable units of `n` bytes at targets. -/
def State.targetFrames (s : State) (n : Nat) (ts : List (Nat × Target)) : List Nat :=
  ts.foldl (fun acc t => match t.2 with
    | .mem pa _ => acc ++ s.badFrames pa n
    | _ => acc) []

/-- The outcome of checking one access. -/
inductive Chk where
  | ok (t : Target) (bs : List Binding)
  | bad (code : Nat)
  /-- The page is being migrated (R165, R496), or the look-up of this address missed (R165). -/
  | held (miss : Option Nat)
  deriving DecidableEq, Repr

/-- Checks 4 to 6 of one local access that stays within a page. -/
def State.checkLocal (s : State) (bs : List Binding) (w : Who) (va : Nat) (k : Access) : Chk :=
  match s.look w va with
  | .miss => .held (some va)
  | .found .invalid => .bad 4
  | .found .poisoned => .bad 4
  | .found (.page _ size leaf) =>
    if pteMig leaf = 1 then .held none
    else if !permits k leaf then .bad 5
    else match s.share bs w (ptePa leaf) size (pteSw leaf) with
      | none => .bad 6
      | some bs' => .ok (.mem (pageAddr leaf size va) leaf) bs'

/-- Check 7 (R441). -/
def State.checkFabric (s : State) (bs : List Binding) (a : Addr) (n : Nat) : Chk :=
  let dev := fld a.toNat 61 10
  let off := fld a.toNat 0 61
  match mfind s.domain dev with
  | some e => if e.valid ∧ off + n ≤ e.explen then .ok (.fab dev off) bs else .bad 7
  | none => .bad 7

/-- The checks of R164 for an aligned access of `n` bytes to memory; `localOnly` refuses fabric
addresses with code 2. -/
def State.checkMem (s : State) (bs : List Binding) (w : Who) (a : Addr) (n : Nat) (k : Access)
    (localOnly : Bool) : Chk :=
  if a.toNat % n ≠ 0 then .bad 1
  else if a.getLsbD 71 then (if localOnly then .bad 2 else s.checkFabric bs a n)
  else s.checkLocal bs w a.toNat k

/-- First offset of the hurdle areas that nothing but the hurdle unit writes (R213). -/
def hurdleFloor (size rank : Nat) : Nat := if rank = 0 then size - 5120 else size - 4096

/-- The checks of R164 for a cluster-window access (R213, R322). -/
def State.checkWindow (s : State) (bs : List Binding) (team : Option Nat) (a : Addr) (n : Nat)
    (write : Bool) : Chk :=
  if a.toNat % n ≠ 0 then .bad 1
  else if a.toNat / 2 ^ 32 ≠ 0 then .bad 2
  else match team with
    | none => .bad 3
    | some t => match s.team? t with
      | none => .bad 3
      | some x =>
        let rank := fld a.toNat 23 9
        let off := fld a.toNat 0 23
        if x.csize ≤ rank ∨ x.size < off + n then .bad 3
        else if write ∧ hurdleFloor x.size rank < off + n then .bad 3
        else .ok (.spad (x.cluster.getD rank t) off) bs

/-! ### Checking every lane (R165, R166) -/

/-- The outcome of checking every lane of an access. -/
inductive Checked where
  | held (miss : Option Nat)
  /-- Failing lanes: lane, code, address. -/
  | bad (l : List (Nat × Nat × Addr))
  | ok (l : List (Nat × Target)) (bs : List Binding)
  deriving DecidableEq, Repr

/-- Check lanes in ascending order, each after the bindings of the ones before it. -/
def checkAll (f : List Binding → Nat → Chk) (addr : Nat → Addr) :
    List Nat → List Binding → Checked
  | [], bs => .ok [] bs
  | l :: t, bs =>
    match f bs l with
    | .held v => .held v
    | .bad c =>
      match checkAll f addr t bs with
      | .held v => .held v
      | .bad r => .bad ((l, c, addr l) :: r)
      | .ok _ _ => .bad [(l, c, addr l)]
    | .ok x bs' =>
      match checkAll f addr t bs' with
      | .ok r bs'' => .ok ((l, x) :: r) bs''
      | o => o

/-- A page-table word that a walk finds uncorrectable is recorded in the black box (R491, R521). -/
def State.noteWalk (s : State) (src asid va : Nat) (w : Walk) : State :=
  if w = .poisoned then
    s.blackBoxAdd { src := src, kind := 3, code := Config.pageErrorCode, asid := asid, b := BitVec.ofNat 64 va }
  else s

/-- `noteWalk` for an agent without a micro-TLB. -/
def State.noteTranslate (s : State) (asid va : Nat) : State := s.noteWalk 130 asid va (s.translate asid va)

/-- The issuer as an accessor of memory. -/
def State.curWho (s : State) : Who :=
  { asid := s.curAsid, team := s.curTeam, trap := s.privileged || s.curTeam.any s.isCheck, core := some s.cur.core
    key := s.curKey, heat := s.curHeatId }

/-- The word holds while its checks are not complete (R165): a miss waits for a walk. -/
def State.holdCheck (s : State) (h : Heat) (miss : Option Nat) : State :=
  (match miss with
    | some va => s.openWalk s.curWho va
    | none => s).hold h .none 3

/-! ### What an access waits for -/

/-- Whether a command whose identifier passes `f` owns a sector of the range until it has written it (R192). -/
def State.ownedBy (s : State) (f : Nat → Bool) (pa n : Nat) : Bool :=
  let hit (l : List Nat) : Bool := l.any (fun k => decide (pa / 1024 ≤ k ∧ k ≤ (pa + n - 1) / 1024))
  s.engines.any (fun c => f c.id && hit c.owned) ||
    s.teams.any (fun e => e.2.body.heats.any (fun h => h.2.copies.any (fun c => f c.id && hit c.owned)))

/-- Whether an engine owns a sector of the range (R192). -/
def State.ownedRange (s : State) (pa n : Nat) : Bool := s.ownedBy (fun _ => true) pa n

/-- Whether an ordered contribution waits for a word of the range (R183, R354). -/
def State.orderedWait (s : State) (pa n : Nat) : Bool :=
  s.ordRecs.any (fun e => !e.2.waiting.isEmpty && decide (e.1 < pa + n ∧ pa < e.1 + 4))

/-- Whether an access by anything but the owning engine must wait. -/
def State.rangeWaits (s : State) (pa n : Nat) : Bool := s.ownedRange pa n || s.orderedWait pa n

/-- Whether a target of `n` bytes must wait. -/
def State.targetWaits (s : State) (n : Nat) (t : Target) : Bool :=
  match t with
  | .mem pa _ => s.rangeWaits pa n
  | _ => false

/-- Whether a scratchpad line is absent (R328): a copy has still to write it, or it awaits
restore. -/
def Team.lineAbsent (x : Team) (line : Nat) : Bool :=
  decide (mget 0 x.absent line ≠ 0) || x.restoring.contains line

/-- Whether a scratchpad range of a team touches an absent line. -/
def State.rangeAbsent (s : State) (t off n : Nat) : Bool :=
  match s.team? t with
  | none => false
  | some x => (upto ((off + n - 1) / 128 + 1 - off / 128)).any (fun i => x.lineAbsent (off / 128 + i))

/-- Whether a target of `n` bytes lies on an absent line (R173). -/
def State.targetAbsent (s : State) (n : Nat) (t : Target) : Bool :=
  match t with
  | .spad u off => s.rangeAbsent u off n
  | _ => false

/-- An access is parked on a scratchpad range: those of its lines that await restore come first in the order of
writing back (R330). -/
def State.wantRange (s : State) (t off n : Nat) : State :=
  s.modTeam t (fun x => { x with
    restoring := (granules 128 off n).filter x.restoring.contains ++
      x.restoring.filter (fun l => !(granules 128 off n).contains l) })

/-- `State.wantRange` of the scratchpad targets of `n` bytes. -/
def State.wantTargets (s : State) (n : Nat) (ts : List (Nat × Target)) : State :=
  ts.foldl (fun s t => match t.2 with
    | .spad u off => s.wantRange u off n
    | _ => s) s

/-- Whether a lane of the issuing heat has an ordered contribution that its home slice has not accepted: its
later accesses come after that one in the device order (R347), while its later contributions may go on
(R183; assumption log entry 62). -/
def State.ordSent (s : State) (l : Nat) : Bool :=
  s.ordMsgs.any (fun m => m.team == s.curKey && m.heat == s.curHeatId && m.lane == l)

/-- Run an access of a heat word over lanes: all lanes are checked (R166); a failing lane raises
the address fault, a migrating page, an owned sector or an ordered word holds the heat (R165),
an absent scratchpad line parks it (R173), a busy scratchpad port holds it last (R326, R405); then the word's
own part runs. -/
def accessWith (busy : Bool) (s : State) (h : Heat) (lanes : List Nat) (n : Nat) (addr : Nat → Addr)
    (f : List Binding → Nat → Chk) (k : State → List (Nat × Target) → Out) : Out :=
  match checkAll f addr lanes s.bindings with
  | .held v => .next (s.holdCheck h v)
  | .bad l => .next (s.raiseAddr l)
  | .ok ts bs =>
    if ts.any (fun t => s.targetWaits n t.2) then .next (s.hold h .none 3)
    else if ts.any (fun t => s.ordSent t.1) then .next (s.hold h .none 8)
    else if ts.any (fun t => s.targetAbsent n t.2) then
      .next (((s.wantTargets n ts).hold h .retryPresence 2).count s.cur.core 8
        (if (h.lane (lowLane s.cur.active)).park = .retryPresence then 0 else 1))
    else if busy then .next (s.hold h .none 11)
    else k { s with bindings := bs } ts

/-- `accessWith` for a word that needs no scratchpad port. -/
def accessLanes (s : State) (h : Heat) (lanes : List Nat) (n : Nat) (addr : Nat → Addr)
    (f : List Binding → Nat → Chk) (k : State → List (Nat × Target) → Out) : Out :=
  accessWith false s h lanes n addr f k

end Sys2Proof.Machine
end

