-- ==== Sys2Proof/Machine/Memory.lean ====
section
/-! DEFINITION. Performing reads and writes (R345–R360), waiting counters (R232), commit points and
laps (R358–R360, R478–R482, R544), the load-value log (R482, R484), digests (R512). -/

namespace Sys2Proof.Machine

/-! ### Reading -/

/-- The latest deferred byte of a team at an address, if its buffer holds one (R358). -/
def Team.buffered (x : Team) (va pa : Nat) : Option Byte :=
  x.deferred.foldl (fun acc d =>
    if d.pa ≤ pa ∧ pa < d.pa + d.bytes.length then some (d.bytes.getD (pa - d.pa) 0#8)
    else if d.va ≤ va ∧ va < d.va + d.bytes.length then some (d.bytes.getD (va - d.va) 0#8)
    else acc) none

/-- A byte as an agent sees it: its own team's deferred stores, else memory (R347, R358). -/
def State.seenByte (s : State) (team : Option Nat) (va pa : Nat) : Byte :=
  match team with
  | none => readByte s.mem pa
  | some t => match s.team? t with
    | none => readByte s.mem pa
    | some x => (x.buffered va pa).getD (readByte s.mem pa)

/-- `n` bytes as an agent sees them. -/
def State.seenBytes (s : State) (team : Option Nat) (va pa n : Nat) : List Byte :=
  (upto n).map (fun i => s.seenByte team (va + i) (pa + i))

/-- Bytes of a team's scratchpad. -/
def State.spadBytes (s : State) (t off n : Nat) : List Byte :=
  match s.team? t with
  | none => List.replicate n 0#8
  | some x => readBytes x.body.spad off n

/-- Whether a scratchpad range touches a poisoned line (R193). -/
def State.spadBad (s : State) (t off n : Nat) : Bool :=
  match s.team? t with
  | none => false
  | some x => (upto ((off + n - 1) / 128 + 1 - off / 128)).any
      (fun i => x.body.spadPoison.contains (off / 128 + i))

/-- The little-endian number at a target, `n` bytes, as the issuing team sees it; a fabric target
has none yet. -/
def State.targetNat (s : State) (va n : Nat) (t : Target) : Nat :=
  match t with
  | .mem pa _ => ofBytes (s.seenBytes s.curTeam va pa n)
  | .spad u off => ofBytes (s.spadBytes u off n)
  | .fab _ _ => 0

/-- Whether the data at a target carries an uncorrectable error (R167). -/
def State.targetBad (s : State) (n : Nat) (t : Target) : Bool :=
  match t with
  | .mem pa _ => s.bytesBad pa n
  | .spad u off => s.spadBad u off n
  | .fab _ _ => false

/-! ### Waiting counters (R232) -/

/-- The counter at a virtual address is at least a target value. -/
def State.counterMet (s : State) (t : Nat) (asid : Nat) (c : Nat × Nat × Nat) : Bool :=
  match s.translate asid c.2.1 with
  | .page _ size leaf =>
    decide (c.2.2 ≤ ofBytes (s.seenBytes (some t) c.2.1 (pageAddr leaf size c.2.1) 8))
  | _ => false

/-- Release the lanes of a mask that stand parked, at the next word. -/
def Heat.releaseMask (h : Heat) (m : Mask) (stamp : Nat) : Heat :=
  h.forLanes m (fun y l => y.setLane l ((y.lane l).goOn stamp))

/-- Test the waiting counters of a team after a write. -/
def State.noteTeam (s : State) (t : Nat) : State :=
  s.modTeam t (fun x => { x with body := { x.body with
    waiters := x.body.waiters.map (fun w => { w with met := w.met || w.conds.all (s.counterMet t x.asid) }) } })

/-- Release the heats of a team whose counters are met. -/
def State.retestTeam (s : State) (t : Nat) : State :=
  match s.team? t with
  | none => s
  | some x =>
    let met := x.body.waiters.filter (fun w => w.met)
    if met.isEmpty then s
    else
      let x := { x with body := { x.body with waiters := x.body.waiters.filter (fun w => !w.met) } }
      s.putTeam t (met.foldl (fun x w => match x.heat? w.heat with
        | none => x
        | some h => x.putHeat w.heat (h.releaseMask w.mask s.stamp)) x)

/-- The dependence counter of a grid has reached its value (R393). -/
def State.gridMet (s : State) (g : Grid) : Bool :=
  match s.translate g.asid g.waitAddr with
  | .page _ size leaf => decide (g.waitVal ≤ readNat s.mem (pageAddr leaf size g.waitAddr) 8)
  | _ => false

/-- The heads of the grid queues. -/
def State.heads (s : State) : List Nat := s.gridQueues.filterMap (fun e => e.2.head?)

/-- Test the dependence counters of the waiting head grids again (R393). -/
def State.retestGrids (s : State) : State :=
  s.heads.foldl (fun s h => s.modGrid h (fun g =>
    if g.waitAddr ≠ 0 ∧ s.gridMet g then { g with met := true } else g)) s

/-- The teams with a heat that waits for a counter. -/
def State.waiting (s : State) : List Nat := (s.teams.filter (fun e => !e.2.body.waiters.isEmpty)).map Prod.fst

/-- Every waiting counter is tested again, whenever a write performs (R232, R355). -/
def State.noteMet (s : State) : State := s.waiting.foldl State.noteTeam s.retestGrids

/-- Test every waiting counter and release the heats whose counters are met. -/
def State.retest (s : State) : State :=
  let s := s.noteMet
  s.waiting.foldl State.retestTeam s

/-! ### Writing -/

/-- One write of device memory: bytes in order, later ones over earlier ones; a 64-byte unit
written whole loses its poison (R530); a word with an ordered record loses the record (R183); the waiting
counters are tested (R232). -/
def State.writeMem (s : State) (ws : List (Nat × Byte)) : State :=
  if ws.isEmpty then s
  else State.noteMet { s with
    mem := ws.foldl (fun m w => writeByte m w.1 w.2) s.mem
    poison := s.poison.filter
      (fun u => !(upto 64).all (fun i => ws.any (fun w => w.1 == 64 * u + i)))
    ordRecs := s.ordRecs.filter
      (fun e => !ws.any (fun w => decide (e.1 ≤ w.1 ∧ w.1 < e.1 + 4))) }

/-- A write that performs: memory changes, and heats whose counters are met go on (R232). -/
def State.perform (s : State) (ws : List (Nat × Byte)) : State := (s.writeMem ws).retest

/-- Bytes at consecutive addresses as write pairs. -/
def pairsAt (a : Nat) (bs : List Byte) : List (Nat × Byte) :=
  (upto bs.length).map (fun i => (a + i, bs.getD i 0#8))

/-- Write a team's scratchpad; a line written whole loses its poison. -/
def TeamBody.writeSpad (b : TeamBody) (ws : List (Nat × Byte)) : TeamBody :=
  { b with
    spad := ws.foldl (fun m w => writeByte m w.1 w.2) b.spad
    spadPoison := b.spadPoison.filter
      (fun u => !(upto 128).all (fun i => ws.any (fun w => w.1 == 128 * u + i))) }

/-- The journal has the old contents of the lines of a list of offsets (R481); one read with an uncorrectable
error is reported (R473). -/
def TeamBody.noteLines (b : TeamBody) (offs : List Nat) : TeamBody :=
  { b with
    lineJournal := offs.foldl (fun l a => noteIn l (a / 128)) b.lineJournal
    journalFault :=
      if offs.any (fun a => b.spadPoison.contains (a / 128) && !b.lineJournal.contains (a / 128)) then some 1
      else b.journalFault }

/-- The journal has the old contents of accumulator tiles (R481); their new contents have no error. -/
def TeamBody.noteTiles (b : TeamBody) (tiles : List Nat) (fresh : Bool) : TeamBody :=
  { b with
    tileJournal := tiles.foldl noteIn b.tileJournal
    badTiles := if fresh then b.badTiles.filter (fun n => !tiles.contains n) else b.badTiles
    journalFault :=
      if tiles.any (fun n => b.badTiles.contains n && !b.tileJournal.contains n) then some 2 else b.journalFault }

/-- Write bytes of the scratchpad of a team in its lap. -/
def State.writeSpad (s : State) (t : Nat) (ws : List (Nat × Byte)) : State :=
  if ws.isEmpty then s
  else s.modTeam t (fun x => { x with body := (x.body.noteLines (ws.map Prod.fst)).writeSpad ws })

/-- Record the old bytes of a TEAM page before the first write of the lap (R481), and which of their units are
poisoned. -/
def State.noteUndo (s : State) (t : Nat) (pas : List Nat) : State :=
  s.modTeam t (fun x => { x with
    undoPoison := pas.foldl (fun l a =>
      if s.poison.contains (a / 64) ∧ mfind x.undo a = none then noteIn l (a / 64) else l) x.undoPoison
    undo := pas.foldl (fun m a => match mfind m a with
      | some _ => m
      | none => mput m a (readByte s.mem a)) x.undo })

/-- Add a digest record of a sampled team (R512): heat, kind, address, size, data. -/
def State.noteDigest (s : State) (t heat kind addr size data : Nat) : State :=
  s.modTeam t (fun x =>
    if x.sampled then { x with recs := x.recs ++ [(heat, kind, addr, size, data)] } else x)

/-! ### Commit points and laps -/

/-- The teams of a team's cluster. -/
def State.clusterOf (s : State) (t : Nat) : List Nat :=
  match s.team? t with
  | some x => x.cluster
  | none => []

/-- Whether a page of a context is being migrated (R496). -/
def State.migrating (s : State) (asid va : Nat) : Bool :=
  match s.walk 0 asid va with
  | .page _ _ leaf => pteMig leaf == 1
  | _ => false

/-- A commit point must wait: a deferred store's page is being migrated (R497), or an engine owns its sector or
an ordered contribution waits there (R192, R354). -/
def State.commitHeld (s : State) (t : Nat) : Bool :=
  (s.clusterOf t).any (fun u => match s.team? u with
    | none => false
    | some x => x.checks.isNone && x.deferred.any (fun d => s.migrating x.asid d.va || s.rangeWaits d.pa d.bytes.length))

/-- Perform a team's deferred stores as one block, in acceptance order (R359), where they translated to as they
were accepted or where a migration has moved their page since (R496, R497; assumption log entry 65). A
checker's write nothing (R511). -/
def State.flushTeam (s : State) (t : Nat) : State :=
  match s.team? t with
  | none => s
  | some x =>
    let s := s.putTeam t { x with deferred := [] }
    if x.checks.isSome then s
    else (x.deferred.foldl (fun (s : State) d => s.writeMem (pairsAt d.pa d.bytes)) s).retest

/-- Perform the deferred stores of a team's cluster (R359, R479). -/
def State.flush (s : State) (t : Nat) : State := (s.clusterOf t).foldl State.flushTeam s

/-- The digest of a closed lap (R512): heats ascending, the sequencer, engine commands. -/
def digestOf (recs : List (Nat × Nat × Nat × Nat × Nat)) : W64 × W64 :=
  let byKey := (upto 257).foldl (fun acc k => acc ++ recs.filter (fun r => r.1 == k)) []
  let words := byKey.foldl
    (fun acc r => acc ++ Config.digestPack r.2.1 r.2.2.1 r.2.2.2.1 r.2.2.2.2) []
  words.foldl (fun h w => (mix64 (h.1 ^^^ w), mix64 (h.2 + w))) (0#64, 0x9E3779B97F4A7C15#64)

/-- Kind of a forwarded tile (R511). -/
def tileKind : Nat := 12

/-- A team enters a new lap: LAP advances, every STRIDE restarts, the lap-start image is taken,
journal and log are discarded (R478, R480, R481). -/
def Team.newLap (x : Team) : Team :=
  let b := { x.body with
    heats := x.body.heats.map (fun (e : Nat × Heat) => (e.1, { e.2 with stride := 0#64, journalled := [] }))
    seq := { x.body.seq with count := 0#64 }
    lineJournal := [], tileJournal := [] }
  { x with
    lap := x.lap + 1#64
    body := b, lapBody := b
    log := [], undo := [], undoPoison := [], deliveries := [], due := [], spilled := 0
    badJournal := false, badLog := false, badImage := false
    relaunches := 0, replaying := false, advances := 0
    limits := [], stopImage := none
    feed := x.feed.filter (fun e => decide (x.lap.toNat < e.1) || (e.2.kind == tileKind && x.body.seq.ops.any (fun o =>
      o.lap == e.2.lane && o.count == e.2.stride)) || (decide (11 ≤ e.2.kind) && e.2.kind != tileKind))
    fed := mdel x.fed x.lap.toNat
    ours := if x.checks.isSome then x.ours ++ [(x.lap.toNat, digestOf x.recs)] else x.ours
    recs := [] }

/-- Reply of the debugger (R499): the team's request tag, the reply's number, data. Replies:
0 STOPPED, 1 PASSED, 2 UNREACHABLE, 3 REPLAY LOST, 4 PARKED, 5 NO SUBGROUP, 6 DONE, 7 data. -/
def State.dbgReply (s : State) (tag : W32) (reply : Nat) (data : List Byte) : State :=
  s.mgmtEvent 6 (Config.debugReply tag reply data)

/-- A team whose RUNTO point lies in a lap that has closed stops with PASSED (R501). -/
def State.runtoPassed (s : State) (t : Nat) : State :=
  match s.team? t with
  | none => s
  | some x => match x.runTo with
    | none => s
    | some p =>
      if x.lap.toNat ≤ p.lap then s
      else ((s.clusterOf t).foldl (fun s u =>
        (s.unpackTeam u).modTeam u (fun y => { y with stopped := true, runTo := none })) s).dbgReply x.dbgTag 1 []

/-- The threads of a team that wait in spawn bins and in its context's spill area, in bin order (R400,
R403). -/
def State.binThreads (s : State) (t : Nat) : List BinThread :=
  s.cores.foldl (fun acc (e : Nat × Core) => acc ++ e.2.bins.foldl (fun acc (b : Bin) =>
    match b.key with
    | some (u, _) => if u = t then acc ++ b.threads else acc
    | none => acc) []) [] ++
  s.contexts.foldl (fun acc (e : Nat × Context) => acc ++ e.2.spill.filter (fun b => b.team == t)) []

/-- Every team of a cluster enters a new lap (R478, R479). The digest of the closed one goes to the team's checker;
a sample for which no core has been found within the lap is skipped (R510, R512). -/
def State.newLap (s : State) (t : Nat) : State :=
  let s := (s.clusterOf t).foldl (fun s u =>
    let bins := s.binThreads u
    let s := match s.team? u with
      | some x => match x.core? with
        | some c => s.count c 13 1
        | none => s
      | none => s
    let s := match s.team? u with
      | some x => match x.checker with
        | some c => (s.team? c).elim s (fun y =>
            if y.core?.isNone && !y.exited then s.endCheck c
            else s.putTeam c { y with theirs := y.theirs ++ [(x.lap.toNat, digestOf x.recs)] })
        | none => s
      | none => s
    s.modTeam u (fun x => { x.newLap with lapBins := bins })) s
  (s.clusterOf t).foldl State.runtoPassed s

/-- The word just issued was a commit point: its team's next lap begins (R478). -/
def State.endLap (s : State) : State :=
  match s.curTeam with
  | none => s
  | some t => s.newLap t

/-- A word that makes a commit point: the team's deferred stores perform first (R359); a store
waiting for migration holds the word. The trap heat belongs to no team. -/
def commitPoint (s : State) (h : Heat) (k : State → Heat → Out) : Out :=
  match s.curTeam with
  | none => k s h
  | some t =>
    if s.commitHeld t then .next (s.hold h .none 8)
    else
      let s1 := s.flush t
      match s1.curHeat? with
      | none => .fault .noIssuer
      | some h1 => k s1 h1

/-- A commit point of a word that no lane takes (R29, R478). -/
def commitOnly (s : State) (h : Heat) : Out := commitPoint s h (fun s h => .next (s.finish h).endLap)

/-- The distinct 128-byte blocks of a list of addresses not yet in a list (R544). -/
def newBlocks (have_ : List Nat) : List Nat → List Nat
  | [] => have_
  | b :: t => if have_.contains b then newBlocks have_ t else newBlocks (have_ ++ [b]) t

/-- The 128-byte blocks of a range. -/
def blocksOf (pa n : Nat) : List Nat :=
  (upto ((pa + n - 1) / 128 + 1 - pa / 128)).map (pa / 128 + ·)

/-- The block entries a team's deferred stores hold (R544). -/
def Team.blocks (x : Team) : List Nat :=
  newBlocks [] (x.deferred.foldl (fun acc d => acc ++ blocksOf d.pa d.bytes.length) [])

/-- Whether more deferred ranges fit in the team's commit share (R544). -/
def Team.hasRoom (x : Team) (rs : List (Nat × Nat)) : Bool :=
  decide ((newBlocks x.blocks (rs.foldl (fun acc r => acc ++ blocksOf r.1 r.2) [])).length
    ≤ x.commitShare / 256)

/-! ### The load-value log (R482, R484) -/

/-- The value forwarded to a checker for a read of one of its units (R511). -/
def Team.forwarded (x : Team) (kind heat stride lane : Nat) : Option LogEntry :=
  (x.feed.find? (fun e => e.1 == x.lap.toNat && e.2.kind == kind && e.2.heat == heat && e.2.stride == stride &&
    e.2.lane == lane)).map Prod.snd

/-- The value a read takes that does not come from the state as it is: a replayed one from the log, if the log
holds one at its key (R484), a checker's as it was forwarded (R511). -/
def Team.served (x : Team) (kind heat stride lane addr : Nat) : Option Nat :=
  if x.checks.isSome then
    match x.forwarded kind heat stride lane with
    | some e => some e.value
    | none => if kind = 0 then some 0 else none
  else if x.replaying then
    (x.log.find? (fun e => e.kind == kind && e.heat == heat && e.stride == stride && e.lane == lane &&
      e.addr == addr)).map (·.value)
  else none

/-- `Team.served` for a read of the current word. -/
def State.logged (s : State) (kind stride lane addr : Nat) : Option Nat :=
  match s.curTeam with
  | none => none
  | some t => match s.team? t with
    | none => none
    | some x => x.served kind s.curHeatId stride lane addr

/-- Bytes of forwarded values that a checker has still to take (R511). -/
def Team.fedBytes (x : Team) : Nat := x.fed.foldl (fun n e => n + e.2) 0

/-- Forward a value that a word of a lap of a team has read to its checker; past 16 MiB the check of the team ends
(R511). -/
def State.forwardIn (s : State) (t lap : Nat) (e : LogEntry) (bytes : Nat) : State :=
  match (s.team? t).bind (·.checker) with
  | none => s
  | some c => match s.team? c with
    | none => s
    | some y =>
      let y := { y with feed := y.feed ++ [(lap, e)], fed := mset 0 y.fed lap (mget 0 y.fed lap + bytes) }
      if 2 ^ 24 < y.fedBytes then s.endCheck c else s.putTeam c y

/-- Forward a value that a team has read in its lap to its checker. -/
def State.forward (s : State) (t : Nat) (e : LogEntry) (bytes : Nat) : State :=
  match s.team? t with
  | none => s
  | some x => s.forwardIn t x.lap.toNat e bytes

/-- A checker's read took a forwarded value: another address, or no such read, is a mismatch (R512). -/
def State.noteTaken (s : State) (kind stride lane addr : Nat) : State :=
  match s.curTeam with
  | none => s
  | some t => s.modTeam t (fun x =>
      if x.checks.isSome ∧ (x.forwarded kind s.curHeatId stride lane).map (·.addr) ≠ some addr then
        { x with mismatch := noteIn x.mismatch x.lap.toNat }
      else x)

/-- Forward a value read by the current word to the checker of its team. -/
def State.noteRead (s : State) (kind stride lane addr bytes value : Nat) : State :=
  match s.curTeam with
  | none => s
  | some t => s.forward t { heat := s.curHeatId, stride := stride, lane := lane, addr := addr, value := value, kind := kind } bytes

/-- Append a log entry of the current issue, unless it was served. -/
def State.noteLog (s : State) (kind stride lane addr value : Nat) : State :=
  match s.curTeam with
  | none => s
  | some t => match s.logged kind stride lane addr with
    | some _ => s.noteTaken kind stride lane addr
    | none => s.modTeam t (fun x => { x with
        log := x.log ++ [{ heat := s.curHeatId, stride := stride, lane := lane, addr := addr
                           value := value, kind := kind }] })

/-- A value of R503: logged, and forwarded to a checker (R511). -/
def State.noteReplay (s : State) (kind stride addr value : Nat) : State :=
  (s.noteLog kind stride 0 addr value).noteRead kind stride 0 addr 8 value

/-- Whether the issuing team is a checker: it writes nothing to device memory and sends nothing (R511). -/
def State.mute (s : State) : Bool :=
  match s.curTeam with
  | none => false
  | some t => match s.team? t with
    | none => false
    | some x => x.checks.isSome

/-- Whether a load of this target is logged: a writable page of width CLUSTER or wider, or the
fabric. -/
def logs (t : Target) : Bool :=
  match t with
  | .mem _ leaf => pteW leaf && decide (1 ≤ pteSw leaf)
  | .fab _ _ => true
  | .spad _ _ => false

/-- Whether a store to this target defers (R358): a D page, for an issuer that has a team. -/
def State.defers (s : State) (t : Target) : Bool :=
  match t with
  | .mem _ leaf => pteD leaf && s.curTeam.isSome
  | _ => false

/-- Whether a non-deferred store, atomic or reduction to this target is a commit point (R478). -/
def commits (t : Target) : Bool :=
  match t with
  | .mem _ leaf => decide (1 ≤ pteSw leaf)
  | .fab _ _ => true
  | .spad _ _ => false

/-- Apply a change to the live body of a team, to its lap-start image and to its stop image: what comes from
words of earlier laps and stands at a rollback (R481). -/
def Team.both (x : Team) (f : TeamBody → TeamBody) : Team :=
  { x with
    body := f x.body, lapBody := f x.lapBody
    stopImage := x.stopImage.map (fun i => { i with body := f i.body }) }

/-- Change a heat of a body, if it is there. -/
def TeamBody.modHeat (b : TeamBody) (h : Nat) (f : Heat → Heat) : TeamBody :=
  match mfind b.heats h with
  | none => b
  | some y => { b with heats := mput b.heats h (f y) }

/-- Change a heat in the live body and, where it is there, in the lap-start image; the trap heat
has no image. -/
def State.modHeatBoth (s : State) (t h : Nat) (f : Heat → Heat) : State :=
  if trapBase ≤ t then s.modHeat t h f
  else s.modTeam t (fun x => x.both (fun b => b.modHeat h f))

/-! ### Values that come without an issue of the lap (R482, R484) -/

/-- Registers after a result: the lanes whose data is correct take their values. -/
def Heat.writeSlot (h : Heat) (x : Slot) : Heat :=
  match x.dest with
  | .vec b n => x.vals.foldl (fun y e =>
      if inMask x.poison e.1 then y
      else (upto n).foldl (fun y i => y.setV (b + i) e.1 (BitVec.ofNat 32 (e.2 / 2 ^ (32 * i)))) y) h
  | .scalar r => if x.poison = 0#32 then h.setS r (BitVec.ofNat 64 (x.vals.headD (0, 0)).2) else h

/-- A result lands in the slot of its stamp: the registers are written unless the delivery was cancelled
(R476), and the slot is free (R33). -/
def Heat.landSlot (h : Heat) (x : Slot) : Heat :=
  match h.slots.find? (fun z => z.stamp == x.stamp) with
  | none => h
  | some z =>
    let y := if z.cancelled then h else h.writeSlot x
    { y with slots := y.slots.filter (fun z => z.stamp != x.stamp) }

/-- Push an entry into a queue of a body; one for a queue of a heat that has ended is discarded (R211). -/
def TeamBody.push (b : TeamBody) (heat q : Nat) (e : QEntry) : TeamBody :=
  if 8 ≤ q then { b with queues := mset [] b.queues q (mget [] b.queues q ++ [e]) }
  else b.modHeat heat (fun h => if h.ended then h else h.setQueue q (h.queue q ++ [e]))

/-- A heat forgets a completed command: WA, FENCE and deferred arrivals no longer wait for it. -/
def Heat.forget (h : Heat) (id : Nat) : Heat :=
  { h with
    copies := h.copies.filter (fun r => r.id != id)
    arrivals := h.arrivals.map (fun a => { a with ids := a.ids.filter (· != id) }) }

/-- The lanes of a heat that wait for a reply under a tag (R285). -/
def Heat.callLanes (h : Heat) (tag : W32) : List Nat :=
  (lanesOf h.live).filter (fun l => match (h.lane l).park with
    | .callh _ _ t => t == tag
    | _ => false)

/-- A reply reaches the lanes parked under its tag, and they go on: with status 0 each taking lane gets its word
and k7 = 0, else 0 and k7 = 1 (R286). -/
def Heat.callReply (h : Heat) (tag : W32) (status : Nat) (words : List Byte) (stamp : Nat) : Heat :=
  (h.callLanes tag).foldl (fun y l => match (y.lane l).park with
    | .callh d m _ =>
      let w := ofBytes ((words.drop (4 * l)).take 4)
      let y1 := if inMask m l then
          (y.setV d l (if status = 0 then BitVec.ofNat 32 w else 0#32)).setK 7 l (status != 0)
        else y
      y1.setLane l ((y1.lane l).goOn stamp)
    | _ => y) h

/-- The rows that a result writes. -/
def Slot.rows (x : Slot) : List (Nat × Nat) :=
  match x.dest with
  | .vec b n => [(b, n)]
  | .scalar _ => []

/-- The journal has the old rows of a result that lands; one read with an uncorrectable error is reported (R473,
R481). -/
def TeamBody.noteRows (b : TeamBody) (heat : Nat) (x : Slot) : TeamBody :=
  match mfind b.heats heat with
  | none => b
  | some h =>
    if { h with badRows := h.badRows.filter (fun r => !h.journalled.contains r) }.badRow x.rows then
      { b with journalFault := some 0 }
    else b

/-- A value enters the state of a heat. -/
def TeamBody.take (b : TeamBody) (heat stamp : Nat) : Delivered → TeamBody
  | .result x => (b.noteRows heat x).modHeat heat (fun h => h.landSlot x)
  | .entry q e => b.push heat q e
  | .forget id => b.modHeat heat (fun h => h.forget id)
  | .call tag status words => b.modHeat heat (fun h => h.callReply tag status words stamp)

/-- STRIDE of a heat of a team. -/
def Team.strideOf (x : Team) (heat : Nat) : Nat :=
  match x.heat? heat with
  | some h => h.stride.toNat
  | none => 0

/-- A value comes to a heat, and the log of its team notes where it came; `own` is the command of this lap that
it completes (R482). It is delivered again in a replay (R484), and forwarded to a checker (R511). -/
def Team.receive (x : Team) (heat stamp : Nat) (what : Delivered) (own : Option (Nat × Nat)) : Team :=
  { x with
    body := x.body.take heat stamp what
    deliveries := x.deliveries ++ [{ heat := heat, stride := x.strideOf heat, what := what, own := own, lap := x.lap.toNat }] }

/-- Whether a delivery still due concerns a result's stamp. -/
def Team.resultDue (x : Team) (heat stamp : Nat) : Bool :=
  x.due.any (fun d => d.heat == heat && (match d.what with
    | .result z => z.stamp == stamp
    | _ => false))

end Sys2Proof.Machine
end

