-- ==== Sys2Proof/Machine/Tensor.lean ====
section
/-! DEFINITION. Ranges over several pages, and tensor descriptors and tiles (R175, R339–R343). -/

namespace Sys2Proof.Machine

/-! ### Ranges (R166, R190) -/

/-- The outcome of checking a range. -/
inductive RangeChk where
  | held (miss : Option Nat)
  | bad (code addr : Nat)
  /-- Physical pieces: address, length, leaf; and the bindings after it. -/
  | ok (pieces : List (Nat × Nat × Nat)) (bs : List Binding)
  deriving DecidableEq, Repr

/-- The lower code of two failures, at the lowest failing address. -/
def RangeChk.worse (code addr : Nat) : RangeChk → RangeChk
  | .held v => .held v
  | .bad c _ => .bad (min code c) addr
  | .ok _ _ => .bad code addr

/-- Checks 4 to 6 of a local range, page by page (fuel: number of 64 KiB steps). -/
def State.rangePages (s : State) (w : Who) (k : Access) : Nat → List Binding → Nat → Nat → RangeChk
  | 0, bs, _, _ => .ok [] bs
  | f + 1, bs, va, n =>
    if n = 0 then .ok [] bs
    else
      let step := min n (65536 - va % 65536)
      match s.checkLocal bs w va k with
      | .held v => .held v
      | .bad c => RangeChk.worse c va (s.rangePages w k f bs (va + step) (n - step))
      | .ok (.mem pa leaf) bs' =>
        match s.rangePages w k f bs' (va + step) (n - step) with
        | .ok ps bs'' => .ok ((pa, step, leaf) :: ps) bs''
        | o => o
      | .ok _ _ => .held none

/-- Checks 4 to 6 of a local range of `n` bytes. -/
def State.checkRange (s : State) (bs : List Binding) (w : Who) (k : Access) (va n : Nat) : RangeChk :=
  s.rangePages w k (n / 65536 + 2) bs va n

/-- Whether any byte of checked pieces carries an uncorrectable error. -/
def State.piecesBad (s : State) (ps : List (Nat × Nat × Nat)) : Bool :=
  ps.any (fun p => s.bytesBad p.1 p.2.1)

/-- The bytes of checked pieces as a team sees them, from virtual address `va`. -/
def State.piecesBytes (s : State) (team : Option Nat) (va : Nat) :
    List (Nat × Nat × Nat) → List Byte
  | [] => []
  | p :: t => s.seenBytes team va p.1 p.2.1 ++ s.piecesBytes team (va + p.2.1) t

/-- Whether checked pieces must be waited for (R192, R354). -/
def State.piecesWait (s : State) (ps : List (Nat × Nat × Nat)) : Bool := ps.any (fun p => s.rangeWaits p.1 p.2.1)

/-! ### Descriptors (R339, R340) -/

/-- A valid tensor descriptor. -/
structure Desc where
  base : Nat := 0
  orient : Bool := false
  tiled : Bool := false
  colb : Nat := 0
  rows : Nat := 0
  rstride : Nat := 0
  planes : Nat := 1
  pstride : Nat := 0
  deriving DecidableEq, Repr

/-- Element size of a format code (R340). -/
def fmtBytes (f : Nat) : Nat := if 5 ≤ f then 4 else if f = 4 then 2 else 1

/-- A descriptor from its 64 bytes; none when it is invalid (R340). -/
def parseDesc (b : List Byte) : Option Desc :=
  let w (i : Nat) : Nat := ofBytes ((b.drop (8 * i)).take 8)
  let d : Desc := {
    base := w 0 + fld (w 1) 0 8 * 2 ^ 64
    orient := bitAt (w 1) 18, tiled := bitAt (w 1) 17
    colb := fld (w 2) 32 32, rows := fld (w 2) 0 32
    rstride := w 3, planes := max 1 (fld (w 4) 0 32), pstride := w 5 }
  let fmt := fld (w 1) 8 8
  if d.rows = 0 ∨ d.colb = 0 ∨ 7 < fmt then none
  else if fld (w 1) 19 45 ≠ 0 ∨ bitAt (w 1) 16 ∨ fld (w 4) 32 32 ≠ 0 ∨ w 6 ≠ 0 ∨ w 7 ≠ 0 then none
  else if d.colb % fmtBytes fmt ≠ 0 then none
  else if !d.tiled ∧ d.rstride < d.colb then none
  else if d.tiled ∧ (d.rstride ≠ 0 ∨ d.rows % 32 ≠ 0 ∨ d.colb % 32 ≠ 0 ∨ d.base % 1024 ≠ 0) then
    none
  else if 1 < d.planes ∧ d.rows % 32 ≠ 0 then none
  else some d

/-- Whether a tile lies inside the tensor (R341). -/
def Desc.holds (d : Desc) (trow tcol : Nat) : Bool :=
  decide (32 * trow + 31 < d.rows * d.planes ∧ 32 * tcol + 31 < d.colb)

/-- The address of row r of a tile (R341), modulo 2^72. -/
def Desc.rowAddr (d : Desc) (trow tcol r : Nat) : Nat :=
  let first := 32 * trow
  let row := if d.tiled then first else first + r
  let plane := row / d.rows
  let rho := row % d.rows
  let b := d.base + plane * d.pstride
  (if d.tiled then b + (rho / 32 * (d.colb / 32) + tcol) * 1024 + 32 * r
   else b + rho * d.rstride + 32 * tcol) % 2 ^ 72

/-- TDBASE and TDCNT as the issuer sees them: its team's; for the trap heat those of the faulting team, else of
the context that TASID names (R56, R59, R545; assumption log entry 21). -/
def State.tensorTable (s : State) : W64 × W64 :=
  let ofTeam (t : Nat) : Option (W64 × W64) := (s.team? t).map (fun x => (x.tdbase, x.tdcnt))
  let ofCtx : W64 × W64 := match s.ctx? s.curAsid with
    | some c => (c.tdbase, c.tdcnt)
    | none => (0#64, 0#64)
  match s.cur.who with
  | .trap c => match (s.core c).frozen with
    | none => (0#64, 0#64)
    | some r => ((s.teamAt c r.share).bind ofTeam).getD ofCtx
  | _ => (s.curTeam.bind ofTeam).getD ofCtx

/-- TDBASE as the issuer reads it. -/
def State.tdbase (s : State) : W64 := s.tensorTable.1

/-- TDCNT as the issuer reads it. -/
def State.tdcnt (s : State) : W64 := s.tensorTable.2

/-- Address of descriptor d: the table's address bits 71:16 are TDBASE bits 63:8 (R59, R339). -/
def State.descAddr (s : State) (d : Nat) : Nat := s.tdbase.toNat / 256 * 65536 + 64 * d

/-- How the read of a descriptor's 64 bytes fares, with the bindings after it. -/
inductive DescRead where
  | held (miss : Option Nat)
  | bad
  | got (bytes : List Byte) (bs : List Binding)
  deriving DecidableEq, Repr

/-- Read the descriptor at an address from memory (R340, R356). -/
def State.freshDesc (s : State) (bs : List Binding) (a : Nat) : DescRead :=
  if bitAt a 71 then .bad
  else match s.checkRange bs s.curWho .read a 64 with
    | .held v => .held v
    | .bad _ _ => .bad
    | .ok ps bs' =>
      if s.piecesWait ps then .held none
      else if s.piecesBad ps then .bad
      else .got (s.piecesBytes s.curTeam a ps) bs'

/-- Kind of a forwarded descriptor read (R511). -/
def descKind : Nat := 13

/-- The descriptor at an address as the issuer uses it: the cached copy or memory (R343); a checker's as it was
forwarded. -/
def State.readDesc (s : State) (bs : List Binding) (stride a : Nat) : DescRead :=
  let cached := (s.core s.cur.core).descs.find? (fun e => e.1 == s.curAsid && e.2.1 == a)
  match (if s.mute then s.logged descKind stride 0 a else none) with
  | some v => .got (toBytes 64 v) bs
  | none => match cached with
    | none => s.freshDesc bs a
    | some e => match s.freshDesc bs a with
      | .got b bs' => if b = e.2.2 ∨ !Config.descKeeps s.stamp a then .got b bs' else .got e.2.2 bs
      | o => if Config.descKeeps s.stamp a then .got e.2.2 bs else o

/-- What the use of descriptor d by a TLDG or CPYT finds. -/
inductive DescUse where
  | held (miss : Option Nat)
  /-- Check 8 fails for the descriptor. -/
  | bad
  | ok (d : Desc) (bytes : List Byte) (bs : List Binding)
  deriving DecidableEq, Repr

/-- Use descriptor d (R175, R340). -/
def State.useDesc (s : State) (bs : List Binding) (stride d : Nat) : DescUse :=
  if s.tdcnt.toNat ≤ d then .bad
  else match s.readDesc bs stride (s.descAddr d) with
    | .held v => .held v
    | .bad => .bad
    | .got b bs' => match parseDesc b with
      | some x => .ok x b bs'
      | none => .bad

/-- Keep a used descriptor in the core's descriptor cache (R343), and forward it to a checker. -/
def State.cacheDesc (s : State) (stride d : Nat) (b : List Byte) : State :=
  let k := s.core s.cur.core
  let e := (s.curAsid, s.descAddr d, b)
  (s.putCore s.cur.core { k with
    descs := (e :: k.descs.filter (fun x => !(x.1 == e.1 && x.2.1 == e.2.1))).take 64 }).noteRead
      descKind stride 0 (s.descAddr d) 64 (ofBytes b)

/-! ### Tile handles (R175) -/

/-- Descriptor index of a handle. -/
def hDesc (a : Nat) : Nat := fld a 0 12
/-- Tile row of a handle. -/
def hRow (a : Nat) : Nat := fld a 12 26
/-- Tile column of a handle. -/
def hCol (a : Nat) : Nat := fld a 38 26
/-- FLIP. -/
def hFlip (a : Nat) : Bool := bitAt a 64

end Sys2Proof.Machine
end

