-- ==== Sys2Proof/Machine/LoadStore.lean ====
section
/-! DEFINITION. Loads, stores, tile loads and prefetches (R163–R177), with the bank waves of
scratchpad accesses (R324–R326). -/

namespace Sys2Proof.Machine

/-- The number in `n` consecutive vector registers of a lane, lowest register lowest (R41, R172). -/
def Heat.wide (h : Heat) (r : Nat) : Nat → Nat → Nat
  | 0, _ => 0
  | n + 1, l => (h.v r l).toNat + 2 ^ 32 * h.wide (r + 1) n l

/-- Hold a word that needs a scoreboard slot while none is free (R33). -/
def needSlot (s : State) (h : Heat) (k : Out) : Out :=
  if Config.slotCount ≤ h.pending.length then
    .next (s.hold { h with blamed := (h.pending.headD {}).hdr, blamedIdx := (h.pending.headD {}).idx } .none 10)
  else k

/-- A scoreboard slot for a result of the current word (R31, R33). -/
def State.newSlot (s : State) (h : Heat) (d : Dest) (la : Nat) : Slot :=
  { dest := d, mask := s.cur.active, allow := window la, hdr := s.cur.hdr, idx := s.cur.idx
    word := s.cur.word, stamp := s.stamp, stride := h.stride.toNat
    lap := s.curLap }

/-- Identifier of a fabric part: the word's stamp and the lane (or a larger part number). -/
def State.partId (s : State) (part : Nat) : Nat := s.stamp * 2 ^ 40 + part

/-- A fabric access of the current word (R444), for the lanes of a mask; `stride` is the heat's before it. -/
def State.fabReq (s : State) (stride : W64) (mask : Mask) (part lane dev off n pos : Nat)
    (data : Option (List Byte)) : FabReq :=
  { id := s.partId part, dev := dev, offset := off, size := n, data := data, team := s.curKey
    heat := s.curHeatId, lane := lane, stamp := s.stamp, pos := pos, hdr := s.cur.hdr
    idx := s.cur.idx, word := s.cur.word, isStore := data.isSome, mask := mask, stride := stride }

/-- Targets of the helper lanes that pass their checks (R168), or what they hold for. -/
def helperTargets (f : List Binding → Nat → Chk) : List Nat → List Binding → Checked
  | [], bs => .ok [] bs
  | l :: t, bs =>
    match f bs l with
    | .held v => .held v
    | .bad _ => helperTargets f t bs
    | .ok (.fab _ _) _ => helperTargets f t bs
    | .ok x bs' => match helperTargets f t bs' with
      | .ok r bs'' => .ok ((l, x) :: r) bs''
      | o => o

/-- What a load has gathered: lane values, lanes with uncorrectable data, parts still to come. -/
structure Gathered where
  s : State
  vals : FMap Nat := []
  bad : List Nat := []
  reqs : List FabReq := []

/-- Whether a target lies in a scratchpad. -/
def Target.isSpad (t : Target) : Bool :=
  match t with
  | .spad _ _ => true
  | _ => false

/-- The value that a read of a target is served with, from the log in a replay (R484) or as it was forwarded to a
checker (R511), whose scratchpad is its own. -/
def State.servedLane (s : State) (stride lane addr : Nat) (t : Target) : Option Nat :=
  if t.isSpad && s.mute then none else s.logged 0 stride lane addr

/-- Note a value read from a target: in the log (R482), and forwarded to a checker (R511). -/
def State.noteLoad (s : State) (stride lane addr n value : Nat) (t : Target) : State :=
  let s := if logs t then s.noteLog 0 stride lane addr value else s
  if t.isSpad then s else s.noteRead 0 stride lane addr n value

/-- Read one lane of a load: as served, from memory, or by a fabric request. -/
def Gathered.lane (g : Gathered) (stride n : Nat) (addr : Nat → Addr) (x : Nat × Target) :
    Gathered :=
  let a := (addr x.1).toNat
  match g.s.servedLane stride x.1 a x.2 with
  | some v => { g with vals := mput g.vals x.1 v, s := g.s.noteTaken 0 stride x.1 a }
  | none =>
    match x.2 with
    | .fab dev off =>
      let q := g.s.fabReq (BitVec.ofNat 64 stride) (maskOf (· == x.1)) x.1 x.1 dev off n 0 none
      { g with
        s := { g.s with fabric := g.s.fabric ++ [q] }
        vals := mput g.vals x.1 0, reqs := g.reqs ++ [q] }
    | t =>
      let v := g.s.targetNat a n t
      { g with
        s := g.s.noteLoad stride x.1 a n v t
        vals := mput g.vals x.1 v
        bad := if g.s.targetBad n t then g.bad ++ [x.1] else g.bad }

/-- Read the lanes of a load in ascending order (R169). -/
def Gathered.lanes (g : Gathered) (stride n : Nat) (addr : Nat → Addr) :
    List (Nat × Target) → Gathered
  | [] => g
  | t :: ts => (g.lane stride n addr t).lanes stride n addr ts

/-- The slot of a load whose lanes have been read. -/
def Gathered.slot (g : Gathered) (x : Slot) (addr : Nat → Addr) (isWindow : Bool) : Slot :=
  { x with vals := g.vals, waiting := g.reqs.length, isFabric := !g.reqs.isEmpty, reqs := g.reqs
           poison := maskOf (fun l => g.bad.contains l)
           poisonAddr := match g.bad with
             | [] => 0#72
             | l :: _ => addr l
           isWindow := isWindow }

/-- Bank waves of a list of (scratchpad, word) elements (R325). -/
def wavesOf (d : List (Nat × Nat)) : Nat :=
  d.foldl (fun m e => max m (d.filter (fun x => x.1 == e.1 && x.2 % 64 == e.2 % 64)).length) 1

/-- The words a scratchpad target covers. -/
def targetWords (n : Nat) (t : Target) : List (Nat × Nat) :=
  match t with
  | .spad u off => (upto (cdiv n 4)).map (fun i => (u, off / 4 + i))
  | _ => []

/-- Waves of a load or store: identical words are served once (R325). -/
def accessWaves (n : Nat) (ts : List (Nat × Target)) : Nat :=
  wavesOf (distinct (ts.foldl (fun acc t => acc ++ targetWords n t.2) []))

/-- Waves of an ATOMS: one element per lane and word (R325). -/
def atomicWaves (n : Nat) (ts : List (Nat × Target)) : Nat :=
  wavesOf (ts.foldl (fun acc t => acc ++ targetWords n t.2) [])

/-- The scratchpad port of the heat's scheduler still sends waves of an earlier access (R326); the last
thing an access waits for (R405). -/
def State.portBusy (s : State) : Bool :=
  !s.privileged && (s.residents s.cur.core).any (fun t => match s.team? t with
    | none => false
    | some x => x.body.heats.any
        (fun e => e.1 % 4 == s.curHeatId % 4 && decide (e.2.waves ≠ 0)))

/-- A load of `n` bytes per lane into `w` registers from `d` (R172, R173): every lane is checked,
the taking lanes read in ascending order, helper lanes read their own rows, and the result waits
in a scoreboard slot. -/
def loadWord (n w d : Nat) (o : BitVec 7) (la p : Nat) (win : Bool) (addr : Heat → Nat → Addr)
    (chk : State → List Binding → Addr → Chk) (s : State) : Out :=
  heatWord s ((d, w) :: ofsUse o) [] (fun h =>
    let lanes := lanesOf (h.taking s.cur.active p)
    let helpers := lanesOf (h.taking s.cur.helpers p)
    if lanes.isEmpty ∧ helpers.isEmpty then .next (s.finish h)
    else needSlot s h (accessWith (win && s.portBusy) s h lanes n (addr h) (fun bs l => chk s bs (addr h l)) (fun s ts =>
        match helperTargets (fun bs l => chk s bs (addr h l)) helpers s.bindings with
        | .held v => .next (s.holdCheck h v)
        | .bad l => .next (s.raiseAddr l)
        | .ok hs bs =>
          if hs.any (fun t => s.targetWaits n t.2) then .next (s.hold h .none 3)
          else if hs.any (fun t => s.targetAbsent n t.2) then .next ((s.wantTargets n hs).hold h .retryPresence 2)
          else
            let g0 : Gathered :=
              { s := { s with bindings := bs }, vals := helpers.foldl (fun m l => mput m l 0) [] }
            let g := g0.lanes h.stride.toNat n (addr h) ts
            let gh := g.lanes h.stride.toNat n (addr h) hs
            let slot := { { gh with bad := g.bad }.slot (s.newSlot h (.vec d w) la) (addr h) win with
              frames := if g.bad.isEmpty then [] else s.targetFrames n ts }
            let waves := if win then accessWaves n (ts ++ hs) else h.waves
            .next ((gh.s.count s.cur.core 7 (if win then waves - 1 else 0)).finish
              { h with slots := h.slots ++ [slot], waves := waves }))))

/-- A VLD form. -/
def vld (n w d : Nat) (a : BitVec 4) (o : BitVec 7) (la : BitVec 4) (p : BitVec 1)
    (s : State) : Out :=
  loadWord n w d o la.toNat p.toNat false (fun h l => h.laneAddr a o l)
    (fun s bs x => s.checkMem bs s.curWho x n .read false) s

/-- A VLDS form. -/
def vlds (n w d : Nat) (a : BitVec 4) (o : BitVec 7) (la : BitVec 4) (p : BitVec 1)
    (s : State) : Out :=
  loadWord n w d o la.toNat p.toNat true (fun h l => h.laneAddr a o l)
    (fun s bs x => s.checkWindow bs s.curTeam x n false) s

/-! ### Stores -/

/-- What a store has gathered: writes of memory, deferred stores, fabric parts. -/
structure Stores where
  s : State
  /-- The writes of each lane. -/
  ws : List (List (Nat × Byte)) := []
  undo : List Nat := []
  deferred : List DefStore := []
  parts : Nat := 0

/-- Store one lane (R172): deferred (R358) when `defer`, else to memory, scratchpad or fabric. -/
def Stores.lane (g : Stores) (stride : W64) (n : Nat) (defer : Bool) (data : Nat → Nat) (addr : Nat → Addr)
    (x : Nat × Target) : Stores :=
  let bs := toBytes n (data x.1)
  let a := (addr x.1).toNat
  let g := { g with s := match g.s.curTeam with
    | none => g.s
    | some t => match x.2 with
      | .spad _ _ => g.s
      | _ => g.s.noteDigest t g.s.curHeatId 1 a n (data x.1) }
  match x.2 with
  | .mem pa leaf =>
    if defer ∧ pteD leaf then { g with deferred := g.deferred ++ [{ va := a, pa := pa, bytes := bs, leaf := leaf }] }
    else if g.s.mute then g
    else { g with
      ws := g.ws ++ [pairsAt pa bs]
      undo := if pteSw leaf = 0 then g.undo ++ (upto n).map (pa + ·) else g.undo }
  | .spad u off => { g with s := g.s.writeSpad u (pairsAt off bs) }
  | .fab dev off =>
    if g.s.mute then g
    else { g with
      s := { g.s with fabric := g.s.fabric ++ [g.s.fabReq stride (maskOf (· == x.1)) x.1 x.1 dev off n 0 (some bs)] }
      parts := g.parts + 1 }

/-- Store the lanes in ascending order (R169). -/
def Stores.lanes (g : Stores) (stride : W64) (n : Nat) (defer : Bool) (data : Nat → Nat) (addr : Nat → Addr) :
    List (Nat × Target) → Stores
  | [] => g
  | t :: ts => (g.lane stride n defer data addr t).lanes stride n defer data addr ts

/-- Lanes of targets that are acknowledged later: all but the deferred ones (R170). -/
def ackMask (defer : Bool) (ts : List (Nat × Target)) : Mask :=
  maskOf (fun l => ts.any (fun t => t.1 == l && match t.2 with
    | .mem _ leaf => !(defer && pteD leaf)
    | _ => true))

/-- Store every lane and end the issue. -/
def storeLanes (s : State) (h : Heat) (n waves : Nat) (defer : Bool) (full : Bool)
    (ts : List (Nat × Target)) (data : Nat → Nat) (addr : Nat → Addr) : State :=
  let defer := defer && s.curTeam.isSome
  let g := (Stores.mk s [] [] [] 0).lanes h.stride n defer data addr ts
  let m := if full ∧ ackMask defer ts ≠ 0#32 then s.cur.active else ackMask defer ts
  let acks := if m = 0#32 then h.acks
    else h.acks ++ [{ stamp := s.stamp, mask := m, isFabric := decide (g.parts ≠ 0), waiting := g.parts }]
  let s1 := match g.s.curTeam with
    | none => g.s
    | some t => (g.s.noteUndo t g.undo).modTeam t (fun x => { x with deferred := x.deferred ++ g.deferred })
  ((g.ws.foldl State.writeMem s1).finish { h with acks := acks, waves := waves }).retest

/-- A store of checked lanes (R358, R359, R478, R544): a non-deferred store to a page of width
CLUSTER or wider or to the fabric closes the lap; deferred stores that find no room take a commit
point before the word. -/
def storeChecked (s : State) (h : Heat) (n waves : Nat) (full : Bool) (ts : List (Nat × Target))
    (data : Nat → Nat) (addr : Nat → Addr) : Out :=
  let defers := ts.filter (fun t => s.defers t.2)
  let closes := s.curTeam.isSome && ts.any (fun t => commits t.2 && !s.defers t.2)
  if closes then
    commitPoint s h (fun s h => .next (storeLanes s h n waves false full ts data addr).endLap)
  else
    let room : Bool := match s.curTeam with
      | none => true
      | some t => match s.team? t with
        | none => true
        | some x => defers.isEmpty || x.hasRoom (defers.map (fun t => match t.2 with
            | .mem pa _ => (pa, n)
            | _ => (0, 0)))
    if room then .next (storeLanes s h n waves true full ts data addr)
    else commitPoint s h (fun s _ =>
      let s := s.endLap
      match s.curHeat? with
      | none => .fault .noIssuer
      | some h => .next (storeLanes s h n waves true full ts data addr))

/-- A store of `n` bytes per lane from `w` registers from `r` (R172, R173). -/
def storeWord (n w r : Nat) (o : BitVec 7) (p : Nat) (win : Bool) (addr : Heat → Nat → Addr)
    (chk : State → List Binding → Addr → Chk) (s : State) : Out :=
  heatWord s ((r, w) :: ofsUse o) [] (fun h =>
    let lanes := lanesOf (h.taking s.cur.active p)
    if lanes.isEmpty then .next (s.finish h)
    else accessWith (win && s.portBusy) s h lanes n (addr h) (fun bs l => chk s bs (addr h l)) (fun s ts =>
      let waves := if win then accessWaves n ts else h.waves
      storeChecked (s.count s.cur.core 7 (if win then waves - 1 else 0)) h n waves false ts
        (fun l => h.wide r w l) (addr h)))

/-- A VST form. -/
def vst (n w r : Nat) (a : BitVec 4) (o : BitVec 7) (p : BitVec 1) (s : State) : Out :=
  storeWord n w r o p.toNat false (fun h l => h.laneAddr a o l)
    (fun s bs x => s.checkMem bs s.curWho x n .write false) s

/-- A VSTS form. -/
def vsts (n w r : Nat) (a : BitVec 4) (o : BitVec 7) (p : BitVec 1) (s : State) : Out :=
  storeWord n w r o p.toNat true (fun h l => h.laneAddr a o l)
    (fun s bs x => s.checkWindow bs s.curTeam x n true) s

/-! ### Tile loads (R175) -/

/-- The rows of a tile that lane l's bytes come from. -/
def tileRows (d : Desc) (column : Bool) (l : Nat) : List Nat :=
  if d.tiled || column then upto 32 else [l]

/-- The lowest byte of a fabric range that fails check 7 (R441). -/
def State.fabricFails (s : State) (a n : Nat) : Nat :=
  match mfind s.domain (fld a 61 10) with
  | some e => if e.valid ∧ fld a 0 61 < e.explen ∧ e.explen < fld a 0 61 + n then a + (e.explen - fld a 0 61) else a
  | none => a

/-- Check one 32-byte row of a tile under codes 4 to 7; the physical pieces of a local row. -/
def State.checkRow (s : State) (bs : List Binding) (a : Nat) : RangeChk :=
  if bitAt a 71 then
    match s.checkFabric bs (BitVec.ofNat 72 a) 32 with
    | .bad c => .bad c (s.fabricFails a 32)
    | _ => .ok [] bs
  else s.checkRange bs s.curWho .read a 32

/-- Check the rows of a tile one after another. -/
def State.checkRows (s : State) (addr : Nat → Nat) : List Nat → List Binding → RangeChk
  | [], bs => .ok [] bs
  | r :: t, bs =>
    match s.checkRow bs (addr r) with
    | .held v => .held v
    | .bad c a => match s.checkRows addr t bs with
      | .held v => .held v
      | .bad c' a' => .bad (min c c') (min a a')
      | .ok _ _ => .bad c a
    | .ok ps bs' => match s.checkRows addr t bs' with
      | .ok ps' bs'' => .ok (ps ++ ps') bs''
      | o => o

/-- Check every lane of a tile load. -/
def State.checkTile (s : State) (d : Desc) (column : Bool) (addr : Nat → Nat) :
    List Nat → List Binding → Checked
  | [], bs => .ok [] bs
  | l :: t, bs =>
    match s.checkRows addr (tileRows d column l) bs with
    | .held v => .held v
    | .bad c a => match s.checkTile d column addr t bs with
      | .held v => .held v
      | .bad r => .bad ((l, c, BitVec.ofNat 72 a) :: r)
      | .ok _ _ => .bad [(l, c, BitVec.ofNat 72 a)]
    | .ok ps bs' => match s.checkTile d column addr t bs' with
      | .ok r bs'' => .ok (ps.map (fun p => (l, Target.mem p.1 p.2.2)) ++ r) bs''
      | o => o

/-- The helper lanes whose whole access passes and stays on the device (R168): the others read zero. -/
def State.helperTile (s : State) (d : Desc) (column : Bool) (addr : Nat → Nat) :
    List Nat → List Binding → Checked
  | [], bs => .ok [] bs
  | l :: t, bs =>
    match s.checkRows addr (tileRows d column l) bs with
    | .held v => .held v
    | .bad _ _ => s.helperTile d column addr t bs
    | .ok _ bs' =>
      if (tileRows d column l).any (fun r => bitAt (addr r) 71) then s.helperTile d column addr t bs
      else match s.helperTile d column addr t bs' with
        | .ok r bs'' => .ok ((l, Target.fab 0 0) :: r) bs''
        | o => o

/-- The pieces of a local tile row that has passed its checks; none of a fabric row. -/
def State.rowPieces (s : State) (a : Nat) : List (Nat × Nat × Nat) :=
  if bitAt a 71 then []
  else match s.checkRange s.bindings s.curWho .read a 32 with
    | .ok ps _ => ps
    | _ => []

/-- The bytes of a local tile row as the issuing team sees them; a fabric row has none yet. -/
def State.rowBytes (s : State) (a : Nat) : List Byte :=
  let b := s.piecesBytes s.curTeam a (s.rowPieces a)
  if b.length = 32 then b else List.replicate 32 0#8

/-- The 32 bytes lane l receives of a tile given by its rows. -/
def tileLane (rows : Nat → List Byte) (column : Bool) (l : Nat) : Nat :=
  if column then ofBytes ((upto 32).map (fun j => (rows j).getD l 0#8)) else ofBytes (rows l)

/-- The tile rows whose bytes a lane receives. -/
def laneRows (column : Bool) (l : Nat) : List Nat := if column then upto 32 else [l]

/-- A tile load whose checks have passed: lane values row by row, from memory or, for each fabric row, by a
request; marker lane 32 of a request means that its bytes are spread over the lanes (column orientation). A
value is served as a load's is. -/
def tileRead (s : State) (h : Heat) (d la : Nat) (column : Bool) (addr : Nat → Nat)
    (lanes helpers zero : List Nat) (handle : Addr) : Out :=
  let rows := (upto 32).filter (fun r => column || lanes.contains r)
  let stride := h.stride.toNat
  let local_ := fun l => tileLane (fun r => s.rowBytes (addr r)) column l
  let vals0 := zero.foldl (fun m l => mput m l 0) ((lanes ++ helpers).foldl (fun m l => mput m l (local_ l)) [])
  let served := (lanes ++ helpers).filter (fun l => (s.logged 0 stride l handle.toNat).isSome)
  let vals := served.foldl (fun m l => mput m l ((s.logged 0 stride l handle.toNat).getD 0)) vals0
  let all := lanes.all served.contains
  let reqs := if all then [] else (rows.filter (fun r => bitAt (addr r) 71)).map (fun r =>
    s.fabReq h.stride (if column then maskOf lanes.contains else maskOf (· == r)) r (if column then 32 else r)
      (fld (addr r) 61 10) (fld (addr r) 0 61) 32 r none)
  let bad := if all then [] else lanes.filter (fun l => (laneRows column l).any (fun r => s.piecesBad (s.rowPieces (addr r))))
  let badAddr := match bad with
    | [] => 0
    | l :: _ => addr (((laneRows column l).find? (fun r => s.piecesBad (s.rowPieces (addr r)))).getD 0)
  let s1 := (lanes ++ helpers).foldl (fun (s1 : State) l =>
    if all then s1.noteTaken 0 stride l handle.toNat
    else if !reqs.isEmpty then s1
    else
      let shared := (laneRows column l).any (fun r => (s.rowPieces (addr r)).any (fun p => logs (.mem p.1 p.2.2)))
      let s2 := if shared then s1.noteLog 0 stride l handle.toNat (mget 0 vals l) else s1
      s2.noteRead 0 stride l handle.toNat 32 (mget 0 vals l)) s
  let slot := { s.newSlot h (.vec d 8) la with
    vals := vals, waiting := reqs.length, isFabric := !reqs.isEmpty, reqs := reqs, handle := handle
    poison := maskOf (fun l => bad.contains l), poisonAddr := BitVec.ofNat 72 badAddr
    frames := if bad.isEmpty then []
      else rows.flatMap (fun r => (s.rowPieces (addr r)).flatMap (fun p => s.badFrames p.1 p.2.1)) }
  .next ({ s1 with fabric := s1.fabric ++ reqs }.finish { h with slots := h.slots ++ [slot] })

/-- VLD_B8 (R172): 1 byte per lane. -/
def execVldB8 (d : BitVec 7) (a : BitVec 4) (o : BitVec 7) (l : BitVec 4) (p : BitVec 1)
    (s : State) : Out :=
  vld 1 1 d.toNat a o l p s

/-- VLD_B16 (R172): 2 bytes per lane. -/
def execVldB16 (d : BitVec 7) (a : BitVec 4) (o : BitVec 7) (l : BitVec 4) (p : BitVec 1)
    (s : State) : Out :=
  vld 2 1 d.toNat a o l p s

/-- VLD_B32 (R172): 4 bytes per lane. -/
def execVldB32 (d : BitVec 7) (a : BitVec 4) (o : BitVec 7) (l : BitVec 4) (p : BitVec 1)
    (s : State) : Out :=
  vld 4 1 d.toNat a o l p s

/-- VLD_B64 (R172): 8 bytes per lane. -/
def execVldB64 (d : BitVec 6) (a : BitVec 4) (o : BitVec 7) (l : BitVec 4) (p : BitVec 1)
    (s : State) : Out :=
  vld 8 2 (pairReg d) a o l p s

/-- VLD_B128 (R172): 16 bytes per lane. -/
def execVldB128 (d : BitVec 5) (a : BitVec 4) (o : BitVec 7) (l : BitVec 4) (p : BitVec 1)
    (s : State) : Out :=
  vld 16 4 (quadReg d) a o l p s

/-- VST_B8 (R172): 1 byte per lane. -/
def execVstB8 (src : BitVec 7) (a : BitVec 4) (o : BitVec 7) (p : BitVec 1) (s : State) : Out :=
  vst 1 1 src.toNat a o p s

/-- VST_B16 (R172): 2 bytes per lane. -/
def execVstB16 (src : BitVec 7) (a : BitVec 4) (o : BitVec 7) (p : BitVec 1) (s : State) : Out :=
  vst 2 1 src.toNat a o p s

/-- VST_B32 (R172): 4 bytes per lane. -/
def execVstB32 (src : BitVec 7) (a : BitVec 4) (o : BitVec 7) (p : BitVec 1) (s : State) : Out :=
  vst 4 1 src.toNat a o p s

/-- VST_B64 (R172): 8 bytes per lane. -/
def execVstB64 (src : BitVec 6) (a : BitVec 4) (o : BitVec 7) (p : BitVec 1) (s : State) : Out :=
  vst 8 2 (pairReg src) a o p s

/-- VST_B128 (R172): 16 bytes per lane. -/
def execVstB128 (src : BitVec 5) (a : BitVec 4) (o : BitVec 7) (p : BitVec 1) (s : State) : Out :=
  vst 16 4 (quadReg src) a o p s

/-- VLDS_B32 (R173): 4 bytes per lane of the cluster window. -/
def execVldsB32 (d : BitVec 7) (a : BitVec 4) (o : BitVec 7) (l : BitVec 4) (p : BitVec 1)
    (s : State) : Out :=
  vlds 4 1 d.toNat a o l p s

/-- VLDS_B64 (R173): 8 bytes per lane of the cluster window. -/
def execVldsB64 (d : BitVec 6) (a : BitVec 4) (o : BitVec 7) (l : BitVec 4) (p : BitVec 1)
    (s : State) : Out :=
  vlds 8 2 (pairReg d) a o l p s

/-- VLDS_B128 (R173): 16 bytes per lane of the cluster window. -/
def execVldsB128 (d : BitVec 5) (a : BitVec 4) (o : BitVec 7) (l : BitVec 4) (p : BitVec 1)
    (s : State) : Out :=
  vlds 16 4 (quadReg d) a o l p s

/-- VSTS_B32 (R173): 4 bytes per lane to the cluster window. -/
def execVstsB32 (src : BitVec 7) (a : BitVec 4) (o : BitVec 7) (p : BitVec 1) (s : State) : Out :=
  vsts 4 1 src.toNat a o p s

/-- VSTS_B64 (R173): 8 bytes per lane to the cluster window. -/
def execVstsB64 (src : BitVec 6) (a : BitVec 4) (o : BitVec 7) (p : BitVec 1) (s : State) : Out :=
  vsts 8 2 (pairReg src) a o p s

/-- VSTS_B128 (R173): 16 bytes per lane to the cluster window. -/
def execVstsB128 (src : BitVec 5) (a : BitVec 4) (o : BitVec 7) (p : BitVec 1) (s : State) : Out :=
  vsts 16 4 (quadReg src) a o p s

/-- SLD (R174): one 8-byte load of a scalar per issue. -/
def execSld (d : BitVec 6) (a : BitVec 4) (i : BitVec 8) (l : BitVec 4) (s : State) : Out :=
  heatWord s [] [(d.toNat, 1)] (fun h =>
    let lane := lowLane s.cur.active
    let addr := fun (_ : Nat) => h.miAddr a i 8
    needSlot s h (accessLanes s h [lane] 8 addr
      (fun bs l => s.checkMem bs s.curWho (addr l) 8 .read false) (fun s ts =>
        let g := (Gathered.mk s [] [] []).lanes h.stride.toNat 8 addr ts
        let slot := { g.slot (s.newSlot h (.scalar d.toNat) l.toNat) addr false with
          frames := if g.bad.isEmpty then [] else s.targetFrames 8 ts }
        .next (g.s.finish { h with slots := h.slots ++ [slot] }))))

/-- SST (R174): one 8-byte store of a scalar per issue. -/
def execSst (src : BitVec 6) (a : BitVec 4) (i : BitVec 8) (s : State) : Out :=
  heatWord s [] [(src.toNat, 1)] (fun h =>
    let addr := fun (_ : Nat) => h.miAddr a i 8
    accessLanes s h [lowLane s.cur.active] 8 addr
      (fun bs l => s.checkMem bs s.curWho (addr l) 8 .write false) (fun s ts =>
        storeChecked s h 8 h.waves true ts (fun _ => (h.sr src.toNat).toNat) addr))

/-- A TLDG whose descriptor check fails for its helper lanes only: each reads zero (R168). -/
def tileZero (s : State) (h : Heat) (d la : Nat) (helpers : List Nat) : Out :=
  .next (s.finish { h with slots := h.slots ++ [{ s.newSlot h (.vec d 8) la with
    vals := helpers.map (fun x => (x, 0)) }] })

/-- TLDG (R175): one 32 × 32-byte tile, a row or a column per lane. The address recorded for a lane that fails on
the handle itself (codes 2 and 8) is the handle, for one whose descriptor fails the descriptor's (assumption
log entry 66). -/
def execTldg (d a l : BitVec 4) (p : BitVec 1) (s : State) : Out :=
  heatWord s [(8 * d.toNat, 8)] [] (fun h =>
    let lanes := lanesOf (h.taking s.cur.active p.toNat)
    let helpers := lanesOf (h.taking s.cur.helpers p.toNat)
    let handle := h.ar a.toNat
    let hn := handle.toNat
    if lanes.isEmpty ∧ helpers.isEmpty then .next (s.finish h)
    else needSlot s h (
      let fail := fun (c x : Nat) =>
        if lanes.isEmpty then tileZero s h (8 * d.toNat) l.toNat helpers
        else .next (s.raiseAddr (lanes.map (fun y => (y, c, BitVec.ofNat 72 x))))
      if fld hn 65 7 ≠ 0 then fail 2 hn
      else match s.useDesc s.bindings h.stride.toNat (hDesc hn) with
        | .held v => .next (s.holdCheck h v)
        | .bad => fail 8 (s.descAddr (hDesc hn))
        | .ok desc bytes bs0 =>
          if !desc.holds (hRow hn) (hCol hn) then fail 8 hn
          else
            let column := desc.orient != hFlip hn
            let addr := desc.rowAddr (hRow hn) (hCol hn)
            match s.checkTile desc column addr lanes bs0 with
            | .held v => .next (s.holdCheck h v)
            | .bad bad => .next (s.raiseAddr bad)
            | .ok _ bs1 => match s.helperTile desc column addr helpers bs1 with
              | .held v => .next (s.holdCheck h v)
              | .bad bad => .next (s.raiseAddr bad)
              | .ok hs bs =>
                let s1 := { s with bindings := bs }
                if (upto 32).any (fun r => s1.piecesWait (s1.rowPieces (addr r))) then .next (s.hold h .none 3)
                else tileRead (s1.cacheDesc h.stride.toNat (hDesc hn) bytes) h (8 * d.toNat) l.toNat column addr lanes
                  (hs.map Prod.fst) (helpers.filter (fun x => !hs.any (fun t => t.1 == x))) handle))

/-- PREF (R176): no architectural effect, never faults. -/
def execPref (_n : BitVec 7) (_a : BitVec 4) (o : BitVec 7) (_p : BitVec 1) (s : State) : Out :=
  heatWord s (ofsUse o) [] (fun h => .next (s.finish h))

end Sys2Proof.Machine
end

