-- ==== Sys2Proof/Machine/Flags.lean ====
section
/-! DEFINITION. Every condition the instructions compute: scalar comparisons as 0 or 1 (R117,
R124), vector comparisons as predicates (R136, R147), votes (R162) and the exactness predicate
k7 of VQNT (R156). -/

namespace Sys2Proof.Machine

/-- The scalar result of a comparison (R117). -/
def cond64 (b : Bool) : W64 := if b then 1#64 else 0#64

/-- The three-way result of ACMP (R124). -/
def cmpAddr (a b : Addr) : W64 :=
  if a = b then 0#64 else if b.ult a then 1#64 else 0xFFFFFFFFFFFFFFFF#64

/-- VFCMP.eq (R147). -/
def fcmpEq (a b : W32) : Bool := eqV (valOf .f32 a.toNat) (valOf .f32 b.toNat)

/-- VFCMP.lt (R147). -/
def fcmpLt (a b : W32) : Bool := ltV (valOf .f32 a.toNat) (valOf .f32 b.toNat)

/-- VFCMP.un (R147): either operand is a NaN. -/
def fcmpUn (a b : W32) : Bool := isNaN .f32 a.toNat || isNaN .f32 b.toNat

/-- VVOTE.all over the contributors (R162). -/
def voteAll (m : Mask) (f : Nat → Bool) : Bool := (lanesOf m).all f

/-- VVOTE.any over the contributors (R162). -/
def voteAny (m : Mask) (f : Nat → Bool) : Bool := (lanesOf m).any f

/-- VVOTE.uni: every contributor holds the same value (R162). -/
def voteUni (m : Mask) (f : Nat → W32) : Bool :=
  (lanesOf m).all (fun l => f l == f (lowLane m))

end Sys2Proof.Machine
end

