-- ==== Sys2Proof/Machine/Scalar.lean ====
section
/-! DEFINITION. Scalar and address instructions (R107–R125), executed once per issue (R44, R109). -/

namespace Sys2Proof.Machine

/-- Left shift; a count of the width or more gives 0 (R115). -/
def shl {w : Nat} (x : BitVec w) (c : Nat) : BitVec w := if w ≤ c then 0#w else x <<< c

/-- Right shift with zero fill (R115). -/
def shr {w : Nat} (x : BitVec w) (c : Nat) : BitVec w := if w ≤ c then 0#w else x >>> c

/-- Right shift with sign fill; a count of the width or more gives the sign (R115). -/
def sra {w : Nat} (x : BitVec w) (c : Nat) : BitVec w := x.sshiftRight (min c (w - 1))

/-- High half of a product of two signed values (R114, R126). -/
def mulhS {w : Nat} (x y : BitVec w) : BitVec w := BitVec.ofInt w (x.toInt * y.toInt / 2 ^ w)

/-- High half of a product of two unsigned values. -/
def mulhN {w : Nat} (x y : BitVec w) : BitVec w := BitVec.ofNat w (x.toNat * y.toNat / 2 ^ w)

/-- The smaller of two signed values. -/
def minS {w : Nat} (x y : BitVec w) : BitVec w := if x.slt y then x else y

/-- The larger of two signed values. -/
def maxS {w : Nat} (x y : BitVec w) : BitVec w := if x.slt y then y else x

/-- The smaller of two unsigned values. -/
def minN {w : Nat} (x y : BitVec w) : BitVec w := if x.ult y then x else y

/-- The larger of two unsigned values. -/
def maxN {w : Nat} (x y : BitVec w) : BitVec w := if x.ult y then y else x

/-- Leading zero bits (R120, R130). -/
def clz {w : Nat} (x : BitVec w) : Nat := w - bitLen x.toNat

/-- One bits (R120, R130). -/
def popc {w : Nat} (x : BitVec w) : Nat :=
  ((upto w).filter (fun i => x.getLsbD i)).length

/-- Replace bits `lo + 15 : lo` by an immediate (R119, R123, R135). -/
def setHalf {w : Nat} (x : BitVec w) (lo : Nat) (i : BitVec 16) : BitVec w :=
  (x &&& ~~~((0xFFFF#16).setWidth w <<< lo)) ||| (i.setWidth w <<< lo)

/-- An RRR scalar word: s(D) from s(A) and s(B) (R114). -/
def sca2 (d a b : BitVec 6) (s : State) (f : W64 → W64 → W64) : Out :=
  scaWord s [(d.toNat, 1), (a.toNat, 1), (b.toNat, 1)] d.toNat
    (fun h => f (h.sr a.toNat) (h.sr b.toNat))

/-- An RI scalar word: s(D) from s(A) and an immediate (R116). -/
def scaI (d a : BitVec 6) (s : State) (f : W64 → W64) : Out :=
  scaWord s [(d.toNat, 1), (a.toNat, 1)] d.toNat (fun h => f (h.sr a.toNat))

/-- SADD (R114): s(A) + s(B). -/
def execSadd (d a b : BitVec 6) (s : State) : Out :=
  sca2 d a b s (fun x y => x + y)

/-- SSUB (R114): s(A) − s(B). -/
def execSsub (d a b : BitVec 6) (s : State) : Out :=
  sca2 d a b s (fun x y => x - y)

/-- SMUL (R114): low 64 bits of the product. -/
def execSmul (d a b : BitVec 6) (s : State) : Out :=
  sca2 d a b s (fun x y => x * y)

/-- SMULH_S64 (R114): high half of the signed product. -/
def execSmulhS64 (d a b : BitVec 6) (s : State) : Out :=
  sca2 d a b s (fun x y => mulhS x y)

/-- SMULH_N64 (R114): high half of the unsigned product. -/
def execSmulhN64 (d a b : BitVec 6) (s : State) : Out :=
  sca2 d a b s (fun x y => mulhN x y)

/-- SAND (R114): AND. -/
def execSand (d a b : BitVec 6) (s : State) : Out :=
  sca2 d a b s (fun x y => x &&& y)

/-- SOR (R114): OR. -/
def execSor (d a b : BitVec 6) (s : State) : Out :=
  sca2 d a b s (fun x y => x ||| y)

/-- SXOR (R114): XOR. -/
def execSxor (d a b : BitVec 6) (s : State) : Out :=
  sca2 d a b s (fun x y => x ^^^ y)

/-- SSHL (R115): left shift. -/
def execSshl (d a b : BitVec 6) (s : State) : Out :=
  sca2 d a b s (fun x y => shl x y.toNat)

/-- SSHR (R115): right shift, zero fill. -/
def execSshr (d a b : BitVec 6) (s : State) : Out :=
  sca2 d a b s (fun x y => shr x y.toNat)

/-- SSRA (R115): right shift, sign fill. -/
def execSsra (d a b : BitVec 6) (s : State) : Out :=
  sca2 d a b s (fun x y => sra x y.toNat)

/-- SMIN_S64 (R114): signed minimum. -/
def execSminS64 (d a b : BitVec 6) (s : State) : Out :=
  sca2 d a b s (fun x y => minS x y)

/-- SMIN_N64 (R114): unsigned minimum. -/
def execSminN64 (d a b : BitVec 6) (s : State) : Out :=
  sca2 d a b s (fun x y => minN x y)

/-- SMAX_S64 (R114): signed maximum. -/
def execSmaxS64 (d a b : BitVec 6) (s : State) : Out :=
  sca2 d a b s (fun x y => maxS x y)

/-- SMAX_N64 (R114): unsigned maximum. -/
def execSmaxN64 (d a b : BitVec 6) (s : State) : Out :=
  sca2 d a b s (fun x y => maxN x y)

/-- SSEL (R118): s(A) if the old s(D) is nonzero, else s(B). -/
def execSsel (d a b : BitVec 6) (s : State) : Out :=
  scaWord s [(d.toNat, 1), (a.toNat, 1), (b.toNat, 1)] d.toNat
    (fun h => if h.sr d.toNat = 0#64 then h.sr b.toNat else h.sr a.toNat)

/-- SADD_IMM (R116): s(A) + sext(IMM9). -/
def execSaddImm (d a : BitVec 6) (i : BitVec 9) (s : State) : Out :=
  scaI d a s (fun x => x + sext 64 i)

/-- SSUB_IMM (R116): s(A) − sext(IMM9). -/
def execSsubImm (d a : BitVec 6) (i : BitVec 9) (s : State) : Out :=
  scaI d a s (fun x => x - sext 64 i)

/-- SMUL_IMM (R116): product with sext(IMM9). -/
def execSmulImm (d a : BitVec 6) (i : BitVec 9) (s : State) : Out :=
  scaI d a s (fun x => x * sext 64 i)

/-- SAND_IMM (R116): AND sext(IMM9). -/
def execSandImm (d a : BitVec 6) (i : BitVec 9) (s : State) : Out :=
  scaI d a s (fun x => x &&& sext 64 i)

/-- SOR_IMM (R116): OR sext(IMM9). -/
def execSorImm (d a : BitVec 6) (i : BitVec 9) (s : State) : Out :=
  scaI d a s (fun x => x ||| sext 64 i)

/-- SXOR_IMM (R116): XOR sext(IMM9). -/
def execSxorImm (d a : BitVec 6) (i : BitVec 9) (s : State) : Out :=
  scaI d a s (fun x => x ^^^ sext 64 i)

/-- SSHL_IMM (R116): left shift. -/
def execSshlImm (d a i : BitVec 6) (s : State) : Out :=
  scaI d a s (fun x => shl x i.toNat)

/-- SSHR_IMM (R116): right shift. -/
def execSshrImm (d a i : BitVec 6) (s : State) : Out :=
  scaI d a s (fun x => shr x i.toNat)

/-- SSRA_IMM (R116): right shift, sign fill. -/
def execSsraImm (d a i : BitVec 6) (s : State) : Out :=
  scaI d a s (fun x => sra x i.toNat)

/-- SMIN_S64_IMM (R116): signed minimum. -/
def execSminS64Imm (d a : BitVec 6) (i : BitVec 9) (s : State) : Out :=
  scaI d a s (fun x => minS x (sext 64 i))

/-- SMAX_S64_IMM (R116): signed maximum. -/
def execSmaxS64Imm (d a : BitVec 6) (i : BitVec 9) (s : State) : Out :=
  scaI d a s (fun x => maxS x (sext 64 i))

/-- SCMP_EQ (R117): equal. -/
def execScmpEq (d a b : BitVec 6) (s : State) : Out :=
  sca2 d a b s (fun x y => cond64 (x == y))

/-- SCMP_NE (R117): not equal. -/
def execScmpNe (d a b : BitVec 6) (s : State) : Out :=
  sca2 d a b s (fun x y => cond64 (x != y))

/-- SCMP_LT_S64 (R117): signed less than. -/
def execScmpLtS64 (d a b : BitVec 6) (s : State) : Out :=
  sca2 d a b s (fun x y => cond64 (x.slt y))

/-- SCMP_LE_S64 (R117): signed at most. -/
def execScmpLeS64 (d a b : BitVec 6) (s : State) : Out :=
  sca2 d a b s (fun x y => cond64 (!y.slt x))

/-- SCMP_LT_N64 (R117): unsigned less than. -/
def execScmpLtN64 (d a b : BitVec 6) (s : State) : Out :=
  sca2 d a b s (fun x y => cond64 (x.ult y))

/-- SCMP_LE_N64 (R117): unsigned at most. -/
def execScmpLeN64 (d a b : BitVec 6) (s : State) : Out :=
  sca2 d a b s (fun x y => cond64 (!y.ult x))

/-- SMOV (R119): s(D) = s(A). -/
def execSmov (d a : BitVec 6) (s : State) : Out :=
  scaI d a s (fun x => x)

/-- SMOVI (R119): s(D) = sext(IMM16). -/
def execSmovi (d : BitVec 6) (i : BitVec 16) (s : State) : Out :=
  scaWord s [(d.toNat, 1)] d.toNat (fun _ => sext 64 i)

/-- SLUI_H1 (R119): one halfword of s(D) replaced. -/
def execSluiH1 (d : BitVec 6) (i : BitVec 16) (s : State) : Out :=
  scaWord s [(d.toNat, 1)] d.toNat (fun h => setHalf (h.sr d.toNat) 16 i)

/-- SLUI_H2 (R119): one halfword of s(D) replaced. -/
def execSluiH2 (d : BitVec 6) (i : BitVec 16) (s : State) : Out :=
  scaWord s [(d.toNat, 1)] d.toNat (fun h => setHalf (h.sr d.toNat) 32 i)

/-- SLUI_H3 (R119): one halfword of s(D) replaced. -/
def execSluiH3 (d : BitVec 6) (i : BitVec 16) (s : State) : Out :=
  scaWord s [(d.toNat, 1)] d.toNat (fun h => setHalf (h.sr d.toNat) 48 i)

/-- SCLZ (R120): leading zeros of s(A). -/
def execSclz (d a : BitVec 6) (s : State) : Out :=
  scaI d a s (fun x => BitVec.ofNat 64 (clz x))

/-- SPOPC (R120): one bits of s(A). -/
def execSpopc (d a : BitVec 6) (s : State) : Out :=
  scaI d a s (fun x => BitVec.ofNat 64 (popc x))

/-- AADD (R121): a(A) + sext(s(B)) modulo 2^72. -/
def execAadd (d a : BitVec 4) (b : BitVec 6) (s : State) : Out :=
  addrWord s [(b.toNat, 1)] d.toNat (fun h => h.ar a.toNat + sext 72 (h.sr b.toNat))

/-- AADD_IMM (R121): a(A) + sext(IMM9) modulo 2^72. -/
def execAaddImm (d a : BitVec 4) (i : BitVec 9) (s : State) : Out :=
  addrWord s [] d.toNat (fun h => h.ar a.toNat + sext 72 i)

/-- AMOV_A (R122): a(D) = a(A). -/
def execAmovA (d a : BitVec 4) (s : State) : Out :=
  addrWord s [] d.toNat (fun h => h.ar a.toNat)

/-- AMOV_S (R122): a(D) = zext(s(A)). -/
def execAmovS (d : BitVec 4) (a : BitVec 6) (s : State) : Out :=
  addrWord s [(a.toNat, 1)] d.toNat (fun h => zext 72 (h.sr a.toNat))

/-- ALDI_H0 (R123): a(D) = zext(IMM16). -/
def execAldiH0 (d : BitVec 4) (i : BitVec 16) (s : State) : Out :=
  addrWord s [] d.toNat (fun _ => zext 72 i)

/-- ALDI_H1 (R123): one halfword of a(D) replaced. -/
def execAldiH1 (d : BitVec 4) (i : BitVec 16) (s : State) : Out :=
  addrWord s [] d.toNat (fun h => setHalf (h.ar d.toNat) 16 i)

/-- ALDI_H2 (R123): one halfword of a(D) replaced. -/
def execAldiH2 (d : BitVec 4) (i : BitVec 16) (s : State) : Out :=
  addrWord s [] d.toNat (fun h => setHalf (h.ar d.toNat) 32 i)

/-- ALDI_H3 (R123): one halfword of a(D) replaced. -/
def execAldiH3 (d : BitVec 4) (i : BitVec 16) (s : State) : Out :=
  addrWord s [] d.toNat (fun h => setHalf (h.ar d.toNat) 48 i)

/-- ALDI_H4 (R123): bits 71:64 of a(D) replaced. -/
def execAldiH4 (d : BitVec 4) (i : BitVec 8) (s : State) : Out :=
  addrWord s [] d.toNat (fun h => i ++ (h.ar d.toNat).extractLsb' 0 64)

/-- ACMP (R124): 0, 1 or 2^64 − 1 for equal, greater, less. -/
def execAcmp (d : BitVec 6) (a b : BitVec 4) (s : State) : Out :=
  scaWord s [(d.toNat, 1)] d.toNat (fun h => cmpAddr (h.ar a.toNat) (h.ar b.toNat))

/-- ASPLIT (R125): s(D) = a(A)[63:0], s(B) = a(A)[71:64]. -/
def execAsplit (d : BitVec 6) (a : BitVec 4) (b : BitVec 6) (s : State) : Out :=
  heatWord s [] [(d.toNat, 1), (b.toNat, 1)] (fun h =>
    .next (s.finish ((h.setS d.toNat ((h.ar a.toNat).extractLsb' 0 64)).setS b.toNat
      (zext 64 ((h.ar a.toNat).extractLsb' 64 8)))))

end Sys2Proof.Machine
end

