-- ==== Sys2Proof/Machine/Atomic.lean ====
section
/-! DEFINITION. Atomics, reductions and memory-side reduce-stores (R178–R184), and the contention
predictor (R338). -/

namespace Sys2Proof.Machine

/-! ### The contention predictor (R338) -/

/-- Home slice of a physical address on its die (R334). -/
def homeSlice (pa : Nat) : Nat :=
  ((fld pa 10 6).xor (fld pa 16 6)).xor ((fld pa 22 6).xor (fld pa 28 6))

/-- Home die of a physical address: die A holds stacks 0 to 5 (R529). -/
def homeDieOf (pa : Nat) : Nat := if pa / 2 ^ 36 < 6 then 0 else 1

/-- Whether two physical addresses have one home slice (R334). -/
def sameSlice (a b : Nat) : Bool := homeDieOf a == homeDieOf b && homeSlice a == homeSlice b

/-- The clock of a die, by which its slices measure: the furthest of its cores' cycle counters (assumption
log entry 60). -/
def State.dieClock (s : State) (d : Nat) : Nat :=
  s.cores.foldl (fun n (e : Nat × Core) => if e.1 / 64 = d then max n e.2.cycles.toNat else n) 0

/-- Keep at most 1,024 entries in the slice of a sector, the least recently used one dropped. -/
def trimPredictor (m : FMap PredEntry) (sector : Nat) : FMap PredEntry :=
  let mine := m.filter (fun e => sameSlice (1024 * e.1) (1024 * sector) && !e.2.transfers.isEmpty)
  if mine.length ≤ 1024 then m
  else
    let low := mine.foldl (fun b e => if e.2.used < b.2 then (e.1, e.2.used) else b)
      ((mine.headD (0, {})).1, (mine.headD (0, {})).2.used)
    mdel m low.1

/-- An ATOM of core c reaches a sector: ownership moves in near mode, four moves within 256 cycles
switch the sector to far, and far mode counts contention between one far ATOM and the next. -/
def State.predict (s : State) (c pa : Nat) : State :=
  let k := pa / 1024
  let now := s.dieClock (homeDieOf pa)
  match mfind s.predictor k with
  | none => { s with predictor := mput s.predictor k { owner := c, used := now } }
  | some e =>
    let e := { e with used := now }
    if e.far then
      let e := { e with
        lastFar := some c
        transfers := if e.lastFar.isSome ∧ e.lastFar ≠ some c then [now] else e.transfers }
      { s with predictor := mput s.predictor k e }.count c 0x11 1
    else if e.owner = c then { s with predictor := mput s.predictor k e }
    else
      let ts := now :: e.transfers.filter (fun t => decide (now < t + 256))
      let e := { e with owner := c, transfers := ts, far := decide (4 ≤ ts.length), lastFar := none }
      { s with predictor := trimPredictor (mput s.predictor k e) k }

/-! ### Read-modify-write -/

/-- What the lanes of an atomic have done: old values, lanes with uncorrectable data, and the
addresses of TEAM pages written. -/
structure Rmw where
  s : State
  vals : FMap Nat := []
  bad : List Nat := []

/-- One lane: read the target, write the new value, keep the old one (R169, R178). Uncorrectable
data is not written over (R167). A checker takes the old value as it was forwarded and writes nothing to memory
(R511). -/
def Rmw.lane (g : Rmw) (stride n : Nat) (atom : Bool) (f : Nat → Nat → Nat) (addr : Nat → Addr)
    (x : Nat × Target) : Rmw :=
  let a := (addr x.1).toNat
  let checks := g.s.mute && !x.2.isSpad
  let old := if checks then (g.s.logged 0 stride x.1 a).getD 0 else g.s.targetNat a n x.2
  if !checks && g.s.targetBad n x.2 then { g with bad := g.bad ++ [x.1], vals := mput g.vals x.1 old }
  else
    let bs := toBytes n (f x.1 old)
    let s := match x.2 with
      | .mem pa leaf => match g.s.curTeam with
        | none => (if atom then g.s.predict g.s.cur.core pa else g.s).writeMem (pairsAt pa bs)
        | some t =>
          let s := g.s.noteDigest t g.s.curHeatId 2 a n (ofBytes bs)
          if checks then s.noteTaken 0 stride x.1 a
          else
            let s := s.noteRead 0 stride x.1 a n old
            let s := if pteSw leaf = 0 then s.noteUndo t ((upto n).map (pa + ·)) else s
            (if atom then s.predict s.cur.core pa else s).writeMem (pairsAt pa bs)
      | .spad u off => g.s.writeSpad u (pairsAt off bs)
      | .fab _ _ => g.s
    { g with s := s, vals := mput g.vals x.1 old }

/-- The lanes in ascending order. -/
def Rmw.lanes (g : Rmw) (stride n : Nat) (atom : Bool) (f : Nat → Nat → Nat) (addr : Nat → Addr) :
    List (Nat × Target) → Rmw
  | [] => g
  | t :: ts => (g.lane stride n atom f addr t).lanes stride n atom f addr ts

/-- The fault of an uncorrectable old value, for the lanes that met one (R167): nothing where none did. -/
def State.dataFault (s : State) (h : Heat) (bad : List Nat) (addr : Nat → Addr) (win : Bool) : Option TrapRec :=
  match bad with
  | [] => none
  | l :: _ => some {
      cls := 0x20, heat := s.curHeatId, hdr := s.cur.hdr, idx := s.cur.idx, word := s.cur.word
      mask := maskOf bad.contains, addr := addr l, stride := h.stride, info := if win then 0#64 else 1#64 }

/-- Perform the lanes and end the issue: a returning form fills a scoreboard slot, the others wait
for their acknowledgement, with which an uncorrectable old value raises its fault (R167, R170, R181). -/
def rmwDone (s : State) (h : Heat) (n waves : Nat) (dest : Option (Nat × Nat × Nat)) (win : Bool)
    (f : Nat → Nat → Nat) (addr : Nat → Addr) (ts : List (Nat × Target)) : State :=
  let g := (Rmw.mk s [] []).lanes h.stride.toNat n dest.isSome f addr ts
  let h := match dest with
    | some (d, w, la) => { h with waves := waves, slots := h.slots ++ [{ s.newSlot h (.vec d w) la with
        vals := g.vals, poison := maskOf (fun l => g.bad.contains l), isWindow := win
        frames := if g.bad.isEmpty then [] else s.targetFrames n ts
        poisonAddr := match g.bad with
          | [] => 0#72
          | l :: _ => addr l }] }
    | none => { h with waves := waves, acks := h.acks ++ [{
        stamp := s.stamp, mask := maskOf (fun l => ts.any (·.1 == l)), fault := s.dataFault h g.bad addr win
        frames := if g.bad.isEmpty then [] else s.targetFrames n ts }] }
  (g.s.finish h).retest

/-- An atomic or reduction of checked lanes: aimed at a deferred page or at a page of width CLUSTER
or wider it is a commit point (R170, R478). -/
def rmwChecked (s : State) (h : Heat) (n waves : Nat) (dest : Option (Nat × Nat × Nat)) (win : Bool)
    (f : Nat → Nat → Nat) (addr : Nat → Addr) (ts : List (Nat × Target)) : Out :=
  if s.curTeam.isSome && ts.any (fun t => commits t.2 || s.defers t.2) then
    commitPoint s h (fun s h => .next (rmwDone s h n waves dest win f addr ts).endLap)
  else .next (rmwDone s h n waves dest win f addr ts)

/-- An atomic, reduction or ATOMS of `n` bytes per lane; `uses` are its registers, `dest` the
registers of its result and its LA, `f h lane old` the new value. -/
def rmwWord (n : Nat) (uses : List (Nat × Nat)) (dest : Option (Nat × Nat × Nat)) (a : BitVec 4)
    (o : BitVec 7) (p : Nat) (win : Bool) (f : Heat → Nat → Nat → Nat) (s : State) : Out :=
  heatWord s (uses ++ ofsUse o) [] (fun h =>
    let lanes := lanesOf (h.taking s.cur.active p)
    let addr := fun l => h.laneAddr a o l
    let chk := fun bs l => if win then s.checkWindow bs s.curTeam (addr l) n true
      else s.checkMem bs s.curWho (addr l) n .write true
    let run := accessWith (win && s.portBusy) s h lanes n addr chk (fun s ts =>
      let waves := if win then atomicWaves n ts else h.waves
      rmwChecked (s.count s.cur.core 7 (if win then waves - 1 else 0)) h n waves dest win (f h) addr ts)
    if lanes.isEmpty then .next (s.finish h)
    else match dest with
      | some _ => needSlot s h run
      | none => run)

/-! ### New values (R178) -/

/-- Addition modulo 2^w. -/
def opAdd (w x old : Nat) : Nat := (old + x) % 2 ^ w
/-- Signed minimum of 32-bit values. -/
def opMin (x old : Nat) : Nat := (minS (BitVec.ofNat 32 old) (BitVec.ofNat 32 x)).toNat
/-- Signed maximum of 32-bit values. -/
def opMax (x old : Nat) : Nat := (maxS (BitVec.ofNat 32 old) (BitVec.ofNat 32 x)).toNat
/-- Compare and swap. -/
def opCas (cmp new old : Nat) : Nat := if old = cmp then new else old
/-- FP32 addition rounded to nearest. -/
def opAddF (x old : Nat) : Nat := (addF32 (BitVec.ofNat 32 old) (BitVec.ofNat 32 x)).toNat

/-- A returning or non-returning 4-byte atomic with operand v(D). -/
def atom4 (d : BitVec 7) (la : Option (BitVec 4)) (a : BitVec 4) (o : BitVec 7) (p : BitVec 1)
    (win : Bool) (f : Nat → Nat → Nat) (s : State) : Out :=
  rmwWord 4 [(d.toNat, 1)] (la.map (fun x => (d.toNat, 1, x.toNat))) a o p.toNat win
    (fun h l => f (h.v d.toNat l).toNat) s

/-- A returning or non-returning 4-byte compare and swap: compare v(D), new v(D + 1). -/
def cas4 (d : BitVec 6) (la : Option (BitVec 4)) (a : BitVec 4) (o : BitVec 7) (p : BitVec 1)
    (win : Bool) (s : State) : Out :=
  rmwWord 4 [(pairReg d, 2)] (la.map (fun x => (pairReg d, 1, x.toNat))) a o p.toNat win
    (fun h l => opCas (h.v (pairReg d) l).toNat (h.v (pairReg d + 1) l).toNat) s

/-- A returning 8-byte atomic with operand pair(D). -/
def atom8 (d : BitVec 6) (la a : BitVec 4) (o : BitVec 7) (p : BitVec 1) (f : Nat → Nat → Nat)
    (s : State) : Out :=
  rmwWord 8 [(pairReg d, 2)] (some (pairReg d, 2, la.toNat)) a o p.toNat false
    (fun h l => f (h.pair (pairReg d) l).toNat) s

/-- A reduction of a 4-byte or 2-byte target by v(S). -/
def red4 (n : Nat) (r : BitVec 7) (a : BitVec 4) (o : BitVec 7) (p : BitVec 1)
    (f : Nat → Nat → Nat) (s : State) : Out :=
  rmwWord n [(r.toNat, 1)] none a o p.toNat false (fun h l => f (h.v r.toNat l).toNat) s

/-! ### REDST.ord (R183) -/

/-- The fault of a contribution whose old value carries an uncorrectable error (R167). -/
def OrdMsg.fault (m : OrdMsg) : TrapRec :=
  { cls := 0x20, heat := m.heat, hdr := m.hdr, idx := m.idx, word := m.word, mask := maskOf (· == m.lane)
    addr := BitVec.ofNat 72 m.va, stride := BitVec.ofNat 64 m.stride, info := 1#64 }

/-- Whether a contribution to a TEAM page belongs to the lap that its team is in (R481). -/
def State.ordInLap (s : State) (m : OrdMsg) : Bool :=
  m.undo && (match s.team? m.team with
    | some x => x.lap.toNat == m.lap
    | none => false)

/-- Apply one contribution to its word (R182): over uncorrectable data nothing is written and the fault is
raised (R167). -/
def State.addOrdered (s : State) (m : OrdMsg) : State :=
  if s.bytesBad m.pa 4 then (s.candidates (s.badFrames m.pa 4)).raiseAsync m.team m.fault
  else
    let s := if s.ordInLap m then s.noteUndo m.team ((upto 4).map (m.pa + ·)) else s
    let recs := s.ordRecs
    let s := s.writeMem (pairsAt m.pa (toBytes 4 (opAddF m.value.toNat (readNat s.mem m.pa 4))))
    { s with ordRecs := recs }

/-- The waiting contribution that is applied next: one whose index has been reached before (a reused
index, R184), else one of the next index, in order of arrival. -/
def OrdRec.next (r : OrdRec) : Option OrdMsg :=
  match r.waiting.find? (fun w => decide (w.index < r.e)) with
  | some w => some w
  | none => r.waiting.find? (fun w => w.index == r.e)

/-- Apply the waiting contributions of a word that have become next (fuel: their number). -/
def State.drainOrdered (s : State) (pa : Nat) : Nat → State
  | 0 => s
  | f + 1 =>
    match mfind s.ordRecs pa with
    | none => s
    | some r => match r.next with
      | none => s
      | some w =>
        let s := s.addOrdered w
        let r : OrdRec := { e := max r.e (w.index + 1), waiting := r.waiting.erase w }
        { s with ordRecs := mput s.ordRecs pa r }.drainOrdered pa f

/-- A contribution arrives at its home slice: applied, held, or refused for want of room (R183).
The answer says whether it was accepted. -/
def State.arriveOrdered (s : State) (m : OrdMsg) : State × Bool :=
  let slice := s.ordRecs.filter (fun e => sameSlice e.1 m.pa)
  let waiting := slice.foldl (fun n e => n + e.2.waiting.length) 0
  match mfind s.ordRecs m.pa with
  | none =>
    if 64 ≤ slice.length then (s, false)
    else if m.index = 0 then
      let s := s.addOrdered m
      ({ s with ordRecs := mput s.ordRecs m.pa { e := 1 } }, true)
    else if 256 ≤ waiting then (s, false)
    else ({ s with ordRecs := mput s.ordRecs m.pa { e := 0, waiting := [m] } },
      true)
  | some r =>
    if m.index < r.e then (s.addOrdered m, true)
    else if m.index = r.e then
      let s := s.addOrdered m
      let s := { s with ordRecs := mput s.ordRecs m.pa { r with e := r.e + 1 } }
      (s.drainOrdered m.pa r.waiting.length, true)
    else if 256 ≤ waiting then (s, false)
    else ({ s with ordRecs := mput s.ordRecs m.pa { r with waiting := r.waiting ++ [m] } },
      true)

/-- The contributions of checked lanes leave for their home slices; their acknowledgement comes
when each is accepted. -/
def ordSend (s : State) (h : Heat) (addr : Nat → Addr) (vals : Nat → W32 × Nat) (ts : List (Nat × Target)) : State :=
  let msgs := ts.map (fun t => match t.2 with
    | .mem pa leaf => ({
        pa := pa, va := (addr t.1).toNat, index := (vals t.1).2, value := (vals t.1).1, asid := s.curAsid
        team := s.curKey, heat := s.curHeatId, stamp := s.stamp
        undo := decide (pteSw leaf = 0) && s.curTeam.isSome, lap := s.curLap, lane := t.1, stride := h.stride.toNat
        hdr := s.cur.hdr, idx := s.cur.idx, word := s.cur.word } : OrdMsg)
    | _ => {})
  let s := match s.curTeam with
    | none => s
    | some t => msgs.foldl (fun (s : State) (m : OrdMsg) => s.noteDigest t s.curHeatId 3 m.va 4 (m.value.toNat + 2 ^ 32 * m.index)) s
  if s.mute then s.finish h
  else
    let acks := h.acks ++ [{ stamp := s.stamp, mask := maskOf (fun l => ts.any (·.1 == l)), waiting := msgs.length }]
    { s with ordMsgs := s.ordMsgs ++ msgs }.finish { h with acks := acks }


/-- ATOM_ADD_B32 (R178): atomic with the old value returned. -/
def execAtomAddB32 (d : BitVec 7) (a : BitVec 4) (o : BitVec 7) (l : BitVec 4) (p : BitVec 1)
    (s : State) : Out :=
  atom4 d (some l) a o p false (opAdd 32) s

/-- ATOM_MIN_S32 (R178): atomic with the old value returned. -/
def execAtomMinS32 (d : BitVec 7) (a : BitVec 4) (o : BitVec 7) (l : BitVec 4) (p : BitVec 1)
    (s : State) : Out :=
  atom4 d (some l) a o p false opMin s

/-- ATOM_MAX_S32 (R178): atomic with the old value returned. -/
def execAtomMaxS32 (d : BitVec 7) (a : BitVec 4) (o : BitVec 7) (l : BitVec 4) (p : BitVec 1)
    (s : State) : Out :=
  atom4 d (some l) a o p false opMax s

/-- ATOM_AND_B32 (R178): atomic with the old value returned. -/
def execAtomAndB32 (d : BitVec 7) (a : BitVec 4) (o : BitVec 7) (l : BitVec 4) (p : BitVec 1)
    (s : State) : Out :=
  atom4 d (some l) a o p false Nat.land s

/-- ATOM_OR_B32 (R178): atomic with the old value returned. -/
def execAtomOrB32 (d : BitVec 7) (a : BitVec 4) (o : BitVec 7) (l : BitVec 4) (p : BitVec 1)
    (s : State) : Out :=
  atom4 d (some l) a o p false Nat.lor s

/-- ATOM_XOR_B32 (R178): atomic with the old value returned. -/
def execAtomXorB32 (d : BitVec 7) (a : BitVec 4) (o : BitVec 7) (l : BitVec 4) (p : BitVec 1)
    (s : State) : Out :=
  atom4 d (some l) a o p false Nat.xor s

/-- ATOM_EXCH_B32 (R178): atomic with the old value returned. -/
def execAtomExchB32 (d : BitVec 7) (a : BitVec 4) (o : BitVec 7) (l : BitVec 4) (p : BitVec 1)
    (s : State) : Out :=
  atom4 d (some l) a o p false (fun x _ => x) s

/-- ATOM_CAS_B32 (R178): compare and swap. -/
def execAtomCasB32 (d : BitVec 6) (a : BitVec 4) (o : BitVec 7) (l : BitVec 4) (p : BitVec 1)
    (s : State) : Out :=
  cas4 d (some l) a o p false s

/-- ATOM_ADD_B64 (R178): 64-bit addition. -/
def execAtomAddB64 (d : BitVec 6) (a : BitVec 4) (o : BitVec 7) (l : BitVec 4) (p : BitVec 1)
    (s : State) : Out :=
  atom8 d l a o p (opAdd 64) s

/-- ATOM_EXCH_B64 (R178): 64-bit exchange. -/
def execAtomExchB64 (d : BitVec 6) (a : BitVec 4) (o : BitVec 7) (l : BitVec 4) (p : BitVec 1)
    (s : State) : Out :=
  atom8 d l a o p (fun x _ => x) s

/-- ATOM_CAS_B64 (R178): 64-bit compare and swap: compare pair(D), new pair(D + 2). -/
def execAtomCasB64 (d : BitVec 5) (a : BitVec 4) (o : BitVec 7) (l : BitVec 4) (p : BitVec 1)
    (s : State) : Out :=
  rmwWord 8 [(quadReg d, 4)] (some (quadReg d, 2, l.toNat)) a o p.toNat false
    (fun h x => opCas (h.pair (quadReg d) x).toNat (h.pair (quadReg d + 2) x).toNat) s

/-- ATOM_ADD_F32 (R178): FP32 addition. -/
def execAtomAddF32 (d : BitVec 7) (a : BitVec 4) (o : BitVec 7) (l : BitVec 4) (p : BitVec 1)
    (s : State) : Out :=
  atom4 d (some l) a o p false opAddF s

/-- RED_ADD_B32 (R180): reduction, nothing returned. -/
def execRedAddB32 (src : BitVec 7) (a : BitVec 4) (o : BitVec 7) (p : BitVec 1) (s : State) : Out :=
  red4 4 src a o p (opAdd 32) s

/-- RED_MIN_S32 (R180): reduction, nothing returned. -/
def execRedMinS32 (src : BitVec 7) (a : BitVec 4) (o : BitVec 7) (p : BitVec 1) (s : State) : Out :=
  red4 4 src a o p opMin s

/-- RED_MAX_S32 (R180): reduction, nothing returned. -/
def execRedMaxS32 (src : BitVec 7) (a : BitVec 4) (o : BitVec 7) (p : BitVec 1) (s : State) : Out :=
  red4 4 src a o p opMax s

/-- RED_OR_B32 (R180): reduction, nothing returned. -/
def execRedOrB32 (src : BitVec 7) (a : BitVec 4) (o : BitVec 7) (p : BitVec 1) (s : State) : Out :=
  red4 4 src a o p Nat.lor s

/-- RED_ADD_B64 (R180): 64-bit addition, nothing returned. -/
def execRedAddB64 (src : BitVec 6) (a : BitVec 4) (o : BitVec 7) (p : BitVec 1) (s : State) : Out :=
  rmwWord 8 [(pairReg src, 2)] none a o p.toNat false
    (fun h l => opAdd 64 (h.pair (pairReg src) l).toNat) s

/-- RED_ADD_F32 (R180): FP32 addition, nothing returned. -/
def execRedAddF32 (src : BitVec 7) (a : BitVec 4) (o : BitVec 7) (p : BitVec 1) (s : State) : Out :=
  red4 4 src a o p opAddF s

/-- RED_ADD_BF16 (R180): BF16 addition of v(S)[15:0] to a 2-byte target. -/
def execRedAddBf16 (src : BitVec 7) (a : BitVec 4) (o : BitVec 7) (p : BitVec 1)
    (s : State) : Out :=
  red4 2 src a o p (fun x old => addBF16 old (x % 65536)) s

/-- ATOMS_ADD_B32 (R181): atomic with the old value returned on the cluster window. -/
def execAtomsAddB32 (d : BitVec 7) (a : BitVec 4) (o : BitVec 7) (l : BitVec 4) (p : BitVec 1)
    (s : State) : Out :=
  atom4 d (some l) a o p true (opAdd 32) s

/-- ATOMS_ADD_B32_NON_RETURNING (R181): non-returning atomic on the cluster window. -/
def execAtomsAddB32NonReturning (d : BitVec 7) (a : BitVec 4) (o : BitVec 7) (p : BitVec 1)
    (s : State) : Out :=
  atom4 d none a o p true (opAdd 32) s

/-- ATOMS_MIN_S32 (R181): atomic with the old value returned on the cluster window. -/
def execAtomsMinS32 (d : BitVec 7) (a : BitVec 4) (o : BitVec 7) (l : BitVec 4) (p : BitVec 1)
    (s : State) : Out :=
  atom4 d (some l) a o p true opMin s

/-- ATOMS_MIN_S32_NON_RETURNING (R181): non-returning atomic on the cluster window. -/
def execAtomsMinS32NonReturning (d : BitVec 7) (a : BitVec 4) (o : BitVec 7) (p : BitVec 1)
    (s : State) : Out :=
  atom4 d none a o p true opMin s

/-- ATOMS_MAX_S32 (R181): atomic with the old value returned on the cluster window. -/
def execAtomsMaxS32 (d : BitVec 7) (a : BitVec 4) (o : BitVec 7) (l : BitVec 4) (p : BitVec 1)
    (s : State) : Out :=
  atom4 d (some l) a o p true opMax s

/-- ATOMS_MAX_S32_NON_RETURNING (R181): non-returning atomic on the cluster window. -/
def execAtomsMaxS32NonReturning (d : BitVec 7) (a : BitVec 4) (o : BitVec 7) (p : BitVec 1)
    (s : State) : Out :=
  atom4 d none a o p true opMax s

/-- ATOMS_EXCH_B32 (R181): atomic with the old value returned on the cluster window. -/
def execAtomsExchB32 (d : BitVec 7) (a : BitVec 4) (o : BitVec 7) (l : BitVec 4) (p : BitVec 1)
    (s : State) : Out :=
  atom4 d (some l) a o p true (fun x _ => x) s

/-- ATOMS_EXCH_B32_NON_RETURNING (R181): non-returning atomic on the cluster window. -/
def execAtomsExchB32NonReturning (d : BitVec 7) (a : BitVec 4) (o : BitVec 7) (p : BitVec 1)
    (s : State) : Out :=
  atom4 d none a o p true (fun x _ => x) s

/-- ATOMS_CAS_B32 (R181): compare and swap. -/
def execAtomsCasB32 (d : BitVec 6) (a : BitVec 4) (o : BitVec 7) (l : BitVec 4) (p : BitVec 1)
    (s : State) : Out :=
  cas4 d (some l) a o p true s

/-- ATOMS_CAS_B32_NON_RETURNING (R181): compare and swap. -/
def execAtomsCasB32NonReturning (d : BitVec 6) (a : BitVec 4) (o : BitVec 7) (p : BitVec 1)
    (s : State) : Out :=
  cas4 d none a o p true s

/-- ATOMS_ADD_F32 (R181): FP32 addition. -/
def execAtomsAddF32 (d : BitVec 7) (a : BitVec 4) (o : BitVec 7) (l : BitVec 4) (p : BitVec 1)
    (s : State) : Out :=
  atom4 d (some l) a o p true opAddF s

/-- ATOMS_ADD_F32_NON_RETURNING (R181): FP32 addition. -/
def execAtomsAddF32NonReturning (d : BitVec 7) (a : BitVec 4) (o : BitVec 7) (p : BitVec 1)
    (s : State) : Out :=
  atom4 d none a o p true opAddF s

/-- REDST_ANY_F32 (R182): FP32 addition at the home slice. -/
def execRedstAnyF32 (src : BitVec 7) (a : BitVec 4) (o : BitVec 7) (p : BitVec 1)
    (s : State) : Out :=
  red4 4 src a o p opAddF s

/-- REDST_ORD_F32 (R183): FP32 addition in index order: contribution v(S), index v(S + 1). -/
def execRedstOrdF32 (src : BitVec 6) (a : BitVec 4) (o : BitVec 7) (p : BitVec 1)
    (s : State) : Out :=
  heatWord s ((pairReg src, 2) :: ofsUse o) [] (fun h =>
    let lanes := lanesOf (h.taking s.cur.active p.toNat)
    let addr := fun l => h.laneAddr a o l
    let vals := fun l => (h.v (pairReg src) l, (h.v (pairReg src + 1) l).toNat)
    if lanes.isEmpty then .next (s.finish h)
    else match checkAll (fun bs l => s.checkMem bs s.curWho (addr l) 4 .write true) addr lanes
        s.bindings with
      | .held v => .next (s.holdCheck h v)
      | .bad l => .next (s.raiseAddr l)
      | .ok ts bs =>
        let s := { s with bindings := bs }
        if ts.any (fun t => match t.2 with
            | .mem pa _ => s.ownedRange pa 4
            | _ => false) then .next (s.hold h .none 3)
        else if s.curTeam.isSome && ts.any (fun t => commits t.2 || s.defers t.2) then
          commitPoint s h (fun s h => .next (ordSend s h addr vals ts).endLap)
        else .next (ordSend s h addr vals ts))

/-- REDST_ANY_B32 (R182): 32-bit addition at the home slice. -/
def execRedstAnyB32 (src : BitVec 7) (a : BitVec 4) (o : BitVec 7) (p : BitVec 1)
    (s : State) : Out :=
  red4 4 src a o p (opAdd 32) s

end Sys2Proof.Machine
end

