-- ==== Sys2Proof/Machine/Hurdle.lean ====
section
/-! DEFINITION. Hurdles (R213–R225), commit points and fences (R226–R228). -/

namespace Sys2Proof.Machine

/-! ### State words (R214) -/

/-- A hurdle state word by its fields. -/
structure HWord where
  phase : W32 := 0#32
  sig : BitVec 16 := 0#16
  wait : BitVec 16 := 0#16
  arr : BitVec 16 := 0#16
  psig : BitVec 16 := 0#16
  pwait : BitVec 16 := 0#16
  deriving DecidableEq, Repr

/-- A hurdle: its cluster flag and number. -/
structure HId where
  cluster : Bool := false
  h : Nat := 0
  deriving DecidableEq, Repr

/-- Key of a hurdle in a member table. -/
def HId.key (i : HId) : Nat := if i.cluster then 256 + i.h else i.h

/-- The team whose scratchpad holds a hurdle's state word, and the word's offset (R213). -/
def State.hurdlePlace (s : State) (t : Nat) (i : HId) : Nat × Nat :=
  let u := if i.cluster then s.clusterKey t else t
  let size := match s.team? u with
    | some x => x.size
    | none => 0
  (u, if i.cluster then size - 5120 + 16 * i.h else size - 4096 + 16 * i.h)

/-- Read a hurdle's state word. -/
def State.hurdle (s : State) (t : Nat) (i : HId) : HWord :=
  let p := s.hurdlePlace t i
  let w := ofBytes (s.spadBytes p.1 p.2 16)
  { phase := BitVec.ofNat 32 w, sig := BitVec.ofNat 16 (w / 2 ^ 32)
    wait := BitVec.ofNat 16 (w / 2 ^ 48), arr := BitVec.ofNat 16 (w / 2 ^ 64)
    psig := BitVec.ofNat 16 (w / 2 ^ 80), pwait := BitVec.ofNat 16 (w / 2 ^ 96) }

/-- The word as a number. -/
def HWord.toNat (w : HWord) : Nat :=
  w.phase.toNat + w.sig.toNat * 2 ^ 32 + w.wait.toNat * 2 ^ 48 + w.arr.toNat * 2 ^ 64 +
    w.psig.toNat * 2 ^ 80 + w.pwait.toNat * 2 ^ 96

/-- Write a hurdle's state word. -/
def State.putHurdle (s : State) (t : Nat) (i : HId) (w : HWord) : State :=
  let p := s.hurdlePlace t i
  s.writeSpad p.1 (pairsAt p.2 (toBytes 16 w.toNat))

/-- PHASE > W, modulo 2^32 (R214). -/
def later (phase w : W32) : Bool := decide (1 ≤ (phase - w).toNat ∧ (phase - w).toNat < 2 ^ 31)

/-! ### Members (R215) -/

/-- Signaller modes. -/
def HMode.signals (m : HMode) : Bool := m == .s || m == .sw
/-- Waiter modes. -/
def HMode.waits (m : HMode) : Bool := m == .w || m == .sw
/-- 1 for a signaller. -/
def HMode.sigN (m : HMode) : BitVec 16 := if m.signals then 1#16 else 0#16
/-- 1 for a waiter. -/
def HMode.waitN (m : HMode) : BitVec 16 := if m.waits then 1#16 else 0#16

/-- Membership of a heat, or of the sequencer for heat 255. -/
def State.member (s : State) (t heat : Nat) (i : HId) : HMember :=
  match s.team? t with
  | none => {}
  | some x =>
    if heat = 255 then mget {} x.body.seq.hmem i.key
    else match x.heat? heat with
      | some h => mget {} h.hmem i.key
      | none => {}

/-- Write a membership. -/
def State.putMember (s : State) (t heat : Nat) (i : HId) (m : HMember) : State :=
  if heat = 255 then s.modSeq t (fun q => { q with hmem := mset {} q.hmem i.key m })
  else s.modHeat t heat (fun h => { h with hmem := mset {} h.hmem i.key m })

/-- The heats of a team in ascending order, the sequencer last. -/
def State.unitsOf (s : State) (t : Nat) : List (Nat × Nat) :=
  match s.team? t with
  | none => []
  | some x => x.body.heats.map (fun e => (t, e.1)) ++ [(t, 255)]

/-- The possible members of a hurdle: a team, or a cluster by ascending rank. -/
def State.hurdleUnits (s : State) (t : Nat) (i : HId) : List (Nat × Nat) :=
  if i.cluster then (s.clusterOf t).foldl (fun acc u => acc ++ s.unitsOf u) [] else s.unitsOf t

/-- The sequencer goes on to its next word after a park. -/
def Seq.goOn (q : Seq) (n stamp : Nat) : Seq :=
  if q.idx + 1 < n then { q with idx := q.idx + 1, park := .none }
  else { q with hdr := fallThrough q.hdr n, idx := 0, park := .none, clauseStamp := stamp }

/-- Release what a unit has parked on a hurdle whose phase is `phase` (R217, R220): a pending
registration that has taken effect, and a wait that now holds. -/
def State.releaseUnit (s : State) (i : HId) (phase : W32) (m : HMember) (u : Nat × Nat) : State :=
  let reg := Park.regHurdle i.cluster i.h
  let wt := Park.waitHurdle i.cluster i.h
  let ok (p : Park) : Bool := p == reg || (p == wt && later phase m.wait)
  let waited (p : Park) : Bool := p == wt && later phase m.wait
  if u.2 = 255 then
    match s.team? u.1 with
    | none => s
    | some x =>
      let q := x.body.seq
      if !ok q.park then s
      else
        let s := s.modSeq u.1 (fun q => q.goOn q.n s.stamp)
        if waited q.park && m.mode == .w then s.putMember u.1 255 i { m with wait := m.wait + 1#32 } else s
  else
    match s.heat? u.1 u.2 with
    | none => s
    | some h =>
      let hit := (lanesOf h.live).any (fun l => ok (h.lane l).park)
      if !hit then s
      else
        let w := (lanesOf h.live).any (fun l => waited (h.lane l).park)
        let s := s.putHeat u.1 u.2 (h.release s.stamp ok)
        if w && m.mode == .w then s.putMember u.1 u.2 i { m with wait := m.wait + 1#32 } else s

/-- A unit at a phase advance: its pending mode takes effect, its arrived flag clears, and its
parked lanes are released (R221). -/
def State.advanceUnit (s : State) (i : HId) (phase : W32) (u : Nat × Nat) : State :=
  let m := s.member u.1 u.2 i
  let m := match m.pending with
    | some p => { mode := p, pending := none, arrived := false, wait := if p = .none then 0#32 else phase }
    | none => { m with arrived := false }
  (s.putMember u.1 u.2 i m).releaseUnit i phase m u

/-- Whether a replayed advance of a team hurdle must wait for its logged predecessors (R503). -/
def State.advanceEarly (s : State) (t : Nat) (i : HId) : Bool :=
  match s.team? t with
  | none => false
  | some x =>
    x.replaying && !i.cluster &&
      (match (x.log.filter (fun e => e.kind == 9)).drop x.advances with
        | e :: _ => e.addr != i.h
        | [] => false)

/-- Note a phase advance of a team hurdle (R482, R503). -/
def State.noteAdvance (s : State) (t : Nat) (i : HId) : State :=
  if i.cluster then s
  else s.modTeam t (fun x => { x with
    advances := x.advances + 1
    log := if x.replaying ∧ x.advances < (x.log.filter (fun e => e.kind == 9)).length then x.log
      else x.log ++ [{ kind := 9, addr := i.h }] })

/-- The step of R221, run whenever ARR is raised. -/
def State.advance (s : State) (t : Nat) (i : HId) : State :=
  let w := s.hurdle t i
  if w.sig = 0#16 ∨ w.arr ≠ w.sig ∨ s.advanceEarly t i then s
  else
    let phase := w.phase + 1#32
    let s := s.putHurdle t i { phase := phase, sig := w.sig + w.psig, wait := w.wait + w.pwait }
    let s := s.noteAdvance t i
    (s.hurdleUnits t i).foldl (fun s u => s.advanceUnit i phase u) s

/-- In replay, advances that waited for a predecessor (R503). -/
def State.advanceWaiting (s : State) (t : Nat) : Nat → State
  | 0 => s
  | f + 1 =>
    match s.team? t with
    | none => s
    | some x =>
      if !x.replaying then s
      else match (upto 256).find? (fun h =>
          let w := s.hurdle t { h := h }
          w.sig != 0#16 && w.arr == w.sig && !s.advanceEarly t { h := h }) with
        | none => s
        | some h => (s.advance t { h := h }).advanceWaiting t f

/-- ARR rises by one (R219, R221). -/
def State.raiseArr (s : State) (t : Nat) (i : HId) : State :=
  let w := s.hurdle t i
  ((s.putHurdle t i { w with arr := w.arr + 1#16 }).advance t i).advanceWaiting t 256

/-- Deferred arrivals of a heat whose commands have all completed raise ARR (R219); fuel: their
number. -/
def State.settle (s : State) (t heat : Nat) : Nat → State
  | 0 => s
  | f + 1 =>
    match s.heat? t heat with
    | none => s
    | some h => match h.arrivals.find? (fun a => a.ids.isEmpty) with
      | none => s
      | some a =>
        ((s.putHeat t heat { h with arrivals := h.arrivals.erase a }).raiseArr t
          { cluster := a.cluster, h := a.h }).settle t heat f

/-- `settle` of every arrival of a heat. -/
def State.settleHeat (s : State) (t heat : Nat) : State :=
  match s.heat? t heat with
  | none => s
  | some h => s.settle t heat h.arrivals.length

/-- What comes to a heat of a team from a relay, a grid or the host is forwarded to its checker (R511). -/
def State.shareWith (s : State) (t heat : Nat) (what : Delivered) : State :=
  match s.team? t with
  | none => s
  | some x => match x.checker with
    | none => s
    | some c =>
      let d : Delivery := { heat := heat, stride := x.strideOf heat, what := what, lap := x.lap.toNat }
      s.modTeam c (fun z => { z with due := z.due ++ [d] })

/-- Something comes to a heat of a team without an issue of its own: for good when it is of a word of an earlier
lap than the team's, noted for a replay, or of the command `own` of this lap; `shared` ones are forwarded to a
checker, which has no engine or link to give them (R482, R511). -/
def State.receive (s : State) (t heat lap : Nat) (what : Delivered) (own : Option (Nat × Nat)) (shared : Bool) :
    State :=
  match s.team? t with
  | none => s
  | some x =>
    let noted := decide (lap < x.lap.toNat) || own.isSome
    let y : Team := if noted then x.receive heat s.stamp what (if lap < x.lap.toNat then none else own)
      else { x with body := x.body.take heat s.stamp what }
    let s := if shared then s.shareWith t heat what else s
    (s.putTeam t y).settleHeat t heat

/-- A unit arrives: its flag is set and W = PHASE; ARR rises unless the rise is deferred. -/
def State.arrive (s : State) (t heat : Nat) (i : HId) (rise : Bool) : State :=
  let m := s.member t heat i
  let s := s.putMember t heat i { m with arrived := true, wait := (s.hurdle t i).phase }
  if rise then s.raiseArr t i else s

/-- A unit leaves a hurdle at the next boundary; a signaller that has not arrived counts as
arriving (R210, R218). -/
def State.dropUnit (s : State) (t heat : Nat) (i : HId) : State :=
  let m := s.member t heat i
  if (m.mode = .none ∧ m.pending = none) ∨ m.pending = some .none then s
  else
    let w := s.hurdle t i
    let now := match m.pending with
      | some p => p
      | none => m.mode
    let s := s.putHurdle t i { w with psig := w.psig - now.sigN, pwait := w.pwait - now.waitN }
    let s := s.putMember t heat i { m with pending := some .none, arrived := m.arrived || m.mode.signals }
    if m.mode.signals && !m.arrived then s.raiseArr t i else s

/-- A unit registers in a mode (R217): at once when `atOnce`, else at the next boundary. -/
def State.register (s : State) (t heat : Nat) (i : HId) (mode : HMode) (atOnce : Bool)
    (phase : W32) : State :=
  let m := s.member t heat i
  let w := s.hurdle t i
  if atOnce then
    (s.putHurdle t i { w with
      sig := w.sig + mode.sigN - m.mode.sigN
      wait := w.wait + mode.waitN - m.mode.waitN }).putMember t heat i
        { m with mode := mode, pending := none, wait := phase }
  else
    (s.putHurdle t i { w with
      psig := w.psig + mode.sigN - m.mode.sigN
      pwait := w.pwait + mode.waitN - m.mode.waitN }).putMember t heat i
        { m with pending := some mode }

/-! ### Hurdle words of heats -/

/-- Words that the trap heat may not issue raise a trap-heat fault (R474). -/
def teamOnly (s : State) (k : Nat → Out) : Out :=
  match s.curTeam with
  | none => .next (s.trapHeatFault s.cur.core 0x7F)
  | some t => k t

/-- A hurdle word: the partial-mask trap (R223), then a cluster hurdle's commit point (R225) around
the word's part `k`, which answers the state and heat at the end of the issue, or holds. -/
def hurdleWord (s : State) (i : HId) (whole : Bool) (k : Nat → State → Heat → Out) : Out :=
  heatWord s [] [] (fun h => teamOnly s (fun t =>
    if whole ∧ s.cur.active ≠ h.live then .next (s.raise 7 s.cur.active.toNat)
    else if i.cluster then commitPoint s h (fun s h => k t s h)
    else k t s h))

/-- End the issue of a hurdle word: the heat as the hurdle unit left it, and a cluster hurdle's new
lap. -/
def hurdleDone (s : State) (i : HId) (p : Park) : Out :=
  match s.curHeat? with
  | none => .fault .noIssuer
  | some h =>
    let s := if p = .none then s.finish h else s.finishPark h p
    .next (if i.cluster then s.endLap else s)

/-- The hurdle-membership trap (R222). -/
def memberTrap (s : State) (i : HId) : Out := .next (s.raise 8 i.key)

/-- HREG (R217, R223). -/
def hreg (c : BitVec 1) (n : BitVec 8) (mode : HMode) (s0 : State) : Out :=
  let i : HId := { cluster := c == 1#1, h := n.toNat }
  match s0.curTeam with
  | some t =>
    if (s0.member t s0.curHeatId i).pending = some .none then
      heatWord s0 [] [] (fun h =>
        if s0.cur.active ≠ h.live then .next (s0.raise 7 s0.cur.active.toNat)
        else .next (s0.hold h (.retryHurdle i.cluster i.h) 4))
    else hurdleWord s0 i true (fun t s h =>
      let w := s.hurdle t i
      let stride := h.stride.toNat
      let seen := s.logged 2 stride 0 i.key
      let atOnce := match seen with
        | some v => v % 2 == 1
        | none => w.arr == 0#16
      let phase := match seen with
        | some v => BitVec.ofNat 32 (v / 2)
        | none => w.phase
      let s := s.noteReplay 2 stride i.key ((if atOnce then 1 else 0) + 2 * phase.toNat)
      hurdleDone (s.register t s.curHeatId i mode atOnce phase) i
        (if atOnce then .none else .regHurdle i.cluster i.h))
  | none => hurdleWord s0 i true (fun _ s _ => .next s)

/-- HARR, HARR.CP and HARRW (R219, R220, R222). Where a word meets both, the partial-mask trap comes before the
hurdle-membership trap (assumption log entry 67). -/
def harr (c : BitVec 1) (n : BitVec 8) (cp wt : Bool) (s0 : State) : Out :=
  let i : HId := { cluster := c == 1#1, h := n.toNat }
  let bad (m : HMember) : Bool :=
    !m.mode.signals || (wt && !m.mode.waits) || m.pending == some .none
  heatWord s0 [] [] (fun h => teamOnly s0 (fun t =>
    let m := s0.member t s0.curHeatId i
    if s0.cur.active ≠ h.live then .next (s0.raise 7 s0.cur.active.toNat)
    else if bad m then memberTrap s0 i
    else if m.arrived then .next (s0.hold h (.retryHurdle i.cluster i.h) 4)
    else hurdleWord s0 i true (fun t s h =>
      let ids := (h.copies.filter (fun x => !x.covered && !x.coll && h.owns x.id)).map (·.id)
      if cp ∧ ids ≠ [] then
        let s := s.arrive t s.curHeatId i false
        hurdleDone (s.modHeat t s.curHeatId (fun y => { y with
          copies := y.copies.map (fun x => { x with covered := true })
          arrivals := y.arrivals ++ [{ cluster := i.cluster, h := i.h, ids := ids }] })) i .none
      else
        let w := (s.hurdle t i).phase
        let s := s.arrive t s.curHeatId i true
        if wt ∧ !later (s.hurdle t i).phase w then hurdleDone s i (.waitHurdle i.cluster i.h)
        else hurdleDone s i .none)))


/-- HREG_S (R217): register the heat. -/
def execHregS (c : BitVec 1) (h : BitVec 8) (s : State) : Out :=
  hreg c h .s s

/-- HREG_W (R217): register the heat. -/
def execHregW (c : BitVec 1) (h : BitVec 8) (s : State) : Out :=
  hreg c h .w s

/-- HREG_SW (R217): register the heat. -/
def execHregSw (c : BitVec 1) (h : BitVec 8) (s : State) : Out :=
  hreg c h .sw s

/-- HDROP (R218): leave the hurdle at the next boundary. -/
def execHdrop (c : BitVec 1) (h : BitVec 8) (s : State) : Out :=
  hurdleWord s { cluster := c == 1#1, h := h.toNat } true (fun t s _ =>
    let i : HId := { cluster := c == 1#1, h := h.toNat }
    hurdleDone (s.dropUnit t s.curHeatId i) i .none)

/-- HARR (R219): arrive. -/
def execHarr (c : BitVec 1) (h : BitVec 8) (s : State) : Out :=
  Machine.harr c h false false s

/-- HARR_CP (R219): arrive when the copies pushed before have completed. -/
def execHarrCp (c : BitVec 1) (h : BitVec 8) (s : State) : Out :=
  Machine.harr c h true false s

/-- HWAIT (R220): wait until PHASE > W. -/
def execHwait (c : BitVec 1) (h : BitVec 8) (s : State) : Out :=
  let i : HId := { cluster := c == 1#1, h := h.toNat }
  heatWord s [] [] (fun h => teamOnly s (fun t =>
    let m := s.member t s.curHeatId i
    if s.cur.active ≠ h.live then .next (s.raise 7 s.cur.active.toNat)
    else if !m.mode.waits || m.pending == some .none then memberTrap s i
    else hurdleWord s i true (fun t s h =>
      let m := s.member t s.curHeatId i
      let stride := h.stride.toNat
      let pass := later (s.hurdle t i).phase m.wait || s.logged 3 stride 0 i.key == some 0
      let s := s.noteReplay 3 stride i.key (if pass then 0 else 1)
      if pass then
        hurdleDone (if m.mode = .w then s.putMember t s.curHeatId i { m with wait := m.wait + 1#32 }
          else s) i .none
      else hurdleDone s i (.waitHurdle i.cluster i.h))))

/-- HARRW (R220): arrive, then wait. -/
def execHarrw (c : BitVec 1) (h : BitVec 8) (s : State) : Out :=
  Machine.harr c h false true s

/-- HTEST (R220): k(D) = a member whose PHASE > W. -/
def execHtest (d : BitVec 3) (c : BitVec 1) (h : BitVec 8) (s : State) : Out :=
  let i : HId := { cluster := c == 1#1, h := h.toNat }
  hurdleWord s i false (fun t s h =>
    let m := s.member t s.curHeatId i
    let stride := h.stride.toNat
    let now := decide (m.mode ≠ .none) && later (s.hurdle t i).phase m.wait
    let v := match s.logged 1 stride 0 i.key with
      | some x => x == 1
      | none => now
    let s := s.noteReplay 1 stride i.key (if v then 1 else 0)
    let s := s.finish (h.forLanes s.cur.active (fun y l => y.setK d.toNat l v))
    .next (if i.cluster then s.endLap else s))

/-- COMMIT (R226): a commit point of the team. -/
def execCommit (s : State) : Out :=
  heatWord s [] [] (fun h => commitPoint s h (fun s h => .next (s.finish h).endLap))

/-- FENCE (R227): wait for earlier loads, stores and copies. -/
def execFence (s : State) : Out :=
  heatWord s [] [] (fun h =>
    if h.loading s.cur.active || s.unfinished s.curKey s.curHeatId h s.cur.active .ack (fun _ _ => true) ||
        h.copies.any (fun r => !r.coll && h.owns r.id) then
      .next (s.hold h .none 8)
    else .next (s.finish h))

/-- FENCE_R (R228): wait for earlier fabric accesses and relay operations. -/
def execFenceR (s : State) : Out :=
  heatWord s [] [] (fun h =>
    if h.pending.any (fun x => x.isLoad && x.isFabric && decide (x.mask &&& s.cur.active ≠ 0#32)) ||
        s.unfinished s.curKey s.curHeatId h s.cur.active .fabAck (fun _ _ => true) ||
        s.unfinished s.curKey s.curHeatId h s.cur.active .relay (fun _ _ => true) then
      .next (s.hold h .none 8)
    else .next (s.finish h))

end Sys2Proof.Machine
end

