-- ==== Sys2Proof/Machine/Control.lean ====
section
/-! DEFINITION. Transfers, EXIT, NOP, YIELD and SLEEP (R200–R212), and the close of a BRX.pack
gathering (R203, R306–R310). -/

namespace Sys2Proof.Machine

/-! ### Transfers -/

/-- End a transfer: taking lanes move to `target`, the other active lanes to the fall-through
(R201). -/
def State.transfer (s : State) (h : Heat) (taking : Mask) (target : Nat → Addr) : State :=
  s.finishBy h (fun l x =>
    if inMask taking l then x.moveTo (target l) s.stamp else x.moveTo s.cur.next s.stamp)

/-- Lanes of a format-B word that take the transfer: k(K) XOR NEG (R30, R201). -/
def Heat.takingB (h : Heat) (m : Mask) (k : BitVec 3) (n : BitVec 1) : Mask :=
  maskOf (fun l => inMask m l && (h.k k.toNat l != (n == 1#1)))

/-- The target of BRX in a lane (R202). -/
def Heat.brxTarget (h : Heat) (c : Cur) (a : BitVec 7) (l : Nat) : Addr :=
  c.next + 4#72 * sext 72 (h.v a.toNat l)

/-- BRA (R201): every active lane moves to (target, 0). -/
def execBra (f : BitVec 19) (s : State) : Out :=
  heatWord s [] [] (fun h => .next (s.transfer h s.cur.active (fun _ => s.cur.target f)))

/-- BRC (R201): each taking lane moves to (target, 0), the others fall through. -/
def execBrc (k : BitVec 3) (n : BitVec 1) (f : BitVec 19) (s : State) : Out :=
  heatWord s [] [] (fun h =>
    .next (s.transfer h (h.takingB s.cur.active k n) (fun _ => s.cur.target f)))

/-- BRX (R202): each taking lane moves to a position of its own. -/
def execBrx (a : BitVec 7) (p : BitVec 2) (s : State) : Out :=
  heatWord s [(a.toNat, 1)] [] (fun h =>
    .next (s.transfer h (h.taking s.cur.active p.toNat) (h.brxTarget s.cur a)))

/-- BRX_PACK (R203, R306): each active lane parks at the word with its target until the gathering
closes; the issue counts in STRIDE then. -/
def execBrxPack (a : BitVec 7) (p : BitVec 2) (s : State) : Out :=
  heatWord s [(a.toNat, 1)] [] (fun h =>
    .next (s.finishBy { h with stride := h.stride - 1#64 } (fun l x => { x with
      park := .brxPack (if h.k p.toNat l then h.brxTarget s.cur a l else s.cur.next) s.stamp })))

/-- CALL (R204): each taking lane moves to (target, 0) and its link pair, the last two registers of
the budget, takes the fall-through address. -/
def execCall (k : BitVec 3) (n : BitVec 1) (f : BitVec 19) (s : State) : Out :=
  let link := match s.curHeat? with
    | some h => h.budget - 2
    | none => 0
  heatWord s [(link, 2)] [] (fun h =>
    let taking := h.takingB s.cur.active k n
    let h1 := h.forLanes taking (fun y l => y.setPair link l (s.cur.next.setWidth 64))
    .next (s.transfer h1 taking (fun _ => s.cur.target f)))

/-- RET (R205): each taking lane moves to (zext(pair(A)), 0). -/
def execRet (a : BitVec 6) (p : BitVec 2) (s : State) : Out :=
  heatWord s [(pairReg a, 2)] [] (fun h =>
    .next (s.transfer h (h.taking s.cur.active p.toNat) (fun l => zext 72 (h.pair (pairReg a) l))))

/-- JMPI (R205): each taking lane moves to (a(A), 0). -/
def execJmpi (a : BitVec 4) (p : BitVec 2) (s : State) : Out :=
  heatWord s [] [] (fun h =>
    .next (s.transfer h (h.taking s.cur.active p.toNat) (fun _ => h.ar a.toNat)))

/-- A lane that executes LOOP (R207). -/
def Lane.enterLoop (x : Lane) (count : W32) (start stop : Addr) (stamp : Nat) : Lane :=
  if count = 0#32 then x.moveTo stop stamp
  else { x with
    hdr := start, idx := 0, park := .none, clauseStamp := stamp
    loops := { count := count, start := start, stop := stop } :: x.loops }

/-- LOOP (R207): each active lane pushes an entry, or skips the body when its count is 0; a lane
whose stack is full raises the loop-depth trap (R51). -/
def execLoop (a : BitVec 7) (i : BitVec 9) (s : State) : Out :=
  heatWord s [(a.toNat, 1)] [] (fun h =>
    if (lanesOf s.cur.active).any (fun l => decide (4 ≤ (h.lane l).loops.length)) then
      .next (s.raise 6 0)
    else
      .next (s.finishBy h (fun l x => x.enterLoop (h.v a.toNat l) s.cur.next
        (s.cur.next + 4#72 * zext 72 i) s.stamp)))

/-! ### EXIT -/

/-- A heat whose last live lane has exited ends: it leaves every hurdle at the next boundary, a
signaller that has not arrived counting as arrived (R210). The end values that R293 and R367 list for hurdles of
their programs leave those arrivals out; the model follows R210 and R318 (assumption log entry 58). -/
def State.endHeat (s : State) (t heat : Nat) : State :=
  match s.heat? t heat with
  | none => s
  | some h =>
    let s := s.putHeat t heat { h with ended := true }
    (h.hmem.map Prod.fst).foldl
      (fun s k => s.dropUnit t heat { cluster := decide (256 ≤ k), h := k % 256 }) s

/-- End a heat that has no live lane left. -/
def State.endIfEmpty (s : State) (t heat : Nat) : State :=
  match s.heat? t heat with
  | none => s
  | some h => if h.live = 0#32 then s.endHeat t heat else s

/-- EXIT (R210): the threads of the taking lanes end; the heat ends with its last live lane. -/
def execExit (p : BitVec 2) (s : State) : Out :=
  heatWord s [] [] (fun h =>
    let taking := h.taking s.cur.active p.toNat
    let s1 := s.finishBy h (fun l x =>
      if inMask taking l then { x with live := false, loops := [] } else x.goOn s.stamp)
    .next (s1.endIfEmpty s.curKey s.curHeatId))

/-! ### NOP, YIELD, SLEEP (R212) -/

/-- NOP (R212): one issue and one stride count. -/
def execNop (s : State) : Out := heatWord s [] [] (fun h => .next (s.finish h))

/-- YIELD (R212): the next cycle goes to another heat (R19). -/
def execYield (s : State) : Out :=
  heatWord s [] [] (fun h => .next (s.finish { h with yielded := true }))

/-- SLEEP (R212): the heat is ineligible for 16 × IMM9 cycles; SLEEP 0 acts as YIELD. -/
def execSleep (i : BitVec 9) (s : State) : Out :=
  heatWord s [] [] (fun h =>
    if i = 0#9 then .next (s.finish { h with yielded := true })
    else .next (s.finish { h with
      sleepUntil := some ((s.core s.cur.core).cycles.toNat + 16 * i.toNat) }))

/-! ### The close of a BRX.pack gathering (R203, R306–R308) -/

/-- Whether a heat's live lanes are all parked at BRX.pack words. -/
def Heat.packed (h : Heat) : Bool :=
  !h.ended && !(lanesOf h.live).isEmpty && (lanesOf h.live).all (fun l => (h.lane l).park.isPack)

/-- Whether a park lets a gathering close without the heat (R203): a hurdle, a queue, presence or WAITC. -/
def Park.standsAside (p : Park) : Bool :=
  match p with
  | .retryHurdle _ _ => true
  | .waitHurdle _ _ => true
  | .regHurdle _ _ => true
  | .retryQueue _ => true
  | .retryPresence => true
  | .waitc => true
  | _ => false

/-- Whether a heat is in a state in which a gathering may close (R203): it has exited, it is packed, or it is
parked on a hurdle, queue, presence or WAITC. A diverged heat is parked when one of its sub-groups is: that
sub-group keeps the turn (R299). -/
def Heat.packReady (h : Heat) : Bool :=
  h.ended || (lanesOf h.live).all (fun l => (h.lane l).park.isPack) ||
    (lanesOf h.live).any (fun l => (h.lane l).park.standsAside)

/-- The heats of a role of a team, ascending; the trap heat stands alone. -/
def State.roleHeats (s : State) (t role : Nat) : List (Nat × Heat) :=
  if trapBase ≤ t then [(0, (s.core (t - trapBase)).trap)]
  else match s.team? t with
    | none => []
    | some x => x.body.heats.filter (fun e => e.2.role == role)

/-- Where a parked lane goes. -/
def Park.packTarget (p : Park) : Addr :=
  match p with
  | .brxPack a _ => a
  | _ => 0#72

/-- Issues of BRX.pack that a heat's lanes are parked on. -/
def Heat.packIssues (h : Heat) : Nat :=
  ((lanesOf h.live).foldl (fun acc l => match (h.lane l).park with
    | .brxPack _ i => if acc.contains i then acc else i :: acc
    | _ => acc) ([] : List Nat)).length

/-- What a lane slot holds: its lane state (moved to its target), rows and predicates. -/
structure Occupant where
  lane : Lane
  target : Addr
  rows : List W32
  preds : List Bool

/-- The unfinished operations of the thread in lane l of heat `u`, as it takes them to another heat. -/
def State.carriedFrom (s : State) (t u : Nat) (h : Heat) (l : Nat) : List Carried :=
  let mine (n : Nat) : Bool := decide ((h.lane l).since ≤ n)
  (h.lane l).carried ++
    (h.acks.filter (fun a => inMask a.mask l && mine a.stamp)).map (fun a => { heat := u, id := a.stamp }) ++
    (h.copies.filter (fun c => !c.coll && inMask c.mask l && mine c.id)).map (fun c => { heat := u, id := c.id, kind := .copy }) ++
    ((s.relayOps t u).filter (fun r => r.1 == l && mine r.2)).map (fun r => { heat := u, id := r.2, kind := .relay })

/-- The lanes of a gathered heat keep with them what their threads have issued here (R17). -/
def State.carryAll (s : State) (t u : Nat) (h : Heat) : Heat :=
  h.forLanes h.live (fun y l => y.setLane l { y.lane l with carried := s.carriedFrom t u h l, since := s.stamp })

/-- The occupant of lane l (R308). -/
def Heat.occupant (h : Heat) (l stamp : Nat) : Occupant :=
  let x := h.lane l
  { target := x.park.packTarget
    lane := if x.live then x.moveTo x.park.packTarget stamp else x
    rows := (upto h.budget).map (fun r => h.v r l)
    preds := (upto 8).map (fun r => h.k r l) }

/-- Place an occupant in lane l. -/
def Heat.place (h : Heat) (l : Nat) (o : Occupant) : Heat :=
  let h := h.setLane l o.lane
  let h := (upto o.rows.length).foldl (fun y r => y.setV r l (o.rows.getD r 0#32)) h
  (upto 8).foldl (fun y r => y.setK r l (o.preds.getD r false)) h

/-- The occupants of a home lane in their new order (R307): threads by target header address, ties
by old HEATID, empty slots last. `l` lists them by ascending HEATID. -/
def packOrder (key : Occupant → Nat) (l : List Occupant) : List Occupant :=
  l.foldl (fun acc o =>
    acc.takeWhile (fun x => decide (key x ≤ key o)) ++ o ::
      acc.dropWhile (fun x => decide (key x ≤ key o))) []

/-- Sort key of an occupant: its target header, empty slots above every address. -/
def Occupant.key (o : Occupant) : Nat := if o.lane.live then o.target.toNat else 2 ^ 72

/-- Repack gathered heats, listed by ascending HEATID (R307). -/
def repack (hs : List (Nat × Heat)) (stamp : Nat) : List (Nat × Heat) :=
  (upto 32).foldl (fun acc l =>
    let os := packOrder Occupant.key (acc.map (fun e => e.2.occupant l stamp))
    (upto acc.length).map (fun j =>
      let e := acc.getD j (0, {})
      (e.1, e.2.place l (os.getD j { lane := {}, target := 0#72, rows := [], preds := [] })))) hs

/-- The core of a team, or of a trap heat. -/
def State.coreOfKey (s : State) (t : Nat) : Nat :=
  if trapBase ≤ t then t - trapBase
  else match s.team? t with
    | none => 0
    | some x => x.core?.getD 0

/-- GATHERING_CLOSE (R203, R306–R308): every heat of the team and role is packed or stands aside and
the packed heats have no pending result; they are repacked by target and their issues count in
STRIDE. -/
def execEvGatheringClose (team role : Nat) (s : State) : Out :=
  let hs := s.roleHeats team role
  let g := hs.filter (fun e => e.2.packed)
  if !g.isEmpty && hs.all (fun e => e.2.packReady) && g.all (fun e => e.2.pending.isEmpty) then
    let n := g.map (fun e => (e.1, { s.carryAll team e.1 e.2 with
      stride := e.2.stride + BitVec.ofNat 64 e.2.packIssues, refKey := 31, turn := none }))
    .next ((((repack n s.stamp).foldl (fun s e => s.putHeat team e.1 e.2) s).count (s.coreOfKey team) 15 1).tick)
  else .next s

end Sys2Proof.Machine
end

