-- ==== Sys2Proof/Machine/Landing.lean ====
section
/-! DEFINITION. What comes after an issue: results landing in registers, acknowledgements, ordered
contributions on their way (R167, R170, R171, R183), the predictor's return to near (R338), and the end
of a sleep (R212). -/

namespace Sys2Proof.Machine

/-! ### Results land (R167, R170) -/

/-- The record of an uncorrectable-data fault at a landing (R167, R473). -/
def Slot.fault (x : Slot) (heat : Nat) : TrapRec :=
  { cls := 0x20, heat := heat, hdr := x.hdr, idx := x.idx, word := x.word, mask := x.poison
    addr := x.poisonAddr, stride := BitVec.ofNat 64 x.stride
    info := if x.isWindow then 0#64 else 1#64 }

/-- A result of the i-th slot lands: in the trap heat; or in the image of a team, where a result of an earlier lap
is noted (R482). -/
def State.land (s : State) (team heat : Nat) (x : Slot) : State :=
  if trapBase ≤ team then s.modHeat team heat (fun y => y.landSlot x)
  else s.receive team heat x.lap (.result x) none x.isRemote

/-- Whether a result must wait for the heat to reach the STRIDE at which it landed in the lap that is replayed
(R484). -/
def State.landsLater (s : State) (team heat : Nat) (x : Slot) : Bool :=
  match s.team? team with
  | none => false
  | some y => y.resultDue heat x.stamp

/-- LOAD_LANDS (R170, R171): the i-th pending result of a heat, all of whose parts have come, is written
in its own context's register image; data with an uncorrectable error raises class 0x20 as it would be
written (R167), and its frames become candidates for retirement (R533). -/
def execEvLoadLands (team heat slot : Nat) (s : State) : Out :=
  match s.heat? team heat with
  | none => .next s
  | some h => match h.slots[slot]? with
    | none => .next s
    | some x =>
      let bad := decide (x.poison ≠ 0#32) && !x.cancelled
      if x.waiting ≠ 0 ∨ s.landsLater team heat x then .next s
      else
        let s1 := (s.land team heat x).candidates x.frames
        .next (if bad then (s1.raiseAsync team (x.fault heat)).tick else s1.tick)

/-! ### Acknowledgements (R170) -/

/-- STORE_ACKNOWLEDGED (R170): the i-th store, reduction or non-returning atomic of a heat is
acknowledged once all of its parts have performed; an old value that carried an uncorrectable error raises
class 0x20 (R167). -/
def execEvStoreAcknowledged (team heat i : Nat) (s : State) : Out :=
  match s.heat? team heat with
  | none => .next s
  | some h => match h.acks[i]? with
    | none => .next s
    | some a =>
      if a.waiting ≠ 0 then .next s
      else
        let s1 := (s.modHeatBoth team heat (fun y =>
          { y with acks := y.acks.filter (fun b => b.stamp != a.stamp) })).candidates a.frames
        .next (match a.fault with
          | some r => (s1.raiseAsync team r).tick
          | none => s1.tick)

/-- One part of an acknowledgement has performed or been accepted. -/
def Heat.ackPart (h : Heat) (stamp : Nat) : Heat :=
  { h with acks := h.acks.map (fun (a : Ack) =>
      if a.stamp = stamp then { a with waiting := a.waiting - 1 } else a) }

/-! ### Ordered contributions (R183) -/

/-- REDST_ORD_ARRIVAL (R183): the i-th contribution on its way reaches its home slice: it is applied or
waits there, and counts as acknowledged; or it finds no room and is refused. One of a removed team is applied if
it is next and does not wait (R409). -/
def execEvRedstOrdArrival (i : Nat) (s : State) : Out :=
  match s.ordMsgs[i]? with
  | none => .next s
  | some m =>
    let gone := decide (m.team < trapBase) && (s.team? m.team).isNone
    let next := (mget {} s.ordRecs m.pa).e
    if m.refused ∨ s.ownedRange m.pa 4 then .next s
    else if gone ∧ next < m.index then .next { s with ordMsgs := delNth s.ordMsgs i }.tick
    else
      let r := s.arriveOrdered m
      if r.2 then
        let s1 := { r.1 with ordMsgs := delNth r.1.ordMsgs i }
        .next ((s1.modHeatBoth m.team m.heat (fun h => h.ackPart m.stamp)).retest).tick
      else .next { s with ordMsgs := setNth s.ordMsgs i { m with refused := true } }.tick

/-- REDST_ORD_RESEND (R183): a refused contribution is sent again. -/
def execEvRedstOrdResend (i : Nat) (s : State) : Out :=
  match s.ordMsgs[i]? with
  | none => .next s
  | some m =>
    if m.refused then .next { s with ordMsgs := setNth s.ordMsgs i { m with refused := false } }.tick
    else .next s

/-! ### The predictor, and sleeping heats -/

/-- PREDICTOR_NEAR_RETURN (R338): a far sector without contention for 1,024 cycles is near again. -/
def execEvPredictorNearReturn (sector : Nat) (s : State) : Out :=
  match mfind s.predictor sector with
  | none => .next s
  | some e =>
    if e.far ∧ e.transfers.headD 0 + 1024 ≤ s.dieClock (homeDieOf (1024 * sector)) then
      .next { s with predictor := mput s.predictor sector { e with far := false } }.tick
    else .next s

/-- SLEEP_EXPIRY (R212): a heat's sleep is over. -/
def execEvSleepExpiry (team heat : Nat) (s : State) : Out :=
  match s.heat? team heat with
  | none => .next s
  | some h => match h.sleepUntil with
    | none => .next s
    | some c =>
      if c ≤ (s.core (s.coreOfKey team)).cycles.toNat then
        .next (s.putHeat team heat { h with sleepUntil := none }).tick
      else .next s

end Sys2Proof.Machine
end

