-- ==== Sys2Proof/Machine/Shadow.lean ====
section
/-! DEFINITION. The shadow units (R142, R375): the comparison of a result with its shadow, and the end of a vector
word whose results are checked. A wrong result comes from outside the program (`Flip`). -/

namespace Sys2Proof.Machine

/-- Element e of a word in a format (R93). -/
def elemOf (f : Fmt) (x : W32) (e : Nat) : Nat := fld x.toNat (f.width * e) f.width

/-- A word with element e replaced (R93). -/
def putElem (f : Fmt) (x : W32) (e v : Nat) : W32 :=
  BitVec.ofNat 32 (x.toNat - elemOf f x e * 2 ^ (f.width * e) + v * 2 ^ (f.width * e))

/-- Register offset and element position of element i in the packed range (R155). -/
def packedAt (f : Fmt) (i : Nat) : Nat × Nat := (i * f.width / 32, i % (32 / f.width))

/-- Whether two natural numbers differ by more than 1. -/
def apart (a b : Nat) : Bool := decide (a + 1 < b ∨ b + 1 < a)

/-- Whether a result agrees with its shadow (R375): sign and class, and for a finite nonzero result the exponent
and the six bits below the leading bit, these within 1. -/
def shadowAgrees (f : Fmt) (x y : Nat) : Bool :=
  let six (v : Nat) : Nat := v % 2 ^ f.mbits / 2 ^ (f.mbits - 6)
  let exps (v : Nat) : Nat := v / 2 ^ f.mbits % 2 ^ f.ebits
  let neg (v : Nat) : Bool := bitAt v (f.width - 1)
  let plain (v : Nat) : Bool := exps v != 2 ^ f.ebits - 1 && v % 2 ^ (f.width - 1) != 0
  if plain x ∧ plain y then neg x == neg y && exps x == exps y && !apart (six x) (six y)
  else match valOf f x, valOf f y with
    | .nan, .nan => neg x == neg y
    | .inf a, .inf b => a == b
    | .fin a 0 _, .fin b 0 _ => a == b
    | _, _ => false

/-- Whether a flip hits one of some places of a check: reason, lanes or elements, parts. -/
def Flip.hits (x : Flip) (reason : Nat) (m : Mask) (parts : Nat → Bool) : Bool :=
  x.reason == reason && inMask m x.index && parts x.part

/-- Registers from `d` with a wrong result: the flipped bits of element `part` of the lane's results. -/
def Heat.disturb (h : Heat) (f : Fmt) (d : Nat) (x : Flip) : Heat :=
  let p := packedAt f x.part
  let old := h.v (d + p.1) x.index
  h.setV (d + p.1) x.index (putElem f old p.2 ((elemOf f old p.2).xor (x.bits % 2 ^ f.width)))

/-- Whether the shadow of the element that a flip hits agrees with its result (R375). -/
def Heat.agrees (good bad : Heat) (f : Fmt) (d : Nat) (x : Flip) : Bool :=
  let p := packedAt f x.part
  shadowAgrees f (elemOf f (good.v (d + p.1) x.index) p.2) (elemOf f (bad.v (d + p.1) x.index) p.2)

/-- End the issue of a word whose results, the elements of format f that `parts` picks from register d on in the
lanes of a mask, a shadow unit repeats: a result that disagrees raises the shadow-divergence trap before any is
written (R142, R375); one that passes is written as it is. -/
def State.finishShadow (s : State) (h : Heat) (f : Fmt) (m : Mask) (d : Nat) (parts : Nat → Bool) : State :=
  let c := s.core s.cur.core
  let hit := c.flips.filter (fun x => x.hits 1 m parts)
  if hit.isEmpty then s.finish h
  else
    let s1 := s.putCore s.cur.core { c with flips := c.flips.filter (fun x => !x.hits 1 m parts) }
    let h1 := hit.foldl (fun y x => y.disturb f d x) h
    if hit.all (h.agrees h1 f d) then s1.finish h1 else s1.raise 0x22 1

/-- `vecWord` for a word that produces floating-point results by arithmetic (R142). -/
def fpWord (f : Fmt) (s : State) (vr : List (Nat × Nat)) (p d : Nat) (g : Heat → Nat → W32) : Out :=
  heatWord s vr [] (fun h =>
    let m := h.taking s.cur.lanes p
    .next (s.finishShadow (h.forLanes m (fun y l => y.setV d l (g h l))) f m d
      (fun i => decide (i < 32 / f.width))))

end Sys2Proof.Machine
end

