-- ==== Sys2Proof/Machine/Accum.lean ====
section
/-! DEFINITION. The summation contract (R368–R374): ACCUM over one step of the matrix engine, its
operands (R93, R261, R265), the swamping monitors, and the checks of the engine's results (R375–R377). -/

namespace Sys2Proof.Machine

/-! ### Profiles (R258) -/

/-- Level lengths as exponents of 2, widths, rounding mode, JAM and SWE. -/
def profLA (p : BitVec 32) : Nat := fld p.toNat 0 2 + 2
/-- WA. -/
def profWA (p : BitVec 32) : Nat := 12 + 2 * fld p.toNat 2 3
/-- LB as an exponent of 2. -/
def profLB (p : BitVec 32) : Nat := fld p.toNat 5 3
/-- WB. -/
def profWB (p : BitVec 32) : Nat := 20 + 2 * fld p.toNat 8 3
/-- LC as an exponent of 2. -/
def profLC (p : BitVec 32) : Nat := fld p.toNat 11 3
/-- WC. -/
def profWC (p : BitVec 32) : Nat := 28 + 2 * fld p.toNat 14 3
/-- RF. -/
def profRF (p : BitVec 32) : RMode :=
  match fld p.toNat 17 2 with
  | 0 => .rn
  | 1 => .rz
  | _ => .sr
/-- JAM. -/
def profJam (p : BitVec 32) : Bool := p.getLsbD 19
/-- SWE. -/
def profSwe (p : BitVec 32) : Bool := p.getLsbD 20
/-- LA·LB·LC as an exponent of 2. -/
def profLog (p : BitVec 32) : Nat := profLA p + profLB p + profLC p
/-- Whether a 64-bit value is a profile word (R259). -/
def profOk (x : W64) : Bool :=
  decide (x.toNat / 2 ^ 21 = 0) && decide (fld x.toNat 5 3 ≤ 4) && decide (fld x.toNat 11 3 ≤ 5) &&
    fld x.toNat 17 2 != 3

/-! ### Levels (R369) -/

/-- Number of 1 bits of a number, with fuel. -/
def onesFuel : Nat → Nat → Nat
  | 0, _ => 0
  | f + 1, x => x % 2 + onesFuel f (x / 2)

/-- Number of 1 bits. -/
def ones (x : Nat) : Nat := onesFuel (bitLen x) x

/-- A level's term or result: an integer times a power of 2. -/
structure Term where
  z : Int := 0
  e : Int := 0
  deriving DecidableEq, Repr

/-- What a level answers: its result, what it adds to the two monitors, and whether its check passes. -/
structure LevelOut where
  r : Term := {}
  lost : Nat := 0
  swamped : Nat := 0
  ok : Bool := true
  deriving DecidableEq, Repr

/-- Exponent of the leading bit of a nonzero term. -/
def Term.lead (t : Term) : Int := (bitLen t.z.natAbs : Int) - 1 + t.e

/-- TRUNCALIGN to a unit of 2^u: the signed retained units, lost bits, swamped (R369). -/
def truncAlign (u : Int) (jam : Bool) (t : Term) : Int × Nat × Nat :=
  let a := t.z.natAbs
  let m := if u ≤ t.e then a * 2 ^ (t.e - u).toNat else a / 2 ^ (u - t.e).toNat
  let d := if u ≤ t.e then 0 else a % 2 ^ (u - t.e).toNat
  let m' := if jam && d != 0 then m ||| 1 else m
  (if t.z < 0 then -(m' : Int) else m', ones d, if a ≠ 0 ∧ m = 0 then 1 else 0)

/-- A number with bits of its two's complement of width w flipped. -/
def flipInt (w bits : Nat) (z : Int) : Int := sextN w (((z % 2 ^ w).toNat).xor (bits % 2 ^ w))

/-- The six bits below the leading bit of a nonzero number. -/
def sixBelow (a : Nat) : Nat :=
  let n := bitLen a
  if n ≤ 7 then a * 2 ^ (7 - n) % 64 else a / 2 ^ (n - 7) % 64

/-- Whether the result of a level B or C agrees with its shadow: zero, or sign, position of the leading bit, and
the six bits below it within 1 (R375). -/
def sumAgrees (x y : Int) : Bool :=
  if x = 0 ∨ y = 0 then decide (x = y)
  else decide (x < 0) == decide (y < 0) && bitLen x.natAbs == bitLen y.natAbs &&
    !apart (sixBelow x.natAbs) (sixBelow y.natAbs)

/-- Whether the sum of a level A has the residue modulo 7 of its retained terms (R376). -/
def residueAgrees (parts : List Int) (sum : Int) : Bool :=
  decide ((parts.foldl (fun a z => (a + z % 7) % 7) 0) = sum % 7)

/-- LEVEL over 2^log terms with width W (R369), some bits of whose sum an error flips; a sum of level A has the
residue check, another the shadow's (R375, R376). -/
def level (isA : Bool) (w log : Nat) (jam : Bool) (bits : Nat) (ts : List Term) : LevelOut :=
  match ts.filter (fun t => t.z != 0) with
  | [] => {}
  | t :: rest =>
    let e := rest.foldl (fun m x => max m x.lead) t.lead
    let u := e - ((w - 2 - log : Nat) : Int)
    let parts := ts.map (truncAlign u jam)
    let good := parts.foldl (fun a x => a + x.1) 0
    let sum := if bits = 0 then good else flipInt w bits good
    { ok := decide (bits = 0) || (if isA then residueAgrees (parts.map (·.1)) sum else sumAgrees good sum)
      r := if sum = 0 then {} else { z := sum, e := u }
      lost := parts.foldl (fun a x => a + x.2.1) 0
      swamped := parts.foldl (fun a x => a + x.2.2) 0 }

/-- Consecutive pieces of `n` elements, with fuel. -/
def piecesFuel {α : Type} (n : Nat) : Nat → List α → List (List α)
  | 0, _ => []
  | f + 1, l => match l with
    | [] => []
    | _ => l.take n :: piecesFuel n f (l.drop n)

/-- Consecutive pieces of `n` elements. -/
def inPieces {α : Type} (n : Nat) (l : List α) : List (List α) := piecesFuel n l.length l

/-- One level over consecutive groups of 2^log terms; `bits i` are flipped in the sum of the i-th. -/
def levels (isA : Bool) (w log : Nat) (jam : Bool) (bits : Nat → Nat) (ts : List Term) : List LevelOut :=
  let gs := inPieces (2 ^ log) ts
  ((upto gs.length).zip gs).map (fun g => level isA w log jam (bits g.1) g.2)

/-! ### ACCUM (R371, R372) -/

/-- The special value of a level-C group (R372). -/
def specialOf (p : List FVal) : Option FVal :=
  if p.any (fun x => x == .nan) then some .nan
  else match p.any (fun x => x == .inf false), p.any (fun x => x == .inf true) with
    | true, true => some .nan
    | true, false => some (.inf false)
    | false, true => some (.inf true)
    | false, false => none

/-- A finite value as a term. -/
def termOf (v : FVal) : Term :=
  match v with
  | .fin neg m e => { z := if neg then -(m : Int) else m, e := e }
  | _ => {}

/-- A term as an exact value; zero is +0. -/
def Term.toVal (t : Term) : FVal :=
  if t.z = 0 then .fin false 0 0 else .fin (decide (t.z < 0)) t.z.natAbs t.e

/-- The bits that errors flip in the part of a check: those of the first flip there. -/
def flipBits (fl : List Flip) (reason part : Nat) : Nat :=
  match fl.find? (fun x => x.reason == reason && x.part == part) with
  | some x => x.bits
  | none => 0

/-- A sum of an element: value, what it adds to the monitors, and the reason of the first check that fails, 0 for
none. -/
structure Sum (α : Type) where
  val : α
  lost : Nat := 0
  swamped : Nat := 0
  fail : Nat := 0

/-- The value G of the g-th level-C group of an element (R371–R373); `fl` are the errors of the element, a level-A
sum's (reason 5) and a level-B result's (reason 2) numbered through the step. -/
def groupSum (prof : BitVec 32) (fl : List Flip) (g : Nat) (p : List FVal) : Sum FVal :=
  match specialOf p with
  | some v => { val := v }
  | none =>
    let jam := profJam prof
    let nb := 2 ^ profLC prof
    let a := levels true (profWA prof) (profLA prof) jam (fun i => flipBits fl 5 (g * nb * 2 ^ profLB prof + i))
      (p.map termOf)
    let b := levels false (profWB prof) (profLB prof) jam (fun i => flipBits fl 2 (g * nb + i)) (a.map (·.r))
    let c := level false (profWC prof) (profLC prof) jam (flipBits fl 3 g) (b.map (·.r))
    let all := a ++ b ++ [c]
    { val := c.r.toVal
      lost := all.foldl (fun n x => n + x.lost) 0, swamped := all.foldl (fun n x => n + x.swamped) 0
      fail := if a.any (fun x => !x.ok) then 5 else if b.any (fun x => !x.ok) then 2 else if !c.ok then 3 else 0 }

/-- Who draws (R105): seed, TEAMID, tile and element. -/
structure DrawKey where
  seed : W64 := 0#64
  teamId : Nat := 0
  tile : Nat := 0
  element : Nat := 0

/-- DRAW >> 11 of a final rounding (R105). -/
def DrawKey.at (d : DrawKey) (ctr : W64) : Nat :=
  (draw d.seed (BitVec.ofNat 64
    (0xC000000000000000 + d.teamId * 2 ^ 20 + d.tile * 2 ^ 12 + d.element)) ctr).toNat / 2 ^ 11

/-- ACCUM over the groups of one step from the n-th (R371); the final addition has a shadow (reason 4). -/
def accumGroups (prof : BitVec 32) (key : DrawKey) (fl : List Flip) :
    List (List FVal) → Nat → W64 → W32 → Sum W32
  | [], _, _, c => { val := c }
  | p :: t, n, ctr, c =>
    let g := groupSum prof fl n p
    let good := BitVec.ofNat 32 (round .f32 (profRF prof) (key.at ctr) (addV (valOf .f32 c.toNat) g.val))
    let c' := good ^^^ BitVec.ofNat 32 (flipBits fl 4 n)
    let r := accumGroups prof key fl t (n + 1) (ctr + 1#64) c'
    { val := r.val, lost := g.lost + r.lost, swamped := g.swamped + r.swamped
      fail := if g.fail ≠ 0 then g.fail
        else if c' ≠ good && !shadowAgrees .f32 good.toNat c'.toNat then 4 else r.fail }

/-- ACCUM of one element from the products of a step in ascending k, with the errors of the element. -/
def accumWith (fl : List Flip) (prof : BitVec 32) (key : DrawKey) (ctr : W64) (c : W32) (p : List FVal) : Sum W32 :=
  accumGroups prof key fl (inPieces (2 ^ profLog prof) p) 0 ctr c

/-- ACCUM of one element: the new element, lost bits and swamped terms. -/
def accum (prof : BitVec 32) (key : DrawKey) (ctr : W64) (c : W32) (p : List FVal) : W32 × Nat × Nat :=
  let r := accumWith [] prof key ctr c p
  (r.val, r.lost, r.swamped)

/-! ### Operands of a step (R93, R261, R262) -/

/-- Format of an operand code. -/
def mmaFmt (f : Nat) : Fmt :=
  match f with
  | 0 => .e4m3
  | 1 => .e5m2
  | 2 => .e2m1
  | _ => .bf16

/-- K of a form (R260): 512 bits of A per row. -/
def MmaForm.k (f : MmaForm) : Nat := 512 / (mmaFmt f.afmt).width

/-- Bytes of a B column, and of B per step (R260). -/
def MmaForm.colBytes (f : MmaForm) : Nat := f.k * (mmaFmt f.bfmt).width / 8

/-- B bytes per step. -/
def MmaForm.bBytes (f : MmaForm) : Nat := 64 * f.colBytes

/-- The packed elements of a row, given as a number (R93). -/
def rowVals (f : Fmt) (k row : Nat) : List FVal :=
  (upto k).map (fun i => valOf f (row / 2 ^ (f.width * i) % 2 ^ f.width))

/-- The rows of an operand of `n`-byte rows. -/
def operandRows (n : Nat) (b : List Byte) : List Nat := (inPieces n b).map ofBytes

/-- Number of the block of element (r, c) of an operand with K columns (R97). -/
def blockOf (e8 : Bool) (k r c : Nat) : Nat :=
  if e8 then r * (k / 32) + c / 32 else r / 32 * (k / 32) + c / 32

/-- Register, lane and byte of scale number b from base register S (R98). -/
def scalePlace (e8 : Bool) (base b : Nat) : Nat × Nat × Nat :=
  if e8 then (base + b / 128, b % 32, b / 32 % 4) else (base + b / 32, b % 32, 0)

/-- The scale of element (r, c), read through `v` (R95, R265). -/
def scaleOf (e8 : Bool) (v : Nat → Nat → W32) (base sigma k r c : Nat) : FVal :=
  let p := scalePlace e8 base (blockOf e8 k r c + 32 * sigma)
  let x := (v p.1 p.2.1).toNat
  if e8 then e8m0 (fld x (8 * p.2.2) 8) else s32scale x

/-- Last scale register a group reaches from base S with selector σ (R265). -/
def lastScale (e8 : Bool) (base sigma k : Nat) : Nat :=
  let last := (if e8 then 64 * (k / 32) else 2 * (k / 32)) - 1 + 32 * sigma
  if e8 then base + last / 128 else base + last / 32

/-- Products of element (i, j): rows of A and columns of B as values (R262). -/
def products (a b : List FVal) : List FVal := List.zipWith mulV a b

/-- A monitor after an addition, saturating (R373). -/
def saturate (m : W32) (n : Nat) : W32 := BitVec.ofNat 32 (min (m.toNat + n) (2 ^ 32 - 1))

/-- One step over a whole tile (R262, R371, R373): rows of A and columns of B as values. -/
def AccTile.step (x : AccTile) (prof : BitVec 32) (key : DrawKey) (a b : List (List FVal)) (k : Nat)
    (fl : List Flip) : AccTile :=
  let r := (upto 4096).foldl (fun (acc : FMap W32 × Nat × Nat) e =>
    let o := accumWith (fl.filter (fun f => f.index == e)) prof { key with element := e } x.counter (mget 0#32 x.elems e)
      (products (a.getD (e / 64) []) (b.getD (e % 64) []))
    (mset 0#32 acc.1 e o.val, acc.2.1 + o.lost, acc.2.2 + o.swamped)) (x.elems, 0, 0)
  { elems := r.1
    lost := if profSwe prof then saturate x.lost r.2.1 else x.lost
    swamped := if profSwe prof then saturate x.swamped r.2.2 else x.swamped
    counter := x.counter + BitVec.ofNat 64 (k / 2 ^ profLog prof) }

/-- The first check of a step that fails (R375, R376): its element and its reason; elements are taken in ascending
order (assumption log entry 68). -/
def AccTile.diverges (x : AccTile) (prof : BitVec 32) (key : DrawKey) (a b : List (List FVal)) (fl : List Flip) :
    Option (Nat × Nat) :=
  ((upto 4096).filter (fun e => fl.any (fun f => f.index == e))).findSome? (fun e =>
    let o := accumWith (fl.filter (fun f => f.index == e)) prof { key with element := e } x.counter (mget 0#32 x.elems e)
      (products (a.getD (e / 64) []) (b.getD (e % 64) []))
    if o.fail = 0 then none else some (e, o.fail))

end Sys2Proof.Machine
end

