-- ==== Sys2Proof/Machine/Engine.lean ====
section
/-! DEFINITION. What the copy, gather and collective engines share: the checks of a command's ranges, their
order on sectors and scratchpad lines (R192, R328, R329), one access at a time (R352), and completing. -/

namespace Sys2Proof.Machine

/-! ### Checked ranges of a command (R190) -/

/-- The outcome of checking one range of a command. -/
inductive PosChk where
  | held (miss : Option Nat)
  | bad (code addr : Nat)
  | ok (ps : List (Nat × Piece)) (bs : List Binding)
  deriving DecidableEq, Repr

/-- Pieces of checked device memory, from position `pos` and virtual address `va`. -/
def memPieces (pos va : Nat) : List (Nat × Nat × Nat) → List (Nat × Piece)
  | [] => []
  | p :: t => (pos, .mem p.1 p.2.1 p.2.2 va) :: memPieces (pos + p.2.1) (va + p.2.1) t

/-- Check a memory range, local or fabric (R164). -/
def State.checkMemPos (s : State) (bs : List Binding) (k : Access) (pos a n : Nat) : PosChk :=
  if bitAt a 71 then
    match s.checkFabric bs (BitVec.ofNat 72 a) n with
    | .bad c => .bad c (s.fabricFails a n)
    | _ => .ok [(pos, .fab (fld a 61 10) (fld a 0 61) n)] bs
  else match s.checkRange bs s.curWho k a n with
    | .held v => .held v
    | .bad c x => .bad c x
    | .ok ps bs' => .ok (memPieces pos a ps) bs'

/-- Check a scratchpad range of the cluster window (R173, R213, R322). -/
def State.checkSpadPos (s : State) (bs : List Binding) (pos a n : Nat) (write : Bool) : PosChk :=
  match s.checkWindow bs s.curTeam (BitVec.ofNat 72 a) 1 write with
  | .bad c => .bad c a
  | .held v => .held v
  | .ok _ _ => match s.checkWindow bs s.curTeam (BitVec.ofNat 72 (a + n - 1)) 1 write with
    | .ok (.spad t off) _ =>
      if fld a 23 9 = fld (a + n - 1) 23 9 then .ok [(pos, .spad t (off + 1 - n) n)] bs else .bad 3 a
    | .bad c => .bad c (a + n - 1)
    | _ => .held none

/-- Check ranges one after another; the lowest code at the lowest failing address. -/
def checkPos (f : List Binding → Nat × Nat × Nat → PosChk) :
    List (Nat × Nat × Nat) → List Binding → PosChk
  | [], bs => .ok [] bs
  | x :: t, bs =>
    match f bs x with
    | .held v => .held v
    | .bad c a => match checkPos f t bs with
      | .held v => .held v
      | .bad c' a' => .bad (min c c') (min a a')
      | .ok _ _ => .bad c a
    | .ok ps bs' => match checkPos f t bs' with
      | .ok ps' bs'' => .ok (ps ++ ps') bs''
      | o => o

/-- Whether a piece makes its command a commit point (R360, R478): a deferred page, or a destination
of width CLUSTER or wider or in the fabric. -/
def Piece.closes (dst : Bool) (p : Piece) : Bool :=
  match p with
  | .mem _ _ leaf _ => pteD leaf || (dst && decide (1 ≤ pteSw leaf))
  | .fab _ _ _ => dst
  | .spad _ _ _ => false

/-! ### Order -/

/-- A copy record by its identifier. -/
def State.copyRec (s : State) (t heat id : Nat) : CopyRec :=
  match s.heat? t heat with
  | none => {}
  | some h => h.copyRec id

/-- Whether a command issued before `id` has still to write a line (R192, R328). -/
def State.lineWriter (s : State) (id : Nat) (l : Nat × Nat) : Bool :=
  s.engines.any (fun c => decide (c.id < id) && c.lines.contains l) ||
    s.teams.any (fun e => e.2.body.heats.any (fun h => h.2.copies.any (fun r =>
      decide (r.id < id) && !s.engines.any (fun c => c.id == r.id) && (destLines r.dst).contains l)))

/-- Whether a command issued before `id` owns a sector of a range (R192). -/
def State.ownedBefore (s : State) (id pa n : Nat) : Bool := s.ownedBy (fun k => decide (k < id)) pa n

/-- Whether a line is absent for a command that reads it: another has still to write it, or it awaits restore
(R329). -/
def State.lineMissing (s : State) (c : EngCmd) (l : Nat × Nat) : Bool :=
  match s.team? l.1 with
  | none => false
  | some x => decide ((if c.lines.contains l then 1 else 0) < mget 0 x.absent l.2) || x.restoring.contains l.2

/-- Whether a command must wait before it reads a piece (R192, R329, R354). -/
def State.pieceWaits (s : State) (c : EngCmd) (p : Piece) : Bool :=
  match p with
  | .mem pa n _ _ => s.ownedBefore c.id pa n || s.orderedWait pa n
  | .fab _ _ _ => false
  | .spad t off n => (Piece.spad t off n).lines.any (s.lineMissing c)

/-- Whether a command must wait before it writes a sector (R192, R354). -/
def State.sectorWaits (s : State) (c : EngCmd) (k : Nat) : Bool :=
  s.ownedBefore c.id (1024 * k) 1024 || s.orderedWait (1024 * k) 1024

/-! ### Reading -/

/-- The bytes of a local source piece. -/
def State.pieceBytes (s : State) (p : Piece) : List Byte :=
  match p with
  | .mem pa n _ _ => readBytes s.mem pa n
  | .spad t off n => s.spadBytes t off n
  | .fab _ _ n => List.replicate n 0#8

/-- Positions of the bytes of a source piece that carry an uncorrectable error. -/
def State.pieceBad (s : State) (pos : Nat) (p : Piece) : List Nat :=
  match p with
  | .mem pa n _ _ => ((upto n).filter (fun i => s.unitBad ((pa + i) / 64))).map (pos + ·)
  | .spad t off n => ((upto n).filter (fun i => s.spadBad t (off + i) 1)).map (pos + ·)
  | .fab _ _ _ => []

/-- Frames of device memory in which a piece is found uncorrectable (R533). -/
def State.pieceFrames (s : State) (p : Piece) : List Nat :=
  match p with
  | .mem pa n _ _ => s.badFrames pa n
  | _ => []

/-- Replace an accepted command. -/
def State.putCmd (s : State) (c : EngCmd) : State :=
  { s with engines := s.engines.map (fun x => if x.id = c.id then c else x) }

/-- Kind of a forwarded engine read (R511). -/
def engineKind : Nat := 11

/-- Whether a command reads memory or the fabric. -/
def EngCmd.readsOut (c : EngCmd) : Bool := c.src.any (fun p => match p.2 with
  | .spad _ _ _ => false
  | _ => true)

/-- Whether a command belongs to a checker, which sends nothing to the fabric (R511). -/
def State.cmdMute (s : State) (c : EngCmd) : Bool := (s.team? c.team).any (fun x => x.checks.isSome)

/-- The engine has the whole source: it is put together, its fabric destination sent, and forwarded to a
checker. -/
def State.sourceDone (s : State) (c : EngCmd) : State :=
  let c := c.assemble
  let ps := if s.cmdMute c then [] else c.fabricOf c.dst true
  let b := c.buf.getD []
  let s := if c.readsOut then
      s.forward c.team { heat := c.heat, stride := c.stride, value := ofBytes b, kind := engineKind } b.length
    else s
  { s with fabric := s.fabric ++ ps }.putCmd { c with waiting := ps.length }

/-- The source that a checker's engine takes as it was forwarded (R511): none while it has not come. -/
def Team.forwardedSource (x : Team) (c : EngCmd) : Option (List Byte) :=
  (x.feed.find? (fun e => e.1 == c.lap && e.2.kind == engineKind && e.2.heat == c.heat &&
    e.2.stride == c.stride)).map (fun e => toBytes ((c.src.map (fun p => p.2.len)).foldl (· + ·) 0) e.2.value)

/-- Read the next part of a command's source, or put the parts together; none while it must wait (R352). -/
def State.readStep (s : State) (c : EngCmd) : Option State :=
  let copied := (s.team? c.team).bind (fun x => if x.checks.isSome && c.readsOut then some (x.forwardedSource c) else none)
  match copied with
  | some none => none
  | some (some b) => some (s.sourceDone { c with todo := [], parts := [(0, b)] })
  | none => match c.todo with
    | (pos, p) :: rest =>
      if s.pieceWaits c p then none
      else some ((s.candidates (s.pieceFrames p)).putCmd { c with
        todo := rest, parts := mput c.parts pos (s.pieceBytes p), bads := c.bads ++ s.pieceBad pos p })
    | [] => if c.waiting ≠ 0 then none else some (s.sourceDone c)

/-! ### Writing -/

/-- Change a team's scratchpad as a command does: a command of an earlier lap writes for good, one of
this lap until a rollback (R481). -/
def State.engineSpad (s : State) (c : EngCmd) (t : Nat) (f : TeamBody → TeamBody) : State :=
  s.modTeam t (fun x => if c.lap < x.lap.toNat then x.both f else { x with body := f x.body })

/-- Poison lines of a scratchpad. -/
def TeamBody.poisonLines (b : TeamBody) (ls : List Nat) : TeamBody :=
  { b with spadPoison := b.spadPoison.filter (fun l => !ls.contains l) ++ ls }

/-- One copy fewer is due on a line (R328). -/
def Team.lineDone (x : Team) (l : Nat) : Team := { x with absent := mset 0 x.absent l (mget 0 x.absent l - 1) }

/-- What a command writes in a granule of `g` bytes, given the destination ranges as (position, start, length):
(start, position, length). -/
def hitsOf (g k : Nat) (l : List (Nat × Nat × Nat)) : List (Nat × Nat × Nat) :=
  l.filterMap (fun d =>
    let r := clip g k d.2.1 d.2.2
    if r.1 < r.2 then some (r.1, d.1 + (r.1 - d.2.1), r.2 - r.1) else none)

/-- A command writes its bytes of one scratchpad line at once; a line that takes a byte with an uncorrectable
error is poisoned (R192, R193). -/
def State.writeLine (s : State) (c : EngCmd) (l : Nat × Nat) : State :=
  let hits := hitsOf 128 l.2 (c.dst.filterMap (fun p => match p.2 with
    | .spad t off n => if t = l.1 then some (p.1, off, n) else none
    | _ => none))
  let ws := hits.flatMap (fun h => c.pairs h.1 h.2.1 h.2.2)
  let bad := hits.any (fun h => c.badIn h.2.1 h.2.2)
  let now := match s.team? l.1 with
    | some x => decide (c.lap = x.lap.toNat)
    | none => false
  let s := s.engineSpad c l.1 (fun b =>
    let b := (if now then b.noteLines [128 * l.2] else b).writeSpad ws
    if bad then b.poisonLines [l.2] else b)
  (s.modTeam l.1 (fun x => x.lineDone l.2)).putCmd { c with lines := c.lines.erase l }

/-- A command writes its bytes of one memory sector at once, and owns it no longer: old bytes of TEAM pages are
kept for a command of this lap (R481), a sector that takes a byte with an uncorrectable error is poisoned (R193).
A checker's writes none (R511). -/
def State.writeSector (s : State) (c : EngCmd) (k : Nat) : State :=
  let mems := c.dst.filterMap (fun p => match p.2 with
    | .mem pa n leaf _ => some (p.1, pa, n, leaf)
    | _ => none)
  let hits := hitsOf 1024 k (mems.map (fun m => (m.1, m.2.1, m.2.2.1)))
  let ws := hits.flatMap (fun h => c.pairs h.1 h.2.1 h.2.2)
  let own := (hitsOf 1024 k ((mems.filter (fun m => pteSw m.2.2.2 == 0)).map (fun m => (m.1, m.2.1, m.2.2.1)))).flatMap
    (fun h => (upto h.2.2).map (h.1 + ·))
  let now := match s.team? c.team with
    | some x => decide (c.lap = x.lap.toNat)
    | none => false
  let s := s.putCmd { c with owned := c.owned.filter (· != k) }
  if s.cmdMute c then s
  else
    let s := (if now then s.noteUndo c.team own else s).perform ws
    let units := (upto 16).map (16 * k + ·)
    if hits.any (fun h => c.badIn h.2.1 h.2.2) then
      { s with poison := s.poison.filter (fun u => !units.contains u) ++ units }
    else s

/-- The next access of an engine for a command: a part of its source, then a line or a sector of its
destination, whichever need not wait (R192, R352). -/
def State.stepCmd (s : State) (c : EngCmd) : Option State :=
  if c.buf.isNone ∨ !c.todo.isEmpty then s.readStep c
  else match c.lines.find? (fun l => !s.lineWriter c.id l && !(match s.team? l.1 with
      | some x => x.restoring.contains l.2
      | none => false)) with
    | some l => some (s.writeLine c l)
    | none => (c.owned.find? (fun k => !s.sectorWaits c k)).map (s.writeSector c)

/-! ### Completion -/

/-- Room in a reply queue of a heat or its team; an entry for a heat that has ended is discarded (R211). -/
def State.queueRoom (s : State) (t heat q : Nat) : Bool :=
  match s.team? t with
  | none => true
  | some x =>
    if 8 ≤ q then decide ((mget [] x.body.queues q).length < Config.queueDepth)
    else match x.heat? heat with
      | some h => h.ended || decide ((h.queue q).length < Config.queueDepth)
      | none => true

/-- Whether the heat that a command belongs to has ended and another has its HEATID (R211, R401). -/
def State.stale (s : State) (t heat id : Nat) : Bool :=
  match s.heat? t heat with
  | none => false
  | some h => decide (id < h.born)

/-- The STRIDE at which an entry of a command has to be pushed in a replay, if it was pushed in the lap (R484). -/
def Team.entryDue (x : Team) (heat stride : Nat) : Option Delivery :=
  x.due.find? (fun d => d.own == some (heat, stride))

/-- Whether a replay has reached the STRIDE at which a command's entry was pushed. -/
def State.entryReached (s : State) (t heat stride : Nat) : Bool :=
  match s.team? t with
  | none => true
  | some x => match x.entryDue heat stride with
    | none => true
    | some d => decide (d.stride ≤ x.strideOf d.heat)

/-- An engine pushes a reply of a command (R193, R482): for good when the command is of an earlier lap, noted with
its command when it is of this lap. A reply to a queue of a heat whose HEATID another has taken is discarded. -/
def State.engineReply (s : State) (t heat lap id stride q : Nat) (e : QEntry) (shared : Bool) : State :=
  if q < 8 && s.stale t heat id then s
  else
    match (s.team? t).bind (fun x => x.entryDue heat stride) with
    | some d => (s.modTeam t (fun x => { x with
        due := x.due.erase d, body := x.body.take heat s.stamp (.entry q e) })).settleHeat t heat
    | none => s.receive t heat lap (.entry q e) (some (heat, stride)) shared

/-- A command is complete (R193): it leaves its engine, and its heat's deferred arrivals rise. -/
def State.completeCmd (s : State) (c : EngCmd) : State :=
  let s := { s with engines := s.engines.filter (fun x => x.id != c.id) }
  ((s.receive c.team c.heat c.lap (.forget c.id) none false).count c.core 10 1).tick

/-- Push the replies that fit; the command completes with the last one. -/
def State.replyCmd (s : State) (c : EngCmd) : State :=
  match c.outs with
  | [] => s.completeCmd c
  | (q, e) :: t =>
    if !s.queueRoom c.team c.heat q ∨ !s.entryReached c.team c.heat c.stride then s.putCmd c
    else
      let s := (s.engineReply c.team c.heat c.lap c.id c.stride q { e with id := s.stamp } false).tick
      let c := { c with outs := t }
      match t with
      | [] => s.completeCmd c
      | (q', e') :: t' =>
        if !s.queueRoom c.team c.heat q' then s.putCmd c
        else
          let s := (s.engineReply c.team c.heat c.lap c.id c.stride q' { e' with id := s.stamp } false).tick
          let c := { c with outs := t' }
          if t'.isEmpty then s.completeCmd c else s.putCmd c

/-- The completion word of a copy or scatter (R193). -/
def completionWord (status opc tag : Nat) : QEntry :=
  let w := BitVec.ofNat 64 (status * 2 ^ 20 + opc * 2 ^ 16 + tag)
  { vals := (upto 32).map (fun l => (l, w)), mask := 0xFFFFFFFF#32 }

/-! ### Acceptance -/

/-- The heats of a core with something for an engine, as (HEATID, team). -/
def State.engineHeats (s : State) (c : Nat) (ready : Heat → Bool) : List (Nat × Nat) :=
  (s.residents c).foldl (fun acc t => match s.team? t with
    | none => acc
    | some x => acc ++ (x.body.heats.filter (fun e => ready e.2)).map (fun e => (e.1, t))) []

/-- Rotation key of a heat of a core. -/
def turnKey (x : Nat × Nat) : Nat := x.1 * 2 ^ 64 + x.2

/-- The heat served next: rotation by ascending HEATID (R192). -/
def nextServed (l : List (Nat × Nat)) (last : Nat × Nat) : Option (Nat × Nat) :=
  let best := fun (l : List (Nat × Nat)) => l.foldl (fun (b : Option (Nat × Nat)) x => match b with
    | none => some x
    | some y => if turnKey x < turnKey y then some x else some y) none
  match best (l.filter (fun x => decide (turnKey last < turnKey x))) with
  | some x => some x
  | none => best l

/-- The engine has accepted a command of a heat: its entries leave the queue, also in the lap-start image, and it
holds the sectors itself (R192, R194); the stop image keeps a command of its own lap, to be done again. -/
def Heat.accepted (h : Heat) (q : Nat) (ids : List Nat) : Heat :=
  { h with
    queues := mset [] h.queues q ((h.queue q).filter (fun e => !ids.contains e.id))
    gseq := if q = 2 then h.gseq.filter (fun e => !ids.contains e.id) else h.gseq
    copies := h.copies.map (fun (r : CopyRec) => if ids.contains r.id then { r with owned := [] } else r) }

/-- An engine accepts a command whose entries stand in queue q; the fabric parts of its source are sent. -/
def State.accept (s : State) (q : Nat) (ids : List Nat) (c : EngCmd) : State :=
  let ps := if s.cmdMute c then [] else c.fabricOf c.src false
  let s := s.engineSpad c c.team (fun b => b.modHeat c.heat (fun h => h.accepted q ids))
  { s with engines := s.engines ++ [{ c with waiting := ps.length }], fabric := s.fabric ++ ps }

/-- Push engine commands of the current word: entries into queue q, the record of the command, and its
lines absent (R192). -/
def State.pushEngine (s : State) (h : Heat) (q : Nat) (es : List QEntry) (r : CopyRec) : State :=
  let s1 := (destLines r.dst).foldl (fun s l => s.modTeam l.1 (fun x =>
    { x with absent := mset 0 x.absent l.2 (mget 0 x.absent l.2 + 1) })) s
  s1.finish { h with
    queues := mset [] h.queues q (h.queue q ++ es), copies := h.copies ++ [r] }

/-- A queue entry pushed by the current word. -/
def State.entry (s : State) (h : Heat) (vals : FMap W64) (mask : Mask) : QEntry :=
  { vals := vals, mask := mask, heat := s.curHeatId, stride := h.stride.toNat, id := s.stamp
    lap := s.curLap }

/-- The record of a command pushed by the current word. -/
def State.newRec (s : State) (src dst : List (Nat × Piece)) : CopyRec :=
  { id := s.stamp, mask := s.cur.active, hdr := s.cur.hdr, idx := s.cur.idx, word := s.cur.word
    owned := destSectors dst, src := src, dst := dst }

/-- The digest records of an engine command of a sampled team or its checker (R512): its destination, with the
command as data. -/
def State.noteCommand (s : State) (r : CopyRec) (es : List QEntry) : State :=
  match s.curTeam with
  | none => s
  | some t =>
    let v := es.foldl (fun n e => e.vals.foldl (fun n x => n * 2 ^ 64 + x.2.toNat) n) 0
    r.dst.foldl (fun s p => match p.2 with
      | .mem _ n _ va => s.noteDigest t 256 4 va n v
      | .fab dev off n => s.noteDigest t 256 4 (2 ^ 71 + dev * 2 ^ 61 + off) n v
      | .spad _ _ _ => s) s

/-- Push a command, as a commit point when `closes` (R360, R478). -/
def pushCommand (s : State) (h : Heat) (q : Nat) (closes : Bool) (es : Heat → State → List QEntry)
    (r : State → CopyRec) : Out :=
  let push := fun (s : State) h => (s.noteCommand (r s) (es h s)).pushEngine h q (es h s) (r s)
  if closes then commitPoint s h (fun s h => .next (push s h).endLap)
  else .next (push s h)

end Sys2Proof.Machine
end

