-- ==== Sys2Proof/Machine/Record.lean ====
section
/-! DEFINITION. Launch records: their fields (R388), the starter's checks (R389), and the creation of a
grid (R384, R392, R399). -/

namespace Sys2Proof.Machine

/-- A launch record from its 128 bytes, defaults filled in (R388). -/
def parseRecord (b : List Byte) : Record :=
  let w (i : Nat) : Nat := ofBytes ((b.drop (8 * i)).take 8)
  let def_ (x d : Nat) : Nat := if x = 0 then d else x
  let noRoles := w 5 % 2 ^ 51 == 0
  let noPool := fld (w 7) 0 24 == 0
  { entry := w 0
    eepi := fld (w 1) 48 16, ecmp := fld (w 1) 32 16, ecpy := fld (w 1) 16 16, ment := fld (w 1) 0 16
    pval := bitAt (w 2) 62, pophi := fld (w 2) 55 7, poplo := fld (w 2) 48 7
    queue := fld (w 2) 40 6, det := bitAt (w 2) 37, pop := bitAt (w 2) 36
    res := fld (w 2) 34 2, csize := fld (w 2) 32 2, teams := fld (w 2) 0 32
    seed := BitVec.ofNat 64 (w 3)
    tdaddr := fld (w 4) 16 48 * 65536, tdcnt := fld (w 4) 0 13
    order := fld (w 5) 48 3
    bepi := fld (w 5) 40 8, hepi := fld (w 5) 32 8
    bcmp := if noRoles then 32 else fld (w 5) 24 8, hcmp := if noRoles then 16 else fld (w 5) 16 8
    bcpy := fld (w 5) 8 8, hcpy := fld (w 5) 0 8
    done := w 6, acct := fld (w 7) 40 9
    bint := def_ (fld (w 7) 32 8) 16, swapt := def_ (fld (w 7) 24 8) 20
    poolcb := if noPool then 128 else fld (w 7) 16 8
    poolsb := if noPool then 112 else fld (w 7) 8 8
    poolrb := if noPool then 32 else fld (w 7) 0 8
    args := (upto 8).map (fun i => BitVec.ofNat 64 (w (8 + i)))
    reservedBad := bitAt (w 2) 63 || fld (w 2) 46 2 != 0 || fld (w 2) 38 2 != 0 ||
      fld (w 4) 13 3 != 0 || fld (w 5) 51 13 != 0 || fld (w 7) 49 15 != 0 }

/-- Cluster size n. -/
def Record.n (r : Record) : Nat := 2 ^ r.csize

/-- Residency m. -/
def Record.m (r : Record) : Nat := 2 ^ r.res

/-- Granules of a team's scratchpad share (R320). -/
def Record.granules (r : Record) : Nat := (r.poolsb - r.poolrb) / r.m

/-- Heats of a team. -/
def Record.heats (r : Record) : Nat := r.hcpy + r.hcmp + r.hepi

/-- Roles in HEATID order: 0 copy, 1 compute, 2 epilogue (R388). -/
def Record.roleOrder (r : Record) : List Nat :=
  match r.order with
  | 0 => [0, 1, 2]
  | 1 => [0, 2, 1]
  | 2 => [1, 0, 2]
  | 3 => [1, 2, 0]
  | 4 => [2, 0, 1]
  | _ => [2, 1, 0]

/-- Heats of a role. -/
def Record.roleHeats (r : Record) (role : Nat) : Nat :=
  match role with
  | 0 => r.hcpy
  | 1 => r.hcmp
  | _ => r.hepi

/-- The first HEATID of a role. -/
def Record.firstHeat (r : Record) (role : Nat) : Nat :=
  ((r.roleOrder.takeWhile (· != role)).map r.roleHeats).foldl (· + ·) 0

/-- Bytes of a team's rows (R75, R311). -/
def Record.rowBytes (r : Record) : Nat :=
  128 * (r.hcpy * r.bcpy + r.hcmp * r.bcmp + r.hepi * r.bepi)

/-- The pool boundaries keep the limits of R59, and the scratchpad is not under 8 KiB (R213, R320). -/
def poolOk (rb sb cb : Nat) : Bool :=
  rb % 2 == 0 && decide (rb ≤ 32) && decide (rb < sb) && decide (sb - rb ≤ 96) && decide (sb ≤ cb) &&
    decide (cb - sb ≤ 16) && decide (cb ≤ 144) && decide (32 ≤ cb)

/-- A role's heats and budget agree (check 4 of R389). -/
def roleOk (h b : Nat) : Bool :=
  if h = 0 then b == 0 else b % 8 == 0 && decide (8 ≤ b ∧ b ≤ 128)

/-- Smallest budget of a role with heats. -/
def Record.minBudget (r : Record) : Nat :=
  ([(r.hcpy, r.bcpy), (r.hcmp, r.bcmp), (r.hepi, r.bepi)].filter (fun e => decide (0 < e.1))).foldl
    (fun m e => min m e.2) 128

/-- The check code of a record under checks 1 to 9 of R389; 0 passes. -/
def Record.code (r : Record) : Nat :=
  if r.entry = 0 ∨ r.entry % 4 ≠ 0 then 1
  else if r.teams = 0 ∨ (r.csize < 3 ∧ r.teams % r.n ≠ 0) then 2
  else if r.reservedBad ∨ r.csize = 3 ∨ r.res = 3 ∨ 6 ≤ r.order then 3
  else if !(roleOk r.hcpy r.bcpy && roleOk r.hcmp r.bcmp && roleOk r.hepi r.bepi) ∨ 16 < r.heats ∨
      r.poolrb / 2 * 65536 < r.rowBytes then 4
  else if !poolOk r.poolrb r.poolsb r.poolcb ∨ r.granules = 0 then 5
  else if (r.pop ∧ 2 ^ 24 < r.teams * r.heats * 32) ∨
      (r.pop ∧ r.pval ∧ (r.pophi < r.poplo ∨ r.minBudget ≤ r.pophi)) ∨
      (!r.pval ∧ (r.poplo ≠ 0 ∨ r.pophi ≠ 0)) ∨ (!r.pop ∧ r.pval) then 6
  else if 4096 < r.tdcnt ∨ (r.tdcnt ≠ 0 ∧ r.tdaddr = 0) then 7
  else if r.done % 8 ≠ 0 then 8
  else if 256 < r.acct * r.m then 9
  else 0

/-- The GRIDID the starter gives next (R384): never 0xFFFF_FFFF. -/
def State.nextGrid (s : State) : W32 :=
  if s.lastGrid + 1#32 = 0xFFFFFFFF#32 then 0#32 else s.lastGrid + 1#32

/-- Whether a grid queue is full (R392). -/
def State.queueFull (s : State) (q : Nat) : Bool :=
  decide (Config.gridQueueDepth ≤ (mget [] s.gridQueues q).length)

/-- Create a grid in its queue; fetch will see the memory of this moment (R55, R384, R392). -/
def State.createGrid (s : State) (r : Record) (asid : Nat) (tag : Option W32) (wa wv : Nat) : State :=
  let id := s.nextGrid
  let g : Grid := {
    record := r, asid := asid, tag := tag, waitAddr := wa, waitVal := wv, code := s.mem, accepted := s.stamp }
  { s with
    lastGrid := id
    grids := mput s.grids id.toNat g
    gridQueues := mset [] s.gridQueues r.queue (mget [] s.gridQueues r.queue ++ [id.toNat]) }

/-- Whether the starter may read a dependence counter (R389, R393): a valid translation, read permission,
width DEVICE or wider; a page being migrated is waited for. -/
def State.waitReadable (s : State) (asid a : Nat) : Bool :=
  match s.translate asid a with
  | .page _ size leaf =>
    pteR leaf && decide (2 ≤ pteSw leaf) && (pteMig leaf == 1 || !s.bytesBad (pageAddr leaf size a) 8)
  | _ => false

/-- A waiting head grid whose counter can no longer be read is removed with status 3 (R393). -/
def State.dropUnreadable (s : State) : State :=
  s.heads.foldl (fun s h => match mfind s.grids h with
    | none => s
    | some g =>
      if g.waitAddr = 0 ∨ g.met ∨ g.nextTeam ≠ 0 ∨ s.waitReadable g.asid g.waitAddr then s
      else ({ s with
        grids := mdel s.grids h
        gridQueues := mset [] s.gridQueues g.record.queue
          ((mget [] s.gridQueues g.record.queue).filter (· != h)) }).gridComplete h g 3) s

/-- A lane value of a pending result arrives from outside the core: a GRIDID or a relay result; it goes
to the live heat and to its lap-start image (R171, R482). -/
def State.deliver (s : State) (t heat stamp lane v : Nat) : State :=
  s.modHeatBoth t heat (fun h => { h with slots := h.slots.map (fun x =>
    if x.stamp = stamp ∧ x.waiting ≠ 0 then
      { x with vals := mput x.vals lane v, waiting := x.waiting - 1 }
    else x) })

end Sys2Proof.Machine
end

