-- ==== Sys2Proof/Machine/Matrix.lean ====
section
/-! DEFINITION. The matrix stream (R248–R276): the words of the team sequencer. Their later effects are
the events of MatrixEvents.lean. -/

namespace Sys2Proof.Machine

/-! ### Issued words -/

/-- Accumulator tiles an issued word names (R266, R272). -/
def SeqOpKind.tiles (k : SeqOpKind) : List Nat :=
  match k with
  | .tileLoad _ _ => []
  | .zacc tile n => (upto n).map (tile + ·)
  | .accLoad tile => [tile]
  | .accStore tile => [tile]
  | .axpy tile _ _ => [tile]
  | .red tile => [tile]
  | .drain tile _ _ => [tile]
  | .mma _ _ _ tile _ _ _ _ _ _ _ _ => [tile]

/-- Whether a word is an MMA or MMAS. -/
def SeqOpKind.isMma (k : SeqOpKind) : Bool :=
  match k with
  | .mma _ _ _ _ _ _ _ _ _ _ _ _ => true
  | _ => false

/-- Whether an MMA or MMAS has started its last step. -/
def SeqOpKind.allStarted (k : SeqOpKind) : Bool :=
  match k with
  | .mma _ _ _ _ _ _ _ steps step _ _ _ => decide (steps ≤ step)
  | _ => false

/-- Tile registers that the pending MMAs still read, oldest first, given the register the keep latch
holds (R264): (stamp, the registers from the next step on). -/
def mmaReads (latch : Option Nat) : List SeqOp → List (Nat × List Nat)
  | [] => []
  | o :: t => match o.kind with
    | .mma _ ta keep _ _ _ _ steps step _ _ _ =>
      if steps ≤ step then mmaReads latch t
      else if steps = 1 then
        (o.stamp, if latch = some ta then [] else [ta]) :: mmaReads (if keep then some ta else none) t
      else (o.stamp, (upto (steps - step)).map (ta + step + ·)) :: mmaReads none t
    | _ => mmaReads latch t

/-- `mmaReads` of a sequencer. -/
def Seq.reads (q : Seq) : List (Nat × List Nat) := mmaReads (q.latch.map Prod.fst) q.ops

/-- Words issued before the one with this stamp. -/
def Seq.before (q : Seq) (stamp : Nat) : List SeqOp := q.ops.takeWhile (fun o => o.stamp != stamp)

/-- Whether earlier words that name one of its tiles are out of a word's way: an MMA may follow another
that has started its last step, any other word waits for completion (R272). -/
def Seq.tilesFree (q : Seq) (o : SeqOp) : Bool :=
  (q.before o.stamp).all (fun p =>
    !(p.kind.tiles.any (fun t => o.kind.tiles.contains t)) || (o.kind.isMma && p.kind.allStarted))

/-- Whether every A tile that a word still reads has landed; an operand may come from the keep latch (R264, R272,
R273). -/
def Seq.landed (q : Seq) (o : SeqOp) : Bool :=
  match q.reads.find? (fun r => r.1 == o.stamp) with
  | some (_, rs) => (q.before o.stamp).all (fun p => match p.kind with
      | .tileLoad t _ => !rs.contains t
      | _ => true)
  | none => true

/-- Whether an issued word may act on its tiles: earlier words are out of its way, and none of its tiles awaits
restore (R272, R407). -/
def Team.tilesReady (x : Team) (o : SeqOp) : Bool :=
  x.body.seq.tilesFree o && !o.kind.tiles.any (fun t => x.restoringTiles.contains t)

/-- Whether a word is ready for the engine: its A tiles and every line of its next B range are present
(R273). -/
def State.mmaReady (s : State) (q : Seq) (o : SeqOp) : Bool :=
  match o.kind with
  | .mma f _ _ _ _ bt bo steps step _ _ _ =>
    decide (step < steps) && q.landed o && !s.rangeAbsent bt (bo + step * f.bBytes) f.bBytes
  | _ => false

/-- Note the moment at which words of a team become ready (R273). -/
def State.markReady (s : State) (t : Nat) : State :=
  s.modSeq t (fun q => { q with ops := q.ops.map (fun (o : SeqOp) =>
    if o.readyAt = none ∧ s.mmaReady q o then { o with readyAt := some s.stamp } else o) })

/-! ### Issue of a sequencer word -/

/-- A word of the team sequencer. -/
def seqWord (s : State) (f : Nat → Team → Seq → Out) : Out :=
  match s.cur.who with
  | .seq t => match s.team? t with
    | some x => f t x x.body.seq
    | none => .fault .noIssuer
  | _ => .fault .noIssuer

/-- A word that writes a sequencer register (R251). -/
def seqMove (s : State) (d : Nat) (g : Seq → W64) : Out :=
  seqWord s (fun _ _ q => .next (s.finishSeq (q.setM d (g q))))

/-- End the issue of a word, as a commit point when `closes` (R359, R360, R478). -/
def seqCommit (s : State) (t : Nat) (q : Seq) (closes : Bool) (k : State → Seq → Out) : Out :=
  if !closes then k s q
  else if s.commitHeld t then .next (s.holdSeq q .none)
  else
    let s1 := s.flush t
    match s1.curSeq? with
    | none => .fault .noIssuer
    | some q1 => match k s1 q1 with
      | .next s2 => .next s2.endLap
      | o => o

/-- Put a word among the issued ones and go on. -/
def State.issueOp (s : State) (t : Nat) (q : Seq) (kind : SeqOpKind) (places : List (Nat × Piece))
    (addr : Nat) : State :=
  (s.finishSeq { q with ops := q.ops ++ [{
    stamp := s.stamp, kind := kind, hdr := s.cur.hdr, idx := s.cur.idx, word := s.cur.word
    count := q.count.toNat, places := places, addr := addr, lap := s.curLap }] }).markReady t

/-- A word that names accumulator tiles: every tile lies in the allocation (reason 1 of R275), none
awaits restore (R407). -/
def tileWord (s : State) (x : Team) (q : Seq) (tiles : List Nat) (k : Out) : Out :=
  if tiles.any (fun n => decide (x.accCount ≤ n)) then .next (s.raise 0x0B 1)
  else if tiles.any (fun n => x.restoringTiles.contains n) then .next (s.holdSeq q .none)
  else k

/-- The sequencer holds while a check is not complete (R165): a miss waits for a walk. -/
def State.holdSeqCheck (s : State) (q : Seq) (miss : Option Nat) : State :=
  (match miss with
    | some va => s.openWalk s.curWho va
    | none => s).holdSeq q .none

/-- The address check of a word, code 1 for a misaligned address (R275). -/
def seqCheck (s : State) (q : Seq) (a size : Nat) (chk : PosChk)
    (k : State → List (Nat × Piece) → Out) : Out :=
  if a % size ≠ 0 then .next (s.raiseAddr [(0, 1, BitVec.ofNat 72 a)])
  else match chk with
    | .held v => .next (s.holdSeqCheck q v)
    | .bad c a => .next (s.raiseAddr [(0, c, BitVec.ofNat 72 a)])
    | .ok ps bs => k { s with bindings := bs } ps

/-- Whether a scratchpad part lies on an absent line. -/
def State.placesAbsent (s : State) (ps : List (Nat × Piece)) : Bool :=
  ps.any (fun p => match p.2 with
    | .spad t off n => s.rangeAbsent t off n
    | _ => false)

/-- Park on an absent line (R256, R329, R330), counting a park begun. -/
def State.parkPresence (s : State) (q : Seq) (ps : List (Nat × Piece)) : State :=
  ((ps.foldl (fun (s : State) p => match p.2 with
    | .spad t off n => s.wantRange t off n
    | _ => s) s).holdSeq q .retryPresence).count s.cur.core 8 (if q.park = .retryPresence then 0 else 1)

/-- The place of a memory or cluster-window operand of `n` bytes. -/
def State.spacePos (s : State) (win : Bool) (k : Access) (pos a n : Nat) : PosChk :=
  if win then s.checkSpadPos s.bindings pos a n (k == .write)
  else s.checkMemPos s.bindings k pos a n

/-- A sequencer load of `n` bytes, aligned to `size`: it waits for an absent line, and a deferred page
makes it a commit point (R256, R360). -/
def seqLoad (s : State) (t : Nat) (q : Seq) (win : Bool) (a n size : Nat) (kind : SeqOpKind) : Out :=
  seqCheck s q a size (s.spacePos win .read 0 a n) (fun s ps =>
    if s.placesAbsent ps then .next (s.parkPresence q ps)
    else seqCommit s t q (ps.any (fun p => p.2.closes false)) (fun s q => .next (s.issueOp t q kind ps a)))

/-- A sequencer store of an accumulator tile over checked places; a page of width CLUSTER or wider, or
a deferred one, makes it a commit point (R267, R269, R478). Its digest record holds the word in place of the data
that it will write (R512; assumption log entry 9). -/
def seqStore (s : State) (t : Nat) (q : Seq) (a size : Nat) (chk : PosChk) (kind : SeqOpKind) : Out :=
  seqCheck s q a size chk (fun s ps =>
    seqCommit s t q (ps.any (fun p => p.2.closes true)) (fun s q =>
      .next ((if ps.any (fun p => !p.2.lines.isEmpty) then s
        else s.noteDigest t 255 5 a size s.cur.word.toNat).issueOp t q kind ps a)))

/-! ### Tile loads (R256, R257) -/

/-- TLD and TLDT (R256): 4,096 bytes into t(TA); held while a pending MMA step reads t(TA) (R272). -/
def tileLoad (ta : BitVec 4) (b : BitVec 4) (win : Bool) (w : Nat) (s : State) : Out :=
  seqWord s (fun t _ q =>
    if q.reads.any (fun r => r.2.contains ta.toNat) then .next (s.holdSeq q .none)
    else seqLoad s t q win (q.mr b.toNat).toNat 4096 64 (.tileLoad ta.toNat w))

/-- TLD (R256): load a tile register from memory or the cluster window. -/
def execTld (t b : BitVec 4) (m : BitVec 1) (s : State) : Out :=
  tileLoad t b (m == 1#1) 0 s

/-- TLDT (R256, R257): load a tile register transposed, for elements of 8, 16 or 4 bits. -/
def execTldt (t b : BitVec 4) (m : BitVec 3) (s : State) : Out :=
  match m.toNat / 2 with
  | 0 => tileLoad t b (m.getLsbD 0) 8 s
  | 1 => tileLoad t b (m.getLsbD 0) 16 s
  | 2 => tileLoad t b (m.getLsbD 0) 4 s
  | _ => seqWord s (fun _ _ _ => .next (s.raise 2 0))

/-! ### MMA and MMAS (R260–R265) -/

/-- A field of MMA words that must not go past t15 nor combine KEEP with several steps (R263). -/
def mmaOk (ta k m : Nat) : Bool := decide (ta + m ≤ 15) && (k == 0 || m == 0)

/-- Whether a scale descriptor is wrong (reason 4 of R275). -/
def descBad (x : Team) (f : MmaForm) (d : W64) (sigma : Nat) : Bool :=
  let n := d.toNat
  let e8 := !bitAt n 31
  fld n 32 32 != 0 || fld n 23 8 != 0 || bitAt n 15 || fld n 4 4 != 0 ||
    match x.heat? (fld n 0 4) with
    | none => true
    | some h => h.ended || decide (h.budget ≤ lastScale e8 (fld n 16 7) sigma f.k) ||
        decide (h.budget ≤ lastScale e8 (fld n 8 7) sigma f.k)

/-- The issue of an MMA or MMAS of `steps` steps (R260–R265): it waits while two are pending (R250),
then its checks run in the order of R275. -/
def mmaWord (f : MmaForm) (ta : BitVec 4) (k : BitVec 1) (c : BitVec 8) (r : BitVec 3) (b : BitVec 4)
    (steps sigma : Nat) (s : State) : Out :=
  seqWord s (fun t x q =>
    let prof := q.profile r.toNat
    let desc := if f.scaled then q.mr (b.toNat + 1) else 0#64
    let base := (q.mr b.toNat).toNat
    if 2 ≤ (q.ops.filter (fun o => o.kind.isMma)).length then .next (s.holdSeq q .none)
    else if f.k % 2 ^ profLog prof ≠ 0 then .next (s.raise 0x0A 2)
    else tileWord s x q [c.toNat] (
      if f.scaled && descBad x f desc sigma then .next (s.raise 0x0B 4)
      else seqCheck s q base 1024 (s.checkSpadPos s.bindings 0 base (steps * f.bBytes) false)
        (fun s ps => match ps with
          | (_, .spad bt bo _) :: _ => .next (s.issueOp t q (.mma f ta.toNat (k == 1#1) c.toNat prof bt bo
              steps 0 desc sigma false) [] base)
          | _ => .next (s.holdSeq q .none))))

/-- An MMA word: MOD + 1 steps. -/
def mma (af bf : Nat) (ta : BitVec 4) (k : BitVec 1) (c : BitVec 8) (r : BitVec 3) (b : BitVec 4)
    (m : BitVec 3) (s : State) : Out :=
  if mmaOk ta.toNat k.toNat m.toNat then
    mmaWord { afmt := af, bfmt := bf } ta k c r b (m.toNat + 1) 0 s
  else seqWord s (fun _ _ _ => .next (s.raise 2 0))

/-- An MMAS word: one step with scale selector σ; the scale descriptor is m(BS + 1). -/
def mmas (af : Nat) (ta : BitVec 4) (k : BitVec 1) (c : BitVec 8) (r : BitVec 3) (b : BitVec 4)
    (sg : BitVec 3) (s : State) : Out :=
  if b = 15#4 then seqWord s (fun _ _ _ => .next (s.raise 2 0))
  else mmaWord { afmt := af, bfmt := af, scaled := true } ta k c r b 1 sg.toNat s

/-- MMA_E4M3_E4M3 (R260). -/
def execMmaE4m3E4m3 (t : BitVec 4) (k : BitVec 1) (c : BitVec 8) (r : BitVec 3) (b : BitVec 4)
    (m : BitVec 3) (s : State) : Out := mma 0 0 t k c r b m s

/-- MMA_E4M3_E5M2 (R260). -/
def execMmaE4m3E5m2 (t : BitVec 4) (k : BitVec 1) (c : BitVec 8) (r : BitVec 3) (b : BitVec 4)
    (m : BitVec 3) (s : State) : Out := mma 0 1 t k c r b m s

/-- MMA_E5M2_E4M3 (R260). -/
def execMmaE5m2E4m3 (t : BitVec 4) (k : BitVec 1) (c : BitVec 8) (r : BitVec 3) (b : BitVec 4)
    (m : BitVec 3) (s : State) : Out := mma 1 0 t k c r b m s

/-- MMA_E5M2_E5M2 (R260). -/
def execMmaE5m2E5m2 (t : BitVec 4) (k : BitVec 1) (c : BitVec 8) (r : BitVec 3) (b : BitVec 4)
    (m : BitVec 3) (s : State) : Out := mma 1 1 t k c r b m s

/-- MMA_E2M1_E2M1 (R260). -/
def execMmaE2m1E2m1 (t : BitVec 4) (k : BitVec 1) (c : BitVec 8) (r : BitVec 3) (b : BitVec 4)
    (m : BitVec 3) (s : State) : Out := mma 2 2 t k c r b m s

/-- MMA_E4M3_E2M1 (R260). -/
def execMmaE4m3E2m1 (t : BitVec 4) (k : BitVec 1) (c : BitVec 8) (r : BitVec 3) (b : BitVec 4)
    (m : BitVec 3) (s : State) : Out := mma 0 2 t k c r b m s

/-- MMA_BF16_BF16 (R260). -/
def execMmaBf16Bf16 (t : BitVec 4) (k : BitVec 1) (c : BitVec 8) (r : BitVec 3) (b : BitVec 4)
    (m : BitVec 3) (s : State) : Out := mma 3 3 t k c r b m s

/-- MMAS_E4M3_E4M3 (R260, R265). -/
def execMmasE4m3E4m3 (t : BitVec 4) (k : BitVec 1) (c : BitVec 8) (r : BitVec 3) (b : BitVec 4)
    (sg : BitVec 3) (s : State) : Out := mmas 0 t k c r b sg s

/-- MMAS_E5M2_E5M2 (R260, R265). -/
def execMmasE5m2E5m2 (t : BitVec 4) (k : BitVec 1) (c : BitVec 8) (r : BitVec 3) (b : BitVec 4)
    (sg : BitVec 3) (s : State) : Out := mmas 1 t k c r b sg s

/-- MMAS_E2M1_E2M1 (R260, R265). -/
def execMmasE2m1E2m1 (t : BitVec 4) (k : BitVec 1) (c : BitVec 8) (r : BitVec 3) (b : BitVec 4)
    (sg : BitVec 3) (s : State) : Out := mmas 2 t k c r b sg s

/-! ### Accumulator tiles (R266–R271) -/

/-- ZACC (R267): tiles ACC to ACC + MOD become +0. -/
def execZacc (c : BitVec 8) (m : BitVec 3) (s : State) : Out :=
  seqWord s (fun t x q => tileWord s x q ((upto (m.toNat + 1)).map (c.toNat + ·))
    (.next (s.issueOp t q (.zacc c.toNat (m.toNat + 1)) [] 0)))

/-- ACCLD (R267): load a tile. -/
def execAccld (c : BitVec 8) (b : BitVec 4) (m : BitVec 1) (s : State) : Out :=
  seqWord s (fun t x q => tileWord s x q [c.toNat]
    (seqLoad s t q (m == 1#1) (q.mr b.toNat).toNat 16384 256 (.accLoad c.toNat)))

/-- ACCST (R267): store a tile. -/
def execAccst (c : BitVec 8) (b : BitVec 4) (m : BitVec 1) (s : State) : Out :=
  seqWord s (fun t x q => tileWord s x q [c.toNat]
    (let a := (q.mr b.toNat).toNat
     seqStore s t q a 256 (s.spacePos (m == 1#1) .write 0 a 16384) (.accStore c.toNat)))

/-- The heat a DRAIN names: an epilogue heat that has not ended (reason 2 of R275). -/
def drainTarget (s : State) (x : Team) (e : Nat) : Option Nat :=
  match s.gridOf x with
  | none => none
  | some g =>
    let h := g.record.firstHeat 2 + e
    match x.heat? h with
    | none => none
    | some y => if e < g.record.hepi ∧ !y.ended ∧ y.role = 2 then some h else none

/-- DRAIN (R268): the tile's rows go to an epilogue heat's q7. -/
def execDrain (c : BitVec 8) (e : BitVec 3) (s : State) : Out :=
  seqWord s (fun t x q => tileWord s x q [c.toNat] (match drainTarget s x e.toNat with
    | none => .next (s.raise 0x0B 2)
    | some h => .next (s.issueOp t q (.drain c.toNat h 0) [] 0)))

/-- The rows of a strided drain as (position, address, bytes). -/
def drainRows (a stride size : Nat) : List (Nat × Nat × Nat) :=
  (upto 64).map (fun i => (64 * size * i, a + i * stride, 64 * size))

/-- A strided drain (R269, R270): row stride in m(BS + 1)[63:32]. -/
def drainWord (c : BitVec 8) (b : BitVec 4) (size : Nat) (bad : W64 → Bool) (kind : W64 → SeqOpKind)
    (s : State) : Out :=
  if b = 15#4 then seqWord s (fun _ _ _ => .next (s.raise 2 0))
  else seqWord s (fun t x q => tileWord s x q [c.toNat]
    (let a := (q.mr b.toNat).toNat
     let w := q.mr (b.toNat + 1)
     let stride := w.toNat / 2 ^ 32
     if stride % size ≠ 0 ∨ bad w then .next (s.raise 0x0B 3)
     else seqStore s t q a size
       (checkPos (fun bs r => s.checkMemPos bs .write r.1 r.2.1 r.2.2) (drainRows a stride size)
         s.bindings) (kind w)))

/-- DRAIN_AXPY (R269): W ← W + α·G in memory, one rounding for each element. -/
def execDrainAxpy (c : BitVec 8) (b : BitVec 4) (m : BitVec 1) (s : State) : Out :=
  drainWord c b (if m = 1#1 then 2 else 4) (fun _ => false)
    (fun w => .axpy c.toNat (w.setWidth 32) (m == 1#1)) s

/-- DRAIN_RED (R270): W ← W + G in memory; a nonzero α field is reason 3 of R275. -/
def execDrainRed (c : BitVec 8) (b : BitVec 4) (s : State) : Out :=
  drainWord c b 4 (fun w => fld w.toNat 0 32 != 0) (fun _ => .red c.toNat) s

/-! ### Profiles, monitors and registers -/

/-- SETSP (R259): install a summation profile word. -/
def execSetsp (p : BitVec 3) (a : BitVec 4) (s : State) : Out :=
  seqWord s (fun _ _ q =>
    let w := q.mr a.toNat
    if profOk w then .next (s.finishSeq { q with
      prof := mset Config.resetProfile q.prof p.toNat (w.setWidth 32) })
    else .next (s.raise 0x0A 1))

/-- SWRD (R271): read and clear a tile's monitors, after every earlier word that names it. -/
def execSwrd (d : BitVec 4) (c : BitVec 8) (s : State) : Out :=
  seqWord s (fun t x q => tileWord s x q [c.toNat] (
    if q.ops.any (fun o => o.kind.tiles.contains c.toNat) then .next (s.holdSeq q .none)
    else
      let acc : AccTile := mget {} x.body.acc c.toNat
      let s1 := s.modTeam t (fun x => { x with body := { x.body with
        acc := mset {} x.body.acc c.toNat { acc with lost := 0#32, swamped := 0#32 } }.noteTiles [c.toNat] false })
      .next (s1.finishSeq (q.setM d.toNat (acc.swamped ++ acc.lost)))))

/-- MMOV (R251): m(D) = m(A). -/
def execMmov (d a : BitVec 4) (s : State) : Out := seqMove s d.toNat (fun q => q.mr a.toNat)

/-- MMOV_I (R251): m(D) = sext(IMM16). -/
def execMmovI (d : BitVec 4) (i : BitVec 16) (s : State) : Out :=
  seqMove s d.toNat (fun _ => sext 64 i)

/-- SCALE (R251). -/
def mscale (c : BitVec 2) : W64 :=
  match c.toNat with
  | 0 => 1#64
  | 1 => 64#64
  | 2 => 1024#64
  | _ => 65536#64

/-- MADD (R251): m(D) = m(A) + sext(n) × SCALE(SC). -/
def execMadd (d a : BitVec 4) (c : BitVec 2) (n : BitVec 7) (s : State) : Out :=
  seqMove s d.toNat (fun q => q.mr a.toNat + sext 64 n * mscale c)

/-! ### Control (R252) -/

/-- MLOOP (R252): count down and branch while the count is not 0; a count of 0 falls through. -/
def execMloop (k : BitVec 3) (f : BitVec 19) (s : State) : Out :=
  seqWord s (fun _ _ q =>
    let v := q.mr k.toNat
    if v = 0#64 then .next (s.finishSeqAt q s.cur.next)
    else .next (s.finishSeqAt (q.setM k.toNat (v - 1#64))
      (if v - 1#64 = 0#64 then s.cur.next else s.cur.target f)))

/-- MBR (R252): branch when m(K) ≠ 0. -/
def execMbr (k : BitVec 3) (f : BitVec 19) (s : State) : Out :=
  seqWord s (fun _ _ q =>
    .next (s.finishSeqAt q (if q.mr k.toNat = 0#64 then s.cur.next else s.cur.target f)))

/-- MEND (R252): the stream ends; words already issued still complete. -/
def execMend (s : State) : Out :=
  seqWord s (fun _ _ q => .next (s.finishSeq { q with running := false }))

/-! ### Hurdles (R253, R254) -/

/-- A sequencer hurdle word: not on h0 (R253), a commit point on a cluster hurdle (R225). -/
def seqHurdle (c : BitVec 1) (n : BitVec 8) (s : State) (bad : HMember → Bool) (wait : HMember → Bool)
    (k : HId → Nat → State → Seq → Out) : Out :=
  let i : HId := { cluster := c == 1#1, h := n.toNat }
  seqWord s (fun t _ q =>
    let m := s.member t 255 i
    if (i.cluster && decide (64 ≤ i.h)) || (!i.cluster && i.h == 0) then .next (s.raise 2 0)
    else if bad m then memberTrap s i
    else if wait m then .next (s.holdSeq q (.retryHurdle i.cluster i.h))
    else seqCommit s t q i.cluster (k i t))

/-- End the issue of a sequencer hurdle word with the sequencer as the hurdle unit left it. -/
def seqHurdleDone (s : State) (p : Park) : Out :=
  match s.curSeq? with
  | none => .fault .noIssuer
  | some q =>
    if p = .none then .next (s.finishSeq q)
    else .next ((s.putCurSeq { q with
      count := q.count + 1#64, park := p
      lastCycle := some (s.core s.cur.core).cycles.toNat }).count s.cur.core 3 1).tick

/-- Stamps of the earlier words an arrival waits for (R254). -/
def Seq.arrivalWords (q : Seq) : List Nat :=
  (q.ops.filter (fun o => !o.kind.allStarted)).map (·.stamp)

/-- MHARR (R253, R254): arrive; the rise waits for the earlier words. -/
def execMharr (c : BitVec 1) (h : BitVec 8) (s : State) : Out :=
  seqHurdle c h s (fun m => !m.mode.signals || m.pending == some .none) (fun m => m.arrived)
    (fun i t s q =>
      let ws := q.arrivalWords
      if ws.isEmpty then seqHurdleDone (s.arrive t 255 i true) .none
      else
        let s := s.modSeq t (fun q => { q with
          arrivals := q.arrivals ++ [{ cluster := i.cluster, h := i.h, words := ws }] })
        seqHurdleDone (s.arrive t 255 i false) .none)

/-- Registration of the sequencer (R217, R253): a second mode joins the first. -/
def seqRegister (c : BitVec 1) (h : BitVec 8) (mode : HMode) (s : State) : Out :=
  seqHurdle c h s (fun _ => false) (fun m => m.pending == some .none) (fun i t s q =>
    let m := s.member t 255 i
    let mode := if m.mode = .none ∨ m.mode = mode then mode else .sw
    let w := s.hurdle t i
    let seen := s.logged 2 q.count.toNat 0 i.key
    let atOnce := match seen with
      | some v => v % 2 == 1
      | none => w.arr == 0#16
    let phase := match seen with
      | some v => BitVec.ofNat 32 (v / 2)
      | none => w.phase
    let s := s.noteReplay 2 q.count.toNat i.key ((if atOnce then 1 else 0) + 2 * phase.toNat)
    seqHurdleDone (s.register t 255 i mode atOnce phase)
      (if atOnce then .none else .regHurdle i.cluster i.h))

/-- MHARR_REGISTER (R253): register as signaller. -/
def execMharrRegister (c : BitVec 1) (h : BitVec 8) (s : State) : Out := seqRegister c h .s s

/-- MHARR_DROP (R253): leave the hurdle at the next boundary. -/
def execMharrDrop (c : BitVec 1) (h : BitVec 8) (s : State) : Out :=
  seqHurdle c h s (fun _ => false) (fun _ => false) (fun i t s _ =>
    seqHurdleDone (s.dropUnit t 255 i) .none)

/-- MHWAIT (R220, R253): wait until PHASE > W. -/
def execMhwait (c : BitVec 1) (h : BitVec 8) (s : State) : Out :=
  seqHurdle c h s (fun m => !m.mode.waits || m.pending == some .none) (fun _ => false)
    (fun i t s q =>
      let m := s.member t 255 i
      let n := q.count.toNat
      let pass := later (s.hurdle t i).phase m.wait || s.logged 3 n 0 i.key == some 0
      let s := s.noteReplay 3 n i.key (if pass then 0 else 1)
      if pass then
        seqHurdleDone (if m.mode = .w then s.putMember t 255 i { m with wait := m.wait + 1#32 } else s)
          .none
      else seqHurdleDone s (.waitHurdle i.cluster i.h))

/-- MHWAIT_REGISTER (R253): register as waiter. -/
def execMhwaitRegister (c : BitVec 1) (h : BitVec 8) (s : State) : Out := seqRegister c h .w s

end Sys2Proof.Machine
end

