-- ==== Sys2Proof/Machine/MatrixEvents.lean ====
section
/-! DEFINITION. What issued matrix-stream words do later (R254–R274): landing tile loads, engine grants
and steps, zeroing, stores and drains of accumulator tiles. -/

namespace Sys2Proof.Machine

/-! ### Completion of words -/

/-- A word is no longer waited for by the deferred arrivals of its sequencer (R254). -/
def Seq.noWait (q : Seq) (stamp : Nat) : Seq :=
  { q with arrivals := q.arrivals.map (fun (a : DefArr) => { a with words := a.words.filter (· != stamp) }) }

/-- A word leaves the sequencer. -/
def Seq.drop (q : Seq) (stamp : Nat) : Seq :=
  ({ q with ops := q.ops.filter (fun o => o.stamp != stamp) }).noWait stamp

/-- Replace an issued word. -/
def Seq.putOp (q : Seq) (o : SeqOp) : Seq :=
  { q with ops := q.ops.map (fun p => if p.stamp = o.stamp then o else p) }

/-- Deferred arrivals of a sequencer that wait for nothing more raise ARR (R254); fuel: their number. -/
def State.settleSeq (s : State) (t : Nat) : Nat → State
  | 0 => s
  | f + 1 =>
    match s.team? t with
    | none => s
    | some x => match x.body.seq.arrivals.find? (fun a => a.words.isEmpty) with
      | none => s
      | some a =>
        ((s.modSeq t (fun q => { q with arrivals := q.arrivals.erase a })).raiseArr t
          { cluster := a.cluster, h := a.h }).settleSeq t f

/-- End an event of a sequencer word: arrivals rise, and other words may have become ready. -/
def State.seqDone (s : State) (t : Nat) : State :=
  match s.team? t with
  | none => s.tick
  | some x => (((s.settleSeq t x.body.seq.arrivals.length).markReady t)).tick

/-- An issued word of a team by its stamp. -/
def Team.op? (x : Team) (op : Nat) : Option SeqOp := x.body.seq.ops.find? (fun o => o.stamp == op)

/-- Whether a word was issued in an earlier lap: the lap-start image holds it. -/
def Team.early (x : Team) (op : Nat) : Bool := x.lapBody.seq.ops.any (fun o => o.stamp == op)

/-- Change a body where a word is issued and not finished: the live one, and the lap-start image for a
word of an earlier lap, whose writes stand at a rollback (R481). -/
def State.opBoth (s : State) (t op : Nat) (f : TeamBody → TeamBody) : State :=
  s.modTeam t (fun x => if x.early op then x.both f else { x with body := f x.body })

/-- Change the sequencer of a body. -/
def TeamBody.modSeq (b : TeamBody) (f : Seq → Seq) : TeamBody := { b with seq := f b.seq }

/-- The fault record of an issued word (R471, R473). -/
def opFault (x : Team) (o : SeqOp) (cls info : Nat) (addr : Nat) : TrapRec :=
  { cls := cls, asid := x.asid, share := x.share, heat := 255, isAsync := true, hdr := o.hdr
    idx := o.idx, word := o.word, info := BitVec.ofNat 64 info, addr := BitVec.ofNat 72 addr
    lap := x.lap, stride := BitVec.ofNat 64 o.count }

/-! ### Tile loads land (R256, R267, R351) -/

/-- Whether a place must still be waited for: an owned or ordered range, an absent line. -/
def State.placeWaits (s : State) (p : Piece) : Bool :=
  match p with
  | .mem pa n _ _ => s.rangeWaits pa n
  | .spad t off n => s.rangeAbsent t off n
  | .fab _ _ _ => false

/-- The bytes a load reads. -/
def State.placesBytes (s : State) (ps : List (Nat × Piece)) : List Byte :=
  ps.foldl (fun acc p => acc ++ s.pieceBytes p.2) []

/-- Whether a load's data carries an uncorrectable error (R167). -/
def State.placesBad (s : State) (ps : List (Nat × Piece)) : Bool :=
  ps.any (fun p => match p.2 with
    | .mem pa n _ _ => s.bytesBad pa n
    | .spad t off n => s.spadBad t off n
    | .fab _ _ _ => false)

/-- Whether the data comes from device memory. -/
def inDevice (ps : List (Nat × Piece)) : Bool :=
  ps.any (fun p => match p.2 with
    | .mem _ _ _ _ => true
    | _ => false)

/-- Key of a load's log entry (R482): its number in the lap, or its stamp for a word of an earlier
lap. -/
def opKey (x : Team) (o : SeqOp) : Nat × Nat := if x.early o.stamp then (o.stamp, 1) else (o.count, 0)

/-- The logged data of a load in replay (R484). -/
def Team.loggedTile (x : Team) (o : SeqOp) : Option Nat :=
  if x.replaying then
    (x.log.find? (fun e => e.kind == 0 && e.heat == 255 && (e.stride, e.lane) == opKey x o &&
      e.addr == o.addr)).map (·.value)
  else none

/-- Whether a load's data is logged: a writable page of width CLUSTER or wider, or a word of an earlier
lap (R482). -/
def tileLogs (x : Team) (o : SeqOp) : Bool :=
  x.early o.stamp || o.places.any (fun p => match p.2 with
    | .mem _ _ leaf _ => pteW leaf && decide (1 ≤ pteSw leaf)
    | _ => false)

/-- The 4,096 register bytes of a TLD or TLDT from its source bytes (R256, R257). -/
def tileBytes (w : Nat) (src : List Byte) : List Byte :=
  if w = 0 then src
  else
    let rows := operandRows (8 * w) src
    (upto 64).foldl (fun acc i => acc ++ toBytes 64 ((upto (512 / w)).foldl
      (fun n k => n + (rows.getD k 0 / 2 ^ (w * i) % 2 ^ w) * 2 ^ (w * k)) 0)) []

/-- A tile of FP32 elements from its bytes (R267). -/
def tileElems (b : List Byte) : FMap W32 :=
  (upto 4096).foldl (fun m e => mset 0#32 m e (BitVec.ofNat 32 (ofBytes ((b.drop (4 * e)).take 4)))) []

/-- The change of a body by a landing load. -/
def landOp (o : SeqOp) (data : List Byte) (b : TeamBody) : TeamBody :=
  match o.kind with
  | .tileLoad t w => { b with seq := { b.seq with t := writeBytes b.seq.t (4096 * t) (tileBytes w data) } }
  | .accLoad tile => { b with acc := mset {} b.acc tile { elems := tileElems data } }.noteTiles [tile] true
  | _ => b

/-- Whether a load may land: its place is free, and earlier words on its register or tile have had
their effect (R272). -/
def State.mayLand (s : State) (x : Team) (o : SeqOp) : Bool :=
  !o.places.any (fun p => s.placeWaits p.2) &&
    match o.kind with
    | .tileLoad t _ => (x.body.seq.before o.stamp).all (fun p => match p.kind with
        | .tileLoad u _ => u != t
        | _ => true)
    | .accLoad _ => x.tilesReady o
    | _ => false

/-- The entry under which a tile is forwarded: the word's lap and number. -/
def tileEntry (o : SeqOp) (data : List Byte) : LogEntry :=
  { heat := 255, stride := o.count, lane := o.lap, addr := o.addr, value := ofBytes data, kind := tileKind }

/-- The data of a load in a checker as it was forwarded, from device memory (R511): none while it has not come;
the outer none where the load is not a checker's, or reads its own scratchpad. -/
def Team.forwardedTile (x : Team) (o : SeqOp) : Option (Option LogEntry) :=
  if x.checks.isSome && inDevice o.places then
    some ((x.feed.find? (fun e => e.2.kind == tileKind && e.2.lane == o.lap && e.2.stride == o.count)).map Prod.snd)
  else none

/-- A checker has taken a forwarded tile; another address is a mismatch (R512). -/
def Team.tookTile (x : Team) (o : SeqOp) : Team :=
  match x.forwardedTile o with
  | some (some e) => if e.addr = o.addr then x else { x with mismatch := noteIn x.mismatch o.lap }
  | _ => x

/-- TILE_LOAD_LANDS (R256, R351): a TLD, TLDT or ACCLD reads its source and lands; data with an
uncorrectable error raises class 0x20 (R167). -/
def execEvTileLoadLands (team op : Nat) (s : State) : Out :=
  match s.team? team with
  | none => .next s
  | some x => match x.op? op, x.core? with
    | some o, some c =>
      if !s.mayLand x o ∨ x.forwardedTile o = some none then .next s
      else
        let old := match x.forwardedTile o with
          | some (some e) => some e.value
          | _ => x.loggedTile o
        if old = none ∧ s.placesBad o.places then
          let s := s.modSeq team (fun q => q.drop op)
          .next ((s.raiseOp team c (opFault x o 0x20 (if inDevice o.places then 1 else 0) o.addr)).seqDone team)
        else
          let data := match old with
            | some v => toBytes (o.places.foldl (fun n p => n + p.2.len) 0) v
            | none => s.placesBytes o.places
          let k := opKey x o
          let entry : LogEntry := { heat := 255, stride := k.1, lane := k.2, addr := o.addr, value := ofBytes data }
          let s := if inDevice o.places then s.forward team (tileEntry o data) data.length else s
          .next ((s.modTeam team (fun x => { x.tookTile o with
            body := (landOp o data x.body).modSeq (fun q => q.drop op)
            log := if tileLogs x o ∧ old = none then x.log ++ [entry] else x.log })).seqDone team)
    | _, _ => .next s

/-! ### The engine (R262, R264, R273) -/

/-- Set whether the engine is granted to a word. -/
def SeqOp.grant (o : SeqOp) (g : Bool) : SeqOp :=
  match o.kind with
  | .mma f ta k tile p bt bo n i d sg _ => { o with kind := .mma f ta k tile p bt bo n i d sg g }
  | _ => o

/-- Whether a word holds the engine. -/
def SeqOp.granted (o : SeqOp) : Bool :=
  match o.kind with
  | .mma _ _ _ _ _ _ _ _ _ _ _ g => g
  | _ => false

/-- The MMA or MMAS of a sequencer whose steps are next: they start in issue order (R272). -/
def Seq.nextMma (q : Seq) : Option SeqOp := q.ops.find? (fun o => o.kind.isMma && !o.kind.allStarted)

/-- Sequencer slot of an active team. -/
def Team.seqSlot (x : Team) : Nat :=
  match x.res with
  | .active _ _ q _ => q
  | _ => 0

/-- Whether a team's matrix words may use the engine: the team runs, or a debugger steps an MMA (R507). -/
def State.engineRuns (s : State) (t : Nat) : Bool :=
  s.runs t || (match s.team? t with
    | some x => x.core?.isSome && x.grant == some (255, 0xFF#8)
    | none => false)

/-- A debugger step of an MMA answers when all of its steps have run (R507). -/
def State.stepReply (s : State) (t : Nat) : State :=
  match s.team? t with
  | none => s
  | some x =>
    if x.grant = some (255, 0xFF#8) ∧ !x.body.seq.ops.any (fun o => o.kind.isMma) then
      (s.putTeam t { x with grant := none }).dbgReply x.dbgTag 0 []
    else s

/-- Words of a core waiting for the engine that can start: (ready since, sequencer slot, team, word). -/
def State.waitingMma (s : State) (c : Nat) : List (Nat × Nat × Nat × SeqOp) :=
  (s.residents c).foldl (fun acc t => match s.team? t with
    | none => acc
    | some x => match x.body.seq.nextMma with
      | none => acc
      | some o => match o.readyAt with
        | none => acc
        | some r =>
          if s.engineRuns t && s.mmaReady x.body.seq o && x.tilesReady o then
            acc ++ [(r, x.seqSlot, t, o)]
          else acc) []

/-- The word that has been ready longest, ties to the lower sequencer slot (R273). -/
def longestReady (l : List (Nat × Nat × Nat × SeqOp)) : Option (Nat × Nat × Nat × SeqOp) :=
  match l with
  | [] => none
  | x :: t => some (t.foldl (fun b y =>
      if y.1 < b.1 ∨ (y.1 = b.1 ∧ y.2.1 < b.2.1) then y else b) x)

/-- ENGINE_GRANT (R273): a free engine goes to the word that has been ready longest. -/
def execEvEngineGrant (core : Nat) (s : State) : Out :=
  let s1 := (s.residents core).foldl State.markReady s
  if (s.residents core).any (fun t => match s.team? t with
      | some x => x.body.seq.ops.any SeqOp.granted
      | none => false) then .next s
  else match longestReady (s1.waitingMma core) with
    | none => .next s
    | some (_, _, t, o) => .next (s1.modSeq t (fun q => q.putOp (o.grant true))).tick

/-- The heat rows that hold the scales of a word (R265). -/
def Team.scaleRow (x : Team) (desc : W64) (r l : Nat) : W32 :=
  match x.heat? (fld desc.toNat 0 4) with
  | some h => h.v r l
  | none => 0#32

/-- Operand rows as values, each with its scale for an MMAS (R96, R262). -/
def operandVals (x : Team) (fm : Fmt) (f : MmaForm) (desc : W64) (base sigma : Nat) (rows : List Nat) :
    List (List FVal) :=
  let e8 := !bitAt desc.toNat 31
  (upto 64).map (fun r =>
    let vs := rowVals fm f.k (rows.getD r 0)
    if f.scaled then
      (upto f.k).map (fun c => mulV (vs.getD c .nan) (scaleOf e8 (x.scaleRow desc) base sigma f.k r c))
    else vs)

/-- The 4 KiB A operand of a step, and whether it comes from the keep latch (R264). -/
def Seq.aOperand (q : Seq) (ta steps step : Nat) : FMap Byte × Bool :=
  let own : FMap Byte := writeBytes [] 0 (readBytes q.t (4096 * (ta + step)) 4096)
  match q.latch with
  | some (r, b) => if steps = 1 ∧ r = ta then (b, true) else (own, false)
  | none => (own, false)

/-- The operands of the next step of an MMA, as rows of A and columns of B (R262). -/
def State.stepOperands (s : State) (x : Team) (o : SeqOp) : List (List FVal) × List (List FVal) :=
  match o.kind with
  | .mma f ta _ _ _ bt bo steps step desc sigma _ =>
    let a := (x.body.seq.aOperand ta steps step).1
    let bBytes := s.spadBytes bt (bo + step * f.bBytes) f.bBytes
    (operandVals x (mmaFmt f.afmt) f desc (fld desc.toNat 8 7) sigma (operandRows 64 (readBytes a 0 4096)),
      operandVals x (mmaFmt f.bfmt) f desc (fld desc.toNat 16 7) sigma (operandRows f.colBytes bBytes))
  | _ => ([], [])

/-- Who draws in a step of a team on a tile (R105). -/
def State.stepKey (s : State) (x : Team) (tile : Nat) : DrawKey :=
  { seed := match s.gridOf x with
      | some gr => gr.record.seed
      | none => 0#64
    teamId := x.teamId, tile := tile }

/-- Errors that the next step of a core's engine meets (R375, R376). -/
def State.stepFlips (s : State) (c : Nat) : List Flip := (s.core c).flips.filter (fun x => x.reason != 1)

/-- The check of the next step of a word that fails, as the TINFO of its trap (R377, R473). -/
def State.stepDiverges (s : State) (x : Team) (o : SeqOp) (c : Nat) : Option Nat :=
  match o.kind with
  | .mma _ _ _ tile prof _ _ _ step _ _ _ =>
    let ab := s.stepOperands x o
    ((mget {} x.body.acc tile : AccTile).diverges prof (s.stepKey x tile) ab.1 ab.2 (s.stepFlips c)).map (fun d =>
      d.2 + tile % 256 * 2 ^ 8 + d.1 * 2 ^ 16 + step % 16 * 2 ^ 28)
  | _ => none

/-- A step of a word of a team's sequencer on core c: the new tile, latch and step index (R262, R264). -/
def State.runStep (s : State) (x : Team) (o : SeqOp) (c : Nat) : TeamBody :=
  match o.kind with
  | .mma f ta keep tile prof bt bo steps step desc sigma g =>
    let q := x.body.seq
    let a := (q.aOperand ta steps step).1
    let ab := s.stepOperands x o
    let acc : AccTile := mget {} x.body.acc tile
    let latch := if steps = 1 ∧ keep then some (ta, a) else none
    let last := decide (steps ≤ step + 1)
    let o' : SeqOp := { o with
      kind := .mma f ta keep tile prof bt bo steps (step + 1) desc sigma (g && !last) }
    let q' := ({ q with latch := latch }).putOp o'
    { x.body with
      acc := mset {} x.body.acc tile (acc.step prof (s.stepKey x tile) ab.1 ab.2 f.k (s.stepFlips c))
      seq := if last then q'.noWait o.stamp else q' }.noteTiles [tile] false
  | _ => x.body

/-- The code of class 0x23 for what a word's next step would read: a scale row, a B line or a tile with an
uncorrectable error (R473). -/
def State.stepBad (s : State) (x : Team) (o : SeqOp) : Option Nat :=
  match o.kind with
  | .mma f _ _ tile _ bt bo _ step desc sigma _ =>
    let n := desc.toNat
    let regs (base : Nat) : List (Nat × Nat) := [(base, lastScale (!bitAt n 31) base sigma f.k + 1 - base)]
    let scales := f.scaled && match x.heat? (fld n 0 4) with
      | some h => h.badRow (regs (fld n 8 7) ++ regs (fld n 16 7))
      | none => false
    if scales then some 0
    else if s.spadBad bt (bo + step * f.bBytes) f.bBytes then some 1
    else if x.body.badTiles.contains tile then some 2
    else none
  | _ => none

/-- MMA_STEP_START (R262, R273): the granted word reads its operands and runs its next step; an uncorrectable
operand raises class 0x23 (R473). A result that disagrees with its shadow or its residue raises the
shadow-divergence trap, and the step writes nothing (R375–R377). -/
def execEvMmaStepStart (team : Nat) (s : State) : Out :=
  match s.team? team with
  | none => .next s
  | some x => match x.body.seq.nextMma, x.core? with
    | some o, some c =>
      if !o.granted || !s.engineRuns team || !s.mmaReady x.body.seq o || !x.tilesReady o then .next s
      else match s.stepBad x o with
        | some code => .next (s.raiseOp team c (opFault x o 0x23 code 0)).tick
        | none =>
          let s1 := s.putCore c { s.core c with flips := (s.core c).flips.filter (fun f => f.reason == 1) }
          match s.stepDiverges x o c with
          | some info => .next (s1.raiseOp team c { opFault x o 0x22 info 0 with isAsync := false }).tick
          | none => .next (((s1.putTeam team { x with body := s.runStep x o c }).count c 4 1).seqDone team)
    | _, _ => .next s

/-- MMA_COMPLETE (R276): the last step's result is in the tile, and later words may use it. -/
def execEvMmaComplete (team : Nat) (s : State) : Out :=
  match s.team? team with
  | none => .next s
  | some x => match x.body.seq.ops.find? (fun o => o.kind.isMma) with
    | none => .next s
    | some o =>
      if o.kind.allStarted then .next (((s.modSeq team (fun q => q.drop o.stamp)).stepReply team).seqDone team)
      else .next s

/-- ZACC_COMPLETE (R267): the tiles are +0, their monitors and rounding counters 0. -/
def execEvZaccComplete (team op : Nat) (s : State) : Out :=
  match s.team? team with
  | none => .next s
  | some x => match x.op? op with
    | none => .next s
    | some o => match o.kind with
      | .zacc tile n =>
        if !x.tilesReady o then .next s
        else
          let f := fun (b : TeamBody) =>
            ({ b with acc := (upto n).foldl (fun m i => mdel m (tile + i)) b.acc }.noteTiles
              ((upto n).map (tile + ·)) true).modSeq (fun q => q.drop op)
          .next ((s.modTeam team (fun x => { x with body := f x.body })).seqDone team)
      | _ => .next s

/-! ### Stores and drains (R267–R270) -/

/-- Elements of a tile that a word writes. -/
def elemSizeOf (k : SeqOpKind) : Nat :=
  match k with
  | .axpy _ _ true => 2
  | _ => 4

/-- The place of byte position `pos` of a word's destination. -/
def placeAt (ps : List (Nat × Piece)) (pos : Nat) : Option Piece :=
  match ps.find? (fun p => decide (p.1 ≤ pos ∧ pos < p.1 + p.2.len)) with
  | some (a, .mem pa n leaf va) => some (.mem (pa + (pos - a)) (n - (pos - a)) leaf (va + (pos - a)))
  | some (a, .spad t off n) => some (.spad t (off + (pos - a)) (n - (pos - a)))
  | some (a, .fab d off n) => some (.fab d (off + (pos - a)) (n - (pos - a)))
  | none => none

/-- The value a word leaves at an element whose target holds `old` (R267, R269, R270). -/
def writeValue (k : SeqOpKind) (g : W32) (old : Nat) : Nat :=
  match k with
  | .axpy _ alpha bf =>
    let f := if bf then Fmt.bf16 else Fmt.f32
    roundRn f (addV (valOf f old) (mulV (valOf .f32 alpha.toNat) (valOf .f32 g.toNat)))
  | .red _ => (addF32 (BitVec.ofNat 32 old) g).toNat
  | _ => g.toNat

/-- Whether a word writes an accumulator tile out. -/
def SeqOpKind.writesOut (k : SeqOpKind) : Bool :=
  match k with
  | .accStore _ => true
  | .axpy _ _ _ => true
  | .red _ => true
  | _ => false

/-- Write one element: a read-modify-write over uncorrectable data changes nothing. -/
def State.writeElem (s : State) (t : Nat) (x : Team) (o : SeqOp) (p : Piece) : State :=
  let size := elemSizeOf o.kind
  let acc : AccTile := mget {} x.body.acc (o.kind.tiles.headD 0)
  let g := mget 0#32 acc.elems o.written
  match p with
  | .mem pa _ leaf _ =>
    let bad := (match o.kind with
      | .accStore _ => false
      | _ => true) && s.bytesBad pa size
    let v := writeValue o.kind g (readNat s.mem pa size)
    let s := if pteSw leaf = 0 && !x.early o.stamp then s.noteUndo t ((upto size).map (pa + ·)) else s
    if bad ∨ x.checks.isSome then s else s.perform (pairsAt pa (toBytes size v))
  | .spad u off _ =>
    s.modTeam u (fun y =>
      let f := fun (b : TeamBody) => b.writeSpad (pairsAt off (toBytes size (writeValue o.kind g 0)))
      if x.early o.stamp then y.both f else { y with body := f (y.body.noteLines [off]) })
  | .fab _ _ _ => s

/-- A word that reads a tile finds it with an uncorrectable error: class 0x23, code 2 (R473). -/
def State.tileFault (s : State) (t : Nat) (x : Team) (o : SeqOp) : State :=
  ((s.modSeq t (fun q => q.drop o.stamp)).raiseAsync t (opFault x o 0x23 2 0)).seqDone t

/-- Whether one of the tiles of a word carries an uncorrectable error. -/
def Team.badTile (x : Team) (o : SeqOp) : Bool := o.kind.tiles.any (fun n => x.body.badTiles.contains n)

/-- ACCUMULATOR_WRITE_PERFORMS (R267, R269, R270): the next element of an ACCST, DRAIN.AXPY or
DRAIN.RED is written; the word finishes with the last. That elements are written one at a time in ascending
(i, j), and that one whose scratchpad line is absent waits for it, are the model's choices: R267 and R329 say
neither (assumption log entry 69). -/
def execEvAccumulatorWritePerforms (team op : Nat) (s : State) : Out :=
  match s.team? team with
  | none => .next s
  | some x => match x.op? op with
    | none => .next s
    | some o =>
      if !o.kind.writesOut || !x.tilesReady o then .next s
      else if x.badTile o then .next (s.tileFault team x o)
      else match placeAt o.places (elemSizeOf o.kind * o.written) with
        | none => .next s
        | some p =>
          let wait := match p with
            | .mem pa _ _ _ => s.rangeWaits pa (elemSizeOf o.kind)
            | .spad t off _ => s.rangeAbsent t off 4
            | .fab _ _ _ => false
          if wait then .next s
          else
            let s1 := s.writeElem team x o p
            let f := fun (q : Seq) =>
              if o.written + 1 < 4096 then q.putOp { o with written := o.written + 1 } else q.drop op
            .next ((s1.opBoth team op (fun b => b.modSeq f)).seqDone team)

/-- One row of a tile as a q7 entry (R198): lane l holds columns 2l and 2l + 1. -/
def rowEntry (a : AccTile) (row : Nat) : QEntry :=
  { mask := 0xFFFFFFFF#32
    vals := (upto 32).map (fun l =>
      (l, mget 0#32 a.elems (64 * row + 2 * l + 1) ++ mget 0#32 a.elems (64 * row + 2 * l))) }

/-- DRAIN_ROW_PUSH (R268): the next row enters the target's q7 when it has room; the rows left for a
heat that has ended are discarded, also once another heat has its HEATID (R401). -/
def execEvDrainRowPush (team op : Nat) (s : State) : Out :=
  match s.team? team with
  | none => .next s
  | some x => match x.op? op with
    | none => .next s
    | some o => match o.kind with
      | .drain tile heat row =>
        if !x.tilesReady o ∨ x.core? = none then .next s
        else if x.badTile o then .next (s.tileFault team x o)
        else match x.heat? heat with
          | none => .next ((s.modSeq team (fun q => q.drop op)).seqDone team)
          | some h =>
            if h.ended ∨ o.stamp < h.born then .next ((s.modSeq team (fun q => q.drop op)).seqDone team)
            else if Config.queueDepth ≤ (h.queue 7).length then .next s
            else
              let e := { rowEntry (mget {} x.body.acc tile) row with
                stride := o.count, id := s.stamp, lap := x.lap.toNat }
              let s := s.putHeat team heat (h.setQueue 7 (h.queue 7 ++ [e]))
              .next ((s.modSeq team (fun q =>
                if row + 1 < 64 then q.putOp { o with kind := .drain tile heat (row + 1) }
                else q.drop op)).seqDone team)
      | _ => .next s

/-- ACCUMULATOR_TILE_RESTORE (R407): a tile of a restored team is back in its core. -/
def execEvAccumulatorTileRestore (team tile : Nat) (s : State) : Out :=
  match s.team? team with
  | none => .next s
  | some x =>
    if x.restoringTiles.contains tile then
      .next (s.putTeam team { x with restoringTiles := x.restoringTiles.filter (· != tile) }).tick
    else .next s

end Sys2Proof.Machine
end

