-- ==== Sys2Proof/Machine/Coll.lean ====
section
/-! DEFINITION. COLL and the collective engines (R243–R246, R458–R460). -/

namespace Sys2Proof.Machine

/-! ### The command (R243) -/

/-- GROUP. -/
def collGroup (w : List W64) : Nat := fld (w.getD 2 0#64).toNat 48 8
/-- OP: 0 all-reduce, 1 reduce-scatter, 2 all-gather, 3 broadcast. -/
def collOp (w : List W64) : Nat := fld (w.getD 2 0#64).toNat 36 4
/-- TYPE. -/
def collType (w : List W64) : Nat := fld (w.getD 2 0#64).toNat 32 4
/-- COUNT. -/
def collCount (w : List W64) : Nat := fld (w.getD 2 0#64).toNat 0 32
/-- ROOT. -/
def collRoot (w : List W64) : Nat := fld (w.getD 3 0#64).toNat 32 10
/-- RQ. -/
def collQueue (w : List W64) : Nat := fld (w.getD 3 0#64).toNat 16 4
/-- TAG. -/
def collTag (w : List W64) : Nat := fld (w.getD 3 0#64).toNat 0 16

/-- Bytes of an element of a type. -/
def collElem (t : Nat) : Nat := if t = 1 then 2 else if t = 3 then 8 else 4

/-- The group a command names. -/
def State.collEntry (s : State) (w : List W64) : GrpEntry := mget {} s.groups (collGroup w)

/-- The format checks of a COLL (R243, R458). -/
def State.collBad (s : State) (w : List W64) : Bool :=
  let w2 := (w.getD 2 0#64).toNat
  let w3 := (w.getD 3 0#64).toNat
  let g := s.collEntry w
  fld w2 56 8 != 0 || fld w2 40 8 != 0 || decide (3 < collOp w) || decide (5 < collType w) ||
    collCount w == 0 || decide (2 ^ 28 < collCount w) || fld w3 42 22 != 0 || fld w3 20 12 != 0 ||
    !(collQueue w == 5 || decide (8 ≤ collQueue w)) || !g.valid || decide (g.m ≤ collRoot w)

/-- Bytes of the source range of a member. -/
def collSrcLen (w : List W64) (m : Nat) : Nat :=
  collCount w * collElem (collType w) * (if collOp w = 1 then m else 1)

/-- Bytes of the destination range of a member. -/
def collDstLen (w : List W64) (m : Nat) : Nat :=
  collCount w * collElem (collType w) * (if collOp w = 2 then m else 1)

/-- Check a COLL's ranges, as the context and team of `w` see them. -/
def State.collRange (s : State) (who : Who) (write : Bool) (w : List W64) (bs : List Binding) : PosChk :=
  let m := (s.collEntry w).m
  let r := if write then s.checkRange bs who .write (w.getD 1 0#64).toNat (collDstLen w m)
    else s.checkRange bs who .read (w.getD 0 0#64).toNat (collSrcLen w m)
  match r with
  | .held v => .held v
  | .bad c a => .bad c a
  | .ok ps bs' => .ok (memPieces 0 (w.getD (if write then 1 else 0) 0#64).toNat ps) bs'

/-- Check a COLL and push it into q4 (R243): always a commit point. A checker's is a digest record (R511). -/
def collCommand (s : State) (h : Heat) (w : List W64) : Out :=
  if s.collBad w then .next (s.raise 0x0C 0)
  else
    let fail := fun (l : List (Nat × Nat × Nat)) =>
      Host.Outcome.next (s.raiseAddr (l.map (fun e => (e.1, e.2.1, BitVec.ofNat 72 e.2.2))))
    let push := fun (s : State) src dst =>
      if Config.queueDepth ≤ (h.queue 4).length then
        Host.Outcome.next (s.hold h (.retryQueue 20) 6)
      else commitPoint s h (fun s h =>
        let es := [s.entry h ((upto 4).map (fun i => (i, w.getD i 0#64))) 0xF#32]
        let r := { s.newRec src dst with mask := 0#32, coll := true }
        let s := s.noteCommand r es
        .next ((if s.mute then s.finish h else s.pushEngine h 4 es r).endLap))
    match s.collRange s.curWho false w s.bindings with
    | .held v => .next (s.holdCheck h v)
    | .bad c a => match s.collRange s.curWho true w s.bindings with
      | .held v => .next (s.holdCheck h v)
      | .bad c' a' => fail [(0, c, a), (1, c', a')]
      | .ok _ _ => fail [(0, c, a)]
    | .ok src bs => match s.collRange s.curWho true w bs with
      | .held v => .next (s.holdCheck h v)
      | .bad c a => fail [(1, c, a)]
      | .ok dst bs' => push { s with bindings := bs' } src dst

/-- COLL (R243): the block s(A) to s(A + 3), with the result queue placed in word 3. -/
def execColl (q a : BitVec 4) (s : State) : Out :=
  heatWord s [] [(quadReg a, 4)] (fun h => teamOnly s (fun _ =>
    let w3 := ((h.sr (quadReg a + 3)) &&& ~~~0xF0000#64) ||| BitVec.ofNat 64 (q.toNat * 2 ^ 16)
    collCommand s h [h.sr (quadReg a), h.sr (quadReg a + 1), h.sr (quadReg a + 2), w3]))

/-! ### The engines -/

/-- Who a command's team is to the checks. -/
def State.collWho (s : State) (c : CollCmd) : Who :=
  { asid := match s.team? c.team with
      | some x => x.asid
      | none => 0
    team := some c.team }

/-- COLL_ACCEPT (R194, R244, R459): the group's engine takes the command at the head of a heat's q4 and numbers it.
It reads the source afterwards. -/
def execEvCollAccept (team heat : Nat) (s : State) : Out :=
  match s.heat? team heat with
  | none => .next s
  | some h => match h.queue 4 with
    | [] => .next s
    | e :: _ =>
      let w := (upto 4).map (fun i => mget 0#64 e.vals i)
      let s1 := (s.collNumber team heat e w (collGroup w)).1
      .next (s1.accept 4 [e.id] (collSource team heat e (h.copyRec e.id))).tick

/-- The member that a message comes from: the lowest other place of the group's member list at which the sending
device stands (R458; log entry 15). -/
def State.memberAt (s : State) (g : GrpEntry) (device : Nat) : Option Nat :=
  if g.valid then g.others.find? (fun m => s.memberDev g m == device) else none

/-- COLL_MESSAGE_RECEIPT (R458–R460): a member's message is stored once under its group and number; one from a
device outside the group's list is discarded and counted. A message of one word is a verdict. -/
def execEvCollMessageReceipt (group k device : Nat) (words : List (BitVec 64))
    (data : List (BitVec 8)) (s : State) : Out :=
  let g := mget {} s.groups group
  if !s.fabricUp then .next s
  else match s.memberAt g device with
  | none =>
    .next { s with collErrors := mset 0#64 s.collErrors (group % 2) (mget 0#64 s.collErrors (group % 2) + 1#64) }.tick
  | some member =>
    let old := s.colls.find? (fun x => x.group == group && x.k == k)
    if old.isNone ∧ k < mget 0 s.collNext group then .next s
    else
      let c := { old.getD {} with group := group, k := k }
      if c.done.isSome then .next s
      else if words.length = 1 then .next (s.putColl (c.judge g.m member ((words.headD 0#64).toNat % 16))).tick
      else if c.parts.any (fun p => p.1 == member) then .next s
      else .next (s.putColl { c with parts := c.parts ++ [(member, words, data)] }).tick

/-- COLL_RESEND (R459): the messages of a group that are not acknowledged are sent again. -/
def execEvCollResend (group : Nat) (s : State) : Out :=
  let msgs := s.collWait.filter (fun m => m.group == group)
  if msgs.isEmpty ∨ !s.fabricUp then .next s else .next { s with collOut := s.collOut ++ msgs }.tick

/-- Whether a member has joined a collective: it has sent its source or a verdict. -/
def CollCmd.joined (c : CollCmd) (m : Nat) : Bool := c.judged m || c.parts.any (fun p => p.1 == m)

/-- COLL_JOIN_TIMEOUT (R460): a member has not joined a command of the group within LIMIT of its acceptance here. -/
def execEvCollJoinTimeout (group : Nat) (s : State) : Out :=
  let g := mget {} s.groups group
  match s.colls.find? (fun c => c.group == group && c.accepted && c.done.isNone && !g.others.all c.joined) with
  | none => .next s
  | some c => .next (s.collVerdict c 1).tick

/-- OP of R245 on two elements given as numbers. -/
def collCombine (t a b : Nat) : Nat :=
  if t = 0 then (addF32 (BitVec.ofNat 32 a) (BitVec.ofNat 32 b)).toNat
  else if t = 1 then addBF16 a b
  else if t = 2 then (a + b) % 2 ^ 32
  else if t = 3 then (a + b) % 2 ^ 64
  else if t = 4 then (if sextN 32 a < sextN 32 b then b else a)
  else minMax .f32 true a b

/-- The tree T of R245 over a list of elements (fuel: their number). -/
def collTree (t : Nat) : Nat → List Nat → Nat
  | 0, l => l.headD 0
  | f + 1, l =>
    if l.length ≤ 1 then l.headD 0
    else
      let mid := 2 ^ (bitLen (l.length - 1) - 1)
      collCombine t (collTree t f (l.take mid)) (collTree t f (l.drop mid))

/-- Element i of a member's bytes. -/
def collAt (t : Nat) (b : List Byte) (i : Nat) : Nat := ofBytes ((b.drop (i * collElem t)).take (collElem t))

/-- The bytes this member receives (R244, R245). -/
def collResult (w : List W64) (m self : Nat) (part : Nat → List Byte) : List Byte :=
  let n := collCount w
  let t := collType w
  let red := fun i => toBytes (collElem t) (collTree t m ((upto m).map (fun x => collAt t (part x) i)))
  if collOp w = 0 then (upto n).foldl (fun acc i => acc ++ red i) []
  else if collOp w = 1 then (upto n).foldl (fun acc i => acc ++ red (self * n + i)) []
  else if collOp w = 2 then (upto m).foldl (fun acc x => acc ++ part x) []
  else part (collRoot w)

/-- Whether two members' commands agree in OP, TYPE, COUNT, ROOT and TAG (R244). -/
def collAgree (a b : List W64) : Bool :=
  fld (a.getD 2 0#64).toNat 0 40 == fld (b.getD 2 0#64).toNat 0 40 && collRoot a == collRoot b &&
    collTag a == collTag b

/-- Push a decided collective's result entry (R198, R246); it then leaves the engine. -/
def State.collReply (s : State) (c : CollCmd) (cmd : EngCmd) (status : Nat) : Option State :=
  let q := collQueue c.words
  if !s.queueRoom c.team c.heat q ∨ !s.entryReached c.team c.heat cmd.stride then none
  else
    let w := BitVec.ofNat 64 (status * 2 ^ 20 + collTag c.words)
    let e : QEntry := { vals := (upto 32).map (fun l => (l, w)), mask := 0xFFFFFFFF#32, id := s.stamp, lap := c.lap }
    let s := s.engineReply c.team c.heat c.lap c.id cmd.stride q e true
    let s := { s with
      engines := s.engines.filter (fun x => x.id != c.id)
      colls := s.colls.filter (fun x => !(x.group == c.group && x.k == c.k)) }
    some (s.receive c.team c.heat c.lap (.forget c.id) none false)

/-- Whether a range of a collective lies on a page that is being migrated (R460, R497). -/
def State.collMigrates (s : State) (c : CollCmd) (ps : List (Nat × Piece)) : Bool :=
  ps.any (fun p => match p.2 with
    | .mem _ _ _ va => s.migrating (s.collWho c).asid va
    | _ => false)

/-- This member's next part in an undecided collective (R244, R459, R460): another member's failure is taken over;
the source is checked, read and sent to every member; and with every member's source this member's verdict is found:
2 for commands that differ, 3 for a destination that fails its check, 0 when it is ready to write. -/
def State.collJoin (s : State) (c : CollCmd) (cmd : EngCmd) : Option State :=
  let g : GrpEntry := mget {} s.groups c.group
  if c.judged g.self then none
  else if c.verdicts.any (fun v => v.2 != 0 && v.2 != 15) then some (s.collVerdict c 15)
  else if !c.parts.any (fun p => p.1 == g.self) then
    match cmd.buf with
    | some b =>
      if !cmd.bads.isEmpty then some (s.collVerdict c 3)
      else some ((s.putColl { c with parts := (g.self, c.words, b) :: c.parts }).collSend c.group c.k c.words b)
    | none =>
      if s.collMigrates c cmd.src then none
      else match s.collRange (s.collWho c) false c.words s.bindings with
        | .held _ => none
        | .bad _ _ => some (s.collVerdict c 3)
        | .ok _ _ => s.readStep cmd
  else if c.parts.length < g.m then none
  else if c.parts.any (fun p => !collAgree c.words p.2.1) then some (s.collVerdict c 2)
  else match s.collRange (s.collWho c) true c.words s.bindings with
    | .held _ => none
    | .bad _ _ => some (s.collVerdict c 3)
    | .ok _ _ => some (s.collVerdict c 0)

/-- The next part of a decided collective: under status 0 the result is written, sector by sector; then its result
entry is pushed (R246, R437, R460). -/
def State.collEnd (s : State) (c : CollCmd) (cmd : EngCmd) (status : Nat) : Option State :=
  let g : GrpEntry := mget {} s.groups c.group
  let part := fun x => match c.parts.find? (fun p => p.1 == x) with
    | some p => p.2.2
    | none => []
  if status ≠ 0 ∨ cmd.owned.isEmpty then s.collReply c cmd status
  else if s.collMigrates c cmd.dst then none
  else s.stepCmd { cmd with todo := [], buf := some (collResult c.words g.m g.self part) }

/-- The next part of a collective at this member. -/
def State.collStep (s : State) (c : CollCmd) : Option State :=
  let cmd : EngCmd := (s.engines.find? (fun e => e.id == c.id && e.opc == 6)).getD { id := c.id }
  match c.done with
  | some st => s.collEnd c cmd st
  | none => s.collJoin c cmd

/-- A command among others in ascending order of its number. -/
def collInsert (c : CollCmd) : List CollCmd → List CollCmd
  | [] => [c]
  | d :: t => if c.k ≤ d.k then c :: d :: t else d :: collInsert c t

/-- COLL_COMPLETE (R244–R246, R459, R460): a collective of the group that this member has accepted goes on by one
part, the lowest number first. -/
def execEvCollComplete (group : Nat) (s : State) : Out :=
  let cs := (s.colls.filter (fun c => c.group == group && c.accepted)).foldr collInsert []
  match cs.findSome? s.collStep with
  | some s1 => .next s1.tick
  | none => .next s

end Sys2Proof.Machine
end

