-- ==== Sys2Proof/Machine/Copy.lean ====
section
/-! DEFINITION. The copy engine (R189–R194) and the gather and scatter commands (R195–R197): the
instructions and the engines' events. -/

namespace Sys2Proof.Machine

/-! ### Copy commands (R189, R190) -/

/-- The format checks of R190 for a cluster of `csize` teams. -/
def copyFormatBad (csize : Nat) (w : List W64) : Bool :=
  let w2 := cmdWord w 2
  let cq := cmdQueue w
  let len := cmdLen w
  if fld (cmdWord w 3) 24 40 ≠ 0 ∨ 3 < cmdOpc w ∨ (1 < cq ∧ cq < 8) then true
  else if cmdOpc w = 1 ∨ cmdOpc w = 2 then
    fld w2 7 57 != 0 || len == 0 || decide (64 < len) || cmdWord w 1 % 1024 != 0
  else
    fld w2 40 8 != 0 || len == 0 || decide (4194304 < len) || decide (2 ≤ fld w2 34 2) ||
      decide (2 ≤ fld w2 32 2) ||
      (if cmdOpc w = 0 then cmdRmask w != 0
       else fld w2 34 2 != 1 || cmdRmask w == 0 || decide (2 ^ csize ≤ cmdRmask w))

/-- Check the source range of a copy by a heat at STRIDE `stride`. -/
def State.copySource (s : State) (stride : Nat) (w : List W64) (bs : List Binding) : PosChk :=
  if cmdOpc w = 1 ∨ cmdOpc w = 2 then
    let handle := cmdWord w 0
    match s.useDesc bs stride (hDesc handle) with
    | .held v => .held v
    | .bad => .bad 8 (s.descAddr (hDesc handle))
    | .ok d _ bs =>
      if !(upto (cmdLen w)).all (fun i => d.holds (hRow handle) (hCol handle + i)) then .bad 8 handle
      else
        let rows := (upto (cmdLen w * 32)).map (fun i =>
          (32 * i, d.rowAddr (hRow handle) (hCol handle + i / 32) (i % 32), 32))
        checkPos (fun bs x => s.checkMemPos bs .read x.1 x.2.1 x.2.2) rows bs
  else if fld (cmdWord w 2) 32 2 = 1 then s.checkSpadPos bs 0 (cmdSrc w) (cmdLen w) false
  else s.checkMemPos bs .read 0 (cmdSrc w) (cmdLen w)

/-- Check the destination range of a copy. -/
def State.copyDest (s : State) (w : List W64) (bs : List Binding) : PosChk :=
  if cmdOpc w = 1 ∨ cmdOpc w = 2 then s.checkSpadPos bs 0 (cmdWord w 1) (1024 * cmdLen w) true
  else if cmdOpc w = 3 then
    if cmdDst w / 2 ^ 32 ≠ 0 then .bad 2 (cmdDst w)
    else if cmdDst w / 2 ^ 23 ≠ 0 then .bad 3 (cmdDst w)
    else
      let ranks := (upto 4).filter (bitAt (cmdRmask w))
      checkPos (fun bs x => s.checkSpadPos bs 0 x.2.1 x.2.2 true)
        (ranks.map (fun r => (0, r * 2 ^ 23 + cmdDst w, cmdLen w))) bs
  else if fld (cmdWord w 2) 34 2 = 1 then s.checkSpadPos bs 0 (cmdDst w) (cmdLen w) true
  else s.checkMemPos bs .write 0 (cmdDst w) (cmdLen w)

/-- Check the two ranges of a command, the source in code position 0 and the destination in position 1,
and run `k` on their pieces (R166, R190). -/
def twoRanges (s : State) (h : Heat) (src dst : List Binding → PosChk)
    (k : State → List (Nat × Piece) → List (Nat × Piece) → Out) : Out :=
  let fail := fun (l : List (Nat × Nat × Nat)) =>
    Host.Outcome.next (s.raiseAddr (l.map (fun e => (e.1, e.2.1, BitVec.ofNat 72 e.2.2))))
  match src s.bindings with
  | .held v => .next (s.holdCheck h v)
  | .bad c a => match dst s.bindings with
    | .held v => .next (s.holdCheck h v)
    | .bad c' a' => fail [(0, c, a), (1, c', a')]
    | .ok _ _ => fail [(0, c, a)]
  | .ok ps bs => match dst bs with
    | .held v => .next (s.holdCheck h v)
    | .bad c a => fail [(1, c, a)]
    | .ok ds bs' => k { s with bindings := bs' } ps ds

/-- The descriptor that a CPYT has used enters the core's cache (R343). -/
def State.noteCopyDesc (s : State) (stride : Nat) (w : List W64) : State :=
  let d := hDesc (cmdWord w 0)
  if cmdOpc w = 1 ∨ cmdOpc w = 2 then
    match s.useDesc s.bindings stride d with
    | .ok _ b _ => s.cacheDesc stride d b
    | _ => s
  else s

/-- Check a copy command and push it into q0 (R189, R190). -/
def copyCommand (s : State) (h : Heat) (t : Nat) (w : List W64) : Out :=
  let csize := match s.team? t with
    | some x => x.csize
    | none => 1
  if copyFormatBad csize w then .next (s.raise 0x0C 0)
  else twoRanges s h (s.copySource h.stride.toNat w) (s.copyDest w) (fun s src dst =>
    if Config.queueDepth ≤ (h.queue 0).length then .next (s.hold h (.retryQueue 16) 6)
    else
      pushCommand (s.noteCopyDesc h.stride.toNat w) h 0 (src.any (fun p => p.2.closes false) || dst.any (fun p => p.2.closes true))
        (fun h s => [s.entry h ((upto 4).map (fun i => (i, w.getD i 0#64))) 0xF#32])
        (fun s => s.newRec src dst))

/-- A copy instruction of operation `opc` (R189): the block s(A) to s(A + 3) with OPC and CQ placed in
word 3. -/
def copyWord (opc : Nat) (q a : BitVec 4) (s : State) : Out :=
  heatWord s [] [(quadReg a, 4)] (fun h => teamOnly s (fun t =>
    let w3 := ((h.sr (quadReg a + 3)) &&& ~~~0xFF0000#64) |||
      BitVec.ofNat 64 (q.toNat * 2 ^ 20 + opc * 2 ^ 16)
    copyCommand s h t [h.sr (quadReg a), h.sr (quadReg a + 1), h.sr (quadReg a + 2), w3]))

/-- CPY (R189): copy LEN bytes. -/
def execCpy (q a : BitVec 4) (s : State) : Out := copyWord 0 q a s

/-- CPYT_ROW (R189): copy tiles, rows to rows. -/
def execCpytRow (q a : BitVec 4) (s : State) : Out := copyWord 1 q a s

/-- CPYT_COL (R189): copy tiles, transposed. -/
def execCpytCol (q a : BitVec 4) (s : State) : Out := copyWord 2 q a s

/-- CPYM (R189): copy LEN bytes into several ranks' scratchpads. -/
def execCpym (q a : BitVec 4) (s : State) : Out := copyWord 3 q a s

/-! ### Gather and scatter commands (R195–R197) -/

/-- A header word (R197). -/
def gatherHeader (kind size queue : Nat) : W64 := BitVec.ofNat 64 (kind + 16 * size + 64 * queue)

/-- Whether a header word is malformed: reserved bits, a kind, size or reply queue it may not name. -/
def headerBad (w : W64) : Bool :=
  let k := fld w.toNat 0 4
  let q := fld w.toNat 6 4
  decide (1 < k) || decide (fld w.toNat 4 2 = 3) || fld w.toNat 10 54 != 0 ||
    !(q == 3 || decide (8 ≤ q) || (k == 1 && q == 0))

/-- The incomplete sequence at the end of q2 (fuel: its length). -/
def partialSeq : Nat → List QEntry → List QEntry
  | 0, _ => []
  | _ + 1, [] => []
  | f + 1, e :: t =>
    let n := seqLength (mget 0#64 e.vals 0)
    if (e :: t).length < n then e :: t else partialSeq f ((e :: t).drop n)

/-- Check the element accesses of a complete sequence (R164, R195) and run `k` on their pieces, lane by
lane. -/
def gatherRange (s : State) (h : Heat) (mask : Mask) (addrs : FMap W64) (size : Nat) (write : Bool)
    (k : State → List (Nat × Piece) → Out) : Out :=
  let addr := fun l => (mget 0#64 addrs l).setWidth 72
  match checkAll (fun bs l => s.checkMem bs s.curWho (addr l) size (if write then .write else .read)
      true) addr (lanesOf mask) s.bindings with
  | .held v => .next (s.holdCheck h v)
  | .bad l => .next (s.raiseAddr l)
  | .ok ts bs => k { s with bindings := bs } ((upto ts.length).map (fun i =>
      (size * i, match (ts.getD i (0, .spad 0 0)).2 with
        | .mem pa leaf => Piece.mem pa size leaf (addr (ts.getD i (0, .spad 0 0)).1).toNat
        | .fab dev off => Piece.fab dev off size
        | .spad t off => Piece.spad t off size)))

/-- Push a gather or scatter: `es` its entries, the header word first (R195, R196). A GTH or SCT after
an incomplete pushed sequence breaks the sequence and raises the command-format fault. -/
def gatherCommand (s : State) (h : Heat) (header : W64) (mask : Mask) (addrs : FMap W64)
    (es : Heat → State → List QEntry) : Out :=
  let size := elemSize (fld header.toNat 4 2)
  let write := fld header.toNat 0 4 == 1
  if !(partialSeq 20 h.gatherList).isEmpty then .next (s.raise 0x0C 0)
  else gatherRange s h mask addrs size write (fun s ps =>
    if Config.queueDepth < (h.queue 2).length + seqLength header then
      .next (s.hold h (.retryQueue 18) 6)
    else pushCommand s h 2 (ps.any (fun p => p.2.closes write)) es
      (fun s => if write then s.newRec [] ps else s.newRec ps []))

/-- The addresses of the taking lanes. -/
def Heat.pairVals (h : Heat) (m : Mask) (r : Nat) : FMap W64 :=
  (lanesOf m).map (fun l => (l, h.pair r l))

/-- GTH of an element size code. -/
def gth (size : Nat) (q : BitVec 4) (a : BitVec 6) (p : BitVec 1) (s : State) : Out :=
  heatWord s [(pairReg a, 2)] [] (fun h => teamOnly s (fun _ =>
    let m := h.taking s.cur.active p.toNat
    if m = 0#32 then .next (s.finish h)
    else
      let header := gatherHeader 0 size q.toNat
      let addrs := h.pairVals m (pairReg a)
      gatherCommand s h header m addrs (fun h s =>
        [s.entry h [(0, header)] 1#32, s.entry h addrs m])))

/-- GTH_B32 (R195): gather 4-byte elements. -/
def execGthB32 (q : BitVec 4) (a : BitVec 6) (p : BitVec 1) (s : State) : Out := gth 0 q a p s

/-- GTH_B64 (R195): gather 8-byte elements. -/
def execGthB64 (q : BitVec 4) (a : BitVec 6) (p : BitVec 1) (s : State) : Out := gth 1 q a p s

/-- GTH_B128 (R195): gather 16-byte elements. -/
def execGthB128 (q : BitVec 4) (a : BitVec 6) (p : BitVec 1) (s : State) : Out := gth 2 q a p s

/-- SCT of an element size code; `n` data registers from `b`. -/
def sct (size n b : Nat) (q : BitVec 4) (a : BitVec 6) (p : BitVec 1) (s : State) : Out :=
  heatWord s [(pairReg a, 2), (b, n)] [] (fun h => teamOnly s (fun _ =>
    let m := h.taking s.cur.active p.toNat
    if m = 0#32 then .next (s.finish h)
    else
      let header := gatherHeader 1 size q.toNat
      let addrs := h.pairVals m (pairReg a)
      let data := fun (f : Nat → W64) => (lanesOf m).map (fun l => (l, f l))
      gatherCommand s h header m addrs (fun h s =>
        [s.entry h [(0, header)] 1#32, s.entry h addrs m,
          s.entry h (data (fun l => if n = 1 then (h.v b l).setWidth 64 else h.pair b l)) m] ++
        (if n = 4 then [s.entry h (data (h.pair (b + 2))) m] else []))))

/-- SCT_B32 (R196): scatter 4-byte elements. -/
def execSctB32 (q : BitVec 4) (a : BitVec 6) (b : BitVec 7) (p : BitVec 1) (s : State) : Out :=
  sct 0 1 b.toNat q a p s

/-- SCT_B64 (R196): scatter 8-byte elements. -/
def execSctB64 (q : BitVec 4) (a b : BitVec 6) (p : BitVec 1) (s : State) : Out :=
  sct 1 2 (pairReg b) q a p s

/-- SCT_B128 (R196): scatter 16-byte elements. -/
def execSctB128 (q : BitVec 4) (a : BitVec 6) (b : BitVec 5) (p : BitVec 1) (s : State) : Out :=
  sct 2 4 (quadReg b) q a p s

/-! ### The copy engine (R192–R194) -/

/-- COPY_ENGINE_ACCEPT (R192): the core's copy engine takes the next command in rotation by HEATID. -/
def execEvCopyEngineAccept (core : Nat) (s : State) : Out :=
  match nextServed (s.engineHeats core (fun h => !(h.queue 0).isEmpty)) (s.core core).copyLast with
  | none => .next s
  | some (heat, t) => match s.heat? t heat with
    | none => .next s
    | some h => match h.queue 0 with
      | [] => .next s
      | e :: _ =>
        let s1 := s.putCore core { s.core core with copyLast := (heat, t) }
        .next (s1.accept 0 [e.id] (copyCmd core t heat e (h.copyRec e.id))).tick

/-- MMAs of a team's cluster may have become ready (R273). -/
def State.markCluster (s : State) (t : Nat) : State := (s.clusterOf t).foldl State.markReady s

/-- SCRATCHPAD_LINE_WRITTEN (R191, R192, R328, R330): the next line that awaits restore is written back; else the
first accepted copy due on the line writes it, once it has its source. -/
def execEvScratchpadLineWritten (team line : Nat) (s : State) : Out :=
  match s.team? team with
  | none => .next s
  | some x =>
    if x.restoring.contains line then
      (if x.restoring.head? = some line then
        .next ((s.putTeam team { x with restoring := x.restoring.drop 1 }).markCluster team).tick
      else .next s)
    else match s.engines.find? (fun c => c.opc != 6 && c.lines.contains (team, line)) with
      | none => .next s
      | some c =>
        if c.buf.isSome && c.todo.isEmpty && !s.lineWriter c.id (team, line) then
          .next ((s.writeLine c (team, line)).markCluster team).tick
        else .next s

/-- The status of a copy that has been written (R193). -/
def EngCmd.status (c : EngCmd) : Nat :=
  if !c.bads.isEmpty then 1 else if c.refused || !c.skips.isEmpty then 2 else 0

/-- The next access of an engine for a command, after which MMAs may have become ready. -/
def State.engineStep (s : State) (c : EngCmd) : State :=
  match s.stepCmd c with
  | some s1 => (s1.markCluster c.team).tick
  | none => s

/-- COPY_COMPLETE (R193): the engine goes on with a copy; when its bytes have performed and every fabric part is
answered its completion word is pushed, as soon as its queue has room. -/
def execEvCopyComplete (id : Nat) (s : State) : Out :=
  match s.engines.find? (fun c => c.id == id && decide (c.opc < 4)) with
  | none => .next s
  | some c =>
    if !c.written then .next (s.engineStep c)
    else .next (s.replyCmd { c with outs := if c.queue = 0 then []
      else [(c.queue, { completionWord c.status c.opc c.tag with lap := c.lap })] })

/-! ### The gather engine (R195–R197) -/

/-- GATHER_ENGINE_ACCEPT (R194, R195): the core's gather engine takes the next complete sequence. -/
def execEvGatherEngineAccept (core : Nat) (s : State) : Out :=
  match nextServed (s.engineHeats core (fun h => !(headSeq h.gatherList).isEmpty)) (s.core core).gatherLast with
  | none => .next s
  | some (heat, t) => match s.heat? t heat with
    | none => .next s
    | some h =>
      let es := headSeq h.gatherList
      let s1 := s.putCore core { s.core core with gatherLast := (heat, t) }
      .next (s1.accept 2 (es.map (·.id)) (gatherCmd core t heat es (h.copyRec (es.getLastD {}).id))).tick

/-- The entries of a sequence that a q2 holds incomplete as its team stops go to the gather engine, which keeps them
with the heat (R194). -/
def Heat.takePartial (h : Heat) : Heat :=
  if (headSeq h.gatherList).isEmpty then { h with gseq := h.gatherList, queues := mdel h.queues 2 } else h

/-- Whether the j-th element of a gather carries an uncorrectable error. -/
def EngCmd.elemBad (c : EngCmd) (j : Nat) : Bool := c.badIn (c.elem * j) c.elem

/-- The result entries of a gather (R195): one entry, or two for 16-byte elements; a lane whose element
carries an uncorrectable error receives no value. -/
def gatherOuts (c : EngCmd) : List QEntry :=
  let lanes := lanesOf c.mask
  let b := c.buf.getD []
  let good := (upto lanes.length).filter (fun i => !c.elemBad i)
  let mask := maskOf (fun l => good.any (fun i => lanes.getD i 32 == l))
  let part := fun (k w : Nat) => good.map (fun i =>
    (lanes.getD i 0, BitVec.ofNat 64 (ofBytes ((b.drop (c.elem * i + k)).take w))))
  let e : QEntry := { mask := mask, lap := c.lap }
  if c.elem = 16 then [{ e with vals := part 0 8 }, { e with vals := part 8 8 }]
  else [{ e with vals := part 0 c.elem }]

/-- Record of an uncorrectable-data fault of an engine read (R167, R473, R475): the failing lanes and the lowest
failing element's address. -/
def EngCmd.fault (c : EngCmd) : TrapRec :=
  let lanes := lanesOf c.mask
  let bad := (upto lanes.length).filter c.elemBad
  { cls := 0x20, heat := c.heat, isAsync := true, hdr := c.hdr, idx := c.idx, word := c.word, info := 1#64
    stride := BitVec.ofNat 64 c.stride
    mask := maskOf (fun l => bad.any (fun i => lanes.getD i 32 == l))
    addr := match bad with
      | [] => 0#72
      | i :: _ => match c.src.find? (fun p => p.1 == c.elem * i) with
        | some (_, .mem _ _ _ va) => BitVec.ofNat 72 va
        | _ => 0#72 }

/-- GATHER_RESULT (R195): the engine reads the next element; when it has them all it pushes the results. -/
def execEvGatherResult (id : Nat) (s : State) : Out :=
  match s.engines.find? (fun c => c.id == id && c.opc == 5) with
  | none => .next s
  | some c =>
    if !c.outs.isEmpty then .next (s.replyCmd c)
    else if !c.written then .next (s.engineStep c)
    else
      let c := { c with outs := (gatherOuts c).map (fun e => (c.queue, e)) }
      let s1 := (s.putCmd c).replyCmd c
      .next (if c.bads.isEmpty then s1.tick else (s1.raiseAsync c.team c.fault).tick)

/-- SCATTER_COMPLETE (R196): the engine writes the elements in lane order, a sector of them at once, then pushes the
completion word. -/
def execEvScatterComplete (id : Nat) (s : State) : Out :=
  match s.engines.find? (fun c => c.id == id && c.opc == 4) with
  | none => .next s
  | some c =>
    if !c.written then .next (s.engineStep c)
    else .next (s.replyCmd { c with outs := if c.queue = 0 then [] else [(c.queue, { completionWord 0 4 0 with lap := c.lap })] })

end Sys2Proof.Machine
end

