-- ==== Sys2Proof/Machine/Relay.lean ====
section
/-! DEFINITION. Relay operations (R237–R242) and the relay of requester and owner (R446–R457). -/

namespace Sys2Proof.Machine

/-- BEFORE(a, b) modulo 2^32 (R447). -/
def before (a b : W32) : Bool := decide (1 ≤ (b - a).toNat ∧ (b - a).toNat ≤ 2 ^ 31 - 1)

/-- BEFORE on a context generation. -/
def before16 (a b : BitVec 16) : Bool := decide (1 ≤ (b - a).toNat ∧ (b - a).toNat ≤ 2 ^ 15 - 1)

/-! ### Issue (R237) -/

/-- The checks of R164 for a relay operation: a local address fails check 2. -/
def State.checkRelay (s : State) (bs : List Binding) (a : Addr) (n : Nat) : Chk :=
  if a.toNat % n ≠ 0 then .bad 1
  else if !a.getLsbD 71 then .bad 2
  else s.checkFabric bs a n

/-- A stream of the issuing context; at first use it takes the owner's known incarnation (R446). -/
def State.stream (s : State) (asid dev : Nat) : Stream :=
  match s.ctx? asid with
  | none => {}
  | some c =>
    let x := mget {} c.streams dev
    if x.used then x else { x with used := true, oinc := (mget {} s.domain dev).incarn }

/-- Unacknowledged serials of a stream (R237). -/
def Stream.unacked (x : Stream) : Nat := (x.next - 1#32 - x.ackt).toNat

/-- The request packet of an operation (R448). -/
def State.request (s : State) (asid : Nat) (x : Stream) (o : RelayOp) (again : Bool) : Packet :=
  { kind := 1, op := o.op, srcdev := s.self, asid := asid
    cgen := match s.ctx? asid with
      | some c => c.cgen
      | none => 0#16
    serial := o.serial, ackthr := x.ackt, oinc := o.oinc, offset := o.offset, x := o.x, y := o.y
    retrans := again }

/-- Give one operation the next serial of its stream and send it (R446, R454). -/
def State.sendOp (s : State) (asid dev : Nat) (o : RelayOp) : State :=
  let x := s.stream asid dev
  let o := { o with serial := x.next, oinc := x.oinc }
  let x' := { x with next := x.next + 1#32, ops := x.ops ++ [o] }
  (s.modStream asid dev (fun _ => x')).sendPacket dev (s.request asid x' o false)

/-- The device and offset of a fabric target. -/
def Target.dev (t : Target) : Nat × Nat :=
  match t with
  | .fab d o => (d, o)
  | _ => (0, 0)

/-- Whether the streams to the targets, or the relay completion area, have no room (R237, R241). -/
def State.relayFull (s : State) (ts : List (Nat × Target)) : Bool :=
  (match s.ctx? s.curAsid with
    | some c => decide (Config.relayCompletions ≤ c.relayArea.length)
    | none => false) ||
  ts.any (fun t => decide (Config.relayWindow < (s.stream s.curAsid t.2.dev.1).unacked +
    (ts.filter (fun u => u.2.dev.1 == t.2.dev.1)).length))

/-- Whether a lane of the issuing heat has a plain fabric access that is not answered: a relay operation comes after
it (R239). -/
def State.fabOpen (s : State) (l : Nat) : Bool :=
  s.fabric.any (fun q => !q.engine && q.team == s.curKey && q.heat == s.curHeatId && inMask q.mask l)

/-- Send the operations of the taking lanes in ascending order; a checker's are digest records (R237, R511). -/
def State.sendOps (s : State) (h : Heat) (t op n : Nat) (addr : Nat → Addr) (xy : Heat → Nat → W64 × W64)
    (ts : List (Nat × Target)) : State :=
  if s.mute ∨ (s.team? t).any (fun x => x.sampled) then
    let s1 := ts.foldl (fun (s : State) x => s.noteDigest t s.curHeatId 7 (addr x.1).toNat n
      (op + 256 * ((xy h x.1).1.toNat + 2 ^ 64 * (xy h x.1).2.toNat))) s
    if s.mute then s1 else ts.foldl (fun s x => s.sendOp s.curAsid x.2.dev.1 (opOf s h t op xy x)) s1
  else ts.foldl (fun s x => s.sendOp s.curAsid x.2.dev.1 (opOf s h t op xy x)) s
where
  /-- The operation of a lane. -/
  opOf (s : State) (h : Heat) (t op : Nat) (xy : Heat → Nat → W64 × W64) (x : Nat × Target) : RelayOp :=
    { op := op, offset := x.2.dev.2, x := (xy h x.1).1, y := (xy h x.1).2
      team := t, heat := s.curHeatId, lane := x.1, stamp := s.stamp, lap := s.curLap }

/-- A relay operation (R237): the checks, room in the windows, the lane's earlier accesses (R239), a commit point,
then one operation per taking lane in ascending order. `dest` names the result registers and LA. -/
def relayWord (op n : Nat) (uses : List (Nat × Nat)) (dest : Option (Nat × Nat × Nat)) (a : BitVec 4)
    (o : BitVec 7) (p : BitVec 1) (xy : Heat → Nat → W64 × W64) (s : State) : Out :=
  heatWord s (uses ++ ofsUse o) [] (fun h => teamOnly s (fun t =>
    let lanes := lanesOf (h.taking s.cur.active p.toNat)
    let addr := fun l => h.laneAddr a o l
    let run := accessLanes s h lanes n addr (fun bs l => s.checkRelay bs (addr l) n) (fun s ts =>
      if !s.mute && s.relayFull ts then .next (s.hold h .retrySlot 6)
      else if ts.any (fun x => s.fabOpen x.1) then .next (s.hold h .none 8)
      else commitPoint s h (fun s h =>
        let s1 := s.sendOps h t op n addr xy ts
        let h1 := match dest with
          | none => h
          | some (d, w, la) => { h with slots := h.slots ++ [{ s.newSlot h (.vec d w) la with
              vals := ts.map (fun x => (x.1, 0)), waiting := ts.length, isLoad := false, isRemote := true }] }
        .next ((s1.count s.cur.core 11 ts.length).finish h1).endLap))
    if lanes.isEmpty then commitOnly s h
    else match dest with
      | some _ => needSlot s h run
      | none => run))

/-- A RATOM with operand pair(D). -/
def ratom (op : Nat) (d : BitVec 6) (a : BitVec 4) (o : BitVec 7) (l : BitVec 4) (p : BitVec 1)
    (s : State) : Out :=
  relayWord op 8 [(pairReg d, 2)] (some (pairReg d, 2, l.toNat)) a o p
    (fun h x => (h.pair (pairReg d) x, 0#64)) s

/-- RATOM_ADD (R238): (old + x) mod 2^64 at the owner. -/
def execRatomAdd (d : BitVec 6) (a : BitVec 4) (o : BitVec 7) (l : BitVec 4) (p : BitVec 1)
    (s : State) : Out := ratom 0 d a o l p s

/-- RATOM_MAX (R238): signed 64-bit maximum at the owner. -/
def execRatomMax (d : BitVec 6) (a : BitVec 4) (o : BitVec 7) (l : BitVec 4) (p : BitVec 1)
    (s : State) : Out := ratom 1 d a o l p s

/-- RATOM_CAS (R238): compare pair(D), new pair(D + 2), at the owner. -/
def execRatomCas (d : BitVec 5) (a : BitVec 4) (o : BitVec 7) (l : BitVec 4) (p : BitVec 1)
    (s : State) : Out :=
  relayWord 2 8 [(quadReg d, 4)] (some (quadReg d, 2, l.toNat)) a o p
    (fun h x => (h.pair (quadReg d) x, h.pair (quadReg d + 2) x)) s

/-- RATOM_EXCH (R238): exchange at the owner. -/
def execRatomExch (d : BitVec 6) (a : BitVec 4) (o : BitVec 7) (l : BitVec 4) (p : BitVec 1)
    (s : State) : Out := ratom 3 d a o l p s

/-- RRED_ADD_B64 (R238): (old + x) mod 2^64 at the owner. -/
def execRredAddB64 (src : BitVec 6) (a : BitVec 4) (o : BitVec 7) (p : BitVec 1) (s : State) : Out :=
  relayWord 4 8 [(pairReg src, 2)] none a o p (fun h x => (h.pair (pairReg src) x, 0#64)) s

/-- RRED_ADD_F32 (R238): FP32 addition at the owner. -/
def execRredAddF32 (src : BitVec 7) (a : BitVec 4) (o : BitVec 7) (p : BitVec 1) (s : State) : Out :=
  relayWord 5 4 [(src.toNat, 1)] none a o p (fun h x => ((h.v src.toNat x).setWidth 64, 0#64)) s

/-- RHARR (R238): (old + 1) mod 2^64 at the owner. -/
def execRharr (a : BitVec 4) (o : BitVec 7) (p : BitVec 1) (s : State) : Out :=
  relayWord 6 8 [] none a o p (fun _ _ => (0#64, 0#64)) s

/-- RLAUNCH (R238): the owner's starter takes the launch record at the address. -/
def execRlaunch (d : BitVec 7) (a : BitVec 4) (o : BitVec 7) (l : BitVec 4) (p : BitVec 1)
    (s : State) : Out :=
  relayWord 7 128 [(d.toNat, 1)] (some (d.toNat, 1, l.toNat)) a o p (fun _ _ => (0#64, 0#64)) s

/-- Send an acknowledgement packet on every stream of a context whose ack-through has advanced since it
was last sent (R242). -/
def State.sendAcks (s : State) (asid : Nat) : State :=
  match s.ctx? asid with
  | none => s
  | some c => c.streams.foldl (fun s e =>
      if e.2.used ∧ e.2.ackt ≠ e.2.lastAck then
        (s.modStream asid e.1 (fun x => { x with lastAck := x.ackt })).sendPacket e.1
          { kind := 3, srcdev := s.self, asid := asid, cgen := c.cgen, ackthr := e.2.ackt }
      else s) s

/-- RACK (R242): acknowledge every stream whose ack-through has advanced. -/
def execRack (s : State) : Out :=
  heatWord s [] [] (fun h => teamOnly s (fun _ =>
    .next ((if s.mute then s else s.sendAcks s.curAsid).finish h)))

/-! ### Packets (R448) -/

/-- A packet from its 64 bytes; none when it breaks a field rule. -/
def parsePacket (b : List Byte) : Option Packet :=
  let n := ofBytes b
  let p : Packet := {
    kind := fld n 0 8, op := fld n 8 8, srcdev := fld n 16 10, asid := fld n 32 10
    cgen := BitVec.ofNat 16 (fld n 48 16), serial := BitVec.ofNat 32 (fld n 64 32)
    ackthr := BitVec.ofNat 32 (fld n 96 32), oinc := BitVec.ofNat 32 (fld n 128 32)
    srcinc := BitVec.ofNat 32 (fld n 160 32), offset := fld n 192 61
    x := BitVec.ofNat 64 (fld n 256 64), y := BitVec.ofNat 64 (fld n 320 64)
    retrans := bitAt n 384, reason := fld n 392 8 }
  if b.length ≠ 64 ∨ fld n 26 6 ≠ 0 ∨ fld n 42 6 ≠ 0 ∨ fld n 253 3 ≠ 0 ∨ fld n 385 7 ≠ 0 ∨
      fld n 400 112 ≠ 0 then none
  else if p.kind = 1 then
    (if p.op < 8 ∧ (p.op = 2 ∨ p.y = 0#64) then some p else none)
  else if p.kind = 2 then
    (if p.op < 5 ∧ p.y = 0#64 ∧ p.reason < 8 then some p else none)
  else if p.kind = 3 ∨ p.kind = 4 then
    (if p.serial = 0#32 ∧ p.y = 0#64 then some p else none)
  else none

/-- The die whose relay serves a stream (R450). -/
def relayDie (srcdev asid : Nat) : Nat := (srcdev.xor asid) % 2

/-- A packet that breaks a rule is dropped and counted by the receiving relay (R448): that of its stream's die, as
its bytes name it (assumption log entry 71). -/
def State.dropPacket (s : State) (b : List Byte) : State :=
  let die := relayDie (ofBytes ((b.drop 2).take 2)) (ofBytes ((b.drop 4).take 2))
  { s with relayErrors := mset 0#64 s.relayErrors die (mget 0#64 s.relayErrors die + 1#64) }.tick

/-! ### The owner (R450–R453) -/

/-- Key of a stream record. -/
def ownerKey (p : Packet) : Nat := 1024 * p.srcdev + p.asid

/-- ACK(rec, a) (R452). -/
def OwnerRec.ack (r : OwnerRec) (a : W32) : OwnerRec :=
  if before r.a a then
    let e := if before a r.e then r.e else a + 1#32
    { r with
      cache := r.cache.filter (fun c => !(before c.1 a || c.1 == a)), a := a, e := e
      held := r.held.filter (fun p => !(before p.serial a || p.serial == a)) }
  else r

/-- How an access that reaches this device through the fabric fares (R442, R443): a refusal reason, or its physical
pieces as address and length. Reason 7: the page is being migrated. -/
inductive Arrival where
  | refuse (reason : Nat)
  | ok (ps : List (Nat × Nat)) (asid : Nat)
  deriving DecidableEq, Repr

/-- Translate a range of a context page by page (R442, R443); fuel: pages. -/
def State.arrivalPages (s : State) (asid : Nat) (k : Access) : Nat → Nat → Nat → Arrival
  | 0, _, _ => .ok [] asid
  | f + 1, va, n =>
    if n = 0 then .ok [] asid
    else
      let step := min n (65536 - va % 65536)
      match s.translate asid va with
      | .page _ size leaf =>
        if pteMig leaf = 1 then .refuse 7
        else if !permits k leaf then .refuse 3
        else if pteSw leaf ≠ 3 then .refuse 4
        else match s.arrivalPages asid k f (va + step) (n - step) with
          | .refuse r => .refuse r
          | .ok ps a => .ok ((pageAddr leaf size va, step) :: ps) a
      | _ => .refuse 2

/-- Check and translate a range of exported offsets (R442, R443): an address of the range is VABASE plus the distance
from OFFBASE. -/
def State.arrival (s : State) (offset n : Nat) (k : Access) : Arrival :=
  match s.exports.find? (fun e => e.2.valid && decide (e.2.offbase ≤ offset ∧ offset + n ≤ e.2.offbase + e.2.len)) with
  | none => .refuse 1
  | some (_, e) => match s.ctx? e.asid with
    | none => .refuse 5
    | some c =>
      if c.removing then .refuse 5
      else s.arrivalPages e.asid k (n / 65536 + 2) (e.vabase + (offset - e.offbase)) n

/-- An uncorrectable table word met in the translation of an access that arrives goes to the black box (R491). -/
def State.noteArrival (s : State) (offset : Nat) : State :=
  match s.exports.find? (fun e => e.2.valid && decide (e.2.offbase ≤ offset ∧ offset < e.2.offbase + e.2.len)) with
  | none => s
  | some (_, e) => s.noteTranslate e.asid (e.vabase + (offset - e.offbase))

/-- Whether pieces must be waited for (R183, R192). -/
def State.arrivalWaits (s : State) (ps : List (Nat × Nat)) : Bool := ps.any (fun p => s.rangeWaits p.1 p.2)

/-- Whether pieces carry an uncorrectable error. -/
def State.arrivalBad (s : State) (ps : List (Nat × Nat)) : Bool := ps.any (fun p => s.bytesBad p.1 p.2)

/-- The bytes of pieces. -/
def State.arrivalBytes (s : State) (ps : List (Nat × Nat)) : List Byte := ps.flatMap (fun p => readBytes s.mem p.1 p.2)

/-- Write pairs of pieces from consecutive bytes. -/
def piecePairs : List (Nat × Nat) → List Byte → List (Nat × Byte)
  | [], _ => []
  | p :: t, d => pairsAt p.1 (d.take p.2) ++ piecePairs t (d.drop p.2)

/-- The size of the access of an operation. -/
def relaySize (op : Nat) : Nat := if op = 5 then 4 else if op = 7 then 128 else 8

/-- The new value of an operation (R238). -/
def relayNew (op old : Nat) (x y : W64) : Nat :=
  match op with
  | 0 => (old + x.toNat) % 2 ^ 64
  | 1 => if sextN 64 old < sextN 64 x.toNat then x.toNat else old
  | 2 => opCas x.toNat y.toNat old
  | 3 => x.toNat
  | 4 => (old + x.toNat) % 2 ^ 64
  | 5 => opAddF (x.toNat % 2 ^ 32) old
  | _ => (old + 1) % 2 ^ 64

/-- Carry out an operation at this device: the state and (status, reason, result), status 4 for
RETRY_LATER (R238, R451). -/
def State.runRelay (s : State) (p : Packet) : State × Nat × Nat × W64 :=
  let n := relaySize p.op
  match s.arrival p.offset n (if p.op = 7 then .read else .write) with
  | .refuse 7 => (s, 4, 7, 0#64)
  | .refuse r => (s, 3, r, 0#64)
  | .ok ps asid =>
    if s.arrivalBad ps then (s, 3, 6, 0#64)
    else if p.op = 7 then
      let r := parseRecord (s.arrivalBytes ps)
      if r.code ≠ 0 then (s, 0, 0, 0xFFFFFFFF#64)
      else if s.queueFull r.queue then (s, 4, 0, 0#64)
      else
        let s := s.createGrid r asid none 0 0
        (s, 0, 0, s.lastGrid.setWidth 64)
    else
      let old := ofBytes (s.arrivalBytes ps)
      let s := s.perform (piecePairs ps (toBytes n (relayNew p.op old p.x p.y)))
      (s, 0, 0, if p.op ≤ 3 then BitVec.ofNat 64 old else 0#64)

/-- Whether the bytes an operation touches must be waited for (R183, R192). -/
def State.relayWaits (s : State) (p : Packet) : Bool :=
  match s.arrival p.offset (relaySize p.op) (if p.op = 7 then .read else .write) with
  | .ok ps _ => s.arrivalWaits ps
  | _ => false

/-- Reply to a request. -/
def State.respond (s : State) (p : Packet) (status reason : Nat) (result : W64) : State :=
  s.sendPacket p.srcdev { p with
    kind := 2, op := status, oinc := s.incarnation, x := result, y := 0#64, retrans := false, reason := reason }

/-- Cache entries of every stream. -/
def State.cacheCount (s : State) : Nat := s.owners.foldl (fun n e => n + e.2.cache.length) 0

/-- EXECUTE of R451 for a request whose serial is next; answers whether E advanced. -/
def State.execute (s : State) (p : Packet) : State × Bool :=
  if 4194304 ≤ s.cacheCount then (s.respond p 4 0 0#64, false)
  else
    let r := s.runRelay p
    if r.2.1 = 4 then (r.1.respond p 4 r.2.2.1 0#64, false)
    else
      let s := r.1
      let rec_ := mget {} s.owners (ownerKey p)
      let rec_ := { rec_ with
        e := p.serial + 1#32, held := rec_.held.filter (fun q => q.serial != p.serial)
        cache := rec_.cache ++ [(p.serial, r.2.1, r.2.2.1, r.2.2.2)] }
      ({ s with owners := mput s.owners (ownerKey p) rec_ }.respond p r.2.1 r.2.2.1 r.2.2.2, true)

/-- Execute the held requests that have become next (fuel: their number); one whose bytes must be waited for stays
held (R192, R354). -/
def State.executeHeld (s : State) (key : Nat) : Nat → State
  | 0 => s
  | f + 1 =>
    let rec_ := mget {} s.owners key
    match rec_.held.find? (fun p => p.serial == rec_.e) with
    | none => s
    | some p =>
      if s.relayWaits p then s
      else
        let r := s.execute p
        if r.2 then r.1.executeHeld key f else r.1

/-- Requests held by the relay of a die. -/
def State.heldCount (s : State) (die : Nat) : Nat :=
  s.owners.foldl (fun n e => if relayDie (e.1 / 1024) (e.1 % 1024) = die then n + e.2.held.length else n) 0

/-- A request reaches the owner (R451). -/
def State.ownerRequest (s : State) (p : Packet) : State :=
  let key := ownerKey p
  if p.oinc ≠ s.incarnation then s.respond p 2 0 0#64
  else
    let old := mfind s.owners key
    let older := match old with
      | some r => before p.srcinc r.srcinc || (p.srcinc == r.srcinc && before16 p.cgen r.cgen)
      | none => false
    let same := match old with
      | some r => p.srcinc == r.srcinc && p.cgen == r.cgen
      | none => false
    if older then s.respond p 1 0 0#64
    else if old.isNone ∧ 65536 ≤ s.owners.length then s.respond p 4 0 0#64
    else
      let fresh : OwnerRec := { srcinc := p.srcinc, cgen := p.cgen, e := p.ackthr + 1#32, a := p.ackthr }
      let r := (if same then old.getD fresh else fresh).ack p.ackthr
      let s := { s with owners := mput s.owners key r }
      if !before r.a p.serial then s.respond p 1 0 0#64
      else if before p.serial r.e then
        match r.cache.find? (fun c => c.1 == p.serial) with
        | some c => s.respond p c.2.1 c.2.2.1 c.2.2.2
        | none => s
      else if p.serial ≠ r.e then
        if 4096 ≤ s.heldCount (relayDie p.srcdev p.asid) ∨ r.held.any (fun q => q.serial == p.serial) then s
        else { s with owners := mput s.owners key { r with held := r.held ++ [p] } }
      else
        let x := s.execute p
        if x.2 then x.1.executeHeld key r.held.length else x.1

/-- RELAY_REQUEST_RECEIPT (R451): a request packet reaches this device's relay. -/
def execEvRelayRequestReceipt (packet : List (BitVec 8)) (s : State) : Out :=
  if !s.fabricUp then .next s
  else match parsePacket packet with
  | none => .next (s.dropPacket packet)
  | some p =>
    if p.kind ≠ 1 then .next s
    else if s.relayWaits p then .next s
    else .next ((s.noteArrival p.offset).ownerRequest p).tick

/-- RELAY_ACKNOWLEDGEMENT_RECEIPT (R452): ACK of the packet's ack-through. -/
def execEvRelayAcknowledgementReceipt (packet : List (BitVec 8)) (s : State) : Out :=
  if !s.fabricUp then .next s
  else match parsePacket packet with
  | none => .next (s.dropPacket packet)
  | some p =>
    if p.kind ≠ 3 then .next s
    else match mfind s.owners (ownerKey p) with
      | none => .next s.tick
      | some r =>
        if p.srcinc = r.srcinc ∧ p.cgen = r.cgen then
          .next { s with owners := mput s.owners (ownerKey p) (r.ack p.ackthr) }.tick
        else .next s.tick

/-- RELAY_CLOSE_RECEIPT (R457): the stream record goes; the answer is DONE with serial 0. -/
def execEvRelayCloseReceipt (packet : List (BitVec 8)) (s : State) : Out :=
  if !s.fabricUp then .next s
  else match parsePacket packet with
  | none => .next (s.dropPacket packet)
  | some p =>
    if p.kind ≠ 4 then .next s
    else
      let same := match mfind s.owners (ownerKey p) with
        | some r => p.srcinc == r.srcinc && p.cgen == r.cgen
        | none => false
      let s := if same then { s with owners := mdel s.owners (ownerKey p) } else s
      .next (s.respond p 0 0 0#64).tick

/-- RELAY_RESTART (R453): the relay of a die loses its held requests. -/
def execEvRelayRestart (die : Nat) (s : State) : Out :=
  .next { s with owners := s.owners.map (fun (e : Nat × OwnerRec) =>
    if relayDie (e.1 / 1024) (e.1 % 1024) = die % 2 then (e.1, { e.2 with held := [] }) else e) }.tick

/-! ### The requester (R454–R456) -/

/-- Registers of the result of an operation: RATOM returns 64 bits, RLAUNCH 32. -/
def relayReturns (op : Nat) : Bool := decide (op ≤ 3) || op == 7

/-- The relay completion area of a context holds these entries, oldest first, the 8 bytes of each from RELAYC on
(R241, R528; assumption log entry 72). -/
def State.putArea (s : State) (asid : Nat) (l : List (Nat × Nat × QEntry)) : State :=
  match s.ctx? asid with
  | none => s
  | some c =>
    let bytes := (l.take Config.relayCompletions).flatMap (fun e => toBytes 8 (e.2.2.vals.headD (0, 0#64)).2.toNat)
    (s.modCtx asid (fun c => { c with relayArea := l })).perform (pairsAt c.relayc bytes)

/-- Entries that a replay has still to deliver to a q6: none from the completion area comes before them (R484). -/
def Team.owesQ6 (x : Team) (heat : Nat) : Bool :=
  x.due.any (fun d => d.heat == heat && (match d.what with
    | .entry 6 _ => true
    | _ => false))

/-- Push a relay completion into the issuing heat's q6, or, while that is full or its team is out, into the relay
completion area (R240, R241, R456). What the spec does not say, a completion that finds q6 full and 4,096 entries in
the area: the model keeps it behind them (assumption log entry 72). -/
def State.relayReply (s : State) (asid : Nat) (o : RelayOp) (status : Nat) : State :=
  let e : QEntry := {
    vals := [(o.lane, BitVec.ofNat 64 (o.serial.toNat + status * 2 ^ 32))]
    mask := BitVec.ofNat 32 (2 ^ o.lane), id := s.stamp }
  match s.team? o.team, s.ctx? asid with
  | some x, some c =>
    if s.stale o.team o.heat o.stamp then s
    else
      let behind := c.relayArea.any (fun a => a.1 == o.team && a.2.1 == o.heat) || x.owesQ6 o.heat
      if x.core?.isSome ∧ !behind ∧ s.queueRoom o.team o.heat 6 then
        s.receive o.team o.heat o.lap (.entry 6 e) none true
      else (s.putArea asid (c.relayArea ++ [(o.team, o.heat, e)])).shareWith o.team o.heat (.entry 6 e)
  | _, _ => s

/-- Entries of the relay completion area enter the q6 of a team that is on a core, as far as they have room, in order
(R241); fuel: their number. -/
def State.refillQ6 (s : State) (t asid : Nat) : Nat → State
  | 0 => s
  | f + 1 =>
    match s.team? t, s.ctx? asid with
    | some x, some c => match c.relayArea.find? (fun e => e.1 == t && s.queueRoom t e.2.1 6 && !x.owesQ6 e.2.1) with
      | none => s
      | some e =>
        ((s.putArea asid (c.relayArea.erase e)).modTeam t (fun x =>
          x.receive e.2.1 s.stamp (.entry 6 e.2.2) none)).refillQ6 t asid f
    | _, _ => s

/-- `State.refillQ6` with every entry of the context. -/
def State.refill (s : State) (t : Nat) : State :=
  match s.team? t with
  | none => s
  | some x => match s.ctx? x.asid with
    | none => s
    | some c => if c.relayArea.isEmpty then s else s.refillQ6 t x.asid c.relayArea.length

/-- Complete the first operation of a stream, and those after it that have been answered (R454); fuel:
their number. -/
def State.relayDrain (s : State) (asid dev : Nat) : Nat → State
  | 0 => s.closeIdle asid
  | f + 1 =>
    match s.ctx? asid with
    | none => s
    | some c =>
      let x := mget {} c.streams dev
      match x.ops with
      | [] => s.closeIdle asid
      | o :: t => match o.answer with
        | none => s
        | some (status, v) =>
          let s := s.modStream asid dev (fun x => { x with ops := t, ackt := o.serial })
          let s := if relayReturns o.op then
              s.deliver o.team o.heat o.stamp o.lane (if status = 0 then v.toNat else 0)
            else s
          ((s.relayReply asid o status).tick).relayDrain asid dev f

/-- Answer an operation of a stream by its serial. -/
def Stream.answer (x : Stream) (serial : W32) (status : Nat) (v : W64) : Stream :=
  { x with ops := x.ops.map (fun o =>
      if o.serial = serial ∧ o.answer = none then { o with answer := some (status, v), retry := false } else o) }

/-- Whether a context is out: some team of it is swapped out and none is active (R456). -/
def State.contextOut (s : State) (asid : Nat) : Bool :=
  let ts := s.teams.filter (fun e => e.2.asid == asid)
  ts.any (fun e => e.2.res == .saved) && !ts.any (fun e => e.2.core?.isSome)

/-- An owner incarnation is learned (R455): operations sent with an older one end IN_DOUBT, but for contexts that are
swapped out, which follow at their restore (R456). -/
def State.learnIncarnation (s : State) (dev : Nat) (inc : W32) : State :=
  let d : DomEntry := mget {} s.domain dev
  let s := { s with domain := mput s.domain dev { d with incarn := inc } }
  (s.contexts.filter (fun e => !s.contextOut e.1)).foldl (fun s e =>
    match mfind e.2.streams dev with
    | none => s
    | some x =>
      let x := { x with
        oinc := inc
        ops := x.ops.map (fun o =>
          if before o.oinc inc ∧ o.answer = none then { o with answer := some (2, 0#64) } else o) }
      (s.modStream e.1 dev (fun _ => x)).relayDrain e.1 dev x.ops.length) s

/-- A response for a stream's operation; one to a request of an earlier incarnation of this device is discarded
(R448, R454). -/
def State.relayAnswer (s : State) (p : Packet) (dev : Nat) : State :=
  match s.ctx? p.asid with
  | none => s
  | some c =>
    let x := mget {} c.streams dev
    if c.cgen ≠ p.cgen ∨ p.srcinc ≠ s.incarnation ∨ !x.used then s
    else if x.closes.isSome then
      (if p.op = 0 ∧ p.serial = 0#32 ∧ x.ops.isEmpty then
        (s.modCtx p.asid (fun c => { c with streams := mdel c.streams dev })).closeIdle p.asid
      else s)
    else match p.op with
      | 1 => s
      | 4 => s.modStream p.asid dev (fun x => { x with ops := x.ops.map (fun o =>
          if o.serial = p.serial ∧ o.answer = none then { o with retry := true } else o) })
      | st =>
        let x' := x.answer p.serial st p.x
        (s.modStream p.asid dev (fun _ => x')).relayDrain p.asid dev x'.ops.length

/-- RELAY_RESPONSE_RECEIPT (R449, R454, R455): the packet is the responding device's number (2 bytes),
then the 64 bytes. -/
def execEvRelayResponseReceipt (packet : List (BitVec 8)) (s : State) : Out :=
  let dev := ofBytes (packet.take 2)
  if !s.fabricUp then .next s
  else match parsePacket (packet.drop 2) with
  | none => .next (s.dropPacket (packet.drop 2))
  | some p =>
    if p.kind ≠ 2 then .next s
    else
      let known := (mget {} s.domain dev).incarn
      if before p.oinc known then .next s.tick
      else
        let differs := p.oinc != known || (match s.ctx? p.asid with
          | some c => (mget {} c.streams dev).used && p.oinc != (mget {} c.streams dev).oinc
          | none => false)
        let s := if differs then s.learnIncarnation dev p.oinc else s
        .next (s.relayAnswer p dev).tick

/-- Change an unanswered operation. -/
def State.modOp (s : State) (asid dev : Nat) (serial : W32) (f : RelayOp → RelayOp) : State :=
  s.modStream asid dev (fun x => { x with ops := x.ops.map (fun o => if o.serial = serial then f o else o) })

/-- The unanswered operation of a stream with a serial. -/
def State.openOp (s : State) (asid dev : Nat) (serial : W32) : Option RelayOp :=
  match s.ctx? asid with
  | none => none
  | some c => (mget {} c.streams dev).ops.find? (fun o => o.serial == serial && o.answer.isNone)

/-- Send an operation again with bit 0 of FLAGS set. -/
def State.resendOp (s : State) (asid dev : Nat) (o : RelayOp) : State :=
  match s.ctx? asid with
  | none => s
  | some c => s.sendPacket dev (s.request asid (mget {} c.streams dev) o true)

/-- RELAY_RETRANSMISSION (R454): no response within 20 µs; after 16 retransmissions the serial
completes with TIMEOUT. -/
def execEvRelayRetransmission (asid dev : Nat) (serial : BitVec 32) (s : State) : Out :=
  match s.openOp asid dev serial with
  | none => .next s
  | some o =>
    if o.retry ∨ s.contextOut asid then .next s
    else if o.sends < 16 then
      let s := s.modOp asid dev serial (fun o => { o with sends := o.sends + 1 })
      let c := match s.team? o.team with
        | some x => x.core?.getD 0
        | none => 0
      .next ((s.resendOp asid dev o).count c 12 1).tick
    else
      let s := s.modOp asid dev serial (fun o => { o with answer := some (1, 0#64) })
      .next (s.relayDrain asid dev 1024).tick

/-- RELAY_RETRY_LATER_RESEND (R452, R454): a refused request goes again; it does not count. -/
def execEvRelayRetryLaterResend (asid dev : Nat) (serial : BitVec 32) (s : State) : Out :=
  match s.openOp asid dev serial with
  | none => .next s
  | some o =>
    if !o.retry ∨ s.contextOut asid then .next s
    else .next ((s.modOp asid dev serial (fun o => { o with retry := false })).resendOp asid dev o).tick

/-- RELAY_RETRY_LATER_TIMEOUT (R454): RETRY_LATER alone for 100 ms completes with TIMEOUT. -/
def execEvRelayRetryLaterTimeout (asid dev : Nat) (serial : BitVec 32) (s : State) : Out :=
  match s.openOp asid dev serial with
  | none => .next s
  | some o =>
    if !o.retry ∨ s.contextOut asid then .next s
    else
      let s := s.modOp asid dev serial (fun o => { o with answer := some (1, 0#64) })
      .next (s.relayDrain asid dev 1024).tick

/-- RELAY_CLOSE_RESEND (R457): an unanswered close goes again; after 16 the stream is given up. -/
def execEvRelayCloseResend (asid dev : Nat) (s : State) : Out :=
  match s.ctx? asid with
  | none => .next s
  | some c => match (mget {} c.streams dev).closes with
    | none => .next s
    | some n =>
      if n < 16 then
        .next ((s.modStream asid dev (fun x => { x with closes := some (n + 1) })).sendClose asid dev).tick
      else
        .next ((s.modCtx asid (fun c => { c with streams := mdel c.streams dev })).closeIdle asid).tick

/-- A restored context's streams (R456): operations sent with an outdated incarnation end IN_DOUBT, the
others are sent again and counted afresh. -/
def State.restoreStreams (s : State) (asid : Nat) : State :=
  match s.ctx? asid with
  | none => s
  | some c => c.streams.foldl (fun s e =>
      let s := if before e.2.oinc (mget {} s.domain e.1).incarn then
        s.learnIncarnation e.1 (mget {} s.domain e.1).incarn else s
      match s.ctx? asid with
      | none => s
      | some c =>
        let x := mget {} c.streams e.1
        let s := s.modStream asid e.1 (fun x => { x with ops := x.ops.map (fun o =>
          if o.answer = none then { o with sends := 0, retry := false } else o) })
        (x.ops.filter (fun o => o.answer.isNone)).foldl (fun s o => s.resendOp asid e.1 o) s) s

end Sys2Proof.Machine
end

