-- ==== Sys2Proof/Machine/Queue.lean ====
section
/-! DEFINITION. Queue instructions (R47–R49, R185–R188, R197). -/

namespace Sys2Proof.Machine

/-- Queues a program may push (R47). -/
def mayPush (q : Nat) : Bool := q == 0 || q == 2 || q == 4 || decide (8 ≤ q)

/-- Queues a heat of a role may pop (R47): q7 only the epilogue's. -/
def mayPop (role q : Nat) : Bool :=
  q == 1 || q == 3 || q == 5 || q == 6 || (q == 7 && role == 2) || decide (8 ≤ q)

/-- Entries of a queue as the issuing heat sees it. -/
def State.entries (s : State) (h : Heat) (q : Nat) : List QEntry :=
  if q < 8 then h.queue q
  else match s.curTeam with
    | none => []
    | some t => match s.team? t with
      | none => []
      | some x => mget [] x.body.queues q

/-- Replace a team queue of the issuing team. -/
def State.setShared (s : State) (q : Nat) (l : List QEntry) : State :=
  match s.curTeam with
  | none => s
  | some t => s.modTeam t (fun x => { x with body := { x.body with queues := mset [] x.body.queues q l } })

/-- Whether a heat has lanes parked on a queue; `code` is q for an empty queue, 16 + q for a full
one. -/
def Heat.parkedOn (h : Heat) (code : Nat) : Bool :=
  (lanesOf h.live).any (fun l => (h.lane l).park == .retryQueue code)

/-- Whether another heat of the team parked on a team queue goes first (R49). -/
def State.queueTurn (s : State) (h : Heat) (q code : Nat) : Bool :=
  match s.curTeam with
  | none => false
  | some t => match s.team? t with
    | none => false
    | some x => decide (8 ≤ q) && x.body.heats.any (fun e =>
        e.1 != s.curHeatId && e.2.parkedOn code && (!h.parkedOn code || decide (e.1 < s.curHeatId)))

/-- Park a heat on a queue. -/
def State.queueHold (s : State) (h : Heat) (code : Nat) : Out :=
  .next (s.hold h (.retryQueue code) (if 16 ≤ code then 6 else 5))

/-- Push one entry into a software queue. -/
def pushShared (s : State) (h : Heat) (q : Nat) (e : QEntry) : Out :=
  if Config.queueDepth ≤ (s.entries h q).length || s.queueTurn h q (16 + q) then
    s.queueHold h (16 + q)
  else .next ((s.setShared q (s.entries h q ++ [e])).finish h)

/-- Push one entry of a program-made gather or scatter sequence into q2 (R197). -/
def pushGather (s : State) (h : Heat) (e : QEntry) : Out :=
  let part := partialSeq 20 h.gatherList
  let header := mget 0#64 (part.headD e).vals 0
  if part.isEmpty && (e.mask != 1#32 || headerBad header) then .next (s.raise 0x0C 0)
  else if Config.queueDepth ≤ (h.queue 2).length then s.queueHold h 18
  else if part.length + 1 < seqLength header then
    .next (s.finish (h.setQueue 2 (h.queue 2 ++ [e])))
  else
    let write := fld header.toNat 0 4 == 1
    let addrs := part.getD 1 e
    gatherRange s h addrs.mask addrs.vals (elemSize (fld header.toNat 4 2)) write (fun s ps =>
      pushCommand s h 2 (ps.any (fun p => p.2.closes write))
        (fun h s => [s.entry h e.vals e.mask])
        (fun s => if write then s.newRec [] ps else s.newRec ps []))

/-- A push of one entry (R186): a copy, gather or collective command is checked as its instruction is
(R190, R197, R243). R190 and R243 speak of QPUSH.b64 alone; that QPUSH.b32 pushes a command too, of zero-extended
words, is the model's choice (assumption log entry 73). -/
def qpush (q p r w : Nat) (s : State) (val : Heat → Nat → W64) : Out :=
  heatWord s [(r, w)] [] (fun h => teamOnly s (fun t =>
    let m := h.taking s.cur.active p
    let vals := (lanesOf m).map (fun l => (l, val h l))
    let words := (upto 4).map (fun i => mget 0#64 vals i)
    if !mayPush q then .next (s.raise 5 q)
    else if m = 0#32 then .next (s.finish h)
    else if q = 0 then
      if m = 0xF#32 then copyCommand s h t words else .next (s.raise 0x0C 0)
    else if q = 4 then
      if m = 0xF#32 then collCommand s h words else .next (s.raise 0x0C 0)
    else if q = 2 then pushGather s h (s.entry h vals m)
    else pushShared s h q (s.entry h vals m)))

/-- The entry a pop or peek reads: the head, or in replay the entry pushed where the log says (R503);
and the queue without it. -/
def State.takeEntry (s : State) (h : Heat) (q : Nat) : Option (QEntry × List QEntry) :=
  let l := s.entries h q
  match (if q < 8 then none else s.logged 8 h.stride.toNat 0 q) with
  | some key => match l.find? (fun e => e.heat + 256 * e.stride == key) with
    | some e => some (e, l.erase e)
    | none => none
  | none => match l with
    | [] => none
    | e :: t => some (e, t)

/-- The lane values of an entry: zero in a lane whose mask bit is clear (R187). -/
def QEntry.laneVals (e : QEntry) (m : Mask) (w : Nat) : FMap Nat :=
  (lanesOf m).map (fun l =>
    (l, if inMask e.mask l then (mget 0#64 e.vals l).toNat % 2 ^ (32 * w) else 0))

/-- QPOP and QPEEK of `w` registers from r (R187). -/
def qtake (q p r w la : Nat) (pop : Bool) (s : State) : Out :=
  heatWord s [(r, w)] [] (fun h => teamOnly s (fun _ =>
    let m := h.taking s.cur.active p
    if !mayPop h.role q then .next (s.raise 5 q)
    else if m = 0#32 then .next (s.finish h)
    else needSlot s h (
      if s.queueTurn h q q then s.queueHold h q
      else match s.takeEntry h q with
        | none => s.queueHold h q
        | some (e, rest) =>
          let s := if 8 ≤ q then s.noteReplay 8 h.stride.toNat q (e.heat + 256 * e.stride) else s
          let slot := { s.newSlot h (.vec r w) la with vals := e.laneVals m w, isLoad := false }
          let h := { h with slots := h.slots ++ [slot] }
          if !pop then .next (s.finish h)
          else if 8 ≤ q then .next ((s.setShared q rest).finish h)
          else
            let s1 := s.finish (h.setQueue q rest)
            .next (if q = 6 then s1.refill s.curKey else s1))))

/-- QPUSH_B32 (R186): push zext(v(A)) of the taking lanes. -/
def execQpushB32 (q : BitVec 4) (a : BitVec 7) (p : BitVec 1) (s : State) : Out :=
  qpush q.toNat p.toNat a.toNat 1 s (fun h l => (h.v a.toNat l).setWidth 64)

/-- QPUSH_B64 (R186): push pair(A) of the taking lanes. -/
def execQpushB64 (q : BitVec 4) (a : BitVec 6) (p : BitVec 1) (s : State) : Out :=
  qpush q.toNat p.toNat (pairReg a) 2 s (fun h l => h.pair (pairReg a) l)

/-- QPOP_B32 (R187): the head entry leaves the queue into v(A). -/
def execQpopB32 (q : BitVec 4) (a : BitVec 7) (l : BitVec 4) (p : BitVec 1) (s : State) : Out :=
  qtake q.toNat p.toNat a.toNat 1 l.toNat true s

/-- QPOP_B64 (R187): the head entry leaves the queue into pair(A). -/
def execQpopB64 (q : BitVec 4) (a : BitVec 6) (l : BitVec 4) (p : BitVec 1) (s : State) : Out :=
  qtake q.toNat p.toNat (pairReg a) 2 l.toNat true s

/-- QPEEK_B32 (R187): the head entry is read into v(A). -/
def execQpeekB32 (q : BitVec 4) (a : BitVec 7) (l : BitVec 4) (p : BitVec 1) (s : State) : Out :=
  qtake q.toNat p.toNat a.toNat 1 l.toNat false s

/-- QPEEK_B64 (R187): the head entry is read into pair(A). -/
def execQpeekB64 (q : BitVec 4) (a : BitVec 6) (l : BitVec 4) (p : BitVec 1) (s : State) : Out :=
  qtake q.toNat p.toNat (pairReg a) 2 l.toNat false s

/-- QLEN (R188): s(A) = entries of any queue. -/
def execQlen (q : BitVec 4) (a : BitVec 6) (s : State) : Out :=
  heatWord s [] [(a.toNat, 1)] (fun h => teamOnly s (fun _ =>
    let n := match s.logged 4 h.stride.toNat 0 q.toNat with
      | some v => v
      | none => (s.entries h q.toNat).length
    .next ((s.noteReplay 4 h.stride.toNat q.toNat n).finish (h.setS a.toNat (BitVec.ofNat 64 n)))))

end Sys2Proof.Machine
end

