-- ==== Sys2Proof/Machine/System.lean ====
section
/-! DEFINITION. System, trap and debug words (R277–R289): system and trap-heat registers (R56–R60, R464,
R475, R476, R545), ERET, TLBI, HALT, clocks and counters, CALLH, BRK and TMARK. -/

namespace Sys2Proof.Machine

/-! ### Selected state (R475, R476) -/

/-- Code of a parked state (R543). -/
def Park.code (p : Park) : Nat :=
  match p with
  | .none => 0
  | .retryHurdle _ _ => 1
  | .waitHurdle _ _ => 1
  | .regHurdle _ _ => 1
  | .retryQueue _ => 2
  | .retryPresence => 3
  | .waitc => 4
  | .retrySlot => 5
  | .callh _ _ _ => 6
  | .rsmp => 7
  | .retryRsmp _ => 7
  | .brxPack _ _ => 0

/-- A selection: team, HEATID (255 the sequencer), lane. -/
structure Sel where
  team : Nat := 0
  heat : Nat := 0
  lane : Nat := 0
  deriving DecidableEq, Repr

/-- What CSEL names on a core: a resident team; the heat or sequencer is checked by each use. -/
def State.selected (s : State) (c : Nat) (csel : W64) : Option Sel :=
  (s.teamAt c (fld csel.toNat 0 8)).map (fun t =>
    { team := t, heat := fld csel.toNat 8 8, lane := fld csel.toNat 16 5 })

/-- The selected heat; a heat that has ended is none (R476). -/
def State.selHeat (s : State) (x : Sel) : Option Heat :=
  match s.heat? x.team x.heat with
  | some h => if h.ended then none else some h
  | none => none

/-- The selected sequencer. -/
def State.selSeq (s : State) (x : Sel) : Option Seq :=
  if x.heat = 255 then (s.team? x.team).map (fun t => t.body.seq) else none

/-- Read a selected register, numbered as the trap-heat registers are (R475, R476): what the selection
does not name reads 0. -/
def State.readSel (s : State) (x : Sel) (n : Nat) : W64 :=
  match s.selHeat x, s.selSeq x with
  | some h, _ =>
    let l := h.lane x.lane
    if n = 0x1021 then l.hdr.setWidth 64
    else if n = 0x1022 then BitVec.ofNat 64 l.idx
    else if n = 0x1023 then BitVec.ofNat 64 (l.park.code + 256 * l.loops.length)
    else if n = 0x1024 then BitVec.ofNat 64
      ((upto 8).foldl (fun a r => if r ≠ 0 ∧ h.k r x.lane then a + 2 ^ r else a) 0)
    else if n = 0x1025 then h.live.setWidth 64
    else if 0x1100 ≤ n ∧ n ≤ 0x117F then
      (if n - 0x1100 < h.budget ∧ !h.badRows.contains (n - 0x1100) then (h.v (n - 0x1100) x.lane).setWidth 64 else 0#64)
    else if 0x1180 ≤ n ∧ n ≤ 0x11BF then h.sr (n - 0x1180)
    else if 0x11C0 ≤ n ∧ n ≤ 0x11CF then (h.ar (n - 0x11C0)).setWidth 64
    else if 0x11D0 ≤ n ∧ n ≤ 0x11DF then BitVec.ofNat 64 ((h.ar (n - 0x11D0)).toNat / 2 ^ 64)
    else 0#64
  | none, some q =>
    if n = 0x1021 then q.hdr.setWidth 64
    else if n = 0x1022 then BitVec.ofNat 64 q.idx
    else if n = 0x1023 then BitVec.ofNat 64 q.park.code
    else if 0x11F0 ≤ n ∧ n ≤ 0x11FF then q.mr (n - 0x11F0)
    else 0#64
  | none, none => 0#64

/-- Whether a selected register is a row with an uncorrectable error (R476). -/
def State.selBad (s : State) (x : Sel) (n : Nat) : Bool :=
  match s.selHeat x with
  | some h => decide (0x1100 ≤ n ∧ n - 0x1100 < h.budget) && h.badRows.contains (n - 0x1100)
  | none => false

/-- Core c after a read of a trap-heat register: a read of TPEND clears its bit 63, a read of a row with an
uncorrectable error sets it (R476). -/
def State.noteSel (s : State) (c n : Nat) : State :=
  let k := s.core c
  if n = 0x100E then s.putCore c { k with pendError := false }
  else if (s.selected c k.csel).any (fun x => s.selBad x n) then s.putCore c { k with pendError := true }
  else s

/-- A pending result that will write a register is cancelled by a write to it (R476). -/
def Heat.cancel (h : Heat) (lanes : Mask) (vr sr : List (Nat × Nat)) : Heat :=
  { h with slots := h.slots.map (fun (x : Slot) =>
      if x.touches lanes vr sr then { x with cancelled := true } else x) }

/-- A lane set at a position: its clause's waits cover everything issued so far. -/
def Lane.putAt (x : Lane) (hdr : Addr) (idx stamp : Nat) : Lane :=
  { x with hdr := hdr, idx := idx, clauseStamp := stamp }

/-- The selected heat after a write of a selected register (R476). -/
def Heat.writeSel (h : Heat) (lane n : Nat) (v : W64) (stamp : Nat) : Heat :=
  let l := h.lane lane
  let one : Mask := maskOf (· == lane)
  if n = 0x1021 then h.setLane lane (l.putAt (v.setWidth 72) l.idx stamp)
  else if n = 0x1022 then h.setLane lane (l.putAt l.hdr (fld v.toNat 0 4) stamp)
  else if n = 0x1024 then (upto 8).foldl (fun y r => y.setK r lane (v.getLsbD r)) h
  else if 0x1100 ≤ n ∧ n ≤ 0x117F then
    (if n - 0x1100 < h.budget then
      (h.cancel one [(n - 0x1100, 1)] []).setV (n - 0x1100) lane (v.setWidth 32)
    else h)
  else if 0x1180 ≤ n ∧ n ≤ 0x11BF then
    (h.cancel 0#32 [] [(n - 0x1180, 1)]).setS (n - 0x1180) v
  else if 0x11C0 ≤ n ∧ n ≤ 0x11CF then
    h.setA (n - 0x11C0) (((h.ar (n - 0x11C0)).extractLsb' 64 8) ++ v)
  else if 0x11D0 ≤ n ∧ n ≤ 0x11DF then
    h.setA (n - 0x11D0) (v.setWidth 8 ++ ((h.ar (n - 0x11D0)).extractLsb' 0 64))
  else h

/-- The selected sequencer after a write of a selected register. -/
def Seq.writeSel (q : Seq) (n : Nat) (v : W64) (stamp : Nat) : Seq :=
  if n = 0x1021 then { q with hdr := v.setWidth 72, clauseStamp := stamp }
  else if n = 0x1022 then { q with idx := fld v.toNat 0 4, clauseStamp := stamp }
  else if 0x11F0 ≤ n ∧ n ≤ 0x11FF then q.setM (n - 0x11F0) v
  else q

/-- Write a selected register; a write to what the selection does not name is ignored (R476). -/
def State.writeSel (s : State) (x : Sel) (n : Nat) (v : W64) : State :=
  match s.selHeat x, s.selSeq x with
  | some h, _ => s.putHeat x.team x.heat (h.writeSel x.lane n v s.stamp)
  | none, some q => s.modSeq x.team (fun _ => q.writeSel n v s.stamp)
  | none, none => s

/-! ### Reading system registers (R57, R475, R545) -/

/-- The fault record a core's trap-heat registers show. -/
def Core.record (k : Core) : TrapRec := k.frozen.getD {}

/-- DUMPS (R464). -/
def Core.dumpStatus (k : Core) : W64 := k.dumps

/-- A trap-heat register of a core (R464, R475). -/
def State.trapReg (s : State) (c n : Nat) : W64 :=
  let k := s.core c
  let r := k.record
  let halt := r.cls == 0x40
  let z (v : W64) : W64 := if halt then 0#64 else v
  match n with
  | 0x1000 => BitVec.ofNat 64 r.cls
  | 0x1001 => BitVec.ofNat 64 r.asid
  | 0x1002 => BitVec.ofNat 64 (r.share + 256 * r.heat + (if r.isAsync then 65536 else 0))
  | 0x1003 => z (r.hdr.setWidth 64)
  | 0x1004 => z (BitVec.ofNat 64 r.idx)
  | 0x1005 => z (r.word.setWidth 64)
  | 0x1006 => z (r.live ++ r.mask)
  | 0x1007 => r.info
  | 0x1008 => z (r.addr.setWidth 64)
  | 0x1009 => z (BitVec.ofNat 64 (r.addr.toNat / 2 ^ 64))
  | 0x100A => z (r.codes.setWidth 64)
  | 0x100B => z (BitVec.ofNat 64 (r.codes.toNat / 2 ^ 64))
  | 0x100C => z r.lap
  | 0x100D => z r.stride
  | 0x100E => BitVec.ofNat 64 (k.queue.length + (if k.pendError then 2 ^ 63 else 0))
  | 0x1010 => k.thentry
  | 0x1020 => k.csel
  | 0x1030 => k.lastAction
  | 0x1040 => k.dumpa
  | 0x1041 => Config.dumpcRead s.stamp
  | 0x1042 => k.dumpStatus
  | _ =>
    if 0x1060 ≤ n ∧ n ≤ 0x107F then (mget 0#72 r.laneAddrs (n - 0x1060)).setWidth 64
    else if 0x1080 ≤ n ∧ n ≤ 0x109F then
      BitVec.ofNat 64 ((mget 0#72 r.laneAddrs (n - 0x1080)).toNat / 2 ^ 64)
    else match s.selected c k.csel with
      | some x => s.readSel x n
      | none => 0#64

/-- Whether the issuing team's grid runs in deterministic mode. -/
def State.curDet (s : State) : Bool :=
  match s.curGrid? with
  | some g => g.record.det
  | none => false

/-- A register of scope core, team, grid, context or device as the issuing heat reads it (R56, R57). -/
def State.plainReg (s : State) (h : Heat) (n : Nat) : W64 :=
  let k := s.core s.cur.core
  let x := match s.curTeam with
    | some t => s.team? t
    | none => none
  let ofTeam (f : Team → Nat) : W64 := match x with
    | some y => BitVec.ofNat 64 (f y)
    | none => 0#64
  match n with
  | 0x01 => if x.isSome then BitVec.ofNat 64 s.curHeatId else 0#64
  | 0x02 => ofTeam (·.teamId)
  | 0x03 => ofTeam (fun y => y.teamId / y.csize)
  | 0x04 => ofTeam (·.rank)
  | 0x05 => ofTeam (·.grid)
  | 0x06 => if s.curDet then ofTeam Team.logicalCore else BitVec.ofNat 64 s.cur.core
  | 0x07 => if x.isSome then BitVec.ofNat 64 h.role else 0#64
  | 0x10 => BitVec.ofNat 64 s.cur.core
  | 0x11 => BitVec.ofNat 64 (s.cur.core / 64)
  | 0x20 => k.poolrb
  | 0x21 => k.poolsb
  | 0x22 => k.poolcb
  | 0x40 => match x with
    | some y => y.lap
    | none => 0#64
  | 0x41 => if x.isSome then h.stride else 0#64
  | 0x50 => match s.curGrid? with
    | some g => g.record.seed
    | none => 0#64
  | 0x51 => s.tdbase
  | 0x52 => s.tdcnt
  | 0x60 => s.gtc
  | _ => s.trapReg s.cur.core n

/-- A lane-scope register (R57, R58, R545), in a helper lane as R305 gives it. -/
def State.laneReg (s : State) (h : Heat) (n l : Nat) : W64 :=
  let x := h.lane l
  if inMask s.cur.helpers l then
    match n with
    | 0x00 => BitVec.ofNat 64 l
    | 0x30 => 0xFFFFFFFFFFFFFFFE#64
    | 0x31 => 0xFFFFFFFF#64
    | _ => 0#64
  else match n with
  | 0x00 => BitVec.ofNat 64 l
  | 0x30 => if s.privileged then 0xFFFFFFFFFFFFFFFE#64 else x.lineage
  | 0x31 => if !s.privileged && x.member then BitVec.ofNat 64 (fld x.lineage.toNat 0 40) else 0xFFFFFFFF#64
  | _ => x.cvcnt

/-- Whether an SRD of a register is privileged (R277). -/
def srdPrivileged (n : Nat) : Bool := n == 0x10 || n == 0x11 || decide (0x1000 ≤ n)

/-- The value of a clock read: the logged one in replay (R503), else the present one, which is logged. -/
def clockRead (s : State) (h : Heat) (now : W64) : State × W64 :=
  let n := h.stride.toNat
  match s.logged 5 n 0 0 with
  | some v => (s, BitVec.ofNat 64 v)
  | none => (s.noteReplay 5 n 0 now.toNat, now)

/-- A clock or counter read into s(D): the clock-read trap in deterministic mode (R289). -/
def clockWord (s : State) (d reason : Nat) (now : State → Heat → W64) : Out :=
  heatWord s [] [(d, 1)] (fun h =>
    if s.curDet then .next (s.raise 0x31 reason)
    else
      let p := clockRead s h (now s h)
      .next (p.1.finish (h.setS d p.2)))

/-- SRD (R57, R279): read a system register into v(D), pair(D) or s(D). -/
def execSrd (d : BitVec 7) (r : BitVec 16) (s : State) : Out :=
  let n := r.toNat
  if srdPrivileged n && !s.privileged then heatWord s [] [] (fun _ => .next (s.raise 3 0))
  else if n = 0x00 then
    heatWord s [(d.toNat, 1)] [] (fun h => .next (s.finish (h.forLanes s.cur.lanes
      (fun y l => y.setV d.toNat l ((s.laneReg h n l).setWidth 32)))))
  else if n = 0x30 ∨ n = 0x31 ∨ n = 0x32 then
    heatWord s [(d.toNat, 2)] [] (fun h => .next (s.finish (h.forLanes s.cur.lanes
      (fun y l => y.setPair d.toNat l (s.laneReg h n l)))))
  else if n = 0x60 then clockWord s d.toNat 1 (fun s _ => s.gtc)
  else heatWord s [] [(d.toNat, 1)] (fun h =>
    let v := s.plainReg h n
    let s := s.noteSel s.cur.core n
    match s.curHeat? with
    | none => .fault .noIssuer
    | some h => .next (s.finish (h.setS d.toNat v)))

/-! ### Writing system registers (R57, R59, R60, R464, R475, R476) -/

/-- A privileged word (R38, R277): the privilege trap outside the trap heat. -/
def privWord (s : State) (vr sr : List (Nat × Nat)) (f : Nat → Heat → Out) : Out :=
  match s.cur.who with
  | .trap c => heatWord s vr sr (f c)
  | _ => heatWord s [] [] (fun _ => .next (s.raise 3 0))

/-- An SWR from s(D) that changes the core. -/
def swrCore (s : State) (d : Nat) (f : Core → W64 → Core) : Out :=
  privWord s [] [(d, 1)] (fun c h =>
    let s1 := s.putCore c (f (s.core c) (h.sr d))
    match s1.curHeat? with
    | none => .fault .noIssuer
    | some h => .next (s1.finish h))

/-- An SWR from s(D) that changes the state outside the trap heat's registers. -/
def swrState (s : State) (d : Nat) (f : Nat → State → W64 → State) : Out :=
  privWord s [] [(d, 1)] (fun c h => .next ((f c s (h.sr d)).finish h))

/-- SWR (R57, R279): CVCNT, CSEL and DUMPA; any other register of this row holds no write and raises
the illegal-instruction trap. -/
def execSwr (d : BitVec 7) (r : BitVec 16) (s : State) : Out :=
  match r.toNat with
  | 0x32 => privWord s [(d.toNat, 2)] [] (fun _ h => .next (s.finish (h.forLanes s.cur.active
      (fun y l => y.setLane l { y.lane l with cvcnt := h.pair d.toNat l }))))
  | 0x1020 => swrCore s d.toNat (fun k v => { k with csel := v &&& 0x1FFFFF#64 })
  | 0x1040 => swrCore s d.toNat (fun k v => { k with dumpa := v })
  | _ => privWord s [] [] (fun _ _ => .next (s.raise 2 0))

/-- A write of a pool boundary (R60): the pool-busy fault while a team is resident. -/
def swrPool (s : State) (d : Nat) (f : Core → W64 → Core) : Out :=
  privWord s [] [(d, 1)] (fun c h =>
    if s.coreBusy c then .next (s.raise 0x0D 0)
    else
      let s1 := s.putCore c (f (s.core c) (h.sr d &&& 0xFF#64))
      match s1.curHeat? with
      | none => .fault .noIssuer
      | some h => .next (s1.finish h))

/-- SWR_POOLRB (R60): end of the register region. -/
def execSwrPoolrb (d : BitVec 6) (s : State) : Out :=
  swrPool s d.toNat (fun k v => { k with poolrb := v })

/-- SWR_POOLSB (R60): end of the scratchpad. -/
def execSwrPoolsb (d : BitVec 6) (s : State) : Out :=
  swrPool s d.toNat (fun k v => { k with poolsb := v })

/-- SWR_POOLCB (R60): end of the commit buffer. -/
def execSwrPoolcb (d : BitVec 6) (s : State) : Out :=
  swrPool s d.toNat (fun k v => { k with poolcb := v })

/-- Set TDBASE and TDCNT of a context and of its teams that have started (R56, R59). -/
def State.setTensor (s : State) (asid : Nat) (f : W64 × W64 → W64 × W64) : State :=
  let s := s.modCtx asid (fun k => { k with tdbase := (f (k.tdbase, k.tdcnt)).1, tdcnt := (f (k.tdbase, k.tdcnt)).2 })
  { s with teams := s.teams.map (fun (e : Nat × Team) =>
      if e.2.asid = asid then
        (e.1, { e.2 with tdbase := (f (e.2.tdbase, e.2.tdcnt)).1, tdcnt := (f (e.2.tdbase, e.2.tdcnt)).2 })
      else e) }

/-- A write of TDBASE or TDCNT of the context TASID names; every descriptor cache is emptied, so that any access
after it sees the table (R343). -/
def swrTensor (s : State) (d : Nat) (f : W64 × W64 → W64 → W64 × W64) : Out :=
  privWord s [] [(d, 1)] (fun _ h =>
    let s1 := s.setTensor s.curAsid (fun t => f t (h.sr d))
    .next ({ s1 with cores := s1.cores.map (fun (e : Nat × Core) => (e.1, { e.2 with descs := [] })) }.finish h))

/-- SWR_TDBASE (R59, R343): bits 63:8 are the table's address bits 71:16. -/
def execSwrTdbase (d : BitVec 6) (s : State) : Out :=
  swrTensor s d.toNat (fun t v => (v &&& 0xFFFFFFFFFFFFFF00#64, t.2))

/-- SWR_TDCNT (R59, R343): bits 12:0. -/
def execSwrTdcnt (d : BitVec 6) (s : State) : Out :=
  swrTensor s d.toNat (fun t v => (t.1, v &&& 0x1FFF#64))

/-- A core after a write of DUMPC (R464): ignored while BUSY; BADADDR, or a dump of context TASID. -/
def Core.startDump (k : Core) (v : W64) : Core :=
  if k.dump.isSome then k
  else match k.frozen with
    | none => { k with dumps := 4#64 }
    | some r =>
      if v.toNat / 16 ≠ 0 ∨ k.dumpa.toNat % 128 ≠ 0 then { k with dumps := 4#64 }
      else { k with dumps := 1#64, dump := some { fault := r, sect := v.toNat, base := k.dumpa.toNat } }

/-- SWR_DUMPC (R464): start a dump. -/
def execSwrDumpc (d : BitVec 6) (s : State) : Out := swrCore s d.toNat Core.startDump

/-- SWR_TACTION (R475): bits 1:0 the action of the share in bits 9:8; action 3 is ignored. -/
def execSwrTaction (d : BitVec 6) (s : State) : Out :=
  swrCore s d.toNat (fun k v =>
    if fld v.toNat 0 2 = 3 then k
    else { k with
      actions := mset 0 k.actions (fld v.toNat 8 2) (fld v.toNat 0 2)
      lastAction := v &&& 0x303#64 })

/-- A write of a selected register (R476). -/
def swrSel (s : State) (d n : Nat) : Out :=
  swrState s d (fun c s v => match s.selected c (s.core c).csel with
    | some x => s.writeSel x n v
    | none => s)

/-- SWR_CPOSH (R476): header address of the selected position. -/
def execSwrCposh (d : BitVec 6) (s : State) : Out := swrSel s d.toNat 0x1021

/-- SWR_CPOSI (R476): index of the selected position. -/
def execSwrCposi (d : BitVec 6) (s : State) : Out := swrSel s d.toNat 0x1022

/-- SWR_CPRED (R476): k1 to k7 of the selected lane. -/
def execSwrCpred (d : BitVec 6) (s : State) : Out := swrSel s d.toNat 0x1024

/-- SWR_XV (R476): v r of the selected lane. -/
def execSwrXv (d : BitVec 6) (r : BitVec 7) (s : State) : Out := swrSel s d.toNat (0x1100 + r.toNat)

/-- SWR_XS (R476): s r of the selected heat. -/
def execSwrXs (d r : BitVec 6) (s : State) : Out := swrSel s d.toNat (0x1180 + r.toNat)

/-- SWR_XA (R476): bits 63:0 of a r of the selected heat. -/
def execSwrXa (d : BitVec 6) (r : BitVec 4) (s : State) : Out := swrSel s d.toNat (0x11C0 + r.toNat)

/-- SWR_XAH (R476): bits 71:64 of a r of the selected heat. -/
def execSwrXah (d : BitVec 6) (r : BitVec 4) (s : State) : Out := swrSel s d.toNat (0x11D0 + r.toNat)

/-- SWR_XM (R476): m r of the selected sequencer. -/
def execSwrXm (d : BitVec 6) (r : BitVec 4) (s : State) : Out := swrSel s d.toNat (0x11F0 + r.toNat)

/-! ### ERET (R280, R477) -/

/-- ERET (R280): after every earlier access of the trap heat has performed, the handling of the freeze
ends and the actions are taken. -/
def execEret (s : State) : Out :=
  privWord s [] [] (fun c h =>
    if !h.acks.isEmpty then .next (s.hold h .none 8)
    else .next ((s.finish h).eret c))

/-! ### TLBI (R281) -/

/-- Which translations a TLBI names. -/
structure TlbiScope where
  asid : Option Nat := .none
  va : Option Nat := .none
  deriving DecidableEq, Repr

/-- Whether a cached translation is named. -/
def TlbiScope.entry (x : TlbiScope) (e : TlbEntry) : Bool :=
  (match x.asid with
    | some a => e.asid == a
    | none => true) &&
  (match x.va with
    | some v => decide (e.base ≤ v ∧ v < e.base + e.size)
    | none => true)

/-- Size of the page a leaf maps when it lies at the smallest level it can: 2 MiB, else 64 KiB or 1 GiB,
told apart by its alignment. -/
def leafSize (leaf : Nat) : Nat :=
  if pteSz2M leaf then 2 ^ 21 else if fld leaf 16 14 = 0 then 2 ^ 30 else 2 ^ 16

/-- Whether an access of a context to a virtual range, translated by a leaf, used a named
translation. -/
def TlbiScope.use (x : TlbiScope) (asid va leaf : Nat) : Bool :=
  (match x.asid with
    | some a => asid == a
    | none => true) &&
  (match x.va with
    | some v => v / leafSize leaf == va / leafSize leaf
    | none => true)

/-- Whether a part of an engine or sequencer operation used a named translation. -/
def TlbiScope.piece (x : TlbiScope) (asid : Nat) (p : Piece) : Bool :=
  match p with
  | .mem _ _ leaf va => x.use asid va leaf
  | _ => false

/-- Whether an engine command has still to access device memory. -/
def State.cmdOpen (s : State) (r : CopyRec) : Bool :=
  match s.engines.find? (fun c => c.id == r.id) with
  | some c => !c.written && !(c.opc == 5 && c.buf.isSome)
  | none => true

/-- Whether a table entry of a walk cache lies on the path of a named address. -/
def TlbiScope.table (x : TlbiScope) (e : TableEntry) : Bool :=
  (match x.asid with
    | some a => e.asid == a
    | none => true) &&
  (match x.va with
    | some v => e.tag == walkTag v e.level
    | none => true)

/-- Whether an open walk could give a named translation. -/
def TlbiScope.walk (x : TlbiScope) (w : OpenWalk) : Bool :=
  (match x.asid with
    | some a => w.asid == a
    | none => true) &&
  (match x.va with
    | some v => w.page / 2 ^ 14 == v / 2 ^ 30
    | none => true)

/-- Deferred stores that translated through a named translation and have not performed (R281; assumption log
entry 65). -/
def State.deferredOpen (s : State) (x : TlbiScope) : Bool :=
  s.teams.any (fun e => e.2.checks.isNone && e.2.deferred.any (fun d => x.use e.2.asid d.va d.leaf))

/-- Accesses that translated through a named translation and have not performed (R281). -/
def State.outstanding (s : State) (x : TlbiScope) : Bool :=
  s.teams.any (fun e =>
    e.2.body.heats.any (fun h => h.2.copies.any (fun r =>
      s.cmdOpen r && (r.src.any (fun p => x.piece e.2.asid p.2) || r.dst.any (fun p => x.piece e.2.asid p.2)))) ||
    e.2.body.seq.ops.any (fun o => o.places.any (fun p => x.piece e.2.asid p.2))) ||
  s.ordMsgs.any (fun m => x.use m.asid m.va 0)

/-- Drop the named translations from every micro-TLB and both dies' TLBs, the table entries on their paths from
the walk caches, and the walks that could refill them: the accesses that wait for those walk anew (R281, R495). A
dependence counter that can no longer be read removes its grid (R393). -/
def State.invalidate (s : State) (x : TlbiScope) : State :=
  { s with
    tlb := s.tlb.filter (fun e => !x.entry e)
    tables := s.tables.filter (fun e => !x.table e)
    walks := s.walks.filter (fun w => !x.walk w) }.dropUnreadable

/-- A TLBI (R281): the translations are dropped, and the heat holds until every access that used one
has performed. -/
def tlbi (s : State) (sr : List (Nat × Nat)) (scope : Heat → TlbiScope) : Out :=
  privWord s [] sr (fun _ h =>
    let x := scope h
    let s1 := s.invalidate x
    if s1.outstanding x || s1.deferredOpen x then .next (s1.hold h .none 3) else .next (s1.finish h))

/-- TLBI_ALL (R281). -/
def execTlbiAll (s : State) : Out := tlbi s [] (fun _ => {})

/-- TLBI_ASID (R281): the identifier in s(B)[9:0]. -/
def execTlbiAsid (b : BitVec 6) (s : State) : Out :=
  tlbi s [(b.toNat, 1)] (fun h => { asid := some (fld (h.sr b.toNat).toNat 0 10) })

/-- TLBI_VA (R281): the address a(A) in the identifier s(B)[9:0]. -/
def execTlbiVa (a : BitVec 4) (b : BitVec 6) (s : State) : Out :=
  tlbi s [(b.toNat, 1)] (fun h =>
    { asid := some (fld (h.sr b.toNat).toNat 0 10), va := some (h.ar a.toNat).toNat })

/-! ### HALT (R282, R465) -/

/-- A context's teams on a core stay frozen after its next ERET. -/
def State.haltOn (s : State) (asid c : Nat) : State :=
  (s.residents c).foldl (fun s t => s.modTeam t (fun x =>
    if x.asid = asid then { x with halted := true } else x)) s

/-- The cores, other than `c`, on which a context has teams. -/
def State.otherCores (s : State) (asid c : Nat) : List Nat :=
  (upto Config.cores).filter (fun k => k != c && s.teams.any (fun e => e.2.asid == asid && e.2.core? == some k))

/-- The halt-request fault of a core (R473). -/
def haltRecord (asid : Nat) : TrapRec := { cls := 0x40, asid := asid, isAsync := true, info := BitVec.ofNat 64 asid }

/-- The effect of a HALT on a context that has a team (R282). -/
def State.halt (s : State) (c asid action : Nat) : State :=
  match action with
  | 0 => s.haltOn asid c
  | 1 => (s.otherCores asid c).foldl (fun s d => (s.haltOn asid d).raiseOn d (haltRecord asid))
      ((s.haltOn asid c).modCtx asid (fun k => { k with broadcast := true }))
  | _ =>
    let gone := (s.teams.filter (fun e => e.2.asid == asid && e.2.core? != some c)).map Prod.fst
    let s1 := (s.dropTeams gone).modCtx asid (fun k => { k with removing := true })
    s1.putCore c { s1.core c with removeAtEret := (s1.core c).removeAtEret ++ [asid] }

/-- HALT (R282): stop, stop with broadcast, or remove the context s(A)[9:0]. -/
def execHalt (a : BitVec 6) (s : State) : Out :=
  privWord s [] [(a.toNat, 1)] (fun c h =>
    let v := (h.sr a.toNat).toNat
    let asid := fld v 0 10
    let action := fld v 16 2
    if v / 2 ^ 18 ≠ 0 ∨ fld v 10 6 ≠ 0 ∨ action = 3 then .next (s.raise 2 0)
    else if !s.teams.any (fun e => e.2.asid == asid) then .next (s.finish h)
    else .next ((s.finish h).halt c asid action))

/-! ### Clocks and counters (R283, R284) -/

/-- CLKRD (R283): the core's arithmetic cycles. -/
def execClkrd (d : BitVec 6) (s : State) : Out :=
  clockWord s d.toNat 2 (fun s _ => (s.core s.cur.core).cycles)

/-- Counter n of a heat's scheduler or of the core (R284); the counts of the L1's event sources, which the model
does not hold, are free values (R520). -/
def State.counter (s : State) (n : Nat) : W64 :=
  let k := s.core s.cur.core
  let src := mget 0 k.evSel (n - 16)
  if n < 16 then mget 0#64 k.stalls (16 * (s.curHeatId % 4) + n)
  else if src = 5 ∨ src = 6 then Config.eventCount s.stamp
  else mget 0#64 k.evCnt (n - 16)

/-- CNTRD (R284): a stall or event counter. -/
def execCntrd (d : BitVec 6) (n : BitVec 5) (s : State) : Out :=
  clockWord s d.toNat 3 (fun s _ => s.counter n.toNat)

/-! ### CALLH (R285, R286) -/

/-- Four bytes of a CALLH word of a lane; zero for a lane that takes no part. -/
def callWord (h : Heat) (m : Mask) (r l : Nat) : List Byte :=
  if inMask m l then toBytes 4 (h.v r l).toNat else toBytes 4 0

/-- The request record of a CALLH (R286). -/
def callRecord (x : Team) (h : Heat) (heat : Nat) (m : Mask) (a n : Nat) : List Byte :=
  toBytes 4 x.grid ++ toBytes 4 x.teamId ++ toBytes 1 heat ++ toBytes 1 n ++ toBytes 2 0 ++
    toBytes 4 m.toNat ++ toBytes 8 x.lap.toNat ++ toBytes 8 h.stride.toNat ++
    (upto (32 * n)).foldl (fun acc i => acc ++ callWord h m (a + i / 32) (i % 32)) []

/-- Kind of a forwarded frame tag, by which a checker's CALLH takes the reply to its primary's (R511). -/
def callKind : Nat := 14

/-- The request of a CALLH goes to the control node; a checker's becomes a digest record (R511, R512). -/
def State.sendCall (s : State) (x : Team) (t : Nat) (h : Heat) (m : Mask) (a n : Nat) : State × W32 :=
  let stride := h.stride.toNat
  let rec_ := callRecord x h s.curHeatId m a n
  let tag := match s.logged callKind stride 0 0 with
    | some v => BitVec.ofNat 32 v
    | none => Config.callTag s.stamp
  let s1 := s.noteDigest t s.curHeatId 8 0 rec_.length (ofBytes rec_)
  let s2 := s1.noteRead callKind stride 0 0 4 tag.toNat
  (if s.mute then s2 else s2.sendFrame 8 tag rec_, tag)

/-- CALLH (R285): the taking lanes' words go to the control node and the lanes park for the reply; it
waits for the lanes' earlier accesses and is a commit point. -/
def execCallh (d a : BitVec 7) (b : BitVec 7) (p : BitVec 2) (s : State) : Out :=
  heatWord s [(a.toNat, b.toNat), (d.toNat, 1)] [] (fun h => teamOnly s (fun t =>
    let m := h.taking s.cur.active p.toNat
    if m = 0#32 then .next (s.finish h)
    else if h.loading m || s.unfinished s.curKey s.curHeatId h m .ack (fun _ _ => true) then .next (s.hold h .none 8)
    else commitPoint s h (fun s h => match s.team? t with
      | none => .fault .noIssuer
      | some x =>
        let p := s.sendCall x t h m a.toNat b.toNat
        .next (p.1.finishPark h (.callh d.toNat m p.2)).endLap)))

/-! ### BRK and TMARK (R287, R288) -/

/-- Stop a team's cluster under R500: at the first stop of the lap its state is kept as the stop image,
with each heat's stride as its limit. -/
def State.stopTeam (s : State) (t : Nat) : State :=
  (s.clusterOf t).foldl (fun s u => (s.unpackTeam u).modTeam u (fun x =>
    let bins := s.binThreads u
    let x := { x with stopped := true, runTo := none, grant := none }
    match x.stopImage with
    | some _ => x
    | none => { x with
        stopImage := some {
          body := x.body, deferred := x.deferred, log := x.log, undo := x.undo
          bytes := x.undo.map (fun (e : Nat × Byte) => (e.1, readByte s.mem e.1))
          advances := x.advances, recs := x.recs, bins := bins, delivered := x.deliveries.length
          due := x.due, replaying := x.replaying, undoPoison := x.undoPoison
          engines := s.engines.filter (fun c => c.team == u && c.lap == x.lap.toNat)
          gathering := (s.gridOf x).elim [] (fun g => g.gathering.filter (fun r => r.team == u)) }
        limits := x.body.heats.map (fun (e : Nat × Heat) => (e.1, e.2.stride.toNat)) ++
          [(255, x.body.seq.count.toNat)] })) s

/-- Whether a debugger is attached to a context (R499). -/
def State.attached (s : State) (asid : Nat) : Bool :=
  match s.ctx? asid with
  | some c => c.attached
  | none => false

/-- BRK (R287): the word completes, then the breakpoint trap goes to an attached debugger, which stops
the team (R499), or to the trap heat. -/
def execBrk (n : BitVec 9) (s : State) : Out :=
  heatWord s [] [] (fun h =>
    match s.curTeam with
    | none => .next (s.trapHeatFault s.cur.core 0x30)
    | some t =>
      let r := s.curRecord 0x30 n.toNat
      let s1 := s.finish h
      if s.mute then .next s1 else
      let lane := match s1.curHeat? with
        | some y => y.lane (lowLane s.cur.active)
        | none => {}
      if s.attached s.curAsid then
        match s.team? t with
        | none => .next s1
        | some x => .next ((s1.stopTeam t).dbgReply x.dbgTag 0 (0x30#8 :: toBytes 2 n.toNat))
      else .next (s1.raiseOn s.cur.core { r with hdr := lane.hdr, idx := lane.idx }))

/-- TMARK (R288): a trace record with mark n and s(A). -/
def execTmark (a : BitVec 6) (n : BitVec 9) (s : State) : Out :=
  heatWord s [] [(a.toNat, 1)] (fun h =>
    let x := match s.curTeam with
      | some t => s.team? t
      | none => none
    let r : TraceRec := match x with
      | some y => { kind := 1, teamId := BitVec.ofNat 32 y.teamId, gridId := BitVec.ofNat 32 y.grid
                    heatId := s.curHeatId, code := n.toNat, lap := y.lap, stride := h.stride
                    a := h.sr a.toNat }
      | none => { kind := 1, code := n.toNat, a := h.sr a.toNat }
    .next ((if s.mute then s else s.traceCore s.cur.core r).finish h))

end Sys2Proof.Machine
end

