-- ==== Sys2Proof/Machine/Issue.lean ====
section
/-! DEFINITION. From a position to an issued word: sub-groups and turns (R296–R301), helper lanes (R304),
clause fetch and its checks (R16, R24, R206, R302), wait bits and STALL (R17–R20, R37), the cycle with its
stall counters (R404, R405), and the page walk event (R491). Noncomputable as the decoder is. -/

namespace Sys2Proof.Machine

noncomputable section

/-! ### Sub-groups (R296–R299, R304) -/

/-- Whether a lane's park leaves it at its word, to issue it again. -/
def Park.again (p : Park) : Bool :=
  match p with
  | .none => true
  | .retryHurdle _ _ => true
  | .retryQueue _ => true
  | .retryPresence => true
  | .retrySlot => true
  | .retryRsmp _ => true
  | _ => false

/-- Whether a lane may take part in the next issue. -/
def Heat.candidate (h : Heat) (l : Nat) : Bool := (h.lane l).live && (h.lane l).park.again

/-- The lanes of a heat that share lane l's position and may issue (R296). -/
def Heat.group (h : Heat) (l : Nat) : Mask :=
  maskOf (fun i => h.candidate i && (h.lane i).hdr == (h.lane l).hdr && (h.lane i).idx == (h.lane l).idx)

/-- Whether a sub-group is deferred (R297): it stands at index 0 and another lane stands at a lower header;
lanes in an open gathering are not counted (R296). -/
def Heat.deferred (h : Heat) (l : Nat) : Bool :=
  (h.lane l).idx == 0 && (upto 32).any (fun i =>
    (h.lane i).live && !(h.lane i).park.isPack && decide ((h.lane i).hdr.toNat < (h.lane l).hdr.toNat))

/-- The keys of the eligible sub-groups, ascending. -/
def Heat.keys (h : Heat) : List Nat :=
  (upto 32).filter (fun l => h.candidate l && lowLane (h.group l) == l && !h.deferred l)

/-- The next key in the rotation (R298). -/
def Heat.nextKey (h : Heat) : Option Nat :=
  match h.keys.find? (fun k => decide (h.refKey < k)) with
  | some k => some k
  | none => h.keys.head?

/-- The sub-group that has the turn (R298, R299): the one that waits with it, else the next in the
rotation; none while lanes wait in WAITC. -/
def Heat.choose (h : Heat) : Option Mask :=
  if (lanesOf h.live).any (fun l => (h.lane l).park == .waitc) then none
  else match h.turn with
    | some k => if h.candidate k then some (h.group k) else h.nextKey.map h.group
    | none => h.nextKey.map h.group

/-- Lanes of the chosen quads. -/
def quadMask (m : BitVec 8) : Mask := maskOf (fun l => m.getLsbD (l / 4))

/-- The lanes a QSTEP issues (R508): of the sub-group with the smallest key that has a lane in a quad of M,
those in quads of M. -/
def Heat.chooseQuads (h : Heat) (m : BitVec 8) : Option Mask :=
  ((upto 32).find? (fun l => h.candidate l && lowLane (h.group l) == l && decide (h.group l &&& quadMask m ≠ 0#32))).map
    (fun l => h.group l &&& quadMask m)

/-- The helper lanes of an issue (R304): lanes that are not live, in quads whose lead issues. -/
def Heat.helpers (h : Heat) (active : Mask) : Mask :=
  let live := h.live
  maskOf (fun l => !inMask live l && match ((upto 4).map (4 * (l / 4) + ·)).find? (inMask live) with
    | some lead => inMask active lead
    | none => false)

/-! ### Clause fetch (R13, R16, R24, R206, R302) -/

/-- The outcome of a fetch. -/
inductive Fetched where
  /-- Header and words. -/
  | ok (words : List W32)
  /-- The lane code of R164 and the address. -/
  | fault (code : Nat) (addr : Addr)
  /-- The page is being migrated. -/
  | held
  deriving DecidableEq, Repr

/-- Fetch one word (R55, R491) through the TLB of a die: X permission and nothing else. -/
def State.fetchWord (s : State) (die asid : Nat) (code : FMap Byte) (a : Addr) : Fetched :=
  if a.toNat / 2 ^ 64 ≠ 0 then .fault 4 a
  else match s.translateOn die asid a.toNat with
    | .page _ size leaf =>
      if pteMig leaf = 1 then .held
      else if !pteX leaf then .fault 5 a
      else .ok [BitVec.ofNat 32 (readNat code (pageAddr leaf size a.toNat) 4)]
    | _ => .fault 4 a

/-- Fetch consecutive words. -/
def State.fetchWords (s : State) (die asid : Nat) (code : FMap Byte) (a : Addr) : Nat → Fetched
  | 0 => .ok []
  | n + 1 => match s.fetchWord die asid code a with
    | .ok w => match s.fetchWords die asid code (a + 4#72) n with
      | .ok ws => .ok (w ++ ws)
      | o => o
    | o => o

/-- Fetch a whole clause: its header, then the words the header counts (R16). -/
def State.fetchClause (s : State) (die asid : Nat) (code : FMap Byte) (hdr : Addr) : Fetched :=
  match s.fetchWord die asid code hdr with
  | .ok w => match s.fetchWords die asid code (hdr + 4#72) (fld (w.headD 0#32).toNat 0 4) with
    | .ok ws => .ok (w ++ ws)
    | o => o
  | o => o

/-- The class of an opcode, by range (R21). -/
def opClass (op : Nat) : Nat :=
  if op < 0x140 then 0 else if op < 0x170 then 1 else if op < 0x1A0 then 2 else if op < 0x1D0 then 3
  else if op < 0x1F0 then 4 else 5

/-- Opcode of a word. -/
def opOf (w : W32) : Nat := fld w.toNat 23 9

/-- The transfers (R22): BRA to EXIT, and MLOOP, MBR and MEND. -/
def isTransfer (op : Nat) : Bool :=
  decide (0x1A0 ≤ op ∧ op ≤ 0x1A7) || op == 0x1E4 || op == 0x1E5 || op == 0x1EB

/-- Whether a word may stand in a clause of a class, by its opcode range (R22). -/
def wordFits (cls op : Nat) (last : Bool) : Bool :=
  opClass op == cls || (last && cls != 4 && decide (0x1A0 ≤ op ∧ op ≤ 0x1AF))

/-- The first word of a clause that a test finds. -/
def findWord (p : Nat → Bool → Bool) : Nat → List W32 → Option (Nat × W32)
  | _, [] => none
  | i, w :: t => if p (opOf w) t.isEmpty then some (i, w) else findWord p (i + 1) t

/-- The checks of a clause in order (R24): the reason, the word index and the word. -/
def clauseFault (seq : Bool) (ws : List W32) : Option (Nat × Nat × W32) :=
  let h := (ws.headD 0#32).toNat
  let cls := fld h 4 3
  if fld h 28 4 ≠ 0b1010 then some (2, 0, 0#32)
  else if fld h 16 12 ≠ 0 then some (3, 0, 0#32)
  else if 6 ≤ cls then some (4, 0, 0#32)
  else if fld h 0 4 = 0 then some (5, 0, 0#32)
  else match findWord (fun op last => !wordFits cls op last) 0 ws.tail with
    | some (i, w) => some (6, i, w)
    | none => match findWord (fun op last => isTransfer op && !last) 0 ws.tail with
      | some (i, w) => some (7, i, w)
      | none =>
        if seq != (cls == 4) || (cls == 4 && (bitAt h 15 || bitAt h 14)) then some (8, 0, 0#32) else none

/-- The clauses, newest first, that fit in `n` words: what comes after the first that does not fit is older
and has been dropped. -/
def fitClauses : Nat → List (Addr × List W32) → List (Addr × List W32)
  | _, [] => []
  | n, e :: t => if e.2.length ≤ n then e :: fitClauses (n - e.2.length) t else []

/-- The clause is recorded in the loop buffers, unless they hold it: 48 words, the oldest recorded clauses
dropped (R302). -/
def bufferClause (hdr : Addr) (ws : List W32) (l : List (Addr × List W32)) : List (Addr × List W32) :=
  if l.any (fun e => e.1 == hdr) then l else fitClauses 48 ((hdr, ws) :: l)

/-- The memory a team's fetches see: what it was when the launch record was accepted (R55). -/
def State.codeOf (s : State) (t : Nat) : FMap Byte :=
  match s.team? t with
  | none => []
  | some x => match s.gridOf x with
    | some g => g.code
    | none => []

/-- The clause at a position: from the loop buffers, else fetched. -/
def State.clauseAt (s : State) (die asid : Nat) (code : FMap Byte) (buf : List (Addr × List W32)) (hdr : Addr) :
    Fetched :=
  match buf.find? (fun e => e.1 == hdr) with
  | some e => .ok e.2
  | none => s.fetchClause die asid code hdr

/-- What a preparation ends in: a new state without an issue, or the word to run. -/
inductive Prep where
  | stay (s : State)
  | run (s : State) (i : Instr)

/-- The issuer stands at index 0 of its clause. -/
def State.toHeader (s : State) : State :=
  match s.curHeat?, s.curSeq? with
  | some h, _ => s.putCurHeat (h.forLanes s.cur.active (fun y l => y.setLane l { y.lane l with idx := 0 }))
  | none, some q => s.putCurSeq { q with idx := 0 }
  | none, none => s

/-- A fetch or clause fault: the faulting lanes are left at (header, 0), and no word has issued (R16, R25). -/
def State.fetchRaise (s : State) (cls info : Nat) (word : W32) (addr : Addr) : State :=
  let r := s.curRecord cls info
  s.toHeader.raiseRec { r with idx := 0, word := word, addr := addr }

/-- A table word that the failing fetch of an address finds uncorrectable goes to the black box (R491). -/
def State.noteFetch (s : State) (a : Addr) : State :=
  s.noteWalk s.cur.core s.curAsid a.toNat (s.translateOn (s.cur.core / 64) s.curAsid a.toNat)

/-- The clause of the current position, checked (R16, R24, R206); the continuation gets header and
words. -/
def withClause (s : State) (code : FMap Byte) (buf : List (Addr × List W32)) (seq : Bool) (held : State)
    (k : List W32 → Prep) : Prep :=
  let hdr := s.cur.hdr
  if hdr.toNat / 2 ^ 64 ≠ 0 then .stay (s.fetchRaise 0x0F 4 0#32 hdr)
  else if hdr.toNat % 4 ≠ 0 then .stay (s.fetchRaise 1 1 0#32 0#72)
  else match s.clauseAt (s.cur.core / 64) s.curAsid code buf hdr with
    | .held => .stay held
    | .fault c a => .stay ((s.noteFetch a).fetchRaise 0x0F c 0#32 a)
    | .ok ws => match clauseFault seq ws with
      | some (r, i, w) => .stay (s.fetchRaise 1 (r + 256 * i) w 0#72)
      | none => k ws

/-- Run the word at the current index; what the decoder rejects raises the illegal-instruction trap (R28,
R38). -/
def runWord (s : State) : Prep :=
  match decodeWord s.cur.word.toNat with
  | .ok i => .run s i
  | .error _ => .stay (s.raise 2 0)

/-! ### Wait bits and STALL (R17, R18, R37) -/

/-- Words from index i on that read queue q: QPOP and QPEEK. QLEN reads a count, no entry, and is not counted
(assumption log entry 64). -/
def readsOf (ws : List W32) (q : Nat) : Nat :=
  (ws.filter (fun w => decide (0x182 ≤ opOf w ∧ opOf w ≤ 0x185) && fld w.toNat 19 4 == q)).length

/-- Whether every queue read from index i on holds enough entries. -/
def State.queuesHold (s : State) (h : Heat) (ws : List W32) : Bool :=
  (upto 16).all (fun q => decide (readsOf ws q ≤ (s.entries h q).length))

/-- The stamp up to which the waits of a clause cover a lane's operations. -/
def Heat.coverStamp (h : Heat) (l : Nat) : Nat := (h.lane l).clauseStamp

/-- Whether an operation of a mask and stamp is covered for one of the active lanes. -/
def Heat.covers (h : Heat) (active m : Mask) (stamp : Nat) : Bool :=
  (lanesOf (m &&& active)).any (fun l => decide (stamp ≤ h.coverStamp l))

/-- The wait that holds a sub-group before word i of a clause, as an order number of R405; 99 for STALL
alone: it holds while fewer than STALL cycles have passed since the previous issue, as R18 counts them; R14
calls them idle cycles between the issues (assumption log entry 63). -/
def State.waitCause (s : State) (h : Heat) (active : Mask) (hdr : Nat) (idx : Nat) (ws : List W32) (cyc : Nat) :
    Option Nat :=
  let covered (l n : Nat) : Bool := decide (n ≤ h.coverStamp l)
  if bitAt hdr 14 && (idx == 0 || decide (h.resumed &&& active ≠ 0#32)) && !s.queuesHold h (ws.drop idx) then some 5
  else if bitAt hdr 15 && s.unfinished s.curKey s.curHeatId h active .copy covered then some 7
  else if bitAt hdr 12 && h.pending.any (fun x => x.isLoad && h.covers active x.mask x.stamp) then some 7
  else if bitAt hdr 13 && s.unfinished s.curKey s.curHeatId h active .ack covered then some 8
  else if idx == 0 && (lanesOf active).any (fun l => match (h.lane l).lastCycle with
      | some c => decide (cyc < c + fld hdr 8 4)
      | none => false) then some 99
  else none

/-! ### Preparing an issue -/

/-- Whether a die's voltage-frequency state is changing: no scheduler of it issues (R535). -/
def State.changing (s : State) (core : Nat) : Bool := s.vfChanging.contains (core / 64)

/-- Whether a debugger grants this unit of a stopped team one issue (R507, R508). -/
def State.granted (s : State) (t u : Nat) : Bool :=
  match s.team? t with
  | none => false
  | some x => match x.grant, x.core? with
    | some g, some c => g.1 == u && x.stopped && (s.core c).frozen.isNone && !(s.core c).stuck && !x.halted &&
        x.started && x.action == 0
    | _, _ => false

/-- Whether a unit stands at the point its team runs to, or at its limit stride in a replay (R501, R502). -/
def Team.atStop (x : Team) (u count : Nat) : Bool :=
  match x.runTo with
  | none => false
  | some p => (p.heat == u && p.lap == x.lap.toNat && decide (p.stride ≤ count)) ||
      (x.replaying && x.limits.any (fun e => e.1 == u && decide (e.2 ≤ count)))

/-! ### Values that come to a replay or a checker (R484, R511) -/

/-- Whether a value due has its moment: the heat has reached the STRIDE at which it came, in the lap in which it
came. The entry of a command of the lap comes with the command. -/
def Team.reached (x : Team) (d : Delivery) : Bool :=
  d.own.isNone && (if x.checks.isSome then
      decide (d.lap < x.lap.toNat) || (d.lap == x.lap.toNat && decide (d.stride ≤ x.strideOf d.heat))
    else decide (d.stride ≤ x.strideOf d.heat))

/-- What a value due is for a team: a checker's own result has its own stamp. -/
def Team.asOwn (x : Team) (d : Delivery) : Delivered :=
  match d.what with
  | .result z =>
    if x.checks.isNone then d.what
    else match (x.heat? d.heat).bind (fun h => h.slots.find? (fun m => m.lap == z.lap && m.stride == z.stride)) with
      | some m => .result { z with stamp := m.stamp, cancelled := m.cancelled }
      | none => d.what
  | w => w

/-- The next value due comes: again in a replay (R484), to a checker as its primary got it (R511). -/
def State.deliverDue (s : State) (t : Nat) (d : Delivery) : State :=
  ((s.modTeam t (fun x =>
    let x := { x with due := x.due.erase d }
    if x.checks.isSome then x.receive d.heat s.stamp (x.asOwn d) none
    else { x with body := x.body.take d.heat s.stamp d.what })).settleHeat t d.heat).refill t |>.tick

/-- Whether a heat waits, in a replay, for the entry of a command of the lap that it had by this STRIDE (R484). -/
def Team.awaitsEntry (x : Team) (u : Nat) : Bool :=
  x.replaying && x.due.any (fun d => d.own.isSome && d.heat == u && decide (d.stride ≤ x.strideOf u))

/-- Number of the next word of a unit: STRIDE, or of the sequencer the words of the lap. -/
def Team.countOf (x : Team) (u : Nat) : Nat := if u = 255 then x.body.seq.count.toNat else x.strideOf u

/-- Whether a unit of a checker has to wait for its primary, which has not yet read what its next word reads (R511;
assumption log entry 75). -/
def State.follows (s : State) (x : Team) (u : Nat) : Bool :=
  match x.checks.bind s.team? with
  | none => false
  | some p =>
    let n := x.countOf u
    let ahead := decide (x.lap.toNat < p.lap.toNat) || (p.lap == x.lap && decide (n < p.countOf u))
    let reading := match p.heat? u with
      | some h => h.slots.any (fun z => z.isFabric && !z.isRemote && z.waiting != 0 && z.lap == x.lap.toNat && z.stride == n)
      | none => false
    !ahead || reading

/-- Hold a heat at its word for a cause; the turn stays (R299). -/
def State.holdHeat (s : State) (t u : Nat) (h : Heat) (active : Mask) (cause : Nat) : State :=
  s.putHeat t u { h with hold := cause, turn := some (lowLane active) }

/-- Prepare the issue of a heat's sub-group. -/
def prepareGroup (s : State) (who : Issuer) (t u core : Nat) (code : FMap Byte) (h : Heat) (active : Mask) : Prep :=
  let l := h.lane (lowLane active)
  let c : Cur := { who := who, core := core, active := active, helpers := h.helpers active, hdr := l.hdr, idx := l.idx }
  let s0 := { s with cur := c }
  withClause s0 code h.loopBuf false (s.holdHeat t u h active 3) (fun ws =>
    let hdr := (ws.headD 0#32).toNat
    match s0.waitCause h active hdr l.idx ws.tail (s.core core).cycles.toNat with
    | some cause => .stay (s.holdHeat t u h active cause)
    | none =>
      let n := ws.tail.length
      let h1 := h.forLanes active (fun y i => y.setLane i { y.lane i with n := n })
      let h2 : Heat := { h1 with loopBuf := bufferClause l.hdr ws h.loopBuf, yielded := false }
      runWord { s0.putHeat t u h2 with cur := { c with n := n, word := ws.tail.getD l.idx 0#32 } })

/-- Prepare the issue of a heat of a team. In one cycle the heats of a core issue in ascending HEATID, so that
their queue operations and their threads take effect in that order (R49, R400). -/
def prepareHeat (s : State) (t u : Nat) : Prep :=
  match s.team? t with
  | none => .stay s
  | some x => match x.heat? u, x.core? with
    | some h, some core =>
      let live := s.runs t || s.granted t u
      match (if live then x.due.find? x.reached else none) with
      | some d => .stay (s.deliverDue t d)
      | none =>
      if !live || x.awaitsEntry u || s.follows x u || h.ended || h.sleepUntil.isSome || s.changing core ||
          (s.core core).issued.contains (u % 4) || decide (u < (s.core core).lastHeat.getD 0) ||
          x.atStop u h.stride.toNat then .stay s
      else
        let quads := match x.grant with
          | some (_, q) => if x.stopped then q else 0#8
          | none => 0#8
        match (if quads = 0#8 then h.choose else h.chooseQuads quads) with
        | none => .stay s
        | some active => prepareGroup s (.heat t u) t u core (s.codeOf t) h active
    | _, _ => .stay s

/-- Prepare the issue of a core's trap heat: only while the core is frozen and it runs (R404, R474). -/
def prepareTrap (s : State) (core : Nat) : Prep :=
  let k := s.core core
  if k.frozen.isNone ∨ !k.trapOn ∨ k.stuck ∨ s.changing core ∨ k.trap.sleepUntil.isSome ∨
      (lanesOf k.trap.live).any (fun l => (k.trap.lane l).lastCycle == some k.cycles.toNat) then .stay s
  else match k.trap.choose with
    | none => .stay s
    | some active => prepareGroup s (.trap core) (trapBase + core) 0 core s.mem k.trap active

/-- Whether a sequencer's clause waits (R23): WS on what it writes out, WL on tile loads. -/
def Seq.waits (q : Seq) (hdr idx cyc : Nat) : Bool :=
  (bitAt hdr 13 && q.ops.any (fun o => decide (o.stamp ≤ q.clauseStamp) && (match o.kind with
    | .accStore _ => true
    | .axpy _ _ _ => true
    | .red _ => true
    | .drain _ _ _ => true
    | _ => false))) ||
  (bitAt hdr 12 && q.ops.any (fun o => decide (o.stamp ≤ q.clauseStamp) && (match o.kind with
    | .tileLoad _ _ => true
    | _ => false))) ||
  (idx == 0 && (match q.lastCycle with
    | some c => decide (cyc < c + fld hdr 8 4)
    | none => false))

/-- Prepare the issue of a team's sequencer. -/
def prepareSeq (s : State) (t : Nat) : Prep :=
  match s.team? t with
  | none => .stay s
  | some x => match x.core? with
    | none => .stay s
    | some core =>
      let q := x.body.seq
      let cyc := (s.core core).cycles.toNat
      let live := s.runs t || (s.granted t 255 && x.grant != some (255, 0xFF#8))
      match (if live then x.due.find? x.reached else none) with
      | some d => .stay (s.deliverDue t d)
      | none =>
      if !live || s.follows x 255 || !q.running || !q.park.again ||
          s.changing core || q.lastCycle == some cyc || x.atStop 255 q.count.toNat then .stay s
      else
        let c : Cur := { who := .seq t, core := core, hdr := q.hdr, idx := q.idx }
        let s0 := { s with cur := c }
        withClause s0 (s.codeOf t) q.loopBuf true s (fun ws =>
          if q.waits (ws.headD 0#32).toNat q.idx cyc then .stay s
          else
            let n := ws.tail.length
            let q1 : Seq := { q with n := n, loopBuf := bufferClause q.hdr ws q.loopBuf }
            runWord { s0.modSeq t (fun _ => q1) with cur := { c with n := n, word := ws.tail.getD q.idx 0#32 } })

/-- Prepare the issue of an issuer's next word. -/
def prepare (s : State) (w : Issuer) : Prep :=
  match w with
  | .heat t u => prepareHeat s t u
  | .seq t => prepareSeq s t
  | .trap c => prepareTrap s c

/-! ### After an issue -/

/-- Whether the issuer's word has issued between two states. -/
def issuedSince (s0 s1 : State) : Bool :=
  match s0.cur.who with
  | .heat t u => (match s1.heat? t u with
    | some h => h.lastIssue == some s0.stamp
    | none => false)
  | .trap c => (s1.core c).trap.lastIssue == some s0.stamp
  | .seq t => (match s0.team? t, s1.team? t with
    | some x, some y => x.body.seq.count != y.body.seq.count || x.lap != y.lap
    | _, _ => false)

/-- Y: after the clause's last word the heat lets another one go first (R19). -/
def State.settleYield (s1 : State) (s0 : State) (issued : Bool) : State :=
  match s0.cur.who with
  | .heat t u =>
    match s1.heat? t u with
    | none => s1
    | some h =>
      let y := match h.loopBuf.find? (fun e => e.1 == s0.cur.hdr) with
        | some e => bitAt (e.2.headD 0#32).toNat 7
        | none => false
      if issued && y && s0.cur.idx + 1 == s0.cur.n then s1.putHeat t u { h with yielded := true } else s1
  | _ => s1

/-- Whether lanes of the issue now stand parked. -/
def nowParked (s0 s1 : State) : Bool :=
  match s0.cur.who with
  | .heat t u => (match s1.heat? t u with
    | some h => (lanesOf s0.cur.active).any (fun l => (h.lane l).park != .none)
    | none => false)
  | .seq t => (match s1.team? t with
    | some x => x.body.seq.park != .none
    | none => false)
  | .trap _ => false

/-- Answer a debugger's step (R507, R508): STOPPED after the issue, PARKED where the word parks, STOPPED with
the class where it traps; an MMA answers when its steps have run. -/
def State.settleStep (s1 : State) (s0 : State) (issued : Bool) : State :=
  match s0.curTeam with
  | none => s1
  | some t => match s1.team? t with
    | none => s1
    | some x =>
      if x.grant.isNone then s1
      else
        let done (n : Nat) (d : List Byte) : State := (s1.putTeam t { x with grant := none }).dbgReply x.dbgTag n d
        let trap := (s0.core s0.cur.core).frozen.isNone && (s1.core s0.cur.core).frozen.isSome
        if trap then done 0 [BitVec.ofNat 8 ((s1.core s0.cur.core).frozen.getD {}).cls]
        else if nowParked s0 s1 then done 4 []
        else if !issued then s1
        else if s0.curHeatId = 255 ∧ x.body.seq.ops.any (fun o => o.kind.isMma && o.stamp == s0.stamp) then
          s1.putTeam t { x with grant := some (255, 0xFF#8) }
        else done 0 []

/-- Whether a unit has passed its limit stride, or ended (R506). -/
def Team.passed (x : Team) (u lim : Nat) : Bool :=
  if u = 255 then !x.body.seq.running || decide (lim ≤ x.body.seq.count.toNat)
  else match x.heat? u with
    | some h => h.ended || decide (lim ≤ h.stride.toNat)
    | none => true

/-- A team resumed from a replayed stop leaves replay mode once every unit has passed its limit (R506). -/
def State.settleReplay (s : State) (who : Issuer) : State :=
  match who with
  | .trap _ => s
  | .heat t _ => s.modTeam t (fun x =>
      if x.replaying && x.runTo.isNone && !x.limits.isEmpty && x.limits.all (fun e => x.passed e.1 e.2) then
        { x with replaying := false } else x)
  | .seq t => s.modTeam t (fun x =>
      if x.replaying && x.runTo.isNone && !x.limits.isEmpty && x.limits.all (fun e => x.passed e.1 e.2) then
        { x with replaying := false } else x)

/-- A word that has issued or trapped no longer waits for walks. -/
def State.settleWalks (s1 : State) (s0 : State) (issued : Bool) : State :=
  if issued || (s1.core s0.cur.core).frozen != (s0.core s0.cur.core).frozen then
    s1.endWalks s0.cur.core s0.curKey s0.curHeatId
  else s1

/-- What follows the run of a word. -/
def settleIssue (s0 s1 : State) : State :=
  let issued := issuedSince s0 s1
  (((s1.settleYield s0 issued).settleStep s0 issued).settleReplay s0.cur.who).settleWalks s0 issued

/-! ### Events -/

/-- The clause the broadcast fetch unit fetches next for a position: its own, or, where the loop buffers hold
it, the fall-through clause, fetched ahead of need (R302). -/
def nextFetch (buf : List (Addr × List W32)) (hdr : Addr) : Addr :=
  match buf.find? (fun e => e.1 == hdr) with
  | some e => fallThrough hdr (e.2.length - 1)
  | none => hdr

/-- BROADCAST_FETCH (R302): a heat's next clause (HEATID 255: the sequencer's; a key from `trapBase` on: a
trap heat's) comes into its loop buffers ahead of its issue; a fetch that fails changes nothing here. -/
def execEvBroadcastFetch (team heat : Nat) (s : State) : Out :=
  if heat = 255 then
    match s.team? team with
    | none => .next s
    | some x =>
      let q := x.body.seq
      let hdr := nextFetch q.loopBuf q.hdr
      if q.loopBuf.any (fun e => e.1 == hdr) then .next s
      else match s.fetchClause (x.core?.getD 0 / 64) x.asid (s.codeOf team) hdr with
        | .ok ws => .next (s.modSeq team (fun q => { q with loopBuf := bufferClause hdr ws q.loopBuf })).tick
        | _ => .next s
  else match s.heat? team heat with
    | none => .next s
    | some h => match h.choose with
      | none => .next s
      | some active =>
        let hdr := nextFetch h.loopBuf (h.lane (lowLane active)).hdr
        let asid := if trapBase ≤ team then ((s.core (team - trapBase)).frozen.getD {}).asid else match s.team? team with
          | some x => x.asid
          | none => 0
        let die := s.coreOfKey team / 64
        let code := if trapBase ≤ team then s.mem else s.codeOf team
        if h.loopBuf.any (fun e => e.1 == hdr) then .next s
        else match s.fetchClause die asid code hdr with
          | .ok ws => .next (s.putHeat team heat { h with loopBuf := bufferClause hdr ws h.loopBuf }).tick
          | _ => .next s

/-- A valid translation is held by TLBs from now on, in place of what they held for its page; an invalid one is
not (R493). -/
def State.cacheWalk (s : State) (homes : List Nat) (asid : Nat) (w : Walk) : State :=
  match w with
  | .page base size leaf =>
    { s with tlb := homes.map (fun h => { home := h, asid := asid, base := base, size := size, leaf := BitVec.ofNat 64 leaf }) ++
        s.tlb.filter (fun e => !(homes.contains e.home && e.asid == asid && decide (e.base < base + size ∧ base < e.base + e.size))) }
  | _ => s

/-- The table entries that a walk went through are in its die's walk cache (R493). -/
def State.cachePath (s : State) (es : List TableEntry) : State :=
  { s with tables := es ++ s.tables.filter (fun e => !es.any (fun f =>
      f.die == e.die && f.asid == e.asid && f.level == e.level && f.tag == e.tag)) }

/-- What a walk gives: its single read falls between its begin and its end, so where they differ either may be
(R494, R495; assumption log entry 5). -/
def State.walkResult (s : State) (k : OpenWalk) (va : Nat) : Walk :=
  let now := s.translateOn k.die k.asid va
  if now ≠ k.begun ∧ Config.tlbKeeps s.stamp va then k.begun else now

/-- The walk that an access of a page waits for ends, or with none the walk of an agent of die A. -/
def State.theWalk (s : State) (asid va : Nat) : OpenWalk :=
  (s.walks.find? (fun k => k.asid == asid && k.page == va / 65536 && k.result.isNone)).getD
    { die := 0, asid := asid, page := va / 65536, begun := s.walk 0 asid va }

/-- PAGE_WALK_COMPLETE (R491, R493, R494): a page walk ends. A valid translation is cached in its die's TLB and in
the micro-TLBs of the cores that wait for it, an invalid one is not; an uncorrectable table word goes to the black
box; the accesses that wait take this one result. -/
def execEvPageWalkComplete (asid : Nat) (va : BitVec 72) (s : State) : Out :=
  let a := va.toNat
  if va.getLsbD 71 then .next s
  else
    let k := s.theWalk asid a
    let w := s.walkResult k a
    if w = .invalid ∧ k.users.isEmpty then .next s
    else
      let s1 := { s with walks := s.walks.map (fun (x : OpenWalk) =>
        if x = k then { x with result := some w } else x) }
      let s2 := (s1.cacheWalk ((128 + k.die) :: distinct (k.users.map (·.1))) asid w).cachePath (s.walkPath k.die asid a).2
      .next (s2.noteWalk ((k.users.map (·.1)).headD s.cur.core) asid a w).tick

/-! ### The cycle (R283, R404, R405) -/

/-- The counter a cause is charged to (R405). -/
def causeCounter (order : Nat) : Nat :=
  match order with
  | 0 => 15
  | 1 => 13
  | 2 => 9
  | 3 => 10
  | 4 => 8
  | 5 => 6
  | 6 => 7
  | 7 => 4
  | 8 => 5
  | 9 => 3
  | 10 => 2
  | 11 => 11
  | _ => 12

/-- The order number of what holds a heat now (R405): the first of the table that applies. -/
def Heat.heldBy (h : Heat) (stopped : Bool) : Nat :=
  let parks := (lanesOf h.live).map (fun l => (h.lane l).park)
  let isQ (lo hi : Nat) (p : Park) : Bool := match p with
    | .retryQueue q => decide (lo ≤ q ∧ q < hi)
    | _ => false
  if stopped then 0
  else if parks.any Park.isPack then 1
  else if parks.any (· == .retryPresence) then 2
  else if h.hold = 3 then 3
  else if parks.any (fun p => p.code == 1 || p.code == 4 || p.code == 6 || p.code == 7) then 4
  else if parks.any (isQ 0 16) ∨ h.hold = 5 then 5
  else if parks.any (isQ 16 32) ∨ parks.any (fun p => p.code == 5) then 6
  else if h.hold ≤ 11 ∧ 7 ≤ h.hold then h.hold
  else 12

/-- Heats of a scheduler of a core that have not ended: team, HEATID, heat. -/
def State.schedHeats (s : State) (core sched : Nat) : List (Nat × Nat × Heat) :=
  (s.residents core).foldl (fun acc t => match s.team? t with
    | none => acc
    | some x => acc ++ (x.body.heats.filter (fun e => !e.2.ended && e.1 % 4 == sched)).map (fun e => (t, e.1, e.2))) []

/-- Whether one heat issued less recently than another (R404). -/
def olderIssue (a b : Heat) : Bool :=
  match a.lastIssue, b.lastIssue with
  | none, none => decide (a.slot < b.slot)
  | none, some _ => true
  | some _, none => false
  | some x, some y => decide (x < y)

/-- The least-recently-issued heat of a list (R404). -/
def leastRecent (l : List (Nat × Nat × Heat)) : Option (Nat × Nat × Heat) :=
  match l with
  | [] => none
  | x :: t => some (t.foldl (fun b y => if olderIssue y.2.2 b.2.2 then y else b) x)

/-- Whether the pacers withhold the issues of a core in this cycle: one slot in four (R536). -/
def State.withholds (s : State) (core : Nat) : Bool := s.withhold && (s.core core).cycles.toNat % 4 == 3

/-- The counter a scheduler charges in this cycle and the heat charged (R405). -/
def State.charge (s : State) (core sched : Nat) : Nat × Option (Nat × Nat × Heat) :=
  let k := s.core core
  if k.frozen.isSome || k.stuck then (15, none)
  else if s.changing core ∨ k.readied.contains sched then (14, none)
  else if k.issued.contains sched then
    (0, (s.schedHeats core sched).find? (fun e => e.2.2.lanes.any (fun l => l.2.lastCycle == some k.cycles.toNat)))
  else match leastRecent (s.schedHeats core sched) with
    | none => (1, none)
    | some e =>
      if e.2.2.sleepUntil.isSome ∨ e.2.2.yielded ∨ e.2.2.hold = 99 then (1, none)
      else
        let stopped := match s.team? e.1 with
          | some x => x.stopped || x.halted
          | none => false
        (causeCounter (e.2.2.heldBy stopped), some e)

/-- A heat at the end of a cycle: one wave is sent (the first in the cycle of its issue), and a yield that a
whole cycle has honoured ends. -/
def Heat.endCycle (h : Heat) (cyc : Nat) : Heat :=
  { h with
    waves := h.waves - 1
    yielded := h.yielded && h.lanes.any (fun e => e.2.lastCycle == some cyc) }

/-- ARITHMETIC_CYCLE (R283, R405, R520): a cycle of a core ends: each scheduler charges one counter, the clock
advances, and the schedulers may issue again. -/
def execEvArithmeticCycle (core : Nat) (s : State) : Out :=
  if 128 ≤ core then .next s
  else
    let k := s.core core
    let stalls := (upto 4).foldl (fun m sched =>
      let n := 16 * sched + (s.charge core sched).1
      mset 0#64 m n (mget 0#64 m n + 1#64)) k.stalls
    let s1 := (s.residents core).foldl (fun s t => (s.modTeam t (fun x => { x with body := { x.body with
      heats := x.body.heats.map (fun (e : Nat × Heat) => (e.1, e.2.endCycle k.cycles.toNat)) } })).markReady t) s
    let s2 := s1.putCore core { s1.core core with
      cycles := k.cycles + 1#64, issued := [], lastHeat := none, readied := [], sampled := [], stalls := stalls, capture := k.capture - 1
      trap := (s1.core core).trap.endCycle k.cycles.toNat }
    .next (s2.count core 1 1).tick

end

end Sys2Proof.Machine
end

