-- ==== Sys2Proof/Machine/Load.lean ====
section
/-! DEFINITION. What stands for the load of a program by the host: a context whose page table maps the first GiB, a
clause of one word, and a unit whose next word it is. `Sys2Proof/Machine/Step.lean` uses it to state where
the next instruction comes from (assumption log entry 2). -/

namespace Sys2Proof.Machine

/-- Physical and virtual address of the clause. -/
def loadEntry : Nat := 0x100000

/-- The tables of the context: one entry each at levels 0 and 1, and a leaf of 1 GiB at physical 0 with RD, W
and X and width DOMAIN (R489, R490). -/
def loadTables (m : FMap Byte) : FMap Byte :=
  writeNat (writeNat (writeNat m 0x20000 8 0x40001) 0x40000 8 0x60001) 0x60000 8 0xFB

/-- The header of a clause of one word of a class (R14). -/
def loadHeader (cls : Nat) : Nat := 0xA0000001 + 16 * cls

/-- Memory with the tables and a clause that holds word w. -/
def loadMem (m : FMap Byte) (w : Nat) : FMap Byte :=
  writeNat (writeNat (loadTables m) loadEntry 4 (loadHeader (opClass (fld w 23 9)))) (loadEntry + 4) 4 w

/-- Whether a word runs in the trap heat: the privileged words, and an SRD of a privileged register (R277). -/
def loadPrivileged (w : Nat) : Bool :=
  let op := fld w 23 9
  let sys := fld w 0 16
  decide (0x1F1 ≤ op ∧ op ≤ 0x1F6) || (op == 0x1F0 && (decide (0x1000 ≤ sys) || sys == 0x10 || sys == 0x11))

/-- 32 live lanes at the clause. -/
def loadLanes : FMap Lane := (upto 32).map (fun l => (l, { live := true, hdr := BitVec.ofNat 72 loadEntry }))

/-- The team that holds the unit: one compute heat, a sequencer, 16 accumulator tiles. -/
def loadTeam (t gid : Nat) : Team :=
  { grid := gid, cluster := [t], res := .active 0 0 0 0, size := 0x500000, commitShare := 0x100000, accCount := 16
    started := true
    body := {
      heats := [(0, { role := 1, lanes := loadLanes })]
      seq := { running := true, hdr := BitVec.ofNat 72 loadEntry } } }

/-- The unit whose next word it is. -/
def loadIssuer (w t : Nat) : Issuer :=
  if opClass (fld w 23 9) = 4 then .seq t else if loadPrivileged w then .trap 0 else .heat t 0

/-- Core 0 as the load leaves it: not frozen, or frozen with its trap heat at the clause. -/
def loadCore (k : Core) (trap : Bool) : Core :=
  let k := { k with frozenAt := none, stuck := false, issued := [], lastHeat := none, flips := [] }
  if trap then { k with frozen := some {}, trapOn := true, trap := { lanes := loadLanes } }
  else { k with frozen := none, trapOn := false }

/-- The translation of the context that the micro-TLB of core 0 holds: a word that accesses memory need not wait for
a walk. -/
def loadTlb : TlbEntry := { home := 0, size := 2 ^ 30, leaf := 0xFB#64 }

/-- A state whose next step runs the word w. -/
def State.load (s : State) (w : Nat) : State :=
  let m := loadMem s.mem w
  let gid := (s.lastGrid + 1#32).toNat
  let t := s.nextTeam
  let who := loadIssuer w t
  let body := { loadTeam t gid with lapBody := (loadTeam t gid).body }
  { s with
    mem := m
    contexts := mput s.contexts 0 { root := 0x20000 }
    tlb := loadTlb :: s.tlb.filter (fun e => e.asid != 0)
    tables := s.tables.filter (fun e => e.asid != 0)
    walks := s.walks.filter (fun w => w.asid != 0)
    grids := mput s.grids gid { code := m }
    lastGrid := s.lastGrid + 1#32
    teams := if who == .trap 0 then s.teams else mput s.teams t body
    nextTeam := t + 1
    cores := mput s.cores 0 (loadCore (s.core 0) (who == .trap 0))
    vfChanging := s.vfChanging.filter (· != 0)
    inputs := .issue who :: s.inputs }

end Sys2Proof.Machine
end

