-- ==== Sys2Proof/Machine/Vector.lean ====
section
/-! DEFINITION. Vector integer instructions (R126–R137) and predicate instructions (R138–R140). -/

namespace Sys2Proof.Machine

/-- An RRR vector word: v(D) from v(A) and v(B) per executing lane (R110, R126). -/
def vec2 (d a b : BitVec 7) (p : BitVec 2) (s : State) (f : W32 → W32 → W32) : Out :=
  vecWord s [(d.toNat, 1), (a.toNat, 1), (b.toNat, 1)] [] p.toNat d.toNat
    (fun h l => f (h.v a.toNat l) (h.v b.toNat l))

/-- An RRR vector word that also reads the old v(D). -/
def vec3 (d a b : BitVec 7) (p : BitVec 2) (s : State) (f : W32 → W32 → W32 → W32) : Out :=
  vecWord s [(d.toNat, 1), (a.toNat, 1), (b.toNat, 1)] [] p.toNat d.toNat
    (fun h l => f (h.v a.toNat l) (h.v b.toNat l) (h.v d.toNat l))

/-- A vector word of one source. -/
def vec1 (d a : BitVec 7) (p : Nat) (s : State) (f : W32 → W32) : Out :=
  vecWord s [(d.toNat, 1), (a.toNat, 1)] [] p d.toNat (fun h l => f (h.v a.toNat l))

/-- A 64-bit vector word of two pairs (R129). -/
def pair2 (d a b : BitVec 6) (p : BitVec 2) (s : State) (f : W64 → W64 → W64) : Out :=
  pairWord s [(pairReg d, 2), (pairReg a, 2), (pairReg b, 2)] p.toNat (pairReg d)
    (fun h l => f (h.pair (pairReg a) l) (h.pair (pairReg b) l))

/-- A 64-bit vector shift by v(B) (R129). -/
def pairShift (d a : BitVec 6) (b : BitVec 7) (p : BitVec 2) (s : State)
    (f : W64 → Nat → W64) : Out :=
  pairWord s [(pairReg d, 2), (pairReg a, 2), (b.toNat, 1)] p.toNat (pairReg d)
    (fun h l => f (h.pair (pairReg a) l) (h.v b.toNat l).toNat)

/-- A vector comparison into k(D) (R136, R147). -/
def vcmp (d : BitVec 3) (a b : BitVec 7) (p : BitVec 2) (s : State) (f : W32 → W32 → Bool) : Out :=
  predWord s [(a.toNat, 1), (b.toNat, 1)] p.toNat d.toNat
    (fun h l => f (h.v a.toNat l) (h.v b.toNat l))

/-- Clamp to the signed 32-bit range (R128). -/
def satS (z : Int) : W32 := BitVec.ofInt 32 (max (-2147483648) (min 2147483647 z))

/-- Clamp to the unsigned 32-bit range (R128). -/
def satN (z : Int) : W32 := BitVec.ofInt 32 (max 0 (min 4294967295 z))

/-- Position and effective width of a bit field from v(B) (R134). -/
def bfPos (b : W32) : Nat := b.toNat % 32

/-- Effective width of a bit field (R134). -/
def bfWidth (b : W32) : Nat := min (min (b.toNat / 256 % 64) 32) (32 - bfPos b)

/-- The mask of a bit field. -/
def bfMask (b : W32) : W32 := BitVec.ofNat 32 ((2 ^ bfWidth b - 1) * 2 ^ bfPos b)

/-- VBFE.n32. -/
def bfeN (a b : W32) : W32 := (a &&& bfMask b) >>> bfPos b

/-- VBFE.s32. -/
def bfeS (a b : W32) : W32 := BitVec.ofInt 32 (sextN (bfWidth b) (bfeN a b).toNat)

/-- VBFI. -/
def bfi (a b d : W32) : W32 := (d &&& ~~~bfMask b) ||| ((a <<< bfPos b) &&& bfMask b)

/-- Exact sum of products of the parts of `w` bits of two words (R137). -/
def dotProd (w : Nat) (signed : Bool) (a b : W32) : Int :=
  ((upto (32 / w)).map (fun i =>
    let x := fld a.toNat (w * i) w
    let y := fld b.toNat (w * i) w
    if signed then sextN w x * sextN w y else (x * y : Nat))).foldl (· + ·) 0

/-- A predicate word of two sources (R138). -/
def pred2 (d a b : BitVec 3) (p : BitVec 2) (s : State) (f : Bool → Bool → Bool) : Out :=
  predWord s [] p.toNat d.toNat (fun h l => f (h.k a.toNat l) (h.k b.toNat l))

/-- VADD (R126): v(A) + v(B). -/
def execVadd (d a b : BitVec 7) (p : BitVec 2) (s : State) : Out :=
  vec2 d a b p s (fun x y => x + y)

/-- VSUB (R126): v(A) − v(B). -/
def execVsub (d a b : BitVec 7) (p : BitVec 2) (s : State) : Out :=
  vec2 d a b p s (fun x y => x - y)

/-- VMUL (R126): low half of the product. -/
def execVmul (d a b : BitVec 7) (p : BitVec 2) (s : State) : Out :=
  vec2 d a b p s (fun x y => x * y)

/-- VMULH_S32 (R126): high half, signed. -/
def execVmulhS32 (d a b : BitVec 7) (p : BitVec 2) (s : State) : Out :=
  vec2 d a b p s (fun x y => mulhS x y)

/-- VMULH_N32 (R126): high half, unsigned. -/
def execVmulhN32 (d a b : BitVec 7) (p : BitVec 2) (s : State) : Out :=
  vec2 d a b p s (fun x y => mulhN x y)

/-- VMAD (R126): v(A) × v(B) + old v(D). -/
def execVmad (d a b : BitVec 7) (p : BitVec 2) (s : State) : Out :=
  vec3 d a b p s (fun x y z => x * y + z)

/-- VAND (R126): AND. -/
def execVand (d a b : BitVec 7) (p : BitVec 2) (s : State) : Out :=
  vec2 d a b p s (fun x y => x &&& y)

/-- VOR (R126): OR. -/
def execVor (d a b : BitVec 7) (p : BitVec 2) (s : State) : Out :=
  vec2 d a b p s (fun x y => x ||| y)

/-- VXOR (R126): XOR. -/
def execVxor (d a b : BitVec 7) (p : BitVec 2) (s : State) : Out :=
  vec2 d a b p s (fun x y => x ^^^ y)

/-- VSHL (R127): left shift. -/
def execVshl (d a b : BitVec 7) (p : BitVec 2) (s : State) : Out :=
  vec2 d a b p s (fun x y => shl x y.toNat)

/-- VSHR (R127): right shift, zero fill. -/
def execVshr (d a b : BitVec 7) (p : BitVec 2) (s : State) : Out :=
  vec2 d a b p s (fun x y => shr x y.toNat)

/-- VSRA (R127): right shift, sign fill. -/
def execVsra (d a b : BitVec 7) (p : BitVec 2) (s : State) : Out :=
  vec2 d a b p s (fun x y => sra x y.toNat)

/-- VMIN_S32 (R126): signed minimum. -/
def execVminS32 (d a b : BitVec 7) (p : BitVec 2) (s : State) : Out :=
  vec2 d a b p s (fun x y => minS x y)

/-- VMIN_N32 (R126): unsigned minimum. -/
def execVminN32 (d a b : BitVec 7) (p : BitVec 2) (s : State) : Out :=
  vec2 d a b p s (fun x y => minN x y)

/-- VMAX_S32 (R126): signed maximum. -/
def execVmaxS32 (d a b : BitVec 7) (p : BitVec 2) (s : State) : Out :=
  vec2 d a b p s (fun x y => maxS x y)

/-- VMAX_N32 (R126): unsigned maximum. -/
def execVmaxN32 (d a b : BitVec 7) (p : BitVec 2) (s : State) : Out :=
  vec2 d a b p s (fun x y => maxN x y)

/-- VADD_SAT_S32 (R128): signed saturating sum. -/
def execVaddSatS32 (d a b : BitVec 7) (p : BitVec 2) (s : State) : Out :=
  vec2 d a b p s (fun x y => satS (x.toInt + y.toInt))

/-- VSUB_SAT_S32 (R128): signed saturating difference. -/
def execVsubSatS32 (d a b : BitVec 7) (p : BitVec 2) (s : State) : Out :=
  vec2 d a b p s (fun x y => satS (x.toInt - y.toInt))

/-- VADD_SAT_N32 (R128): unsigned saturating sum. -/
def execVaddSatN32 (d a b : BitVec 7) (p : BitVec 2) (s : State) : Out :=
  vec2 d a b p s (fun x y => satN ((x.toNat : Int) + y.toNat))

/-- VSUB_SAT_N32 (R128): unsigned saturating difference. -/
def execVsubSatN32 (d a b : BitVec 7) (p : BitVec 2) (s : State) : Out :=
  vec2 d a b p s (fun x y => satN ((x.toNat : Int) - y.toNat))

/-- VADD_N64 (R129): 64-bit sum. -/
def execVaddN64 (d a b : BitVec 6) (p : BitVec 2) (s : State) : Out :=
  pair2 d a b p s (fun x y => x + y)

/-- VSUB_N64 (R129): 64-bit difference. -/
def execVsubN64 (d a b : BitVec 6) (p : BitVec 2) (s : State) : Out :=
  pair2 d a b p s (fun x y => x - y)

/-- VMUL_N64 (R129): low 64 bits of the product. -/
def execVmulN64 (d a b : BitVec 6) (p : BitVec 2) (s : State) : Out :=
  pair2 d a b p s (fun x y => x * y)

/-- VSHL_B64 (R129): left shift. -/
def execVshlB64 (d a : BitVec 6) (b : BitVec 7) (p : BitVec 2) (s : State) : Out :=
  pairShift d a b p s shl

/-- VSHR_B64 (R129): right shift, zero fill. -/
def execVshrB64 (d a : BitVec 6) (b : BitVec 7) (p : BitVec 2) (s : State) : Out :=
  pairShift d a b p s shr

/-- VSRA_S64 (R129): right shift, sign fill. -/
def execVsraS64 (d a : BitVec 6) (b : BitVec 7) (p : BitVec 2) (s : State) : Out :=
  pairShift d a b p s sra

/-- VABS_S32 (R130): absolute value; 0x8000_0000 gives 0x7FFF_FFFF. -/
def execVabsS32 (d a : BitVec 7) (p : BitVec 2) (s : State) : Out :=
  vec1 d a p.toNat s (fun x => if x = 0x80000000#32 then 0x7FFFFFFF#32 else if x.msb then -x else x)

/-- VCLZ (R130): leading zeros. -/
def execVclz (d a : BitVec 7) (p : BitVec 2) (s : State) : Out :=
  vec1 d a p.toNat s (fun x => BitVec.ofNat 32 (clz x))

/-- VPOPC (R130): one bits. -/
def execVpopc (d a : BitVec 7) (p : BitVec 2) (s : State) : Out :=
  vec1 d a p.toNat s (fun x => BitVec.ofNat 32 (popc x))

/-- VMOV (R131): v(D) = v(A). -/
def execVmov (d a : BitVec 7) (p : BitVec 2) (s : State) : Out :=
  vec1 d a p.toNat s (fun x => x)

/-- VMOV_SCALAR (R131): v(D) = s(A)[31:0] in every executing lane. -/
def execVmovScalar (d : BitVec 7) (a : BitVec 6) (p : BitVec 2) (s : State) : Out :=
  vecWord s [(d.toNat, 1)] [(a.toNat, 1)] p.toNat d.toNat
    (fun h _ => (h.sr a.toNat).setWidth 32)

/-- VSEL (R132): v(A) where k K is set, else v(B); K selects and predicates nothing. -/
def execVsel (d a b : BitVec 7) (k : BitVec 2) (s : State) : Out :=
  vecWord s [(d.toNat, 1), (a.toNat, 1), (b.toNat, 1)] [] 0 d.toNat
    (fun h l => if h.k k.toNat l then h.v a.toNat l else h.v b.toNat l)

/-- VADD_IMM (R133): v(A) + sext(IMM9). -/
def execVaddImm (d a : BitVec 7) (i : BitVec 9) (s : State) : Out :=
  vec1 d a 0 s (fun x => x + sext 32 i)

/-- VAND_IMM (R133): AND. -/
def execVandImm (d a : BitVec 7) (i : BitVec 9) (s : State) : Out :=
  vec1 d a 0 s (fun x => x &&& sext 32 i)

/-- VOR_IMM (R133): OR. -/
def execVorImm (d a : BitVec 7) (i : BitVec 9) (s : State) : Out :=
  vec1 d a 0 s (fun x => x ||| sext 32 i)

/-- VXOR_IMM (R133): XOR. -/
def execVxorImm (d a : BitVec 7) (i : BitVec 9) (s : State) : Out :=
  vec1 d a 0 s (fun x => x ^^^ sext 32 i)

/-- VSHL_IMM (R133): left shift. -/
def execVshlImm (d a : BitVec 7) (i : BitVec 5) (s : State) : Out :=
  vec1 d a 0 s (fun x => shl x i.toNat)

/-- VSHR_IMM (R133): right shift. -/
def execVshrImm (d a : BitVec 7) (i : BitVec 5) (s : State) : Out :=
  vec1 d a 0 s (fun x => shr x i.toNat)

/-- VSRA_IMM (R133): right shift, sign fill. -/
def execVsraImm (d a : BitVec 7) (i : BitVec 5) (s : State) : Out :=
  vec1 d a 0 s (fun x => sra x i.toNat)

/-- VMUL_IMM (R133): product. -/
def execVmulImm (d a : BitVec 7) (i : BitVec 9) (s : State) : Out :=
  vec1 d a 0 s (fun x => x * sext 32 i)

/-- VMIN_S32_IMM (R133): signed minimum. -/
def execVminS32Imm (d a : BitVec 7) (i : BitVec 9) (s : State) : Out :=
  vec1 d a 0 s (fun x => minS x (sext 32 i))

/-- VMAX_S32_IMM (R133): signed maximum. -/
def execVmaxS32Imm (d a : BitVec 7) (i : BitVec 9) (s : State) : Out :=
  vec1 d a 0 s (fun x => maxS x (sext 32 i))

/-- VBFE_S32 (R134): signed bit field. -/
def execVbfeS32 (d a b : BitVec 7) (p : BitVec 2) (s : State) : Out :=
  vec2 d a b p s (fun x y => bfeS x y)

/-- VBFE_N32 (R134): unsigned bit field. -/
def execVbfeN32 (d a b : BitVec 7) (p : BitVec 2) (s : State) : Out :=
  vec2 d a b p s (fun x y => bfeN x y)

/-- VBFI (R134): bit field inserted. -/
def execVbfi (d a b : BitVec 7) (p : BitVec 2) (s : State) : Out :=
  vec3 d a b p s (fun x y z => bfi x y z)

/-- VMOVI (R135): v(D) = sext(IMM16). -/
def execVmovi (d : BitVec 7) (i : BitVec 16) (s : State) : Out :=
  vecWord s [(d.toNat, 1)] [] 0 d.toNat (fun _ _ => sext 32 i)

/-- VMOVI_HI (R135): bits 31:16 of v(D) replaced. -/
def execVmoviHi (d : BitVec 7) (i : BitVec 16) (s : State) : Out :=
  vecWord s [(d.toNat, 1)] [] 0 d.toNat (fun h l => i ++ (h.v d.toNat l).extractLsb' 0 16)

/-- VCMP_EQ (R136): equal. -/
def execVcmpEq (d : BitVec 3) (a b : BitVec 7) (p : BitVec 2) (s : State) : Out :=
  vcmp d a b p s (fun x y => x == y)

/-- VCMP_NE (R136): not equal. -/
def execVcmpNe (d : BitVec 3) (a b : BitVec 7) (p : BitVec 2) (s : State) : Out :=
  vcmp d a b p s (fun x y => x != y)

/-- VCMP_LT_S32 (R136): signed less than. -/
def execVcmpLtS32 (d : BitVec 3) (a b : BitVec 7) (p : BitVec 2) (s : State) : Out :=
  vcmp d a b p s (fun x y => x.slt y)

/-- VCMP_LE_S32 (R136): signed at most. -/
def execVcmpLeS32 (d : BitVec 3) (a b : BitVec 7) (p : BitVec 2) (s : State) : Out :=
  vcmp d a b p s (fun x y => !y.slt x)

/-- VCMP_LT_N32 (R136): unsigned less than. -/
def execVcmpLtN32 (d : BitVec 3) (a b : BitVec 7) (p : BitVec 2) (s : State) : Out :=
  vcmp d a b p s (fun x y => x.ult y)

/-- VCMP_LE_N32 (R136): unsigned at most. -/
def execVcmpLeN32 (d : BitVec 3) (a b : BitVec 7) (p : BitVec 2) (s : State) : Out :=
  vcmp d a b p s (fun x y => !y.ult x)

/-- VDP4_S8 (R137): four signed byte products. -/
def execVdp4S8 (d a b : BitVec 7) (p : BitVec 2) (s : State) : Out :=
  vec3 d a b p s (fun x y z => z + BitVec.ofInt 32 (dotProd 8 true x y))

/-- VDP4_N8 (R137): four unsigned byte products. -/
def execVdp4N8 (d a b : BitVec 7) (p : BitVec 2) (s : State) : Out :=
  vec3 d a b p s (fun x y z => z + BitVec.ofInt 32 (dotProd 8 false x y))

/-- VDP2_S16 (R137): two signed halfword products. -/
def execVdp2S16 (d a b : BitVec 7) (p : BitVec 2) (s : State) : Out :=
  vec3 d a b p s (fun x y z => z + BitVec.ofInt 32 (dotProd 16 true x y))

/-- KAND (R138): AND. -/
def execKand (d a b : BitVec 3) (p : BitVec 2) (s : State) : Out :=
  pred2 d a b p s (fun x y => x && y)

/-- KOR (R138): OR. -/
def execKor (d a b : BitVec 3) (p : BitVec 2) (s : State) : Out :=
  pred2 d a b p s (fun x y => x || y)

/-- KXOR (R138): XOR. -/
def execKxor (d a b : BitVec 3) (p : BitVec 2) (s : State) : Out :=
  pred2 d a b p s (fun x y => x != y)

/-- KNOT (R138): NOT k(A). -/
def execKnot (d a : BitVec 3) (p : BitVec 2) (s : State) : Out :=
  predWord s [] p.toNat d.toNat (fun h l => !h.k a.toNat l)

/-- KMOV (R138): k(A). -/
def execKmov (d a : BitVec 3) (p : BitVec 2) (s : State) : Out :=
  predWord s [] p.toNat d.toNat (fun h l => h.k a.toNat l)

/-- KMOV_V2K (R139): whether v(A) is nonzero. -/
def execKmovV2k (d : BitVec 3) (a : BitVec 7) (p : BitVec 2) (s : State) : Out :=
  predWord s [(a.toNat, 1)] p.toNat d.toNat (fun h l => h.v a.toNat l != 0#32)

/-- KMOV_K2V (R139): k(A) as 0 or 1. -/
def execKmovK2v (d : BitVec 7) (a : BitVec 3) (p : BitVec 2) (s : State) : Out :=
  vecWord s [(d.toNat, 1)] [] p.toNat d.toNat (fun h l => if h.k a.toNat l then 1#32 else 0#32)

/-- KPOPC (R140): number of active, non-helper lanes with k(A) set. -/
def execKpopc (d : BitVec 6) (a : BitVec 3) (s : State) : Out :=
  scaWord s [(d.toNat, 1)] d.toNat
    (fun h => BitVec.ofNat 64 (lanesOf (h.taking s.cur.active a.toNat)).length)

end Sys2Proof.Machine
end

