-- ==== Sys2Proof/Machine/Float32.lean ====
section
/-! DEFINITION. FP32 and packed BF16 instructions (R145–R150). -/

namespace Sys2Proof.Machine

/-- FP32 word of an encoding. -/
def f32 (x : Nat) : W32 := BitVec.ofNat 32 x

/-- ROUND of a two-operand FP32 operation (R145). -/
def fp2 (m : RMode) (f : FVal → FVal → FVal) (x y : W32) : W32 :=
  f32 (round .f32 m 0 (f (valOf .f32 x.toNat) (valOf .f32 y.toNat)))

/-- VFMA (R145): the exact product plus the addend, rounded once. -/
def fma (f : Fmt) (m : RMode) (x y z : Nat) : Nat :=
  round f m 0 (addV (mulV (valOf f x) (valOf f y)) (valOf f z))

/-- Exact difference. -/
def subV (a b : FVal) : FVal := addV a (negV b)

/-- Both BF16 halves of a word from the halves of two words (R150). -/
def halves (f : Nat → Nat → Nat) (x y : W32) : W32 :=
  BitVec.ofNat 16 (f (fld x.toNat 16 16) (fld y.toNat 16 16)) ++
    BitVec.ofNat 16 (f (fld x.toNat 0 16) (fld y.toNat 0 16))

/-- Both BF16 halves of a word from the halves of three words (R150). -/
def halves3 (f : Nat → Nat → Nat → Nat) (x y z : W32) : W32 :=
  BitVec.ofNat 16 (f (fld x.toNat 16 16) (fld y.toNat 16 16) (fld z.toNat 16 16)) ++
    BitVec.ofNat 16 (f (fld x.toNat 0 16) (fld y.toNat 0 16) (fld z.toNat 0 16))

/-- A BF16 operation rounded to nearest (R150). -/
def bf2 (f : FVal → FVal → FVal) (x y : Nat) : Nat :=
  round .bf16 .rn 0 (f (valOf .bf16 x) (valOf .bf16 y))

/-- An RRR word whose results a shadow unit repeats (R142). -/
def fp2Word (m : Fmt) (d a b : BitVec 7) (p : BitVec 2) (s : State) (f : W32 → W32 → W32) : Out :=
  fpWord m s [(d.toNat, 1), (a.toNat, 1), (b.toNat, 1)] p.toNat d.toNat
    (fun h l => f (h.v a.toNat l) (h.v b.toNat l))

/-- Such a word that also reads the old v(D). -/
def fp3Word (m : Fmt) (d a b : BitVec 7) (p : BitVec 2) (s : State) (f : W32 → W32 → W32 → W32) : Out :=
  fpWord m s [(d.toNat, 1), (a.toNat, 1), (b.toNat, 1)] p.toNat d.toNat
    (fun h l => f (h.v a.toNat l) (h.v b.toNat l) (h.v d.toNat l))

/-- Such a word of one source. -/
def fp1Word (m : Fmt) (d a : BitVec 7) (p : Nat) (s : State) (f : W32 → W32) : Out :=
  fpWord m s [(d.toNat, 1), (a.toNat, 1)] p d.toNat (fun h l => f (h.v a.toNat l))

/-- VFADD (R145): sum rounded once, mode rn. -/
def execVfadd (d a b : BitVec 7) (p : BitVec 2) (s : State) : Out :=
  fp2Word .f32 d a b p s (fp2 .rn addV)

/-- VFSUB (R145): difference rounded once, mode rn. -/
def execVfsub (d a b : BitVec 7) (p : BitVec 2) (s : State) : Out :=
  fp2Word .f32 d a b p s (fp2 .rn subV)

/-- VFMUL (R145): product rounded once, mode rn. -/
def execVfmul (d a b : BitVec 7) (p : BitVec 2) (s : State) : Out :=
  fp2Word .f32 d a b p s (fp2 .rn mulV)

/-- VFMA (R145): v(A) × v(B) + old v(D), one rounding. -/
def execVfma (d a b : BitVec 7) (p : BitVec 2) (s : State) : Out :=
  fp3Word .f32 d a b p s (fun x y z => f32 (fma .f32 .rn x.toNat y.toNat z.toNat))

/-- VFMIN (R146): an exact copy of one operand. -/
def execVfmin (d a b : BitVec 7) (p : BitVec 2) (s : State) : Out :=
  fp2Word .f32 d a b p s (fun x y => f32 (minMax .f32 false x.toNat y.toNat))

/-- VFMAX (R146): an exact copy of one operand. -/
def execVfmax (d a b : BitVec 7) (p : BitVec 2) (s : State) : Out :=
  fp2Word .f32 d a b p s (fun x y => f32 (minMax .f32 true x.toNat y.toNat))

/-- VFSCL (R145): v(A) × 2^n, n the signed v(B). -/
def execVfscl (d a b : BitVec 7) (p : BitVec 2) (s : State) : Out :=
  fp2Word .f32 d a b p s (fun x y => f32 (scl x.toNat y.toInt))

/-- VFADD_RZ (R145): sum rounded once, mode rz. -/
def execVfaddRz (d a b : BitVec 7) (p : BitVec 2) (s : State) : Out :=
  fp2Word .f32 d a b p s (fp2 .rz addV)

/-- VFMUL_RZ (R145): product rounded once, mode rz. -/
def execVfmulRz (d a b : BitVec 7) (p : BitVec 2) (s : State) : Out :=
  fp2Word .f32 d a b p s (fp2 .rz mulV)

/-- VFMA_RZ (R145): v(A) × v(B) + old v(D), one rounding. -/
def execVfmaRz (d a b : BitVec 7) (p : BitVec 2) (s : State) : Out :=
  fp3Word .f32 d a b p s (fun x y z => f32 (fma .f32 .rz x.toNat y.toNat z.toNat))

/-- VFCMP_EQ (R147): k(D). -/
def execVfcmpEq (d : BitVec 3) (a b : BitVec 7) (p : BitVec 2) (s : State) : Out :=
  vcmp d a b p s (fun x y => fcmpEq x y)

/-- VFCMP_NE (R147): k(D). -/
def execVfcmpNe (d : BitVec 3) (a b : BitVec 7) (p : BitVec 2) (s : State) : Out :=
  vcmp d a b p s (fun x y => !fcmpEq x y)

/-- VFCMP_LT (R147): k(D). -/
def execVfcmpLt (d : BitVec 3) (a b : BitVec 7) (p : BitVec 2) (s : State) : Out :=
  vcmp d a b p s (fun x y => fcmpLt x y)

/-- VFCMP_LE (R147): k(D). -/
def execVfcmpLe (d : BitVec 3) (a b : BitVec 7) (p : BitVec 2) (s : State) : Out :=
  vcmp d a b p s (fun x y => fcmpLt x y || fcmpEq x y)

/-- VFCMP_UN (R147): k(D). -/
def execVfcmpUn (d : BitVec 3) (a b : BitVec 7) (p : BitVec 2) (s : State) : Out :=
  vcmp d a b p s (fun x y => fcmpUn x y)

/-- VFRCP (R149): 1/x. -/
def execVfrcp (d a : BitVec 7) (p : BitVec 2) (s : State) : Out :=
  fp1Word .f32 d a p.toNat s (fun x => f32 (rcp x.toNat))

/-- VFRSQ (R149): 1/√x. -/
def execVfrsq (d a : BitVec 7) (p : BitVec 2) (s : State) : Out :=
  fp1Word .f32 d a p.toNat s (fun x => f32 (rsqrt x.toNat))

/-- VFEXP2 (R149): 2^x. -/
def execVfexp2 (d a : BitVec 7) (p : BitVec 2) (s : State) : Out :=
  fp1Word .f32 d a p.toNat s (fun x => f32 (exp2 x.toNat))

/-- VFLOG2 (R149): log2 x. -/
def execVflog2 (d a : BitVec 7) (p : BitVec 2) (s : State) : Out :=
  fp1Word .f32 d a p.toNat s (fun x => f32 (log2F x.toNat))

/-- VFTANH (R149): tanh x. -/
def execVftanh (d a : BitVec 7) (p : BitVec 2) (s : State) : Out :=
  fp1Word .f32 d a p.toNat s (fun x => f32 (tanhF x.toNat))

/-- VFCLASS (R148): the class bit. -/
def execVfclass (d a : BitVec 7) (p : BitVec 2) (s : State) : Out :=
  vec1 d a p.toNat s (fun x => f32 (fclass x.toNat))

/-- VHADD (R150): per BF16 half. -/
def execVhadd (d a b : BitVec 7) (p : BitVec 2) (s : State) : Out :=
  fp2Word .bf16 d a b p s (halves (bf2 addV))

/-- VHMUL (R150): per BF16 half. -/
def execVhmul (d a b : BitVec 7) (p : BitVec 2) (s : State) : Out :=
  fp2Word .bf16 d a b p s (halves (bf2 mulV))

/-- VHFMA (R150): a × b + d per BF16 half, one rounding. -/
def execVhfma (d a b : BitVec 7) (p : BitVec 2) (s : State) : Out :=
  fp3Word .bf16 d a b p s (halves3 (fma .bf16 .rn))

/-- VHSUB (R150): per BF16 half. -/
def execVhsub (d a b : BitVec 7) (p : BitVec 2) (s : State) : Out :=
  fp2Word .bf16 d a b p s (halves (bf2 subV))

/-- VHMIN (R150): VFMIN or VFMAX per BF16 half. -/
def execVhmin (d a b : BitVec 7) (p : BitVec 2) (s : State) : Out :=
  fp2Word .bf16 d a b p s (halves (minMax .bf16 false))

/-- VHMAX (R150): VFMIN or VFMAX per BF16 half. -/
def execVhmax (d a b : BitVec 7) (p : BitVec 2) (s : State) : Out :=
  fp2Word .bf16 d a b p s (halves (minMax .bf16 true))

/-- VFRND_RN (R148): round to an integer by value. -/
def execVfrndRn (d a : BitVec 7) (p : BitVec 2) (s : State) : Out :=
  vec1 d a p.toNat s (fun x => f32 (rndInt .rn x.toNat))

/-- VFRND_RZ (R148): round to an integer by value. -/
def execVfrndRz (d a : BitVec 7) (p : BitVec 2) (s : State) : Out :=
  vec1 d a p.toNat s (fun x => f32 (rndInt .rz x.toNat))

/-- VFRND_RM (R148): round to an integer by value. -/
def execVfrndRm (d a : BitVec 7) (p : BitVec 2) (s : State) : Out :=
  vec1 d a p.toNat s (fun x => f32 (rndInt .rm x.toNat))

/-- VFRND_RP (R148): round to an integer by value. -/
def execVfrndRp (d a : BitVec 7) (p : BitVec 2) (s : State) : Out :=
  vec1 d a p.toNat s (fun x => f32 (rndInt .rp x.toNat))

end Sys2Proof.Machine
end

