-- ==== Sys2Proof/Machine/Convert.lean ====
section
/-! DEFINITION. Conversion, packing and quantisation (R151–R158), with the random source of a lane (R105, R106). -/

namespace Sys2Proof.Machine

/-- The key a grid's draws use (R105); 0 for the trap heat (R545). -/
def State.seed (s : State) : W64 :=
  match s.curGrid? with
  | some g => g.record.seed
  | none => 0#64

/-- ROUND in lane l of heat h (R99, R105, R106): the encoding and the heat with CVCNT advanced.
A helper lane draws from its own stream and advances nothing. -/
def Heat.roundIn (h : Heat) (key : W64) (helper : Bool) (l : Nat) (f : Fmt) (m : RMode)
    (v : Nat × Nat × Bool) (special : Option FVal) : Nat × Heat :=
  let x := h.lane l
  let t := (if helper then draw key 0xFFFFFFFFFFFFFFFE#64 0#64
    else draw key x.lineage x.cvcnt).toNat / 2 ^ 11
  let sr := m == .sr || (special == none && belowMin f v.1 v.2.1)
  let r := match special with
    | some w => round f m t w
    | none => roundRatio f m t v.2.2 v.1 v.2.1
  (r, if sr && !helper then h.setLane l { x with cvcnt := x.cvcnt + 1#64 } else h)

/-- ROUND in lane l of an exact value. -/
def Heat.roundVal (h : Heat) (key : W64) (helper : Bool) (l : Nat) (f : Fmt) (m : RMode)
    (v : FVal) : Nat × Heat :=
  match v with
  | .fin neg k e => let r := ratio k e; h.roundIn key helper l f m (r.1, r.2, neg) none
  | _ => h.roundIn key helper l f m (0, 1, false) (some v)

/-- The source format of VCVT (R151). -/
def srcFmt (s : BitVec 3) : Fmt :=
  match s.toNat with
  | 0 => .f32 | 1 => .bf16 | 2 => .e4m3 | 3 => .e5m2 | 4 => .e2m1 | 5 => .s32 | _ => .n32

/-- One lane of VCVT (R152). -/
def Heat.cvtLane (h : Heat) (key : W64) (helper : Bool) (f : Fmt) (m : RMode) (d a p e : Nat)
    (src : Fmt) (l : Nat) : Heat :=
  let r := h.roundVal key helper l f m (valOf src (elemOf src (h.v a l) e))
  r.2.setV d l (putElem f (h.v d l) p r.1)

/-- VCVT (R151, R152) over every executing lane; a shadow unit repeats a result in f32 or bf16 (R142). -/
def cvt (f : Fmt) (m : RMode) (d a : BitVec 7) (p : Nat) (e src : BitVec 3) (s : State) : Out :=
  heatWord s [(d.toNat, 1), (a.toNat, 1)] [] (fun h =>
    .next (s.finishShadow (h.forLanes s.cur.lanes (fun y l =>
      y.cvtLane s.seed (inMask s.cur.helpers l) f m d.toNat a.toNat p e.toNat (srcFmt src) l)) f s.cur.lanes d.toNat
        (fun i => (f == .f32 || f == .bf16) && i == p)))

/-- VUNPK (R154): element i of width w, zero- or sign-extended. -/
def unpack (w i : Nat) (sx : Bool) (x : W32) : W32 :=
  if sx then BitVec.ofInt 32 (sextN w (fld x.toNat (w * i) w)) else f32 (fld x.toNat (w * i) w)

/-! ### Quantisation (R155–R158) -/

/-- Packed registers of a format: 8 for E4M3 and E5M2, 4 for E2M1 (R155). -/
def packedRegs (f : Fmt) : Nat := f.width

/-- Greatest magnitude bits among 32 elements of one lane (magnitudes of FP32 compare as their
bits below the sign). -/
def Heat.amaxBits (h : Heat) (a l : Nat) : Nat :=
  (upto 32).foldl (fun m i => max m ((h.v (a + i) l).toNat % 2 ^ 31)) 0

/-- MAX(f) of VQNT (R156). -/
def quantMax (f : Fmt) : Nat :=
  match f with
  | .e4m3 => 448 | .e5m2 => 57344 | _ => 6

/-- The E8M0 scale code of a row with greatest magnitude `amax` (R156). -/
def e8m0Code (f : Fmt) (amax : Nat) : Nat :=
  if 0x7F800000 ≤ amax then 0xFF
  else match valOf .f32 amax with
    | .fin _ m e =>
      if m = 0 then 127
      else let r := ratio m e
        (max 0 (min 254 (ilog2 r.1 r.2 - f.emax + 127))).toNat
    | _ => 0xFF

/-- The 32-bit scale of a block with greatest magnitude `amax` (R156). -/
def s32Code (f : Fmt) (amax : Nat) : Nat :=
  if 0x7F800000 ≤ amax then 0x7FC00000
  else match valOf .f32 amax with
    | .fin _ m e =>
      if m = 0 then 0x3F800000
      else
        let r := ratio m e
        let den := r.2 * quantMax f
        let t := ilog2 r.1 den - 19
        let q := divPow r.1 den t
        let k := if q.2.1 = 0 then q.1 else q.1 + 1
        max 0x00800000 (roundRn .f32 (.fin false k t))
    | _ => 0x7FC00000

/-- The quotient of a finite FP32 encoding by a finite nonzero scale, as ratio and sign. -/
def quotient (x : Nat) (scale : FVal) : Nat × Nat × Bool :=
  match valOf .f32 x, scale with
  | .fin neg m e, .fin _ m' e' => let r := ratio m (e - e'); (r.1, r.2 * m', neg)
  | _, _ => (0, 1, false)

/-- An overflow of E5M2 clamped to ±MAX; the other formats saturate by R100. -/
def clampMax (f : Fmt) (r : Nat) : Nat := if f = .e5m2 ∧ r % 128 = 0x7C then r - 1 else r

/-- Whether an encoding has exactly the value num/den. -/
def exactly (f : Fmt) (r num den : Nat) : Bool :=
  match valOf f r with
  | .fin _ m e => let q := ratio m e; q.1 * den == num * q.2
  | _ => false

/-- The elements of one lane quantised by a scale, in ascending order (R156): the heat, and
whether every element was exact. -/
def Heat.quantLane (h : Heat) (src : Nat → W32) (key : W64) (helper : Bool) (f : Fmt)
    (d : Nat) (scale : FVal) (bad : Bool) (l : Nat) : Heat × Bool :=
  (upto 32).foldl (fun (acc : Heat × Bool) i =>
    let q := quotient (src i).toNat scale
    let r := if bad then (0, acc.1) else acc.1.roundIn key helper l f .rn q none
    let v := clampMax f r.1
    let p := packedAt f i
    (r.2.setV (d + p.1) l (putElem f (r.2.v (d + p.1) l) p.2 v),
      acc.2 && !bad && exactly f v q.1 q.2.1)) (h, true)

/-- VQNT.f.e8m0 (R155, R156) over every executing lane. -/
def quantMx (f : Fmt) (d a b : BitVec 7) (p : BitVec 2) (s : State) : Out :=
  heatWord s [(d.toNat, packedRegs f), (a.toNat, 32), (b.toNat, 1)] [] (fun h =>
    .next (s.finish (h.forLanes s.cur.lanes (fun y l =>
      let amax := h.amaxBits a.toNat l
      let code := e8m0Code f amax
      let r := y.quantLane (fun i => h.v (a.toNat + i) l) s.seed (inMask s.cur.helpers l) f
        d.toNat (e8m0 code) (code == 0xFF) l
      (r.1.setV b.toNat l (putElem .e4m3 (h.v b.toNat l) p.toNat code)).setK 7 l r.2))))

/-- VQNT.f.s32scale (R155–R157): one 32 × 32 block; all 32 lanes must be active. -/
def quantQf (f : Fmt) (d a b : BitVec 7) (p : BitVec 2) (s : State) : Out :=
  heatWord s [(d.toNat, packedRegs f), (a.toNat, 32), (b.toNat, 1)] [] (fun h =>
    if s.cur.active ≠ 0xFFFFFFFF#32 then .next (s.raise 7 s.cur.active.toNat)
    else
      let amax := (upto 32).foldl (fun m l => max m (h.amaxBits a.toNat l)) 0
      let code := s32Code f amax
      let bad := decide (0x7F800000 ≤ amax)
      let r := (upto 32).foldl (fun (acc : Heat × Bool) l =>
        let q := acc.1.quantLane (fun i => h.v (a.toNat + i) l) s.seed false f
          d.toNat (valOf .f32 code) bad l
        (q.1, acc.2 && q.2)) (h, true)
      .next (s.finish ((r.1.setV b.toNat p.toNat (f32 code)).forLanes s.cur.active
        (fun y l => y.setK 7 l r.2))))

/-- VDQNT (R158): element i times the scale, rounded to FP32; `scale l` is lane l's scale. -/
def dequant (f : Fmt) (d a b : BitVec 7) (src : Mask) (scale : Heat → Nat → FVal)
    (s : State) : Out :=
  heatWord s [(d.toNat, 32), (a.toNat, packedRegs f), (b.toNat, 1)] [] (fun _ =>
    heatWordIn s src [(b.toNat, 1)] [] (fun h =>
      .next (s.finishShadow (h.forLanes s.cur.lanes (fun y l =>
        (upto 32).foldl (fun z i =>
          let p := packedAt f i
          z.setV (d.toNat + i) l (f32 (roundRn .f32
            (mulV (valOf f (elemOf f (h.v (a.toNat + p.1) l) p.2)) (scale h l))))) y)) .f32 s.cur.lanes d.toNat
              (fun i => decide (i < 32)))))

/-- VDQNT.f.e8m0: the scale is byte P of v(B) in the lane. -/
def dequantMx (f : Fmt) (d a b : BitVec 7) (p : BitVec 2) (s : State) : Out :=
  dequant f d a b s.cur.lanes
    (fun h l => e8m0 (elemOf .e4m3 (h.v b.toNat l) p.toNat)) s

/-- VDQNT.f.s32scale: the scale is v(B) of lane P, whatever that lane's state. -/
def dequantQf (f : Fmt) (d a b : BitVec 7) (p : BitVec 2) (s : State) : Out :=
  dequant f d a b (BitVec.ofNat 32 (2 ^ p.toNat))
    (fun h _ => s32scale (h.v b.toNat p.toNat).toNat) s

/-- VCVT_F32_RN (R152): one element of v(D) from element E of v(A). -/
def execVcvtF32Rn (d a : BitVec 7) (e src : BitVec 3) (s : State) : Out :=
  cvt .f32 .rn d a 0 e src s

/-- VCVT_F32_RZ (R152): one element of v(D) from element E of v(A). -/
def execVcvtF32Rz (d a : BitVec 7) (e src : BitVec 3) (s : State) : Out :=
  cvt .f32 .rz d a 0 e src s

/-- VCVT_F32_SR (R152): one element of v(D) from element E of v(A). -/
def execVcvtF32Sr (d a : BitVec 7) (e src : BitVec 3) (s : State) : Out :=
  cvt .f32 .sr d a 0 e src s

/-- VCVT_BF16_RN (R152): one element of v(D) from element E of v(A). -/
def execVcvtBf16Rn (d a : BitVec 7) (p : BitVec 1) (e src : BitVec 3) (s : State) : Out :=
  cvt .bf16 .rn d a p.toNat e src s

/-- VCVT_BF16_RZ (R152): one element of v(D) from element E of v(A). -/
def execVcvtBf16Rz (d a : BitVec 7) (p : BitVec 1) (e src : BitVec 3) (s : State) : Out :=
  cvt .bf16 .rz d a p.toNat e src s

/-- VCVT_BF16_SR (R152): one element of v(D) from element E of v(A). -/
def execVcvtBf16Sr (d a : BitVec 7) (p : BitVec 1) (e src : BitVec 3) (s : State) : Out :=
  cvt .bf16 .sr d a p.toNat e src s

/-- VCVT_E4M3_RN (R152): one element of v(D) from element E of v(A). -/
def execVcvtE4m3Rn (d a : BitVec 7) (p : BitVec 2) (e src : BitVec 3) (s : State) : Out :=
  cvt .e4m3 .rn d a p.toNat e src s

/-- VCVT_E4M3_RZ (R152): one element of v(D) from element E of v(A). -/
def execVcvtE4m3Rz (d a : BitVec 7) (p : BitVec 2) (e src : BitVec 3) (s : State) : Out :=
  cvt .e4m3 .rz d a p.toNat e src s

/-- VCVT_E4M3_SR (R152): one element of v(D) from element E of v(A). -/
def execVcvtE4m3Sr (d a : BitVec 7) (p : BitVec 2) (e src : BitVec 3) (s : State) : Out :=
  cvt .e4m3 .sr d a p.toNat e src s

/-- VCVT_E5M2_RN (R152): one element of v(D) from element E of v(A). -/
def execVcvtE5m2Rn (d a : BitVec 7) (p : BitVec 2) (e src : BitVec 3) (s : State) : Out :=
  cvt .e5m2 .rn d a p.toNat e src s

/-- VCVT_E5M2_RZ (R152): one element of v(D) from element E of v(A). -/
def execVcvtE5m2Rz (d a : BitVec 7) (p : BitVec 2) (e src : BitVec 3) (s : State) : Out :=
  cvt .e5m2 .rz d a p.toNat e src s

/-- VCVT_E5M2_SR (R152): one element of v(D) from element E of v(A). -/
def execVcvtE5m2Sr (d a : BitVec 7) (p : BitVec 2) (e src : BitVec 3) (s : State) : Out :=
  cvt .e5m2 .sr d a p.toNat e src s

/-- VCVT_E2M1_RN (R152): one element of v(D) from element E of v(A). -/
def execVcvtE2m1Rn (d a : BitVec 7) (p e src : BitVec 3) (s : State) : Out :=
  cvt .e2m1 .rn d a p.toNat e src s

/-- VCVT_E2M1_RZ (R152): one element of v(D) from element E of v(A). -/
def execVcvtE2m1Rz (d a : BitVec 7) (p e src : BitVec 3) (s : State) : Out :=
  cvt .e2m1 .rz d a p.toNat e src s

/-- VCVT_E2M1_SR (R152): one element of v(D) from element E of v(A). -/
def execVcvtE2m1Sr (d a : BitVec 7) (p e src : BitVec 3) (s : State) : Out :=
  cvt .e2m1 .sr d a p.toNat e src s

/-- VCVT_S32_RN (R152): one element of v(D) from element E of v(A). -/
def execVcvtS32Rn (d a : BitVec 7) (e src : BitVec 3) (s : State) : Out :=
  cvt .s32 .rn d a 0 e src s

/-- VCVT_S32_RZ (R152): one element of v(D) from element E of v(A). -/
def execVcvtS32Rz (d a : BitVec 7) (e src : BitVec 3) (s : State) : Out :=
  cvt .s32 .rz d a 0 e src s

/-- VCVT_S32_SR (R152): one element of v(D) from element E of v(A). -/
def execVcvtS32Sr (d a : BitVec 7) (e src : BitVec 3) (s : State) : Out :=
  cvt .s32 .sr d a 0 e src s

/-- VCVT_N32_RN (R152): one element of v(D) from element E of v(A). -/
def execVcvtN32Rn (d a : BitVec 7) (e src : BitVec 3) (s : State) : Out :=
  cvt .n32 .rn d a 0 e src s

/-- VCVT_N32_RZ (R152): one element of v(D) from element E of v(A). -/
def execVcvtN32Rz (d a : BitVec 7) (e src : BitVec 3) (s : State) : Out :=
  cvt .n32 .rz d a 0 e src s

/-- VCVT_N32_SR (R152): one element of v(D) from element E of v(A). -/
def execVcvtN32Sr (d a : BitVec 7) (e src : BitVec 3) (s : State) : Out :=
  cvt .n32 .sr d a 0 e src s

/-- VPACK_B8 (R153): a new element shifted in at the top. -/
def execVpackB8 (d a b : BitVec 7) (p : BitVec 2) (s : State) : Out :=
  vec2 d a b p s (fun x y => y.extractLsb' 0 8 ++ x.extractLsb' 8 24)

/-- VPACK_B16 (R153): a new element shifted in at the top. -/
def execVpackB16 (d a b : BitVec 7) (p : BitVec 2) (s : State) : Out :=
  vec2 d a b p s (fun x y => y.extractLsb' 0 16 ++ x.extractLsb' 16 16)

/-- VUNPK_B4 (R154): element i of v(A). -/
def execVunpkB4 (d a : BitVec 7) (i : BitVec 3) (s : State) : Out :=
  vec1 d a 0 s (unpack 4 i.toNat false)

/-- VUNPK_B4_SX (R154): element i of v(A). -/
def execVunpkB4Sx (d a : BitVec 7) (i : BitVec 3) (s : State) : Out :=
  vec1 d a 0 s (unpack 4 i.toNat true)

/-- VUNPK_B8 (R154): element i of v(A). -/
def execVunpkB8 (d a : BitVec 7) (i : BitVec 2) (s : State) : Out :=
  vec1 d a 0 s (unpack 8 i.toNat false)

/-- VUNPK_B8_SX (R154): element i of v(A). -/
def execVunpkB8Sx (d a : BitVec 7) (i : BitVec 2) (s : State) : Out :=
  vec1 d a 0 s (unpack 8 i.toNat true)

/-- VUNPK_B16 (R154): element i of v(A). -/
def execVunpkB16 (d a : BitVec 7) (i : BitVec 1) (s : State) : Out :=
  vec1 d a 0 s (unpack 16 i.toNat false)

/-- VUNPK_B16_SX (R154): element i of v(A). -/
def execVunpkB16Sx (d a : BitVec 7) (i : BitVec 1) (s : State) : Out :=
  vec1 d a 0 s (unpack 16 i.toNat true)

/-- VQNT_E4M3_E8M0 (R156): quantise a row or a block, its scale and k7. -/
def execVqntE4m3E8m0 (d a b : BitVec 7) (p : BitVec 2) (s : State) : Out :=
  quantMx .e4m3 d a b p s

/-- VQNT_E4M3_S32SCALE (R156): quantise a row or a block, its scale and k7. -/
def execVqntE4m3S32scale (d a b : BitVec 7) (p : BitVec 2) (s : State) : Out :=
  quantQf .e4m3 d a b p s

/-- VQNT_E5M2_E8M0 (R156): quantise a row or a block, its scale and k7. -/
def execVqntE5m2E8m0 (d a b : BitVec 7) (p : BitVec 2) (s : State) : Out :=
  quantMx .e5m2 d a b p s

/-- VQNT_E5M2_S32SCALE (R156): quantise a row or a block, its scale and k7. -/
def execVqntE5m2S32scale (d a b : BitVec 7) (p : BitVec 2) (s : State) : Out :=
  quantQf .e5m2 d a b p s

/-- VQNT_E2M1_E8M0 (R156): quantise a row or a block, its scale and k7. -/
def execVqntE2m1E8m0 (d a b : BitVec 7) (p : BitVec 2) (s : State) : Out :=
  quantMx .e2m1 d a b p s

/-- VQNT_E2M1_S32SCALE (R156): quantise a row or a block, its scale and k7. -/
def execVqntE2m1S32scale (d a b : BitVec 7) (p : BitVec 2) (s : State) : Out :=
  quantQf .e2m1 d a b p s

/-- VDQNT_E4M3_E8M0 (R158): elements times their scale. -/
def execVdqntE4m3E8m0 (d a b : BitVec 7) (p : BitVec 2) (s : State) : Out :=
  dequantMx .e4m3 d a b p s

/-- VDQNT_E4M3_S32SCALE (R158): elements times their scale. -/
def execVdqntE4m3S32scale (d a b : BitVec 7) (p : BitVec 2) (s : State) : Out :=
  dequantQf .e4m3 d a b p s

/-- VDQNT_E5M2_E8M0 (R158): elements times their scale. -/
def execVdqntE5m2E8m0 (d a b : BitVec 7) (p : BitVec 2) (s : State) : Out :=
  dequantMx .e5m2 d a b p s

/-- VDQNT_E5M2_S32SCALE (R158): elements times their scale. -/
def execVdqntE5m2S32scale (d a b : BitVec 7) (p : BitVec 2) (s : State) : Out :=
  dequantQf .e5m2 d a b p s

/-- VDQNT_E2M1_E8M0 (R158): elements times their scale. -/
def execVdqntE2m1E8m0 (d a b : BitVec 7) (p : BitVec 2) (s : State) : Out :=
  dequantMx .e2m1 d a b p s

/-- VDQNT_E2M1_S32SCALE (R158): elements times their scale. -/
def execVdqntE2m1S32scale (d a b : BitVec 7) (p : BitVec 2) (s : State) : Out :=
  dequantQf .e2m1 d a b p s

end Sys2Proof.Machine
end

