-- ==== Sys2Proof/Machine/CrossLane.lean ====
section
/-! DEFINITION. Quad exchange, shuffles, reductions, scans, ballots and votes (R143, R159–R162). -/

namespace Sys2Proof.Machine

/-- The lanes whose rows the executing lanes of a mask read, lane l the row of lane `f l`. -/
def rowsRead (m : Mask) (f : Nat → Nat) : Mask := maskOf (fun i => (lanesOf m).any (fun l => f l == i))

/-- A word that reads v(A) of other lanes of the quad (R159): v(D) from the lane `f l`; it is held by a
result pending to v(D) in its own lanes or to v(A) in a lane whose row it reads (R143). -/
def quadWord (d a : BitVec 7) (p : Nat) (f : Nat → Nat) (s : State) : Out :=
  heatWordBy s [{ lanes := s.cur.lanes, vr := [(d.toNat, 1)] },
      { lanes := rowsRead s.cur.lanes f, vr := [(a.toNat, 1)] }] (fun h =>
    .next (s.finish (h.forLanes (h.taking s.cur.lanes p)
      (fun y l => y.setV d.toNat l (h.v a.toNat (f l))))))

/-- QSWP (R159): the lane of the quad at position (own XOR t). -/
def quadSwap (t l : Nat) : Nat := l / 4 * 4 + (l % 4).xor t

/-- VSHFL (R160): the source lane if it is an active lane of the issue, else the own value;
`lanes` take part, helper lanes do not. -/
def shuffle (d a : BitVec 7) (uses : List (Nat × Nat)) (p : Nat) (src : Heat → Nat → Int)
    (s : State) : Out :=
  heatWordIn s s.cur.active ((d.toNat, 1) :: (a.toNat, 1) :: uses) [] (fun h =>
    .next (s.finish (h.forLanes (h.taking s.cur.active p) (fun y l =>
      let k := src h l
      let ok := decide (0 ≤ k ∧ k < 32) && inMask s.cur.active k.toNat
      y.setV d.toNat l (h.v a.toNat (if ok then k.toNat else l))))))

/-- One stage of the network of R161: element l becomes OP of elements l − 2^s and l. -/
def netStage (op : W32 → W32 → W32) (x : List W32) (k : Nat) : List W32 :=
  (upto 32).map (fun l =>
    if 2 ^ k ≤ l then op (x.getD (l - 2 ^ k) 0#32) (x.getD l 0#32) else x.getD l 0#32)

/-- The network of R161 over the contributors. -/
def network (op : W32 → W32 → W32) (x : List W32) : List W32 := (upto 5).foldl (netStage op) x

/-- Inputs of the network: v(A) of a contributor, the identity elsewhere. -/
def netInput (h : Heat) (m : Mask) (a : Nat) (ident : W32) : List W32 :=
  (upto 32).map (fun l => if inMask m l then h.v a l else ident)

/-- VRED (R161): every contributor writes the last element of the network; a shadow unit repeats an f32 form's
(R142). -/
def reduceWord (isFp : Bool) (d a : BitVec 7) (p : BitVec 2) (op : W32 → W32 → W32) (ident : W32)
    (s : State) : Out :=
  heatWordIn s s.cur.active [(d.toNat, 1), (a.toNat, 1)] [] (fun h =>
    let m := h.taking s.cur.active p.toNat
    let x := network op (netInput h m a.toNat ident)
    .next (s.finishShadow (h.forLanes m (fun y l => y.setV d.toNat l (x.getD 31 0#32))) .f32 m d.toNat
      (fun i => isFp && i == 0)))

/-- VSCAN (R161): contributor l writes element l of the network; a shadow unit repeats an f32 form's (R142). -/
def scanWord (isFp : Bool) (d a : BitVec 7) (p : BitVec 2) (op : W32 → W32 → W32) (ident : W32)
    (s : State) : Out :=
  heatWordIn s s.cur.active [(d.toNat, 1), (a.toNat, 1)] [] (fun h =>
    let m := h.taking s.cur.active p.toNat
    let x := network op (netInput h m a.toNat ident)
    .next (s.finishShadow (h.forLanes m (fun y l => y.setV d.toNat l (x.getD l 0#32))) .f32 m d.toNat
      (fun i => isFp && i == 0)))

/-- VVOTE (R162): every contributor writes k(D). -/
def voteWord (d : BitVec 3) (uses : List (Nat × Nat)) (p : BitVec 2) (f : Heat → Mask → Bool)
    (s : State) : Out :=
  heatWordIn s s.cur.active uses [] (fun h =>
    let m := h.taking s.cur.active p.toNat
    .next (s.finish (h.forLanes m (fun y l => y.setK d.toNat l (f h m)))))

/-- QSWP_H (R159): v(A) of another lane of the quad. -/
def execQswpH (d a : BitVec 7) (p : BitVec 2) (s : State) : Out :=
  quadWord d a p.toNat (quadSwap 1) s

/-- QSWP_V (R159): v(A) of another lane of the quad. -/
def execQswpV (d a : BitVec 7) (p : BitVec 2) (s : State) : Out :=
  quadWord d a p.toNat (quadSwap 2) s

/-- QSWP_D (R159): v(A) of another lane of the quad. -/
def execQswpD (d a : BitVec 7) (p : BitVec 2) (s : State) : Out :=
  quadWord d a p.toNat (quadSwap 3) s

/-- QBCAST (R159): v(A) of quad position j. -/
def execQbcast (d a : BitVec 7) (j : BitVec 2) (s : State) : Out :=
  quadWord d a 0 (fun l => l / 4 * 4 + j.toNat) s

/-- VSHFL_IDX (R160): source lane v(B)[4:0]. -/
def execVshflIdx (d a b : BitVec 7) (p : BitVec 2) (s : State) : Out :=
  shuffle d a [(b.toNat, 1)] p.toNat (fun h l => ((h.v b.toNat l).toNat % 32 : Nat)) s

/-- VSHFL_UP (R160): source lane l − c. -/
def execVshflUp (d a : BitVec 7) (c : BitVec 5) (s : State) : Out :=
  shuffle d a [] 0 (fun _ l => (l : Int) - c.toNat) s

/-- VSHFL_DOWN (R160): source lane l + c. -/
def execVshflDown (d a : BitVec 7) (c : BitVec 5) (s : State) : Out :=
  shuffle d a [] 0 (fun _ l => (l : Int) + c.toNat) s

/-- VSHFL_XOR (R160): source lane l XOR c. -/
def execVshflXor (d a : BitVec 7) (c : BitVec 5) (s : State) : Out :=
  shuffle d a [] 0 (fun _ l => (l.xor c.toNat : Nat)) s

/-- VRED_ADD_S32 (R161): the reduction in every contributor. -/
def execVredAddS32 (d a : BitVec 7) (p : BitVec 2) (s : State) : Out :=
  reduceWord false d a p (· + ·) 0#32 s

/-- VRED_ADD_F32 (R161): the reduction in every contributor. -/
def execVredAddF32 (d a : BitVec 7) (p : BitVec 2) (s : State) : Out :=
  reduceWord true d a p addF32 0x80000000#32 s

/-- VRED_MIN_S32 (R161): the reduction in every contributor. -/
def execVredMinS32 (d a : BitVec 7) (p : BitVec 2) (s : State) : Out :=
  reduceWord false d a p minS 0x7FFFFFFF#32 s

/-- VRED_MAX_S32 (R161): the reduction in every contributor. -/
def execVredMaxS32 (d a : BitVec 7) (p : BitVec 2) (s : State) : Out :=
  reduceWord false d a p maxS 0x80000000#32 s

/-- VRED_MIN_F32 (R161): the reduction in every contributor. -/
def execVredMinF32 (d a : BitVec 7) (p : BitVec 2) (s : State) : Out :=
  reduceWord true d a p (fun x y => f32 (minMax .f32 false x.toNat y.toNat)) 0x7F800000#32 s

/-- VRED_MAX_F32 (R161): the reduction in every contributor. -/
def execVredMaxF32 (d a : BitVec 7) (p : BitVec 2) (s : State) : Out :=
  reduceWord true d a p (fun x y => f32 (minMax .f32 true x.toNat y.toNat)) 0xFF800000#32 s

/-- VRED_AND_B32 (R161): the reduction in every contributor. -/
def execVredAndB32 (d a : BitVec 7) (p : BitVec 2) (s : State) : Out :=
  reduceWord false d a p (· &&& ·) 0xFFFFFFFF#32 s

/-- VRED_OR_B32 (R161): the reduction in every contributor. -/
def execVredOrB32 (d a : BitVec 7) (p : BitVec 2) (s : State) : Out :=
  reduceWord false d a p (· ||| ·) 0#32 s

/-- VRED_XOR_B32 (R161): the reduction in every contributor. -/
def execVredXorB32 (d a : BitVec 7) (p : BitVec 2) (s : State) : Out :=
  reduceWord false d a p (· ^^^ ·) 0#32 s

/-- VSCAN_ADD_S32 (R161): the inclusive prefix. -/
def execVscanAddS32 (d a : BitVec 7) (p : BitVec 2) (s : State) : Out :=
  scanWord false d a p (· + ·) 0#32 s

/-- VSCAN_ADD_F32 (R161): the inclusive prefix. -/
def execVscanAddF32 (d a : BitVec 7) (p : BitVec 2) (s : State) : Out :=
  scanWord true d a p addF32 0x80000000#32 s

/-- VSCAN_MIN_S32 (R161): the inclusive prefix. -/
def execVscanMinS32 (d a : BitVec 7) (p : BitVec 2) (s : State) : Out :=
  scanWord false d a p minS 0x7FFFFFFF#32 s

/-- VSCAN_MAX_S32 (R161): the inclusive prefix. -/
def execVscanMaxS32 (d a : BitVec 7) (p : BitVec 2) (s : State) : Out :=
  scanWord false d a p maxS 0x80000000#32 s

/-- VSCAN_OR_B32 (R161): the inclusive prefix. -/
def execVscanOrB32 (d a : BitVec 7) (p : BitVec 2) (s : State) : Out :=
  scanWord false d a p (· ||| ·) 0#32 s

/-- VBALLOT (R162): the mask of contributors with k(A) set, in every contributor. -/
def execVballot (d : BitVec 7) (a : BitVec 3) (p : BitVec 2) (s : State) : Out :=
  heatWordIn s s.cur.active [(d.toNat, 1)] [] (fun h =>
    let m := h.taking s.cur.active p.toNat
    .next (s.finish (h.forLanes m (fun y l => y.setV d.toNat l (h.taking m a.toNat)))))

/-- VVOTE_ALL (R162): every contributor has k(A) set. -/
def execVvoteAll (d a : BitVec 3) (p : BitVec 2) (s : State) : Out :=
  voteWord d [] p (fun h m => voteAll m (h.k a.toNat)) s

/-- VVOTE_ANY (R162): some contributor has k(A) set. -/
def execVvoteAny (d a : BitVec 3) (p : BitVec 2) (s : State) : Out :=
  voteWord d [] p (fun h m => voteAny m (h.k a.toNat)) s

/-- VVOTE_UNI (R162): every contributor holds the same v(A). -/
def execVvoteUni (d : BitVec 3) (a : BitVec 7) (p : BitVec 2) (s : State) : Out :=
  voteWord d [(a.toNat, 1)] p (fun h m => voteUni m (h.v a.toNat)) s

end Sys2Proof.Machine
end

