-- ==== Sys2Proof/Machine/Fabric.lean ====
section
/-! DEFINITION. Plain fabric accesses: their answers at the requester (R444, R445), and the accesses and
UPLI atomics of other devices that arrive here (R361, R439, R442, R443). -/

namespace Sys2Proof.Machine

/-! ### Answers (R444, R445) -/

/-- Whether the relay has an unanswered operation of a request's lanes to its device, issued before it (R239). -/
def State.relayBefore (s : State) (q : FabReq) : Bool :=
  match s.team? q.team with
  | none => false
  | some x => match s.ctx? x.asid with
    | none => false
    | some c => (mget {} c.streams q.dev).ops.any (fun o => o.answer.isNone && o.team == q.team && o.heat == q.heat &&
        inMask q.mask o.lane && decide (o.stamp < q.stamp))

/-- Whether a request leaves the device: the same lane's earlier accesses to the same device are answered (R239,
R362). -/
def State.fabTurn (s : State) (q : FabReq) : Bool :=
  q.engine || (!(s.fabric.takeWhile (fun r => r.id != q.id)).any (fun r => !r.engine && r.team == q.team &&
    r.heat == q.heat && r.dev == q.dev && decide (r.stamp < q.stamp) && decide (r.mask &&& q.mask ≠ 0#32)) &&
    !s.relayBefore q)

/-- A request by its identifier, sent and not waiting to be sent again. -/
def State.fabSent (s : State) (id : Nat) : Option FabReq :=
  s.fabric.find? (fun q => q.id == id && !q.retry && s.fabTurn q)

/-- Forget a request. -/
def State.dropFab (s : State) (id : Nat) : State := { s with fabric := s.fabric.filter (fun q => q.id != id) }

/-- The 72-bit fabric address of a request (R441). -/
def FabReq.addr (q : FabReq) : Addr := BitVec.ofNat 72 (2 ^ 71 + q.dev * 2 ^ 61 + q.offset)

/-- One part of a load's slot has come: the lane's bytes, or row `pos` of a tile spread over the lanes
(marker lane 32, R175). -/
def Slot.part (x : Slot) (q : FabReq) (data : List Byte) : Slot :=
  { x with
    waiting := x.waiting - 1
    vals := if q.lane < 32 then mput x.vals q.lane (ofBytes data)
      else x.vals.map (fun (e : Nat × Nat) =>
        (e.1, e.2 - e.2 / 256 ^ q.pos % 256 * 256 ^ q.pos + (data.getD e.1 0#8).toNat * 256 ^ q.pos)) }

/-- A part reaches the slot of a heat. -/
def Heat.slotPart (h : Heat) (q : FabReq) (data : List Byte) : Heat :=
  { h with slots := h.slots.map (fun x => if x.stamp = q.stamp then x.part q data else x) }

/-- The log entries of a load whose part has come (R482): one lane, or with the last part every lane of a tile under
its handle. -/
def Slot.fabricLog (z : Slot) (q : FabReq) : List LogEntry :=
  if q.lane < 32 then [{ heat := q.heat, stride := z.stride, lane := q.lane, addr := q.addr.toNat, value := mget 0 z.vals q.lane }]
  else if z.waiting ≠ 0 then []
  else (lanesOf z.mask).map (fun l =>
    { heat := q.heat, stride := z.stride, lane := l, addr := z.handle.toNat, value := mget 0 z.vals l })

/-- Note what a fabric load has read: in the log for a load of this lap (R482), and forwarded to a checker (R511). -/
def State.logFabric (s : State) (q : FabReq) : State :=
  match s.team? q.team with
  | none => s
  | some x => match (x.heat? q.heat).bind (fun h => h.slots.find? (fun z => z.stamp == q.stamp)) with
    | none => s
    | some z =>
      let es := z.fabricLog q
      let s := es.foldl (fun (s : State) e => s.forwardIn q.team z.lap e q.size) s
      if z.lap < x.lap.toNat then s else s.modTeam q.team (fun x => { x with log := x.log ++ es })

/-- The engine command of a part after its answer. -/
def EngCmd.part (c : EngCmd) (q : FabReq) (ok : Bool) (data : List Byte) : EngCmd :=
  let c := { c with waiting := c.waiting - 1 }
  if q.isStore then (if ok then c else { c with refused := true })
  else if ok then { c with parts := mput c.parts q.pos data }
  else { c with parts := mput c.parts q.pos (List.replicate q.size 0#8), skips := c.skips ++ [(q.pos, q.size)] }

/-- An answer that ends a request: `ok` with data, or a refusal, which reads as zero in a load (R445). -/
def State.fabDone (s : State) (q : FabReq) (ok : Bool) (data : List Byte) : State :=
  let s := s.dropFab q.id
  if q.engine then
    { s with engines := s.engines.map (fun c => if c.id = q.stamp then c.part q ok data else c) }
  else if q.isStore then s.modHeatBoth q.team q.heat (fun h => h.ackPart q.stamp)
  else (s.modHeatBoth q.team q.heat (fun h => h.slotPart q (if ok then data else []))).logFabric q

/-- The remote-access fault (R445, R473, R475). -/
def FabReq.fault (q : FabReq) (reason : Nat) : TrapRec :=
  { cls := 0x21, heat := q.heat, hdr := q.hdr, idx := q.idx, word := q.word, mask := q.mask, stride := q.stride
    info := BitVec.ofNat 64 (reason + 256 * q.dev), addr := q.addr }

/-- A refusal or timeout ends a request: the remote-access fault at a heat; an engine command only notes
it (R193, R445). -/
def State.fabFail (s : State) (q : FabReq) (reason : Nat) : State :=
  let s1 := s.fabDone q false []
  if q.engine then s1.tick else (s1.raiseAsync q.team (q.fault reason)).tick

/-- A member's answer to a message of a collective (R459, R460): 0 acknowledges it, 7 leaves it to be sent again, 1
to 6 are a fault of the collective. -/
def State.collAnswer (s : State) (id reason : Nat) : Option State :=
  match s.collWait.find? (fun m => m.id == id) with
  | none => none
  | some m =>
    if reason = 7 ∨ 7 < reason then some s
    else
      let s1 := { s with collWait := s.collWait.filter (fun x => x.id != id) }
      if reason = 0 then some s1
      else match s1.colls.find? (fun c => c.group == m.group && c.k == m.k) with
        | none => some s1
        | some c => some (s1.collVerdict c 3)

/-- FABRIC_RESPONSE (R444, R459): reason 0 completes the access, 7 has it sent again later, 1 to 6 refuse
it; the same for a message of a collective. Nothing comes while every port is down (R439). -/
def execEvFabricResponse (id reason : Nat) (data : List (BitVec 8)) (s : State) : Out :=
  if !s.fabricUp then .next s
  else match s.fabSent id with
  | none => match s.collAnswer id reason with
    | some s1 => .next s1.tick
    | none => .next s
  | some q =>
    if reason = 0 then
      (if q.isStore ∨ data.length = q.size then .next (s.fabDone q true data).tick else .next s)
    else if reason = 7 then
      .next { s with fabric := s.fabric.map (fun (r : FabReq) => if r.id = id then { r with retry := true } else r) }.tick
    else if 7 < reason then .next s
    else .next (s.fabFail q reason)

/-- Whether a request may be sent again: a load of a saved team waits for its restore (R171). -/
def State.maySend (s : State) (q : FabReq) : Bool :=
  q.engine || q.isStore || decide (trapBase ≤ q.team) || (match s.team? q.team with
    | some x => x.res != .saved
    | none => true)

/-- FABRIC_RETRY_LATER_RESEND (R444): a request refused with reason 7 is sent again. -/
def execEvFabricRetryLaterResend (id : Nat) (s : State) : Out :=
  if s.fabricUp ∧ s.fabric.any (fun q => q.id == id && q.retry && s.maySend q) then
    .next { s with fabric := s.fabric.map (fun (r : FabReq) => if r.id = id then { r with retry := false } else r) }.tick
  else .next s

/-- FABRIC_ACCESS_TIMEOUT (R444): no response in time; reason 8. -/
def execEvFabricAccessTimeout (id : Nat) (s : State) : Out :=
  match s.fabSent id with
  | none => .next s
  | some q => .next (s.fabFail q 8)

/-! ### Accesses that arrive (R361, R442, R443) -/

/-- Answer a fabric access: requester, offset, reason, data. -/
def State.fabAnswer (s : State) (src offset reason : Nat) (data : List Byte) : State :=
  { s with fabricOut := s.fabricOut ++ [(src, offset, reason, data)] }.tick

/-- FABRIC_ACCESS_ARRIVAL (R361, R443): a plain read or write of another device is translated and
performs here as one access, or is refused; it waits for a range an engine owns (R192). -/
def execEvFabricAccessArrival (src offset size : Nat) (isWrite : Bool) (data : List (BitVec 8)) (s : State) :
    Out :=
  if !s.fabricUp then .next s
  else match s.arrival offset size (if isWrite then .write else .read) with
    | .refuse r => .next ((s.noteArrival offset).fabAnswer src offset r [])
    | .ok ps _ =>
      if s.arrivalWaits ps ∨ (isWrite ∧ data.length ≠ size) then .next s
      else if isWrite then .next ((s.perform (piecePairs ps data)).fabAnswer src offset 0 [])
      else if s.arrivalBad ps then
        .next ((s.candidates (ps.flatMap (fun p => s.badFrames p.1 p.2))).fabAnswer src offset 6 [])
      else .next (s.fabAnswer src offset 0 (s.arrivalBytes ps))

/-- Size of a UPLI atomic, numbered as the rows of R178 (opcode − 0x154). -/
def upliSize (op : Nat) : Nat := if op = 8 ∨ op = 9 ∨ op = 10 then 8 else 4

/-- New value of a UPLI atomic, numbered as the rows of R178 (opcode − 0x154). -/
def upliNew (op : Nat) (x y : W64) (old : Nat) : Nat :=
  let a := x.toNat % 2 ^ 32
  match op with
  | 0 => opAdd 32 a old
  | 1 => opMin a old
  | 2 => opMax a old
  | 3 => old &&& a
  | 4 => old ||| a
  | 5 => old ^^^ a
  | 6 => a
  | 7 => opCas a (y.toNat % 2 ^ 32) old
  | 8 => opAdd 64 x.toNat old
  | 9 => x.toNat
  | 10 => opCas x.toNat y.toNat old
  | _ => opAddF a old

/-- UPLI_ATOMIC_ARRIVAL (R439): an atomic of another agent executes once as an ATOM would (R178), and the
old value is the answer. -/
def execEvUpliAtomicArrival (src offset op : Nat) (x y : BitVec 64) (s : State) : Out :=
  let n := upliSize op
  if 12 ≤ op ∨ offset % n ≠ 0 ∨ !s.fabricUp then .next s
  else match s.arrival offset n .write with
    | .refuse r => .next ((s.noteArrival offset).fabAnswer src offset r [])
    | .ok ps _ =>
      if s.arrivalWaits ps then .next s
      else if s.arrivalBad ps then
        .next ((s.candidates (ps.flatMap (fun p => s.badFrames p.1 p.2))).fabAnswer src offset 6 [])
      else
        let old := ofBytes (s.arrivalBytes ps)
        .next ((s.perform (piecePairs ps (toBytes n (upliNew op x y old)))).fabAnswer src offset 0 (toBytes n old))

end Sys2Proof.Machine
end

