-- ==== Sys2Proof/Machine/Link.lean ====
section
/-! DEFINITION. Opina Link and the UALink ports: frames in and out (R439, R522–R525), launch frames (R389, R390),
host reads and writes (R363, R526, R531), trap-call replies (R286). -/

namespace Sys2Proof.Machine

/-! ### The link (R522, R524) -/

/-- Whether a sequence number lies after an acknowledged one, modulo 2^32. -/
def seqAfter (ack seq : W32) : Bool := decide (1 ≤ (seq - ack).toNat ∧ (seq - ack).toNat < 2 ^ 31)

/-- Frames that may go over the link now: those that stand within the window. -/
def State.inWindow (s : State) : List (W32 × Frame) := s.unacked.take linkWindow

/-- An acknowledgement: frames up to it are forgotten, and frames that enter the window go out. -/
def State.rxAck (s : State) (ack : W32) : State :=
  let left := s.unacked.filter (fun e => seqAfter ack e.1)
  let before := s.inWindow
  let s := { s with unacked := left }
  let fresh := s.inWindow.filter (fun e => !before.any (fun b => b.1 == e.1))
  { s with wire := s.wire ++ fresh.map (fun (e : W32 × Frame) => e.2.bytes e.1 (s.rxSeq - 1#32)) }

/-- The frames of a message of n bytes. -/
def framesOf (n : Nat) : Nat := max 1 (cdiv n 4096)

/-- A message of n bytes has come in order. -/
def State.rx (s : State) (n : Nat) : State := { s with rxSeq := s.rxSeq + BitVec.ofNat 32 (framesOf n) }

/-- A message with its acknowledgement reaches the device: nothing while the link is down, or in recovery
mode (R522, R539). -/
def hostFrame (s : State) (n : Nat) (ack : W32) (f : State → Out) : Out :=
  if !s.linkUp || s.recovery then .next s else f ((s.rx n).rxAck ack)

/-- A message that breaks its layout is dropped and counted (R524, R525). -/
def State.dropMessage (s : State) : State := { s with linkErrors := s.linkErrors + 1#64 }.tick

/-- A little-endian number of `n` bytes of a payload at an offset. -/
def payNat (p : List Byte) (off n : Nat) : Nat := ofBytes ((p.drop off).take n)

/-- FRAME_RESEND (R524): frames not acknowledged in time are sent again from the oldest onward. -/
def execEvFrameResend (s : State) : Out :=
  if s.unacked.isEmpty || !s.linkUp then .next s
  else .next { s with
    wire := s.wire ++ s.inWindow.map (fun (e : W32 × Frame) => e.2.bytes e.1 (s.rxSeq - 1#32)) }.tick

/-- WAVELENGTH_FAILURE (R522): one wavelength fails; the other carries every frame. -/
def execEvWavelengthFailure (s : State) : Out :=
  if s.wavelengths = 0 then .next s else .next { s with wavelengths := s.wavelengths - 1 }.tick

/-- WAVELENGTH_RESTORED (R522): a wavelength returns. -/
def execEvWavelengthRestored (s : State) : Out :=
  if 2 ≤ s.wavelengths then .next s else .next { s with wavelengths := s.wavelengths + 1 }.tick

/-- LINK_DOWN (R522): both wavelengths have been down for more than 100 ms. -/
def execEvLinkDown (s : State) : Out :=
  if s.linkDown ∨ s.wavelengths ≠ 0 then .next s else .next { s with linkDown := true }.tick

/-- LINK_RESTORED (R522): the link comes back, and management event 1 is sent. -/
def execEvLinkRestored (s : State) : Out :=
  if !s.linkDown ∨ s.wavelengths = 0 then .next s
  else .next ({ s with linkDown := false }.mgmtEvent 1 []).tick

/-- UALINK_PORT_TRAINING (R439): a port is up with four lanes and stays down with fewer. -/
def execEvUalinkPortTraining (port lanes : Nat) (s : State) : Out :=
  if 24 ≤ port ∨ 4 < lanes then .next s
  else .next { s with
    portsUp := (s.portsUp.filter (· != port)) ++ (if lanes = 4 then [port] else []) }.tick

/-- What is wrong with a received frame (R523–R525). -/
inductive FrameFault where
  | none
  /-- Bad length or CRC, a reserved bit, or another SEQ. -/
  | link
  /-- In order, but of a TYPE that is not listed. -/
  | type
  deriving DecidableEq, Repr

/-- The link's checks of a frame. -/
def State.frameFault (s : State) (f : List Byte) : FrameFault :=
  let n := f.length
  let body := f.take (n - 4)
  if n < 20 ∨ payNat f 2 2 + 20 ≠ n ∨ 4096 < payNat f 2 2 ∨ ofBytes (f.drop (n - 4)) ≠ (crc32 body).toNat ∨
      4 ≤ payNat f 1 1 ∨ payNat f 4 4 ≠ s.rxSeq.toNat then .link
  else if payNat f 0 1 = 0 ∨ 12 < payNat f 0 1 then .type
  else .none

/-- OPINA_FRAME_DROP (R524, R525): a received frame that fails the link's checks, or whose TYPE is not
listed, is dropped and counted. -/
def execEvOpinaFrameDrop (frame : List (BitVec 8)) (s : State) : Out :=
  if !s.linkUp then .next s
  else match s.frameFault frame with
    | .none => .next s
    | .link => .next s.dropMessage
    | .type => .next ({ s with rxSeq := s.rxSeq + 1#32 }.rxAck (BitVec.ofNat 32 (payNat frame 8 4))).dropMessage

/-! ### Launch frames (R389, R390) -/

/-- The launch-result event: TAG, GRIDID, check code. -/
def State.launchResult (s : State) (tag : W32) (ptag gid code : Nat) : State :=
  (s.sendFrame 2 tag (toBytes 4 ptag ++ toBytes 4 gid ++ toBytes 4 code)).tick

/-- Whether a dependence counter's address passes check 13. -/
def State.waitOk (s : State) (asid a : Nat) : Bool :=
  a == 0 || (a % 8 == 0 && match s.translate asid a with
    | .page _ _ leaf => pteR leaf && decide (2 ≤ pteSw leaf)
    | _ => false)

/-- What the starter reads of a pointed-to record (check 14). -/
inductive RecordRead where
  | wait
  | fail
  | got (bytes : List Byte)
  deriving DecidableEq, Repr

/-- Read a pointed-to record. -/
def State.readRecord (s : State) (asid a : Nat) : RecordRead :=
  if a % 128 ≠ 0 then .fail
  else match s.translate asid a with
    | .page _ size leaf =>
      let pa := pageAddr leaf size a
      if pteMig leaf = 1 then .wait
      else if !pteR leaf ∨ pteSw leaf < 2 then .fail
      else if s.rangeWaits pa 128 then .wait
      else if s.bytesBad pa 128 then .fail
      else .got (readBytes s.mem pa 128)
    | _ => .fail

/-- The checks that follow 12 and 14 on a launch frame, and the creation of its grid. -/
def State.launchFrame (s : State) (tag : W32) (p record : List Byte) : State :=
  let asid := payNat p 2 2
  let ptag := payNat p 4 4
  let wa := payNat p 8 8
  let r := parseRecord record
  let s := if wa = 0 then s else s.noteTranslate asid wa
  let no (code : Nat) : State := s.launchResult tag ptag 0xFFFFFFFF code
  if !s.waitOk asid wa then no 13
  else if r.code ≠ 0 then no r.code
  else if s.queueFull r.queue then no 10
  else
    let s := s.createGrid r asid (some (BitVec.ofNat 32 ptag)) wa (payNat p 16 8)
    s.launchResult tag ptag s.lastGrid.toNat 0

/-- Whether a context can take a grid (check 12). -/
def State.ctxOk (s : State) (asid : Nat) : Bool :=
  match s.ctx? asid with
  | some c => !c.removing
  | none => false

/-- LAUNCH_FRAME_INLINE (R389, R390): a launch frame that carries its record, or whose KIND is refused. -/
def execEvLaunchFrameInline (tag ack : BitVec 32) (payload : List (BitVec 8)) (s : State) : Out :=
  hostFrame s payload.length ack (fun s =>
    if payNat payload 0 1 = 2 ∨ payload.length < 24 ∨ payNat payload 1 1 ≠ 0 ∨ 1024 ≤ payNat payload 2 2 then
      .next s.dropMessage
    else if payNat payload 0 1 ≠ 1 then .next (s.launchResult tag (payNat payload 4 4) 0xFFFFFFFF 3)
    else if payload.length ≠ 152 then .next s.dropMessage
    else if !s.ctxOk (payNat payload 2 2) then .next (s.launchResult tag (payNat payload 4 4) 0xFFFFFFFF 12)
    else .next (s.launchFrame tag payload (payload.drop 24)))

/-- LAUNCH_FRAME_POINTER (R389, R390): a launch frame that points to its record, which the starter reads once;
a record on a page being migrated is waited for. -/
def execEvLaunchFramePointer (tag ack : BitVec 32) (payload : List (BitVec 8)) (s : State) : Out :=
  hostFrame s payload.length ack (fun s1 =>
    let asid := payNat payload 2 2
    if payNat payload 0 1 ≠ 2 ∨ payload.length ≠ 32 ∨ payNat payload 1 1 ≠ 0 ∨ 1024 ≤ asid then .next s1.dropMessage
    else if !s1.ctxOk asid then .next (s1.launchResult tag (payNat payload 4 4) 0xFFFFFFFF 12)
    else match s1.readRecord asid (payNat payload 24 8) with
      | .wait => .next s
      | .fail => .next ((s1.noteTranslate asid (payNat payload 24 8)).launchResult tag (payNat payload 4 4) 0xFFFFFFFF 14)
      | .got b => .next (s1.launchFrame tag payload b))

/-! ### Host reads and writes (R526, R531) -/

/-- How a host access fares: it waits, the first refusal reason, or its physical pieces. -/
inductive HostRange where
  | wait
  | refuse (reason : Nat)
  | ok (pieces : List (Nat × Nat))
  deriving DecidableEq, Repr

/-- Translate a host range page by page (R526); fuel: pages. -/
def State.hostRange (s : State) (asid : Nat) (k : Access) : Nat → Nat → Nat → HostRange
  | 0, _, _ => .ok []
  | f + 1, va, n =>
    if n = 0 then .ok []
    else if 2 ^ 64 ≤ va then .refuse 2
    else
      let step := min n (65536 - va % 65536)
      match s.translate asid va with
      | .page _ size leaf =>
        let pa := pageAddr leaf size va
        if pteMig leaf = 1 then .wait
        else if !permits k leaf then .refuse 3
        else if pteSw leaf < 2 then .refuse 4
        else match s.hostRange asid k f (va + step) (n - step) with
          | .ok ps => if s.rangeWaits pa step then .wait else .ok ((pa, step) :: ps)
          | o => o
      | _ => .refuse 2

/-- A host range whose walk meets an uncorrectable word is noted in the black box (R491). -/
def State.noteHost (s : State) (asid va n : Nat) : State :=
  if s.ctxOk asid then
    (upto (n / 65536 + 2)).foldl (fun s i =>
      let a := (va / 65536 + i) * 65536
      if a < va + n ∧ a < 2 ^ 64 then s.noteTranslate asid (max va a) else s) s
  else s

/-- `hostRange` in a context that may be gone (reason 5). -/
def State.hostAccess (s : State) (asid : Nat) (k : Access) (va n : Nat) : HostRange :=
  if !s.ctxOk asid then .refuse 5 else s.hostRange asid k (n / 65536 + 2) va n

/-- Whether a host access payload keeps its layout: ASID, reserved bytes, LEN, and whole units with SCALE. -/
def hostForm (scale : Bool) (p : List Byte) : Bool :=
  decide (payNat p 0 2 < 1024) && payNat p 2 6 == 0 && payNat p 16 4 % 4 == 0 && decide (payNat p 16 4 ≤ 4096) &&
    (!scale || (payNat p 8 8 % 64 == 0 && payNat p 16 4 % 64 == 0))

/-- Whether a frame is in scale-metadata mode. -/
def State.scaleMode (s : State) (frame : Nat) : Bool := s.scaleFrames.any (fun e => e.1 == frame)

/-- The spare word of a unit (R531): zero outside scale-metadata mode. -/
def State.spareWord (s : State) (unit : Nat) : W32 := if s.scaleMode (unit / 1024) then mget 0#32 s.spare unit else 0#32

/-- The bytes of a host read: data, with SCALE each unit followed by its spare word. -/
def State.hostBytes (s : State) (scale : Bool) (pa n : Nat) : List Byte :=
  if scale then (upto (n / 64)).foldl (fun acc i =>
    acc ++ readBytes s.mem (pa + 64 * i) 64 ++ toBytes 4 (s.spareWord (pa / 64 + i)).toNat) []
  else readBytes s.mem pa n

/-- HOST_READ (R363, R526, R531): a host read is translated and performs at once, or is refused; a page being
migrated holds it. -/
def execEvHostRead (tag ack : BitVec 32) (scale : Bool) (payload : List (BitVec 8)) (s : State) : Out :=
  hostFrame s payload.length ack (fun s1 =>
    if payload.length ≠ 20 || !hostForm scale payload then .next s1.dropMessage
    else match s1.hostAccess (payNat payload 0 2) .read (payNat payload 8 8) (payNat payload 16 4) with
      | .wait => .next s
      | .refuse r =>
        .next ((s1.noteHost (payNat payload 0 2) (payNat payload 8 8) (payNat payload 16 4)).sendFrame 5 tag (toBytes 1 r)).tick
      | .ok ps =>
        if ps.any (fun p => s1.bytesBad p.1 p.2) then
          .next ((s1.candidates (ps.foldl (fun acc p => acc ++ s1.badFrames p.1 p.2) [])).sendFrame 5 tag (toBytes 1 6)).tick
        else .next (s1.sendFrame 5 tag (ps.foldl (fun acc p => acc ++ s1.hostBytes scale p.1 p.2) [])).tick)

/-- The data bytes of a write with SCALE: the first 64 of each 68. -/
def dataOf (b : List Byte) : List Byte := (upto (b.length / 68)).foldl (fun acc i => acc ++ (b.drop (68 * i)).take 64) []

/-- Write the spare words of units from a write with SCALE; `base` the first unit of a piece, `i0` its place
in the data. -/
def State.writeSpare (s : State) (b : List Byte) (base i0 n : Nat) : State :=
  (upto n).foldl (fun s i =>
    let u := base + i
    if s.scaleMode (u / 1024) then
      { s with spare := mset 0#32 s.spare u (BitVec.ofNat 32 (payNat b (68 * (i0 + i) + 64) 4)) }
    else s) s

/-- Write the spare words of all pieces. -/
def State.writeSpares (s : State) (b : List Byte) : Nat → List (Nat × Nat) → State
  | _, [] => s
  | i, p :: t => (s.writeSpare b (p.1 / 64) i (p.2 / 64)).writeSpares b (i + p.2 / 64) t

/-- HOST_WRITE (R363, R526, R531): a host write performs whole or not at all; a page being migrated holds
it. -/
def execEvHostWrite (tag ack : BitVec 32) (scale : Bool) (payload : List (BitVec 8)) (s : State) : Out :=
  hostFrame s payload.length ack (fun s1 =>
    let n := payNat payload 16 4
    let body := payload.drop 20
    let form := payload.length ≥ 20 && hostForm scale payload && body.length == (if scale then n / 64 * 68 else n)
    if !form then .next s1.dropMessage
    else match s1.hostAccess (payNat payload 0 2) .write (payNat payload 8 8) n with
      | .wait => .next s
      | .refuse r => .next ((s1.noteHost (payNat payload 0 2) (payNat payload 8 8) n).sendFrame 7 tag (toBytes 1 r)).tick
      | .ok ps =>
        let s2 := s1.perform (piecePairs ps (if scale then dataOf body else body))
        let s3 := if scale then s2.writeSpares body 0 ps else s2
        .next (s3.sendFrame 7 tag (toBytes 1 0)).tick)

/-! ### Trap-call replies (R285, R286) -/

/-- Whether a reply under a tag has come in the lap that is replayed, and has still to be delivered again. -/
def Team.callDue (x : Team) (tag : W32) : Bool :=
  x.due.any (fun d => match d.what with
    | .call t _ _ => t == tag
    | _ => false)

/-- The heats that wait for a reply under a tag: team, HEATID, heat; a checker takes the one its primary got. -/
def State.callers (s : State) (tag : W32) : List (Nat × Nat × Heat) :=
  (s.teams.filter (fun (e : Nat × Team) => e.2.checks.isNone && !e.2.callDue tag)).foldl (fun acc (e : Nat × Team) => acc ++
    (e.2.body.heats.filter (fun h => !(h.2.callLanes tag).isEmpty)).map (fun h => (e.1, h.1, h.2))) []

/-- The caller that issued first. -/
def firstCaller (l : List (Nat × Nat × Heat)) : Option (Nat × Nat × Heat) :=
  match l with
  | [] => none
  | x :: t => some (t.foldl (fun b y => if y.2.2.lastIssue.getD 0 < b.2.2.lastIssue.getD 0 then y else b) x)

/-- TRAP_CALL_REPLY (R286): status and 32 words for the heat parked under the frame's TAG: with status 0 each
taking lane gets its word and k7 = 0, else 0 and k7 = 1. The CALLH closed its lap, so the log of the present one
holds the reply (R482). -/
def execEvTrapCallReply (tag ack : BitVec 32) (payload : List (BitVec 8)) (s : State) : Out :=
  hostFrame s payload.length ack (fun s =>
    if payload.length ≠ 132 then .next s.dropMessage
    else match firstCaller (s.callers tag) with
      | none => .next s.tick
      | some (t, u, _) =>
        let status := payNat payload 0 4
        let words := payload.drop 4
        let lap := (s.team? t).elim 0 (fun x => x.lap.toNat - 1)
        .next (s.receive t u lap (.call tag status words) none true).tick)

end Sys2Proof.Machine
end

