-- ==== Sys2Proof/Machine/Boot.lean ====
section
/-! DEFINITION. Resets, boot, firmware and attestation (R453, R539–R541). -/

namespace Sys2Proof.Machine

/-! ### Management frames (R527) -/

/-- A management request of the control node reaches the device, which answers with type 11; nothing while
the link is down, or in recovery mode. -/
def mgmtFrame (s : State) (f : State → Out) : Out :=
  if !s.linkUp || s.recovery then .next s else f (s.rx 1)

/-- A request that recovery mode still accepts (R539). -/
def bootFrame (s : State) (f : State → Out) : Out := if !s.linkUp then .next s else f (s.rx 1)

/-- The reply of a request: status 0 success, 1 malformed, 2 busy. -/
def State.answer (s : State) (tag : W32) (status : Nat) : Out := .next (s.mgmtReply tag status []).tick

/-! ### Boot (R539) -/

/-- Extend a measurement register with the hash of an image. -/
def extend (old image : List Byte) : List Byte := sha256 (old ++ sha256 image)

/-- Run the stages in order: each verifies the next one and measures it; the first that is refused or fails
leaves the device in recovery mode. -/
def State.bootStages (s : State) : Nat → List (Nat × List Byte) → State
  | _, [] => s
  | i, (_, img) :: t =>
    if Config.imageVerifies img = false ∨ Config.imageVersion img < s.rollback then { s with recovery := true }
    else
      let m := mget (List.replicate 32 0#8) s.measures i
      let s := if i < 8 then { s with measures := mput s.measures i (extend m img) } else s
      s.bootStages (i + 1) t

/-- The boot of both resets: the measurement registers begin at zero (R539, R541). -/
def State.boot (s : State) : State := { s with measures := [], recovery := false }.bootStages 0 s.flash

/-- COLD_RESET (R541): power-on clears all state except flash and fuses. -/
def execEvColdReset (s : State) : Out :=
  .next ({ State.reset with
    inputs := s.inputs, stamp := s.stamp, self := s.self, flash := s.flash, rollback := s.rollback
    retireList := s.retireList, retired := s.retired, capped := s.capped, fenced := s.fenced : State }.boot).tick

/-- Every context is removed and every grid ends, with status 1 unless an earlier cause befell it (R409, R541, R546). -/
def State.endAll (s : State) : State :=
  let s := s.grids.foldl (fun s (e : Nat × Grid) => s.gridComplete e.1 e.2 (if e.2.status = 0 then 1 else e.2.status)) s
  let s := s.contexts.foldl (fun s (e : Nat × Context) => s.blackBoxAdd { src := 130, kind := 8, asid := e.1 }) s
  s.dropTeams (s.teams.map Prod.fst)

/-- What a warm reset leaves: flash, fuses, memory contents but for what the boot firmware zeroes, the black box, the timestamp, the link's numbering
and what it has sent; the relay incarnation is one higher (R453, R541). -/
def State.warm (s : State) : State :=
  let s := s.endAll
  let zeroed (u : Nat) : Bool := Config.bootZeroes u s.stamp
  ({ State.reset with
    inputs := s.inputs, stamp := s.stamp, self := s.self, flash := s.flash, rollback := s.rollback
    retireList := s.retireList, retired := s.retired, capped := s.capped, fenced := s.fenced
    mem := zeroUnits zeroed s.mem, poison := s.poison.filter (fun u => !zeroed u), spare := s.spare, scaleFrames := s.scaleFrames, corrections := s.corrections
    blackBox := s.blackBox, blackWrite := s.blackWrite, gtc := s.gtc, gtcOpen := s.gtcOpen
    incarnation := s.incarnation + 1#32, nextTeam := s.nextTeam
    wavelengths := s.wavelengths, linkDown := s.linkDown, txSeq := s.txSeq, rxSeq := s.rxSeq
    unacked := s.unacked, hostOut := s.hostOut, wire := s.wire
    packets := s.packets, fabricOut := s.fabricOut, collOut := s.collOut : State }.boot).tick

/-- FORCED_WARM_RESET (R541): a link or power fault forces a warm reset. -/
def execEvForcedWarmReset (s : State) : Out := .next s.warm

/-- WARM_RESET (R527, R541): management asks for a warm reset; the reply goes out before it. -/
def execEvWarmReset (tag : BitVec 32) (s : State) : Out :=
  bootFrame s (fun s => .next (s.mgmtReply tag 0 []).warm)

/-! ### Firmware and attestation (R539, R540) -/

/-- FIRMWARE_UPDATE (R539): a new image of a stage goes to flash, to be verified at the next reset. -/
def execEvFirmwareUpdate (tag : BitVec 32) (stage : Nat) (image : List (BitVec 8)) (s : State) : Out :=
  bootFrame s (fun s =>
    if 8 ≤ stage ∨ image = [] then s.answer tag 1
    else { s with flash := mput s.flash stage image }.answer tag 0)

/-- The attestation report (R540). -/
def State.report (s : State) (nonce : List Byte) : List Byte :=
  Config.deviceIdentity ++ (upto 8).foldl (fun acc i => acc ++ mget (List.replicate 32 0#8) s.measures i) [] ++
    toBytes 8 s.rollback ++ toBytes 4 s.incarnation.toNat ++ toBytes 4 s.retired.length ++ nonce

/-- The signature of a report: 16,224 bytes (R540). -/
def signature (report : List Byte) : List Byte := (Config.attestSignature report ++ List.replicate 16224 0#8).take 16224

/-- ATTEST (R540): a report over a 32-byte nonce, signed with the device's attestation key. -/
def execEvAttest (tag : BitVec 32) (nonce : List (BitVec 8)) (s : State) : Out :=
  bootFrame s (fun s =>
    if nonce.length ≠ 32 then s.answer tag 1
    else
      let r := s.report nonce
      .next (s.mgmtReply tag 0 (r ++ signature r)).tick)

end Sys2Proof.Machine
end

