-- ==== Sys2Proof/Machine/Thread.lean ====
section
/-! DEFINITION. Creating threads and grids (R229–R233, R400, R403), and the issue of RSMP
(R234, R420, R421). -/

namespace Sys2Proof.Machine

/-! ### Spawn bins (R400) -/

/-- Bins of a core. -/
def binCount : Nat := 8

/-- Bin i of a core. -/
def Core.bin (k : Core) (i : Nat) : Bin := k.bins.getD i {}

/-- Replace bin i. -/
def Core.putBin (k : Core) (i : Nat) (b : Bin) : Core :=
  { k with bins := (upto binCount).map (fun j => if j = i then b else k.bin j) }

/-- The bin a thread enters by steps 1 and 2 of R400, if one takes it. -/
def Core.binFor (k : Core) (b : BinThread) : Option Nat :=
  match (upto binCount).find? (fun i => (k.bin i).key == some (b.team, b.entry)) with
  | some i => if (k.bin i).threads.length < 32 then some i else none
  | none => (upto binCount).find? (fun i => (k.bin i).key.isNone)

/-- The BINT of a team's grid, in cycles (R401). -/
def State.binCycles (s : State) (t : Nat) : Nat :=
  match s.team? t with
  | none => 256
  | some x => match s.gridOf x with
    | none => 256
    | some g => 16 * g.record.bint

/-- A thread enters a bin of a core (R400); the first one starts the timer (R401). -/
def State.enterBin (s : State) (c i : Nat) (b : BinThread) : State :=
  let k := s.core c
  let x := k.bin i
  let x := if x.threads.isEmpty then { x with
      key := some (b.team, b.entry), expires := k.cycles.toNat + s.binCycles b.team } else x
  s.putCore c (k.putBin i { x with threads := x.threads ++ [b] })

/-- Place a new thread: a bin of the core, or the context's bin spill area (R400). -/
def State.placeThread (s : State) (c asid : Nat) (b : BinThread) : State :=
  match (s.core c).binFor b with
  | some i => s.enterBin c i b
  | none => s.modCtx asid (fun x => { x with spill := x.spill ++ [b] })

/-- Free places of a context's bin spill area. -/
def State.spillRoom (s : State) (asid : Nat) : Nat :=
  match s.ctx? asid with
  | none => 0
  | some c => Config.binSpill - c.spill.length

/-- SPAWN (R229): each taking lane creates one thread with entry a(D), LINEAGE pair(A) and n arguments
from v(A + 2). -/
def execSpawn (d : BitVec 4) (a : BitVec 6) (b : BitVec 7) (p : BitVec 2) (s : State) : Out :=
  heatWord s [(pairReg a, 2 + b.toNat)] [] (fun h => teamOnly s (fun t =>
    let m := h.taking s.cur.active p.toNat
    if m = 0#32 then .next (s.finish h)
    else if s.spillRoom s.curAsid < (lanesOf m).length then .next (s.raise 0x0E 0)
    else
      let thread := fun (l : Nat) => ({
        team := t, entry := h.ar d.toNat, lineage := h.pair (pairReg a) l
        args := (upto b.toNat).map (fun i => h.v (pairReg a + 2 + i) l)
        role := h.role, budget := h.budget } : BinThread)
      .next (((lanesOf m).foldl (fun s l => s.placeThread s.cur.core s.curAsid (thread l)) s).finish h)))

/-! ### LAUNCH (R230, R231) -/

/-- Records of a context that stand in launch spill lists: all but a team's first four (R399). -/
def State.launchSpilled (s : State) (asid : Nat) : Nat :=
  s.teams.foldl (fun n e => if e.2.asid = asid then n + (e.2.launches.length - 4) else n) 0

/-- What the lanes of a LAUNCH have done. -/
structure Launched where
  s : State
  vals : FMap Nat := []
  bad : List Nat := []
  parts : Nat := 0

/-- One lane of a LAUNCH: its record joins the team's pending order, or is refused with code 10 when
the spill area is full. -/
def Launched.lane (g : Launched) (t heat asid : Nat) (x : Nat × Target) : Launched :=
  let pend := match g.s.team? t with
    | some y => y.launches.length
    | none => 0
  match x.2 with
  | .mem pa _ =>
    if g.s.mute then { g with vals := mput g.vals x.1 0, parts := g.parts + 1 }
    else if g.s.bytesBad pa 128 then { g with bad := g.bad ++ [x.1], vals := mput g.vals x.1 0xFFFFFFFF }
    else if 4 ≤ pend ∧ Config.launchSpill ≤ g.s.launchSpilled asid then
      { g with vals := mput g.vals x.1 0xFFFFFFFF }
    else
      let r : PendLaunch := {
        record := readBytes g.s.mem pa 128, heat := heat, lane := x.1, slot := g.s.stamp, stamp := g.s.stamp }
      { g with
        s := g.s.modTeam t (fun y => { y with launches := y.launches ++ [r] })
        vals := mput g.vals x.1 0xFFFFFFFF, parts := g.parts + 1 }
  | _ => g

/-- The records that the lanes of a LAUNCH read: forwarded to a checker, which takes them so, and a digest record of
each of a sampled team or its checker (R511, R512). -/
def State.noteLaunch (s : State) (t stride : Nat) (addr : Nat → Addr) (ts : List (Nat × Target)) : State :=
  ts.foldl (fun (s : State) x =>
    let a := (addr x.1).toNat
    let v := match (if s.mute then s.logged 0 stride x.1 a else none), x.2 with
      | some v, _ => v
      | none, .mem pa _ => readNat s.mem pa 128
      | none, _ => 0
    let s := if s.mute then s.noteTaken 0 stride x.1 a else s.noteRead 0 stride x.1 a 128 v
    s.noteDigest t s.curHeatId 9 a 128 v) s

/-- LAUNCH (R230): each taking lane reads a launch record and queues a child grid. -/
def execLaunch (d : BitVec 7) (a : BitVec 4) (o : BitVec 7) (l : BitVec 4) (p : BitVec 1)
    (s : State) : Out :=
  heatWord s ((d.toNat, 1) :: ofsUse o) [] (fun h => teamOnly s (fun t =>
    let lanes := lanesOf (h.taking s.cur.active p.toNat)
    let addr := fun x => h.laneAddr a o x
    if lanes.isEmpty then commitOnly s h
    else needSlot s h (accessLanes s h lanes 128 addr
      (fun bs x => s.checkMem bs s.curWho (addr x) 128 .read true) (fun s ts =>
        commitPoint s h (fun s h =>
          let s := if s.mute || (s.team? t).any (fun x => x.sampled) then s.noteLaunch t h.stride.toNat addr ts else s
          let g := ts.foldl (fun (g : Launched) x => g.lane t s.curHeatId s.curAsid x) { s := s }
          let slot := { s.newSlot h (.vec d.toNat 1) l.toNat with
            vals := g.vals, waiting := g.parts, isLoad := false, isRemote := true
            poison := maskOf (fun x => g.bad.contains x)
            frames := if g.bad.isEmpty then [] else s.targetFrames 128 ts
            poisonAddr := match g.bad with
              | [] => 0#72
              | x :: _ => addr x }
          .next (g.s.finish { h with slots := h.slots ++ [slot] }).endLap)))))

/-! ### WAITC (R232) -/

/-- WAITC (R232): the heat parks until every taking lane's counter is at least pair(S); a checker's follows its
primary's (R511). -/
def execWaitc (src : BitVec 6) (a : BitVec 4) (o : BitVec 7) (p : BitVec 1) (s : State) : Out :=
  heatWord s ((pairReg src, 2) :: ofsUse o) [] (fun h => teamOnly s (fun t =>
    let lanes := lanesOf (h.taking s.cur.active p.toNat)
    let addr := fun x => h.laneAddr a o x
    if lanes.isEmpty then .next (s.finish h)
    else accessLanes s h lanes 8 addr
      (fun bs x => s.checkMem bs s.curWho (addr x) 8 .read true) (fun s ts =>
        let conds := ts.map (fun x => (x.1, (addr x.1).toNat, (h.pair (pairReg src) x.1).toNat))
        let w : Waiter := {
          heat := s.curHeatId, mask := s.cur.active, conds := conds
          met := s.mute || conds.all (s.counterMet t s.curAsid) }
        let s := (s.finishPark h .waitc).modTeam t (fun x =>
          { x with body := { x.body with waiters := x.body.waiters ++ [w] } })
        .next (s.retestTeam t))))

/-! ### RSMP (R234) -/

/-- The reason of a population trap found at issue (R234, R420), in the order of the checks. -/
def rsmpReason (s : State) (h : Heat) (a n : Nat) : Option Nat :=
  let g := match s.curGrid? with
    | some g => g.record.pop
    | none => false
  if !g then some 1
  else if (lanesOf s.cur.active).any (fun l => !(h.lane l).member) then some 5
  else if n = 0 ∨ 2 ^ 24 < n then some 3
  else if (lanesOf s.cur.active).any (fun l => h.v a l == 0x7F800000#32) then some 2
  else none

/-- The population trap that a failed resample left for the word to raise when it issues again (R420, R472). -/
def Heat.popPending (h : Heat) (m : Mask) : Option Nat :=
  match (h.lane (lowLane m)).park with
  | .retryRsmp (r + 1) => some (r + 1)
  | _ => none

/-- The lanes of a mask stay parked at their RSMP, to issue it anew (R427). -/
def Heat.repark (h : Heat) (m : Mask) : Heat :=
  h.forLanes m (fun y l => y.setLane l { y.lane l with park := .retryRsmp 0 })

/-- The issue of RSMP and RSMP.u: the partial-mask trap, the population checks, a commit point; each
lane's weight joins the grid's gathering and the lanes park. A checker takes no part: its check ends (R511;
assumption log entry 74). -/
def rsmpWord (a n : Nat) (u : Heat → Option Nat) (sr : List (Nat × Nat)) (s : State) : Out :=
  heatWord s [(a, 1)] sr (fun h => teamOnly s (fun t =>
    let count := (h.sr n).toNat
    if s.mute then .next (s.endCheck t).tick
    else if s.cur.active ≠ h.live then .next (s.raise 7 s.cur.active.toNat)
    else match h.popPending s.cur.active, rsmpReason s h a count with
      | some r, _ => .next ((s.putCurHeat (h.repark s.cur.active)).raise 9 r)
      | none, some r => .next (s.raise 9 r)
      | none, none => commitPoint s h (fun s h =>
        let recs := (lanesOf s.cur.active).map (fun l =>
          ({ team := t, heat := s.curHeatId, lane := l, weight := h.v a l, count := count, u := u h } : RsmpRec))
        let gid := match s.team? t with
          | some x => x.grid
          | none => 0
        .next (((s.modGrid gid (fun g => { g with gathering := g.gathering ++ recs })).finishPark h .rsmp).endLap))))

/-- RSMP (R234): weight v(A), target count s(B). -/
def execRsmp (a : BitVec 7) (b : BitVec 6) (s : State) : Out :=
  rsmpWord a.toNat b.toNat (fun _ => none) [(b.toNat, 1)] s

/-- RSMP_U (R234): u = s(D)[63:11]. -/
def execRsmpU (d : BitVec 6) (a : BitVec 7) (b : BitVec 6) (s : State) : Out :=
  rsmpWord a.toNat b.toNat (fun h => some ((h.sr d.toNat).toNat / 2 ^ 11))
    [(b.toNat, 1), (d.toNat, 1)] s

end Sys2Proof.Machine
end

