-- ==== Sys2Proof/Machine/Bins.lean ====
section
/-! DEFINITION. Spawn bins: the heats they launch, what moves in from the spill area, and where clones of
a resample go (R400–R403, R416, R426, R548). -/

namespace Sys2Proof.Machine

/-! ### Resident slots and rows (R311, R548) -/

/-- The heats of the teams active on a core that have not ended. -/
def State.coreHeats (s : State) (c : Nat) : List Heat :=
  (s.residents c).foldl (fun acc t => match s.team? t with
    | none => acc
    | some x => acc ++ (x.body.heats.filter (fun e => !e.2.ended)).map Prod.snd) []

/-- The lowest free resident slot of heat h's scheduler (R548). -/
def lowSlot (used : List Nat) (h : Nat) : Option Nat :=
  ((upto 16).map (fun i => 16 * (h % 4) + i)).find? (fun i => !used.contains i)

/-- Slots for heats listed by HEATID, in that order (R548); none when a scheduler has no room. -/
def takeSlots : List Nat → List Nat → Option (FMap Nat)
  | _, [] => some []
  | used, h :: t => match lowSlot used h with
    | none => none
    | some i => (takeSlots (i :: used) t).map (fun m => mput m h i)

/-- Bytes of one bank of a core's register region (R321). -/
def Core.bankBytes (k : Core) : Nat := k.poolrb.toNat / 2 * 65536

/-- Bytes of rows that heats take (R311). -/
def rowBytesOf (hs : List Heat) : Nat := hs.foldl (fun n h => n + 128 * h.budget) 0

/-! ### The heat of a bin (R401) -/

/-- The lowest HEATID free for a new heat: never used, or of a heat that has ended and has left every hurdle
(R401). -/
def Team.freeHeat (x : Team) : Option Nat :=
  (upto 16).find? (fun h => match x.heat? h with
    | none => true
    | some y => y.ended && y.hmem.all (fun e => e.2.mode == .none && e.2.pending == none))

/-- A new heat keeps the unfinished operations of the ended heat that had its HEATID: they complete, but
are not its own (R210, R401). -/
def Heat.succeed (new : Heat) (old : Option Heat) (stamp : Nat) : Heat :=
  let o := old.getD {}
  { new with born := stamp, slots := o.slots, acks := o.acks, copies := o.copies }

/-- A thread takes home lane l of a new heat. -/
def Heat.seat (h : Heat) (l : Nat) (b : BinThread) (entry : Addr) (stamp : Nat) : Heat :=
  let h := h.setLane l { live := true, hdr := entry, idx := b.idx, loops := b.loops, cvcnt := b.cvcnt
                         lineage := b.lineage, member := b.member, clauseStamp := stamp, since := stamp }
  let h := (upto b.args.length).foldl (fun y j => y.setV j l (b.args.getD j 0#32)) h
  let h := b.rows.foldl (fun y e => y.setV e.1 l e.2) h
  b.preds.foldl (fun y e => y.setK e.1 l e.2) h

/-- The argument words a new heat's s0 to s7 hold (R62, R416). -/
def State.teamArgs (s : State) (x : Team) : List W64 :=
  match s.gridOf x with
  | some g => g.record.args
  | none => []

/-- The heat that a bin's threads form (R62, R401): s0 to s7 hold the argument words. -/
def binHeat (args : List W64) (slot : Nat) (entry : Addr) (ts : List BinThread) (stamp : Nat) : Heat :=
  let first := ts.headD {}
  let h : Heat := { role := first.role, budget := first.budget, slot := slot
                    s := (upto 8).foldl (fun m i => mset 0#64 m i (args.getD i 0#64)) [] }
  (upto ts.length).foldl (fun y l => y.seat l (ts.getD l {}) entry stamp) h

/-! ### Clones (R416, R426) -/

/-- The place of a team in the order of cores: its logical core in deterministic mode (R434), else its
physical core, of a swapped-out team the one it left (R433). -/
def Team.place (x : Team) (det : Bool) : Nat := if det then x.logicalCore else x.lastCore

/-- Cores in the order in which a clone tries them (R416). -/
def coreOrder (p : Nat) : List Nat :=
  let rest := (upto 128).filter (· != p)
  p :: rest.filter (fun c => c / 4 == p / 4) ++
    rest.filter (fun c => c / 4 != p / 4 && c / 64 == p / 64) ++ rest.filter (fun c => c / 64 != p / 64)

/-- The team a clone joins at a place, and its core: the lowest TEAMID of its grid there, unless that team is
swapped out (R426). -/
def State.cloneTeam (s : State) (grid : Nat) (det : Bool) (place : Nat) : Option (Nat × Nat) :=
  let there := s.teams.filter (fun e => e.2.grid == grid && e.2.checks.isNone && !e.2.exited &&
    e.2.res != .unplaced && e.2.place det == place)
  (there.foldl (fun (b : Option (Nat × Team)) e => match b with
    | some y => if e.2.teamId < y.2.teamId then some e else b
    | none => some e) none).bind (fun e => e.2.core?.map (fun c => (e.1, c)))

/-- Try to put a clone into a bin, over the places in order (R416, R426). -/
def State.tryClone (s : State) (grid : Nat) (det : Bool) (b : BinThread) : List Nat → Option State
  | [] => none
  | p :: t => match s.cloneTeam grid det p with
    | none => s.tryClone grid det b t
    | some (u, c) => match (s.core c).binFor { b with team := u } with
      | none => s.tryClone grid det b t
      | some i => some (s.enterBin c i { b with team := u })

/-- Put a clone, which names its parent's team, into a bin, passing over the core of a swapped-out parent (R433); none
when no core can take it. -/
def State.placeClone (s : State) (b : BinThread) : Option State :=
  match s.team? b.team with
  | none => none
  | some x =>
    let det := match mfind s.grids x.grid with
      | some g => g.record.det
      | none => false
    let p := x.place det
    s.tryClone x.grid det b (if x.core?.isSome then coreOrder p else (coreOrder p).filter (· != p))

/-! ### Spilled threads (R401) -/

/-- Move one spilled thread into a bin, when its team is active on the core. -/
def State.unspill (s : State) (c : Nat) (b : BinThread) : Option State :=
  match s.team? b.team with
  | none => none
  | some x =>
    if x.core? ≠ some c then none
    else if b.member then s.placeClone b
    else (s.core c).binFor b |>.map (fun i => s.enterBin c i b)

/-- A core takes spilled threads of every context, in spill order, as its bins allow. -/
def State.takeSpill (s : State) (c : Nat) : State :=
  s.contexts.foldl (fun s e =>
    let r := e.2.spill.foldl (fun (acc : State × List BinThread) b => match acc.1.unspill c b with
      | some s' => (s', acc.2)
      | none => (acc.1, acc.2 ++ [b])) (s, [])
    r.1.modCtx e.1 (fun x => { x with spill := r.2 })) s

/-- Launch the heat of a bin (R401), unless the team has no free HEATID or the core no room. -/
def State.launchBin (s : State) (c i : Nat) : State :=
  let k := s.core c
  let b := k.bin i
  match b.key with
  | none => s
  | some (t, entry) => match s.team? t with
    | none => s
    | some x =>
      let hs := s.coreHeats c
      let budget := (b.threads.headD {}).budget
      match x.freeHeat with
      | none => s
      | some h => match lowSlot (hs.map (·.slot)) h with
        | none => s
        | some slot =>
          if x.core? ≠ some c ∨ k.bankBytes < rowBytesOf hs + 128 * budget then s
          else
            let s := s.putTeam t (x.putHeat h ((binHeat (s.teamArgs x) slot entry b.threads s.stamp).succeed (x.heat? h) s.stamp))
            let s := s.modCtx x.asid (fun c => { c with relayArea := c.relayArea.filter (fun e => e.1 != t || e.2.1 != h) })
            ((s.putCore c (k.putBin i {})).takeSpill c).tick

/-- Whether a bin's grid runs in deterministic mode. -/
def State.binDet (s : State) (b : Bin) : Bool :=
  match b.key with
  | none => false
  | some (t, _) => match s.team? t with
    | none => false
    | some x => match s.gridOf x with
      | some g => g.record.det
      | none => false

/-- Whether a heat's live lanes are all parked. -/
def Heat.idle (h : Heat) : Bool := h.ended || (lanesOf h.live).all (fun l => (h.lane l).park != .none)

/-- Whether a deterministic bin of fewer than 32 threads may launch (R402): every heat of its team is
ended or parked, and no bin of the team comes before it. -/
def State.detReady (s : State) (c i : Nat) : Bool :=
  match ((s.core c).bin i).key with
  | none => false
  | some (t, _) => match s.team? t with
    | none => false
    | some x => x.body.heats.all (fun e => e.2.idle) && !(upto i).any (fun j =>
        match ((s.core c).bin j).key with
        | some (u, _) => u == t
        | none => false)

/-- BIN_HEAT_LAUNCH (R401, R402): a bin launches when it holds 32 threads; in deterministic mode also
when its team rests. -/
def execEvBinHeatLaunch (core bin : Nat) (s : State) : Out :=
  let b := (s.core core).bin bin
  if b.threads.length = 32 ∨ (s.binDet b ∧ s.detReady core bin) then .next (s.launchBin core bin)
  else .next s

/-- BIN_TIMER_EXPIRY (R401, R402): a bin whose timer has run out launches; in deterministic mode the
timer has no effect. -/
def execEvBinTimerExpiry (core bin : Nat) (s : State) : Out :=
  let k := s.core core
  let b := k.bin bin
  if b.key.isSome ∧ b.expires ≤ k.cycles.toNat ∧ !s.binDet b then .next (s.launchBin core bin) else .next s

end Sys2Proof.Machine
end

