-- ==== Sys2Proof/Machine/Place.lean ====
section
/-! DEFINITION. Where the starter can put a unit of teams (R311, R312, R319, R320, R395, R396, R410, R411,
R548). -/

namespace Sys2Proof.Machine

/-- What a team takes of a core. -/
structure Fit where
  core : Nat := 0
  share : Nat := 0
  seqSlot : Nat := 0
  accBase : Nat := 0
  slots : FMap Nat := []
  deriving DecidableEq, Repr

/-- Share indices held on a core, by teams active there and by exited ones whose scratchpad stays
installed (R314, R320). -/
def State.sharesUsed (s : State) (c : Nat) : List Nat :=
  s.teams.filterMap (fun e => match e.2.res with
    | .active k j _ _ => if k = c then some j else none
    | .exited k j => if k = c then some j else none
    | _ => none)

/-- Sequencer slots in use (R312). -/
def State.seqUsed (s : State) (c : Nat) : List Nat :=
  s.teams.filterMap (fun e => match e.2.res with
    | .active k _ q _ => if k = c then some q else none
    | _ => none)

/-- Accumulator tiles in use, as (base, count) (R266). -/
def State.tilesUsed (s : State) (c : Nat) : List (Nat × Nat) :=
  s.teams.filterMap (fun e => match e.2.res with
    | .active k _ _ b => if k = c then some (b, e.2.accCount) else none
    | _ => none)

/-- The lowest base of `n` free tiles in one run (R395). -/
def tileBase (used : List (Nat × Nat)) (n : Nat) : Option Nat :=
  (upto 257).find? (fun b => decide (b + n ≤ 256) &&
    used.all (fun u => decide (b + n ≤ u.1 ∨ u.1 + u.2 ≤ b) || n == 0 || u.2 == 0))

/-- Whether a core's pool suits a record (R319): any pool while no team is there, else the same
boundaries and residency. -/
def State.poolSuits (s : State) (c : Nat) (r : Record) : Bool :=
  let k := s.core c
  !s.coreBusy c || (k.poolrb.toNat == r.poolrb && k.poolsb.toNat == r.poolsb && k.poolcb.toNat == r.poolcb &&
    k.residency == r.m)

/-- Whether a core can take a team of these heats (HEATID, budget), and what the team gets
(R311, R312, R319, R320, R395). -/
def State.fit (s : State) (c : Nat) (r : Record) (hs : List (Nat × Nat)) : Option Fit :=
  let on := s.coreHeats c
  if s.fenced.contains (c / 4) || !s.poolSuits c r ||
      decide (r.poolrb / 2 * 65536 < rowBytesOf on + hs.foldl (fun n h => n + 128 * h.2) 0) then none
  else match (upto r.m).find? (fun j => !(s.sharesUsed c).contains j),
      (upto 4).find? (fun q => !(s.seqUsed c).contains q),
      tileBase (s.tilesUsed c) r.acct, takeSlots (on.map (·.slot)) (hs.map Prod.fst) with
    | some j, some q, some b, some m => some { core := c, share := j, seqSlot := q, accBase := b, slots := m }
    | _, _, _, _ => none

/-- The heats of a fresh team, as (HEATID, role) in HEATID order (R388). -/
def Record.layout (r : Record) : List (Nat × Nat) :=
  let roles := r.roleOrder.foldl (fun acc k => acc ++ List.replicate (r.roleHeats k) k) []
  (upto roles.length).map (fun h => (h, roles.getD h 0))

/-- Budget of a role. -/
def Record.budgetOf (r : Record) (role : Nat) : Nat :=
  match role with
  | 0 => r.bcpy
  | 1 => r.bcmp
  | _ => r.bepi

/-- The heats of a fresh team with their budgets. -/
def Record.freshHeats (r : Record) : List (Nat × Nat) := r.layout.map (fun e => (e.1, r.budgetOf e.2))

/-! ### Deterministic mode (R410, R411) -/

/-- Physical quartet of a logical quartet. -/
def State.physQuartet (s : State) (q : Nat) : Nat := mget q s.remap q

/-- The logical quartet whose turn it is on a physical one: as the last slice left it, else the lowest
that the table puts there. -/
def State.turnOf (s : State) (p : Nat) : Nat :=
  let mapped := (upto 32).filter (fun q => s.physQuartet q == p)
  match mfind s.detTurn p with
  | some q => if mapped.contains q then q else mapped.headD 0
  | none => mapped.headD 0

/-- The core a team of a deterministic grid runs on, while its quartet has the turn. -/
def State.detCore (s : State) (csize teamId rank : Nat) : Option Nat :=
  let l := if csize = 1 then teamId % 128 else 4 * (teamId / csize % 32) + rank
  let p := s.physQuartet (l / 4)
  if s.turnOf p = l / 4 then some (4 * p + l % 4) else none

/-! ### The choice of cores (R396) -/

/-- Teams resident on a quartet. -/
def State.quartetLoad (s : State) (q : Nat) : Nat :=
  (upto 4).foldl (fun n i => n + (s.residents (4 * q + i)).length) 0

/-- The element of a list with the least key, the first among equals. -/
def least (key : Nat → Nat) : List Nat → Option Nat
  | [] => none
  | x :: t => match least key t with
    | none => some x
    | some y => if key x ≤ key y then some x else some y

/-- The cores of a quartet that can take a team, in order. -/
def quartetFits (q : Nat) (f : Nat → Option Fit) : List Fit :=
  (upto 4).filterMap (fun i => f (4 * q + i))

/-- The cores a unit takes within a quartet: a single team the least loaded, a cluster the lowest
indexed. -/
def State.inQuartet (s : State) (q n : Nat) (f : Nat → Option Fit) : Option (List Fit) :=
  let fits := quartetFits q f
  if fits.length < n then none
  else if n = 1 then
    (least (fun c => (s.residents c).length) (fits.map (·.core))).bind (fun c =>
      (fits.find? (fun x => x.core == c)).map (fun x => [x]))
  else some (fits.take n)

/-- The cores a unit takes on a die: in the least loaded quartet that can take it. -/
def State.inDie (s : State) (d n : Nat) (skip : List Nat) (f : Nat → Option Fit) : Option (List Fit) :=
  let qs := ((upto 16).map (16 * d + ·)).filter (fun q =>
    !skip.contains q && (s.inQuartet q n f).isSome)
  (least s.quartetLoad qs).bind (fun q => s.inQuartet q n f)

/-- The die that holds ARG0's page, die A when ARG0 is no local address of the context (R396). -/
def State.homeDie (s : State) (asid : Nat) (r : Record) : Nat :=
  let a := (r.args.getD 0 0#64).toNat
  match s.translate asid a with
  | .page _ size leaf => if pageAddr leaf size a / 2 ^ 36 < 6 then 0 else 1
  | _ => 0

/-- The cores for a unit of a grid outside deterministic mode, leaving out some quartets. -/
def State.chooseFree (s : State) (asid : Nat) (r : Record) (skip : List Nat) (f : Nat → Option Fit) :
    Option (List Fit) :=
  let d := s.homeDie asid r
  match s.inDie d r.n skip f with
  | some x => some x
  | none => s.inDie (1 - d) r.n skip f

/-- The cores for the unit whose first team is `teamId`, with the heats of each rank. -/
def State.chooseUnit (s : State) (g : Grid) (teamId : Nat) (skip : List Nat) (f : Nat → Option Fit) :
    Option (List Fit) :=
  let r := g.record
  if r.det then
    (upto r.n).foldl (fun (acc : Option (List Fit)) k => match acc, s.detCore r.n (teamId + k) k with
      | some l, some c => (f c).map (fun x => l ++ [x])
      | _, _ => none) (some [])
  else s.chooseFree g.asid r skip f

/-! ### Installing a team -/

/-- The starter writes a core's pool registers and residency from a record (R319). -/
def Core.carveFor (k : Core) (r : Record) : Core :=
  { k with
    poolrb := BitVec.ofNat 64 r.poolrb, poolsb := BitVec.ofNat 64 r.poolsb, poolcb := BitVec.ofNat 64 r.poolcb
    carve := (r.poolrb, r.poolsb, r.poolcb), residency := r.m }

/-- A team takes its place: share, slots, tiles; its loop buffers are empty, its arbiters start anew and STALL is met
(R18, R298, R303, R312, R320, R548). -/
def Team.install (x : Team) (f : Fit) : Team :=
  { x with
    res := .active f.core f.share f.seqSlot f.accBase, lastCore := f.core
    body := { x.body with
      heats := x.body.heats.map (fun (e : Nat × Heat) => (e.1, { e.2 with
        slot := mget e.2.slot f.slots e.1, refKey := 31, turn := none, loopBuf := [], waves := 0
        lanes := e.2.lanes.map (fun (l : Nat × Lane) => (l.1, { l.2 with lastCycle := none })) }))
      seq := { x.body.seq with loopBuf := [], lastCycle := none } } }

/-- Install a team on a core: the carve is written while no team is there. -/
def State.install (s : State) (t : Nat) (r : Record) (f : Fit) : State :=
  let s := if s.coreBusy f.core then s else s.putCore f.core ((s.core f.core).carveFor r)
  s.modTeam t (fun x => x.install f)

end Sys2Proof.Machine
end

