-- ==== Sys2Proof/Machine/Swap.lean ====
section
/-! DEFINITION. Swapping teams through the shadow bank (R171, R194, R274, R386, R397, R398, R403, R406–R408, R411,
R456, R487). -/

namespace Sys2Proof.Machine

/-! ### Out (R406) -/

/-- Whether a team's engine queues hold nothing an engine could still accept (R194). -/
def Team.enginesIdle (x : Team) : Bool :=
  x.body.heats.all (fun e => (e.2.queue 0).isEmpty && (headSeq e.2.gatherList).isEmpty && (e.2.queue 4).isEmpty)

/-- Whether an issued word of the sequencer has something to do at a stop, were its tiles free (R274): an MMA
only ends the step it has begun, a DRAIN pushes the rows that fit. -/
def Team.opGoes (x : Team) (o : SeqOp) : Bool :=
  match o.kind with
  | .mma _ _ _ _ _ _ _ _ _ _ _ _ => o.kind.allStarted
  | .drain _ heat _ => (match x.heat? heat with
    | none => true
    | some h => h.ended || decide (o.stamp < h.born) || decide ((h.queue 7).length < Config.queueDepth))
  | _ => true

/-- Whether a word of the sequencer still runs on at a stop (R274); one whose tiles an earlier MMA or DRAIN keeps
waits with it. -/
def Team.runsOn (x : Team) : Bool :=
  (x.body.seq.ops.foldl (fun (acc : Bool × List Nat) (o : SeqOp) =>
    if x.opGoes o && !o.kind.tiles.any (fun t => acc.2.contains t) then (true, acc.2)
    else (acc.1, acc.2 ++ o.kind.tiles)) (false, [])).1

/-- Whether a team can leave its core now, for the teams of `incoming` or for none: active on a core that is not
frozen and whose shadow bank is empty or holds one of them; its engine queues empty and its sequencer at rest (R194,
R274); no rollback or kill due, and not halted, for a halted team stays (R282). A member that has exited leaves its
scratchpad. -/
def State.mayLeave (s : State) (incoming : List Nat) (t : Nat) : Bool :=
  match s.team? t with
  | none => false
  | some x => match x.res with
    | .exited _ _ => true
    | .active c _ _ _ =>
      let k := s.core c
      let bank := match k.shadowBusy with
        | none => true
        | some u => incoming.contains u
      k.frozen.isNone && !k.stuck && bank && x.enginesIdle && !x.runsOn && x.action == 0 && !x.halted
    | _ => false

/-- Whether a whole unit can leave (R316). -/
def State.unitMayLeave (s : State) (incoming : List Nat) (t : Nat) : Bool :=
  !(s.clusterOf t).isEmpty && (s.clusterOf t).all (s.mayLeave incoming)

/-- The bins of a core without a team's threads, whose timers stop (R403). -/
def Core.emptyBins (k : Core) (t : Nat) : Core :=
  { k with bins := k.bins.map (fun (b : Bin) => match b.key with
      | some (u, _) => if u = t then {} else b
      | none => b) }

/-- The threads of a team in a core's bins, in bin order. -/
def Core.binsOf (k : Core) (t : Nat) : List BinThread :=
  k.bins.foldl (fun acc (b : Bin) => match b.key with
    | some (u, _) => if u = t then acc ++ b.threads else acc
    | none => acc) []

/-- The gather engine takes what a team's q2 hold of incomplete sequences (R194). -/
def TeamBody.takePartials (b : TeamBody) : TeamBody :=
  { b with heats := b.heats.map (fun (e : Nat × Heat) => (e.1, e.2.takePartial)) }

/-- One team moves into the shadow bank of its core: its bins are emptied into its save area (R403), its gatherings
are abandoned (R310), its sequencer gives up the engine (R274), and its words no longer wait for a walk; the
scratchpad of an exited one goes to its save area. -/
def State.leave (s : State) (t : Nat) : State :=
  match s.team? t with
  | none => s
  | some x => match x.res with
    | .exited _ _ => s.putTeam t { x with res := .saved }
    | .active c _ _ _ =>
      let bins := (s.core c).binsOf t
      let s := (s.unpackTeam t).modTeam t (fun x => { x with
        res := .shadow c, body := x.body.takePartials, savedBins := bins, restoring := [], restoringTiles := [] })
      let s := { s with walks := s.walks.map (fun (w : OpenWalk) =>
        { w with users := w.users.filter (fun u => u.2.1 != t) }) }
      s.putCore c { (s.core c).emptyBins t with shadowBusy := some t }
    | _ => s

/-- Swap a unit out (R406). -/
def State.swapOut (s : State) (t : Nat) : State := ((s.clusterOf t).foldl State.leave s).tick

/-- Whether a lane's park makes its team leave after the swap threshold (R233, R285, R421). -/
def Park.isLong (p : Park) : Bool :=
  match p with
  | .waitc => true
  | .callh _ _ _ => true
  | .rsmp => true
  | _ => false

/-- The lanes of a team parked in WAITC, CALLH or RSMP: heat, lane, the cycle of its last issue, and whether it is
in WAITC. -/
def Team.longLanes (x : Team) : List ((Nat × Nat × Option Nat) × Bool) :=
  (x.body.heats.filter (fun e => !e.2.ended)).flatMap (fun e =>
    ((lanesOf e.2.live).filter (fun l => (e.2.lane l).park.isLong)).map (fun l =>
      ((e.1, l, (e.2.lane l).lastCycle), (e.2.lane l).park == .waitc)))

/-- Whether a team has a heat parked in WAITC, CALLH or RSMP. -/
def Team.longPark (x : Team) : Bool := !x.longLanes.isEmpty

/-- Whether a park of a team has outlasted the swap threshold and stands (R233, R386). -/
def Team.isOverdue (x : Team) : Bool := x.longLanes.any (fun e => x.overdue.contains e.1)

/-- Whether a team that left, or should leave, for such a park waits for it still: it returns when the park is over
and every WAITC of the team is satisfied (R386, R397). -/
def Team.waitsOut (x : Team) : Bool := !x.overdue.isEmpty && x.longLanes.any (fun e => e.2 || x.overdue.contains e.1)

/-- SWAP_THRESHOLD_EXPIRY (R233, R285, R386): the long parks of a team have outlasted its grid's threshold; it
leaves, now or when it can and the shadow bank is empty. -/
def execEvSwapThresholdExpiry (team : Nat) (s : State) : Out :=
  match s.team? team with
  | none => .next s
  | some x =>
    if !x.longPark ∨ x.checks.isSome then .next s
    else
      let s1 := s.modTeam team (fun x => { x with overdue := x.longLanes.map Prod.fst })
      if x.core?.isSome ∧ s.unitMayLeave [] team then .next (s1.swapOut team)
      else if x.overdue = x.longLanes.map Prod.fst then .next s
      else .next s1.tick

/-- The code of class 0x23 for what the journal engine reads with an uncorrectable error while it saves an image
(R473, R487): a register row, a scratchpad line, a tile. -/
def TeamBody.badSave (b : TeamBody) : Option Nat :=
  if b.heats.any (fun e => !e.2.badRows.isEmpty) then some 0
  else if !b.spadPoison.isEmpty then some 1
  else if !b.badTiles.isEmpty then some 2
  else none

/-- A team's image has been written to its save area: fabric loads that have not landed are cancelled (R171); an
uncorrectable error in it marks the team for rollback and queues class 0x23 (R487). -/
def State.saved (s : State) (c t : Nat) : State :=
  match s.team? t with
  | none => s
  | some x =>
    let s := s.modTeam t (fun x => { x with res := .saved })
    let s := { s with fabric := s.fabric.filter (fun q => q.team != t || q.engine || q.isStore) }
    match x.body.badSave with
    | none => s
    | some code =>
      (s.modTeam t (fun x => { x with action := max x.action 1, cause := 0x23 })).raiseOn c
        { cls := 0x23, asid := x.asid, isAsync := true, info := BitVec.ofNat 64 code, lap := x.lap }

/-- The resident teams of a core whose parks have outlasted the swap threshold. -/
def State.overdueOn (s : State) (c : Nat) : List Nat :=
  (s.residents c).filter (fun t => (s.team? t).any Team.isOverdue)

/-- SHADOW_WRITEBACK_DONE (R386, R406): the image in a shadow bank is in memory, and the bank is empty; a team that
waits for it, parked beyond its swap threshold, leaves. -/
def execEvShadowWritebackDone (core : Nat) (s : State) : Out :=
  match (s.core core).shadowBusy with
  | none => .next s
  | some t =>
    let s1 := ((s.putCore core { s.core core with shadowBusy := none }).saved core t).tick
    match (s1.overdueOn core).find? (s1.unitMayLeave []) with
    | some u => .next (s1.swapOut u)
    | none => .next s1

/-! ### In (R407) -/

/-- The heats of a team that have not ended, with their budgets. -/
def Team.liveHeats (x : Team) : List (Nat × Nat) :=
  (x.body.heats.filter (fun e => !e.2.ended)).map (fun e => (e.1, e.2.budget))

/-- Whether a team may be restored: swapped out, not waiting for a park or an action, and every local result has
landed but those that a replay has still to bring (R171, R386, R484). -/
def Team.restorable (x : Team) : Bool :=
  x.action == 0 && !x.waitsOut && (match x.res with
    | .saved => true
    | .shadow _ => true
    | _ => false) &&
    x.body.heats.all (fun e => e.2.slots.all (fun z => z.waiting != 0 || x.resultDue e.1 z.stamp))

/-- The share a core has for the scratchpad of a team that has exited (R314, R320). -/
def State.shareFit (s : State) (c : Nat) (r : Record) : Option Fit :=
  if s.fenced.contains (c / 4) || !s.poolSuits c r then none
  else ((upto r.m).find? (fun j => !(s.sharesUsed c).contains j)).map (fun j => { core := c, share := j })

/-- How core c fits a team of a unit that returns, its shadow bank empty or holding this team as of `s0` (R407). -/
def State.fitBack (s0 s : State) (r : Record) (x : Team) (t c : Nat) : Option Fit :=
  let bank := match x.res with
    | .shadow k => k == c && (s0.core c).shadowBusy == some t
    | _ => (s0.core c).shadowBusy.isNone
  if (bank || x.exited) && (s.core c).frozen.isNone && !(s.core c).stuck then
    (if x.exited then s.shareFit c r else s.fit c r x.liveHeats)
  else none

/-- The places of a unit's teams, given by ascending rank, within a quartet: distinct cores, the lowest
that qualify (R316); in deterministic mode each its own core. -/
def State.backFits (s0 s : State) (r : Record) : List (Nat × Team) → List Nat → Option (List Fit)
  | [], _ => some []
  | (t, x) :: rest, cores =>
    let allowed := match (if r.det then s.detCore r.n (x.teamId - x.rank) x.rank else none) with
      | some c => cores.filter (· == c)
      | none => if r.det then [] else cores
    match allowed.find? (fun c => (State.fitBack s0 s r x t c).isSome) with
    | none => none
    | some c => match State.fitBack s0 s r x t c, State.backFits s0 s r rest (cores.filter (· != c)) with
      | some f, some l => some (f :: l)
      | _, _ => none

/-- The scratchpad lines a restore brings back lazily: all but the hurdle areas (R330). -/
def Team.lazyLines (x : Team) : List Nat :=
  upto (hurdleFloor x.size x.rank / 128)

/-- A fabric request as it is issued again after a save. -/
def FabReq.again (q : FabReq) : FabReq := { q with id := q.id + 2 ^ 32, retry := false }

/-- A fabric load that a save cancelled waits for its parts once more (R171). -/
def Slot.again (z : Slot) : Slot :=
  if z.waiting = 0 ∨ z.reqs.isEmpty then z else { z with reqs := z.reqs.map FabReq.again, waiting := z.reqs.length }

/-- `Slot.again` for every result of a body. -/
def TeamBody.again (b : TeamBody) : TeamBody :=
  { b with heats := b.heats.map (fun (e : Nat × Heat) => (e.1, { e.2 with slots := e.2.slots.map Slot.again })) }

/-- The fabric loads of a team that a save cancelled are issued again, and what the cancelled reads noted in the log
is forgotten (R171). -/
def State.reissue (s : State) (t : Nat) : State :=
  match s.team? t with
  | none => s
  | some x =>
    let zs := x.body.heats.flatMap (fun e => (e.2.slots.filter (fun z =>
      decide (z.waiting ≠ 0) && !z.reqs.isEmpty)).map (fun z => (e.1, z)))
    let old (lap : Nat) (e : LogEntry) : Bool := e.kind == 0 && zs.any (fun z =>
      z.1 == e.heat && z.2.stride == e.stride && z.2.lap == lap)
    let s := s.modTeam t (fun x => { x.both TeamBody.again with
      log := x.log.filter (fun e => !old x.lap.toNat e) })
    let s := match x.checker with
      | some c => s.modTeam c (fun y => { y with feed := y.feed.filter (fun e => !old e.1 e.2) })
      | none => s
    { s with fabric := s.fabric ++ zs.flatMap (fun z => z.2.reqs.map FabReq.again) }

/-- A team enters a core again (R403, R407); its faults found meanwhile are raised there. -/
def State.enter (s : State) (r : Record) (t : Nat) (f : Fit) : State :=
  match s.team? t with
  | none => s
  | some x =>
    let lines := if x.res = .saved then x.lazyLines else []
    if x.exited then s.putTeam t { x with res := .exited f.core f.share, lastCore := f.core, restoring := lines, avoid := none }
    else
      let k := s.core f.core
      let s := s.putCore f.core { k with shadowBusy := if k.shadowBusy = some t then none else k.shadowBusy }
      let s := s.install t r f
      let s := s.modTeam t (fun x => { x with
        savedBins := [], avoid := none, overdue := [], late := []
        restoring := lines
        restoringTiles := if lines.isEmpty then [] else upto x.accCount })
      let s := if x.res = .saved then s.reissue t else s
      let s := x.savedBins.foldl (fun s b => s.placeThread f.core x.asid b) s
      x.late.foldl (fun s r => s.raiseAsync t r) (s.refill t)

/-- Whether a rolled-back unit must go elsewhere: it avoids this quartet and another one can take it
(R484). -/
def State.avoids (s0 s : State) (g : Grid) (unit : List (Nat × Team)) (x : Team) (first : Nat) : Bool :=
  x.avoid == some (first / 4) && !g.record.det &&
    (upto 32).any (fun q => q != first / 4 && (State.backFits s0 s g.record unit ((upto 4).map (4 * q + ·))).isSome)

/-- The unit of a team with its keys. -/
def State.unitOf (s : State) (x : Team) : List (Nat × Team) :=
  x.cluster.filterMap (fun u => (s.team? u).map (fun y => (u, y)))

/-- Restore a unit onto cores of a quartet, `first` the core of a single team; the shadow banks as of `s0`. -/
def State.swapBackVia (s0 s : State) (t first : Nat) : Option State :=
  match s.team? t with
  | none => none
  | some x => match mfind s.grids x.grid with
    | none => none
    | some g =>
      let unit := s.unitOf x
      let cores := if x.csize = 1 then [first] else (upto 4).map (4 * (first / 4) + ·)
      if !unit.all (fun e => e.2.restorable) || State.avoids s0 s g unit x first then none
      else match State.backFits s0 s g.record unit cores with
        | none => none
        | some fs =>
          let out := s.contextOut x.asid
          let s := (upto unit.length).foldl (fun s i =>
            s.enter g.record (unit.getD i (0, {})).1 (fs.getD i {})) s
          some (if out then s.restoreStreams x.asid else s).tick

/-- Restore a unit into free room. -/
def State.swapBack (s : State) (t first : Nat) : Option State := State.swapBackVia s s t first

/-- Restore a unit while another leaves, the two exchanging places (R406). -/
def State.exchange (s : State) (t first v : Nat) : Option State :=
  if s.unitMayLeave (s.clusterOf t) v then State.swapBackVia s ((s.clusterOf v).foldl State.leave s) t first
  else none

/-! ### Who makes room (R397, R398) -/

/-- The lowest unfinished TEAMID of a grid: every one below it has finished. -/
def Grid.lowest (g : Grid) : Nat := ((upto (g.finished.length + 1)).find? (fun t => !g.finished.contains t)).getD 0

/-- Priority of a grid (R392). -/
def Grid.priority (g : Grid) : Nat := g.record.queue / 8

/-- Whether a unit holds its grid's lowest unfinished team (R397). -/
def State.holdsLowest (s : State) (g : Grid) (x : Team) : Bool :=
  x.cluster.any (fun u => match s.team? u with
    | some y => y.teamId == g.lowest
    | none => false)

/-- Whether nothing but a management request moves a team: halted (R282), on a core that stays frozen (R474); or it
is a checker, which gives way otherwise. -/
def State.fixed (s : State) (x : Team) : Bool :=
  x.halted || x.checks.isSome || (match x.core? with
    | some c => (s.core c).stuck
    | none => false)

/-- The teams a grid of this priority may pre-empt (R397, R398): active teams of lower priority, never a
grid's lowest unfinished team. -/
def State.victims (s : State) (p : Nat) : List (Nat × Team × Grid) :=
  s.teams.filterMap (fun e => match mfind s.grids e.2.grid with
    | none => none
    | some g =>
      if g.priority < p ∧ e.2.core?.isSome ∧ !s.holdsLowest g e.2 ∧ !(s.unitOf e.2).any (fun u => s.fixed u.2) then
        some (e.1, e.2, g)
      else none)

/-- The victim (R398): lowest priority, then the grid accepted last, then the highest TEAMID. -/
def State.victim (s : State) (p : Nat) : Option Nat :=
  ((s.victims p).foldl (fun (b : Option (Nat × Team × Grid)) v => match b with
    | none => some v
    | some w =>
      if v.2.2.priority < w.2.2.priority ∨
          (v.2.2.priority = w.2.2.priority ∧ (w.2.2.accepted < v.2.2.accepted ∨
            (w.2.2.accepted = v.2.2.accepted ∧ w.2.1.teamId < v.2.1.teamId))) then some v else b) none).map (·.1)

/-- A checker that holds room, which gives way before any team does (assumption log entry 75). -/
def State.placedCheck (s : State) : Option Nat :=
  (s.teams.find? (fun e => e.2.checks.isSome && e.2.core?.isSome)).map Prod.fst

/-- Whether a unit's logical quartet has the turn, if its grid is deterministic (R411). -/
def State.hasTurn (s : State) (g : Grid) (teamId : Nat) : Bool :=
  !g.record.det || (s.detCore g.record.n teamId 0).isSome

/-- A swapped-out unit returns to a core's quartet: into free room, in exchange for a victim of lower priority, or
after the victim has left (R397, R398, R406, R407); none when nothing can be done now. -/
def State.swapIn (s : State) (t first : Nat) : Option State :=
  match s.swapBack t first with
  | some s1 => some s1
  | none => match s.team? t with
    | none => none
    | some x => match mfind s.grids x.grid with
      | none => none
      | some g =>
        if !(s.unitOf x).all (fun e => e.2.restorable) || !s.hasTurn g (x.teamId - x.rank) then none
        else match s.placedCheck, s.victim g.priority with
          | some c, _ => some (s.endCheck c).tick
          | none, none => none
          | none, some v => match s.exchange t first v with
            | some s1 => some s1
            | none => if s.unitMayLeave [] v then some (s.swapOut v) else none

/-- SWAP_IN (R386, R397, R407, R408): a swapped-out unit returns. -/
def execEvSwapIn (team core : Nat) (s : State) : Out :=
  match s.swapIn team core with
  | some s' => .next s'
  | none => .next s

/-! ### The deterministic time slice (R411) -/

/-- Deterministic units resident on a quartet whose logical quartet does not have the turn. -/
def State.offTurn (s : State) (p : Nat) : List Nat :=
  (s.teams.filter (fun e => match e.2.core?, mfind s.grids e.2.grid with
    | some c, some g => c / 4 == p && g.record.det && e.2.logicalCore / 4 != s.turnOf p && e.2.checks.isNone
    | _, _ => false)).map Prod.fst

/-- The logical quartet after the one that has the turn, among those the table puts on a quartet. -/
def State.nextTurn (s : State) (p : Nat) : Nat :=
  let mapped := (upto 32).filter (fun q => s.physQuartet q == p)
  match mapped.find? (fun q => decide (s.turnOf p < q)) with
  | some q => q
  | none => mapped.headD 0

/-- DET_TIME_SLICE (R411): on a physical quartet that several logical ones share, a unit out of turn is
swapped out; once none is left the turn passes to the next. -/
def execEvDetTimeSlice (quartet : Nat) (s : State) : Out :=
  match s.offTurn quartet with
  | t :: _ => if s.unitMayLeave [] t then .next (s.swapOut t) else .next s
  | [] =>
    if s.nextTurn quartet = s.turnOf quartet then .next s
    else .next { s with detTurn := mput s.detTurn quartet (s.nextTurn quartet) }.tick

end Sys2Proof.Machine
end

