-- ==== Sys2Proof/Machine/Starter.lean ====
section
/-! DEFINITION. The starter: grid dependences, placement, team start and exit, grid completion, children's
records (R62, R211, R230, R231, R248, R249, R311–R318, R384, R385, R389, R392–R399, R412, R510). -/

namespace Sys2Proof.Machine

/-! ### Grids -/

/-- A grid leaves its queue. -/
def State.dequeue (s : State) (gid q : Nat) : State :=
  { s with gridQueues := mset [] s.gridQueues q ((mget [] s.gridQueues q).filter (· != gid)) }

/-- GRID_DEPENDENCE_SATISFIED (R393): the counter of a queue's head grid has reached its value; a head
whose counter can no longer be read goes with status 3. -/
def execEvGridDependenceSatisfied (queue : Nat) (s : State) : Out :=
  let s1 := s.dropUnreadable
  match (mget [] s1.gridQueues queue).head? with
  | none => .next s1
  | some gid => match mfind s1.grids gid with
    | none => .next s1
    | some g =>
      if g.waitAddr ≠ 0 ∧ (g.met || s1.gridMet g) then
        .next (s1.modGrid gid (fun g => { g with waitAddr := 0 })).tick
      else .next s1

/-- LAUNCH_RECORD_TAKE (R231, R389, R399): the starter takes the first record of a team's pending order: a
failing check delivers 0xFFFF_FFFF, a full grid queue leaves it, else a grid of the parent's context is
created and its GRIDID delivered. -/
def execEvLaunchRecordTake (team : Nat) (s : State) : Out :=
  match s.team? team with
  | none => .next s
  | some x => match x.launches with
    | [] => .next s
    | p :: t =>
      let r := parseRecord p.record
      let s1 := s.modTeam team (fun x => { x with launches := t })
      if r.code ≠ 0 then .next (s1.deliver team p.heat p.slot p.lane 0xFFFFFFFF).tick
      else if s.queueFull r.queue then .next s
      else
        let s2 := s1.createGrid r x.asid none 0 0
        .next (s2.deliver team p.heat p.slot p.lane s2.lastGrid.toNat).tick

/-! ### A fresh team (R62, R214, R224, R249, R412) -/

/-- Signed 16-bit offset from the kernel entry in words, as an address. -/
def Record.entryAt (r : Record) (off : Nat) : Addr :=
  BitVec.ofNat 72 r.entry + 4#72 * sext 72 (BitVec.ofNat 16 off)

/-- Entry of a role. -/
def Record.roleEntry (r : Record) (role : Nat) : Addr :=
  match role with
  | 0 => r.entryAt r.ecpy
  | 1 => r.entryAt r.ecmp
  | _ => r.entryAt r.eepi

/-- LINEAGE of a thread placed at launch (R58, R412). -/
def Record.lineage (r : Record) (teamId h l : Nat) : W64 :=
  BitVec.ofNat 64 (if r.pop then 32 * r.heats * teamId + 32 * h + l else teamId * 512 + h * 32 + l)

/-- A heat at team start. -/
def Record.freshHeat (r : Record) (teamId h role stamp : Nat) : Heat :=
  { role := role, budget := r.budgetOf role
    lanes := (upto 32).map (fun l => (l, {
      live := true, hdr := r.roleEntry role, lineage := r.lineage teamId h l, member := r.pop
      clauseStamp := stamp }))
    s := (upto 8).foldl (fun m i => mset 0#64 m i (r.args.getD i 0#64)) []
    hmem := [(0, { mode := .sw })] }

/-- The sequencer at team start (R248, R249). -/
def Record.freshSeq (r : Record) (stamp : Nat) : Seq :=
  { running := r.ment != 0, hdr := r.entryAt r.ment, clauseStamp := stamp
    m := (upto 8).foldl (fun m i => mset 0#64 m i (r.args.getD i 0#64)) [] }

/-- The scratchpad at team start: zero but for h0, which every heat has joined (R214, R224; assumption log
entry 3). -/
def Record.freshSpad (r : Record) : FMap Byte :=
  let w : HWord := { sig := BitVec.ofNat 16 r.heats, wait := BitVec.ofNat 16 r.heats }
  writeBytes [] (r.granules * 65536 - 4096) (toBytes 16 w.toNat)

/-- A team of a grid before it is installed. -/
def freshTeam (gid : Nat) (g : Grid) (teamId rank : Nat) (cluster : List Nat) (stamp : Nat) : Team :=
  let r := g.record
  { grid := gid, asid := g.asid, teamId := teamId, csize := r.n, rank := rank, cluster := cluster
    tdbase := BitVec.ofNat 64 (r.tdaddr / 256), tdcnt := BitVec.ofNat 64 r.tdcnt
    size := r.granules * 65536, commitShare := (r.poolcb - r.poolsb) / r.m * 65536, accCount := r.acct
    body := {
      heats := r.layout.map (fun e => (e.1, r.freshHeat teamId e.1 e.2 stamp))
      seq := r.freshSeq stamp, spad := r.freshSpad } }

/-! ### The equality check (R510) -/

/-- Whether a unit is sampled: its context checks equality and its first team's draw is below 2^54. -/
def State.sampleUnit (s : State) (g : Grid) (teamId : Nat) : Bool :=
  (match s.ctx? g.asid with
    | some c => c.eqchk
    | none => false) &&
  decide ((draw g.record.seed 0xFFFFFFFFFFFFFFFF#64 (BitVec.ofNat 64 teamId)).toNat < 2 ^ 54)

/-- Sample a placed unit (R510): copies of its teams, with the grid as it was launched, which a core has still to
take. -/
def State.sample (s : State) (gid : Nat) (g : Grid) (teamId : Nat) (ts : List Nat) : State :=
  if !s.sampleUnit g teamId then s
  else
    let n := g.record.n
    let keys := (upto n).map (s.nextTeam + ·)
    (upto n).foldl (fun s k =>
      let c := keys.getD k 0
      let p := ts.getD k 0
      (s.modTeam p (fun x => { x with checker := some c, sampled := true })).putTeam c
        { freshTeam gid g (teamId + k) k keys s.stamp with
          checks := some p, launched := some g, sampled := true }) { s with nextTeam := s.nextTeam + n }

/-- The cores for a copy of a unit that runs on a quartet: on another quartet, of the other die if it can (R510). -/
def State.chooseCheck (s : State) (r : Record) (quartet : Nat) : Option (List Fit) :=
  let f := fun c => s.fit c r r.freshHeats
  let d := 1 - quartet / 16
  match s.inDie d r.n [quartet] f with
  | some x => some x
  | none => s.inDie (1 - d) r.n [quartet] f

/-- A copy that no core has taken yet starts where there is room for it now (R510). -/
def State.placeCheck (s : State) (t : Nat) : Option State :=
  match s.team? t with
  | none => none
  | some x => match x.launched, (x.checks.bind s.team?).bind Team.core? with
    | some g, some c => (s.chooseCheck g.record (c / 4)).map (fun fs =>
        ((upto x.cluster.length).foldl (fun (s : State) k =>
          s.install (x.cluster.getD k 0) g.record (fs.getD k {})) s).tick)
    | _, _ => none

/-- Place one copy, if a core can take one. -/
def State.placeChecks (s : State) : State :=
  (((s.teams.filter (fun e => e.2.checks.isSome && e.2.rank == 0 && e.2.res == .unplaced && !e.2.exited)).map
    Prod.fst).findSome? s.placeCheck).getD s

/-! ### Placement (R394–R398) -/

/-- Keys of the teams of a grid. -/
def State.gridTeams (s : State) (gid : Nat) : List Nat := (s.teams.filter (fun e => e.2.grid == gid)).map Prod.fst

/-- The heads that may dispatch, in the order of R394: by priority, then by queue number above the one
served last. -/
def State.dispatchOrder (s : State) : List (Nat × Nat) :=
  let ready := s.gridQueues.filterMap (fun e => match e.2.head? with
    | none => none
    | some gid => match mfind s.grids gid with
      | some g => if g.waitAddr = 0 then some (e.1, gid) else none
      | none => none)
  (upto 8).foldl (fun acc i =>
    let p := 7 - i
    let same := ready.filter (fun e => e.1 / 8 == p)
    acc ++ same.filter (fun e => decide (s.lastQueue < e.1)) ++ same.filter (fun e => decide (e.1 ≤ s.lastQueue))) []

/-- Whether a context has places for n more teams (R528), and is not being removed. -/
def State.hasPlaces (s : State) (asid n : Nat) : Bool :=
  match s.ctx? asid with
  | none => false
  | some c => !c.removing &&
      decide ((s.teams.filter (fun e => e.2.asid == asid && !e.2.exited && e.2.checks.isNone)).length + n ≤ c.places)

/-- Whether the values in a core's pool registers break a limit of R59 on an empty core (R60). -/
def State.poolBroken (s : State) (c : Nat) : Bool :=
  let k := s.core c
  !s.coreBusy c && !poolOk k.poolrb.toNat k.poolsb.toNat k.poolcb.toNat

/-- The pool-configuration error (R60, R389): the core keeps its previous carve, the grid goes, and a
frame-launched one is told code 11. -/
def State.poolError (s : State) (gid : Nat) (g : Grid) (c : Nat) : State :=
  let k := s.core c
  let s := s.putCore c { k with
    poolrb := BitVec.ofNat 64 k.carve.1, poolsb := BitVec.ofNat 64 k.carve.2.1, poolcb := BitVec.ofNat 64 k.carve.2.2 }
  let s := ({ s with grids := mdel s.grids gid }.dequeue gid g.record.queue).dropTeams (s.gridTeams gid)
  match g.tag with
  | some t => (s.sendFrame 2 t (toBytes 4 t.toNat ++ toBytes 4 gid ++ toBytes 4 11)).tick
  | none => s.tick

/-- Place the next unit of a grid on chosen cores. -/
def State.placeUnit (s : State) (q gid : Nat) (g : Grid) (fs : List Fit) : State :=
  let keys := (upto g.record.n).map (s.nextTeam + ·)
  let s := { s with nextTeam := s.nextTeam + g.record.n, lastQueue := q }
  let s := (upto g.record.n).foldl (fun (s : State) k =>
    (s.putTeam (keys.getD k 0) (freshTeam gid g (g.nextTeam + k) k keys s.stamp)).install (keys.getD k 0) g.record
      (fs.getD k {})) s
  let s := s.sample gid g g.nextTeam keys
  let next := g.nextTeam + g.record.n
  let s := s.modGrid gid (fun g => { g with nextTeam := next })
  (if g.record.teams ≤ next then s.dequeue gid q else s).tick

/-- Try the heads in order: place a unit, or free room for it: the checks of the device give way, then the victim of
R398 leaves as soon as it can. A head that must wait lets the next one go. -/
def State.dispatch (s : State) : List (Nat × Nat) → State
  | [] => s
  | (q, gid) :: t => match mfind s.grids gid with
    | none => s.dispatch t
    | some g =>
      if !s.hasPlaces g.asid g.record.n then s.dispatch t
      else match s.chooseUnit g g.nextTeam [] (fun c => s.fit c g.record g.record.freshHeats) with
        | some fs => match fs.find? (fun f => s.poolBroken f.core) with
          | some f => s.poolError gid g f.core
          | none => s.placeUnit q gid g fs
        | none =>
          if !s.hasTurn g g.nextTeam then s.dispatch t
          else match s.placedCheck, s.victim g.priority with
            | some c, _ => (s.endCheck c).tick
            | none, some v => if s.unitMayLeave [] v then s.swapOut v else s.dispatch t
            | none, none => s.dispatch t

/-- A unit returns to the first core that can take it, or a victim of lower priority makes room (R397). -/
def State.recallUnit (s : State) (t : Nat) : Option State :=
  match (upto Config.cores).findSome? (s.swapBack t) with
  | some s1 => some s1
  | none => s.swapIn t (((((s.team? t).bind (fun x => mfind s.grids x.grid)).bind (fun g =>
      s.victim g.priority)).bind s.team?).bind Team.core? |>.getD 0)

/-- The swapped-out teams that are their grid's lowest unfinished one, by priority of their grids (R397). -/
def State.lowestOut (s : State) : List Nat :=
  let out := s.grids.filterMap (fun e =>
    (s.teams.find? (fun x => x.2.grid == e.1 && x.2.checks.isNone && x.2.teamId == e.2.lowest && !x.2.exited &&
      (match x.2.res with
        | .saved => true
        | .shadow _ => true
        | _ => false))).map (fun x => (e.2.priority, x.1)))
  (upto 8).flatMap (fun i => (out.filter (fun e => e.1 + i == 7)).map Prod.snd)

/-- TEAM_PLACEMENT (R394–R398, R510): the starter brings a grid's lowest unfinished team back, places one unit, or
swaps a victim out to make room; with nothing else to do it places a copy that checks a unit. -/
def execEvTeamPlacement (s : State) : Out :=
  let s1 := s.dropUnreadable
  match s1.lowestOut.findSome? s1.recallUnit with
  | some s2 => .next s2
  | none =>
    let s2 := s1.dispatch s1.dispatchOrder
    .next (if s2.stamp = s1.stamp then s2.placeChecks else s2)

/-- UNIT_START (R313, R343, R391, R481): the units of a placed team and its cluster begin: the cores'
descriptor caches empty, their context's TDBASE and TDCNT are the launch record's (R56), and the lap-start image is
taken. -/
def execEvUnitStart (team : Nat) (s : State) : Out :=
  match s.team? team with
  | none => .next s
  | some x =>
    if x.started ∨ x.core? = none then .next s
    else .next (x.cluster.foldl (fun s u => match s.team? u with
      | none => s
      | some y =>
        let s := (s.putTeam u { y with started := true, lapBody := y.body }).modCtx y.asid (fun c =>
          { c with tdbase := y.tdbase, tdcnt := y.tdcnt })
        match y.core? with
        | none => s
        | some c => s.putCore c { s.core c with descs := [] }) s).tick

/-! ### Completion of a grid (R385, R390, R546) -/

/-- Where a DONE add goes: none when it must wait, an error, or the physical address. -/
inductive DoneAdd where
  | wait
  | fail
  | at (pa : Nat)
  deriving DecidableEq, Repr

/-- The checks of a DONE add (R385). -/
def State.doneAdd (s : State) (g : Grid) : DoneAdd :=
  let a := g.record.done
  match s.checkMem s.bindings { asid := g.asid } (BitVec.ofNat 72 a) 8 .write true with
  | .held _ => .wait
  | .bad _ => .fail
  | .ok (.mem pa _) _ => if s.rangeWaits pa 8 then .wait else if s.bytesBad pa 8 then .fail else .at pa
  | .ok _ _ => .fail

/-- A complete grid reports and is forgotten; its context's acknowledgements go out (R242, R390). -/
def State.endGrid (s : State) (gid : Nat) (g : Grid) (status : Nat) : State :=
  ({ s with grids := mdel s.grids gid }.gridComplete gid g (if g.status ≠ 0 then g.status else status)).sendAcks g.asid

/-- Complete a grid whose teams have all finished (R385): no add after a kill (R486). -/
def State.completeGrid (s : State) (gid : Nat) : State :=
  match mfind s.grids gid with
  | none => s
  | some g =>
    if g.finished.length < g.record.teams then s
    else if g.record.done = 0 ∨ g.status ≠ 0 then s.endGrid gid g 0
    else match s.doneAdd g with
      | .at pa =>
        (s.perform (pairsAt pa (toBytes 8 (readNat s.mem pa 8 + 1)))).endGrid gid g 0
      | _ =>
        ((s.noteTranslate g.asid g.record.done).blackBoxAdd { src := 130, kind := 10, asid := g.asid, a := BitVec.ofNat 64 gid, b := BitVec.ofNat 64 g.record.done }).endGrid gid g 4

/-- Whether completing this team's grid must wait: its DONE word is being migrated or is waited for. -/
def State.doneWaits (s : State) (x : Team) : Bool :=
  match mfind s.grids x.grid with
  | none => false
  | some g => g.finished.length + 1 == g.record.teams && g.record.done != 0 && g.status == 0 && s.doneAdd g == .wait

/-! ### Team exit (R211, R314, R318) -/

/-- Whether a team has threads in bins or in the spill area (R402). -/
def State.hasThreads (s : State) (t : Nat) (x : Team) : Bool :=
  !(s.binThreads t).isEmpty || !x.savedBins.isEmpty

/-- Whether a team has relay operations to complete (R211). -/
def State.relayOpen (s : State) (t : Nat) (x : Team) : Bool :=
  match s.ctx? x.asid with
  | none => false
  | some c => c.streams.any (fun e => e.2.ops.any (fun o => o.team == t))

/-- Whether a team is done (R211): heats ended, stream ended, nothing outstanding or undelivered. -/
def State.teamDone (s : State) (t : Nat) (x : Team) : Bool :=
  x.started && !x.exited && !x.body.seq.running && x.body.seq.ops.isEmpty && x.body.seq.arrivals.isEmpty &&
    x.body.heats.all (fun e => e.2.ended && e.2.slots.isEmpty && e.2.acks.isEmpty && e.2.copies.isEmpty &&
      e.2.arrivals.isEmpty && (e.2.queue 0).isEmpty && (headSeq e.2.gatherList).isEmpty && (e.2.queue 4).isEmpty) &&
    x.launches.isEmpty && !s.engines.any (fun c => c.team == t) && !s.colls.any (fun c => c.accepted && c.team == t) &&
    !s.relayOpen t x && !s.hasThreads t x

/-- The pages of an exiting team are free again; a cluster's with its last team (R356). -/
def State.unbindTeam (s : State) (t : Nat) : State :=
  { s with bindings := s.bindings.filter (fun b => b.cluster || b.owner != t) }

/-- The sequencer leaves every cluster hurdle with its team (R318). -/
def State.dropSeq (s : State) (t : Nat) : State :=
  match s.team? t with
  | none => s
  | some x => (x.body.seq.hmem.map Prod.fst).foldl (fun s k =>
      if 256 ≤ k then s.dropUnit t 255 { cluster := true, h := k - 256 } else s) s

/-- Every team of a cluster has exited or been killed: all its carves are freed (R314). -/
def State.freeCluster (s : State) (cluster : List Nat) : State :=
  if cluster.all (fun u => match s.team? u with
      | some y => y.exited
      | none => true) then
    { s with
      teams := s.teams.filter (fun e => !cluster.contains e.1)
      bindings := unbind s.bindings cluster }
  else s

/-- A checker is done (R511): its core is free when its whole unit is; what it has still to compare stays. -/
def State.finishCheck (s : State) (t : Nat) : State :=
  match s.team? t with
  | none => s
  | some x =>
    let s := s.modTeam t (fun x => { x with
      exited := true, res := match x.res with
        | .active c j _ _ => .exited c j
        | r => r })
    if x.cluster.all (fun u => (s.team? u).all (fun y => y.exited)) then
      (x.cluster.foldl (fun s u => s.modTeam u (fun y => { y with res := .unplaced })) s).tick
    else s.tick

/-- A team leaves its core for good; its grid counts it (R211, R314). -/
def State.finishTeam (s : State) (t : Nat) : State :=
  match s.team? t with
  | none => s
  | some x =>
    let s := (s.modTeam t (fun x => { x with
      exited := true, res := match x.res with
        | .active c j _ _ => .exited c j
        | r => r })).unbindTeam t
    let s := s.modGrid x.grid (fun g => { g with finished := g.finished ++ [x.teamId] })
    let s := s.modCtx x.asid (fun c => { c with relayArea := c.relayArea.filter (fun e => e.1 != t) })
    ((s.freeCluster x.cluster).completeGrid x.grid).tick

/-- TEAM_EXIT (R211, R314, R318, R385, R478): a team that is done takes its last commit point, leaves the
hurdles of its cluster and gives up its core; a shared scratchpad stays until the cluster's last team
exits; a complete grid adds to DONE and reports. -/
def execEvTeamExit (team : Nat) (s : State) : Out :=
  match s.team? team with
  | none => .next s
  | some x =>
    if !s.runs team || !s.teamDone team x || s.commitHeld team then .next s
    else if x.checks.isSome then .next ((((s.flush team).newLap team).dropSeq team).finishCheck team)
    else
      let s1 := s.flush team
      if s1.doneWaits x then .next s
      else .next ((((s1.newLap team).dropSeq team).finishTeam team))

end Sys2Proof.Machine
end

