-- ==== Sys2Proof/Machine/Rollback.lean ====
section
/-! DEFINITION. Rollback, relaunch and kill of teams (R422, R483–R486), and the return to a stop image
(R505). -/

namespace Sys2Proof.Machine

/-! ### When (R483) -/

/-- Stamps of the pending results and acknowledgements a heat's lap-start image holds. -/
def oldStamps (b : TeamBody) (heat : Nat) : List Nat :=
  match mfind b.heats heat with
  | none => []
  | some h => h.slots.map (·.stamp) ++ h.acks.map (·.stamp)

/-- Whether every local access and engine command of the lap has completed (R483 step 1). -/
def State.lapQuiet (s : State) (t : Nat) (x : Team) : Bool :=
  x.enginesIdle && !s.engines.any (fun c => c.team == t && c.lap == x.lap.toNat) &&
    x.body.heats.all (fun e =>
      e.2.slots.all (fun z => z.waiting != 0 || (oldStamps x.lapBody e.1).contains z.stamp) &&
      e.2.acks.all (fun a => (oldStamps x.lapBody e.1).contains a.stamp))

/-- Whether the action answers a fault of classes 0x20, 0x22 or 0x23. -/
def Team.badData (x : Team) : Bool := x.cause == 0x20 || x.cause == 0x22 || x.cause == 0x23

/-- Whether the journal has every row, line and tile that holds an uncorrectable error (R485). -/
def TeamBody.restorable (b : TeamBody) : Bool :=
  b.heats.all (fun e => e.2.badRows.all e.2.journalled.contains) && b.spadPoison.all b.lineJournal.contains &&
    b.badTiles.all b.tileJournal.contains

/-- Whether a rollback of a team is possible (R485). -/
def Team.canRollBack (x : Team) : Bool :=
  x.body.restorable && !x.badJournal && !x.badLog && !x.badImage && decide (x.relaunches < 2)

/-! ### How (R483) -/

/-- The journal of TEAM pages is applied: their old bytes, and the poison of units written whole since; ordered
sequences there begin again. -/
def State.undoMem (s : State) (x : Team) : State :=
  { s with
    mem := x.undo.foldl (fun m (e : Nat × Byte) => writeByte m e.1 e.2) s.mem
    poison := s.poison ++ x.undoPoison.filter (fun u => !s.poison.contains u)
    ordRecs := s.ordRecs.filter (fun e => !x.undo.any (fun u => decide (e.1 ≤ u.1 ∧ u.1 < e.1 + 4))) }

/-- A lane of an image that is put back: it meets STALL at once (R18), and one parked at RSMP whose issue is
withdrawn issues it again (R422). -/
def Lane.putBack (withdrawn : Bool) (x : Lane) : Lane :=
  { x with lastCycle := none, park := if withdrawn ∧ x.park = .rsmp then .none else x.park }

/-- An image as it is put back: no gathering of BRX.pack (R310), and the engine to be granted anew (R273). -/
def TeamBody.putBack (withdrawn : Bool) (b : TeamBody) : TeamBody :=
  { b with
    heats := b.heats.map (fun (e : Nat × Heat) =>
      let h := e.2.unpack
      (e.1, { h with lanes := h.lanes.map (fun (l : Nat × Lane) => (l.1, l.2.putBack withdrawn)) }))
    seq := { b.seq.ungrant with lastCycle := none } }

/-- A team's issues leave its grid's gathering (R422). -/
def State.withdraw (s : State) (t grid : Nat) : State :=
  s.modGrid grid (fun g => { g with gathering := g.gathering.filter (fun r => r.team != t) })

/-- Forget a team's threads in bins and in the spill area. -/
def State.dropThreads (s : State) (t asid : Nat) : State :=
  let s := { s with cores := s.cores.map (fun (e : Nat × Core) => (e.1, e.2.emptyBins t)) }
  s.modCtx asid (fun c => { c with spill := c.spill.filter (fun b => b.team != t) })

/-- Fabric loads of the lap are forgotten with their results. -/
def State.dropLapLoads (s : State) (t : Nat) (x : Team) : State :=
  { s with fabric := s.fabric.filter (fun q =>
      q.team != t || q.engine || q.isStore || (oldStamps x.lapBody q.heat).contains q.stamp) }

/-- The threads of a team that stays on its core go back into bins. -/
def State.rebin (s : State) (t : Nat) : State :=
  match s.team? t with
  | none => s
  | some x => match x.core? with
    | none => s
    | some c => x.savedBins.foldl (fun s b => s.placeThread c x.asid b) (s.modTeam t (fun x => { x with savedBins := [] }))

/-- A heat's commands that no engine has accepted. -/
def Heat.queued (h : Heat) : List CopyRec :=
  h.copies.filter (fun r => (h.queue 0 ++ h.gatherList).any (fun e => e.id == r.id))

/-- The scratchpad lines that commands have still to write, each as often as there are writers (R328). -/
def State.dueLines (s : State) : List (Nat × Nat) :=
  s.engines.flatMap (·.lines) ++ s.teams.flatMap (fun e => e.2.body.heats.flatMap (fun h =>
    h.2.queued.flatMap (fun r => destLines r.dst)))

/-- The lines of a team that are absent for a writer, counted anew. -/
def State.recount (s : State) (t : Nat) : State :=
  let ls := (s.dueLines.filter (fun l => l.1 == t)).map Prod.snd
  s.modTeam t (fun x => { x with absent := ls.foldl (fun m l => mset 0 m l (mget 0 m l + 1)) [] })

/-- The body of a team is the lap-start image again, and what came to it in the lap from earlier laps is due again
(R483, R484). -/
def Team.toLapStart (x : Team) : Team :=
  { x with
    body := x.lapBody.putBack true, lapBody := x.lapBody.putBack true
    deferred := [], undo := [], undoPoison := [], recs := [], advances := 0, grant := none, overdue := []
    savedBins := x.lapBins }

/-- The checker of a team that is rolled back goes to the same lap start: one in the same lap is put back there,
and what was forwarded to it from the lap, which comes again, is dropped (R511). -/
def State.rollBackCheck (s : State) (c lap : Nat) : State :=
  match s.team? c with
  | none => s
  | some y =>
    let y := { y with
      feed := y.feed.filter (fun e => e.1 != lap), fed := mdel y.fed lap
      mismatch := y.mismatch.filter (· != lap) }
    if y.lap.toNat ≠ lap then s.putTeam c y
    else
      let s := (s.putTeam c { y.toLapStart with due := y.deliveries ++ y.due, deliveries := [], log := [] }).dropThreads c y.asid
      ({ s with engines := s.engines.filter (fun e => !(e.team == c && e.lap == lap)) }.recount c).rebin c

/-- Roll one team back to its lap start (R483), and its checker with it (R511). -/
def State.rollBack (s : State) (t : Nat) : State :=
  match s.team? t with
  | none => s
  | some x =>
    let s := (((s.undoMem x).dropLapLoads t x).dropThreads t x.asid).withdraw t x.grid
    let s := s.putTeam t { x.toLapStart with action := 0, replaying := true, due := x.deliveries }
    match x.checker with
    | some c => s.rollBackCheck c x.lap.toNat
    | none => s

/-- Relaunch a rolled-back team (R484): it leaves its core, to return elsewhere by R407. -/
def State.relaunch (s : State) (t : Nat) : State :=
  match s.team? t with
  | none => s
  | some x =>
    let bins := x.savedBins
    let s := (s.leave t).modTeam t (fun x => { x with relaunches := if x.badData then x.relaunches + 1 else x.relaunches, savedBins := bins })
    s

/-- Whether a team that must leave its core for a relaunch can do so. -/
def State.mayRelaunch (s : State) (t : Nat) : Bool :=
  match s.team? t with
  | none => true
  | some x => match x.core? with
    | none => true
    | some c => (s.core c).frozen.isNone && !(s.core c).stuck && (s.core c).shadowBusy.isNone

/-! ### Kill (R486) -/

/-- End a cluster's teams as fatal removal does, for them only; their grid reports status 2. -/
def State.killTeams (s : State) (cluster : List Nat) : State :=
  match s.team? (cluster.headD 0) with
  | none => s
  | some x =>
    let ids := cluster.filterMap (fun u => (s.team? u).map (·.teamId))
    let s := cluster.foldl (fun s u => (s.dropThreads u x.asid).withdraw u x.grid) s
    let s := s.modCtx x.asid (fun c => { c with relayArea := c.relayArea.filter (fun e => !cluster.contains e.1) })
    let s := { s with
      ordMsgs := s.ordMsgs.filter (fun m => !cluster.contains m.team)
      fabric := s.fabric.filter (fun q => q.engine || !cluster.contains q.team) }
    let s := s.dropTeams cluster
    let s := s.modGrid x.grid (fun g => { g with
      finished := g.finished ++ ids.filter (fun n => !g.finished.contains n), status := if g.status = 0 then 2 else g.status })
    s.completeGrid x.grid

/-! ### The stop image (R500, R505) -/

/-- A command of an engine from its beginning, but for what it has still to push (R505): done again it writes what it
wrote. -/
def EngCmd.restart (c : EngCmd) : EngCmd :=
  if !c.outs.isEmpty then c
  else { c with
    todo := sourceParts (c.opc == 4 || c.opc == 5) c.src, parts := [], waiting := (c.fabricOf c.src false).length
    buf := if c.opc = 4 then c.buf else none, bads := [], skips := [], refused := false
    owned := destSectors c.dst, lines := destLines c.dst }

/-- The engine commands of a team's lap are those that were in progress at the stop. -/
def State.restoreEngines (s : State) (t lap : Nat) (cs : List EngCmd) : State :=
  let cs := cs.map EngCmd.restart
  let fabric := s.fabric.filter (fun q => !(q.engine && q.team == t && cs.any (fun c => c.id == q.stamp)))
  { s with
    engines := s.engines.filter (fun e => !(e.team == t && e.lap == lap)) ++ cs
    fabric := fabric ++ cs.flatMap (fun c => if c.outs.isEmpty then c.fabricOf c.src false else []) }

/-- A team's issues to its grid's gathering are those of the stop image. -/
def State.rejoin (s : State) (t grid : Nat) (rs : List RsmpRec) : State :=
  (s.withdraw t grid).modGrid grid (fun g => { g with gathering := g.gathering ++ rs })

/-- A team as its stop image has it (R500, R505); what has come from earlier laps since the stop stands. -/
def Team.toStop (x : Team) (i : StopImage) (stamp : Nat) : Team :=
  let later := (x.deliveries.drop i.delivered).filter (fun d => d.own.isNone)
  { x with
    body := later.foldl (fun b d => b.take d.heat stamp d.what) (i.body.putBack false)
    deferred := i.deferred, log := i.log, undo := i.undo, undoPoison := i.undoPoison, advances := i.advances
    deliveries := x.deliveries.take i.delivered ++ later, due := i.due, replaying := i.replaying
    recs := i.recs, savedBins := i.bins, stopped := true, runTo := none, grant := none, overdue := [], action := 0 }

/-- Put a team back as its stop image has it: fabric loads that had not landed are issued again. -/
def State.restoreStop (s : State) (t : Nat) : State :=
  match s.team? t with
  | none => s
  | some x => match x.stopImage with
    | none => s
    | some i =>
      let s := ((s.undoMem x).dropThreads t x.asid).rejoin t x.grid i.gathering
      let s := { s with
        mem := i.bytes.foldl (fun m (e : Nat × Byte) => writeByte m e.1 e.2) s.mem
        fabric := s.fabric.filter (fun q => q.team != t || q.engine || q.isStore) }
      let s := (s.restoreEngines t x.lap.toNat i.engines).putTeam t (x.toStop i s.stamp)
      ((s.clusterOf t).foldl State.recount ((s.reissue t).rebin t)).retest

/-- A replay that cannot go on is abandoned (R505). -/
def State.replayLost (s : State) (t : Nat) : State :=
  match s.team? t with
  | none => s
  | some x =>
    let s := x.cluster.foldl State.restoreStop s
    (s.blackBoxAdd { src := x.core?.getD 0, kind := 9, asid := x.asid }).dbgReply x.dbgTag 3 []

/-! ### The event -/

/-- TEAM_ROLLBACK (R483–R486, R502, R505): a unit with an action due, once what it must wait for has
completed, is rolled back and relaunched, killed, or rolled back for a replay. -/
def execEvTeamRollback (team : Nat) (s : State) : Out :=
  match s.team? team with
  | none => .next s
  | some x =>
    let unit := x.cluster.filterMap (fun u => (s.team? u).map (fun y => (u, y)))
    let ok := unit.all (fun e => e.2.canRollBack)
    let data := x.badData
    if x.action = 0 ∨ !unit.all (fun e => s.lapQuiet e.1 e.2) then .next s
    else if x.stopImage.isSome && (x.action == 3 && !ok || x.replaying && x.action == 1 && (data || !ok)) then
      .next (s.replayLost team).tick
    else if x.action = 3 then
      .next (x.cluster.foldl (fun s u => (s.rollBack u).rebin u) s).tick
    else if x.action = 2 ∨ !ok then
      .next ((x.cluster.foldl State.rollBack s).killTeams x.cluster).tick
    else if x.cluster.all s.mayRelaunch then
      .next (x.cluster.foldl (fun s u => s.relaunch u) (x.cluster.foldl State.rollBack s)).tick
    else .next s

end Sys2Proof.Machine
end

