-- ==== Sys2Proof/Machine/Debug.lean ====
section
/-! DEFINITION. The debugger's requests (R476, R498–R508). -/

namespace Sys2Proof.Machine

noncomputable section

/-- A request about a team of a context with a debugger attached: the reply status is 1 otherwise; answers
follow as management event 6 (R499, R527). -/
def dbgFrame (s : State) (tag : W32) (team : Nat) (f : State → Team → Out) : Out :=
  mgmtFrame s (fun s => match s.team? team with
    | none => s.answer tag 1
    | some x => if s.attached x.asid then f s x else s.answer tag 1)

/-- The same of a stopped team: status 2 otherwise. -/
def dbgStopped (s : State) (tag : W32) (team : Nat) (f : State → Team → Out) : Out :=
  dbgFrame s tag team (fun s x => if x.stopped then f s x else s.answer tag 2)

/-- Change every team of a cluster. -/
def State.modCluster (s : State) (t : Nat) (f : Team → Team) : State :=
  (s.clusterOf t).foldl (fun s u => s.modTeam u f) s

/-- Accept a request. -/
def State.taken (s : State) (tag : W32) (team : Nat) : State :=
  (s.mgmtReply tag 0 []).modCluster team (fun x => { x with dbgTag := tag })

/-- DEBUGGER_ATTACH (R499): a debugger attaches to a context. -/
def execEvDebuggerAttach (tag : BitVec 32) (asid : Nat) (s : State) : Out :=
  mgmtFrame s (fun s => match s.ctx? asid with
    | none => s.answer tag 1
    | some _ => (s.modCtx asid (fun c => { c with attached := true })).answer tag 0)

/-- STOP (R499, R500): the team stops at once; STOPPED. -/
def execEvStop (tag : BitVec 32) (team : Nat) (s : State) : Out :=
  dbgFrame s tag team (fun s _ => .next (((s.taken tag team).stopTeam team).dbgReply tag 0 []).tick)

/-- RUN (R499, R506): a stopped team resumes; no answer. -/
def execEvRun (tag : BitVec 32) (team : Nat) (s : State) : Out :=
  dbgStopped s tag team (fun s _ => .next ((s.taken tag team).modCluster team (fun x =>
    { x with stopped := false, runTo := none, grant := none })).tick)

/-- The current boundary of a unit of a team: HEATID, 255 the sequencer; none if there is no such unit. -/
def Team.boundary (x : Team) (u : Nat) : Option Nat :=
  if u = 255 then some x.body.seq.count.toNat else (x.heat? u).map (fun h => h.stride.toNat)

/-- A cluster runs to a point of one of its teams; the other teams only keep their limits. -/
def State.aim (s : State) (team : Nat) (p : Point) : State :=
  (s.modCluster team (fun x => { x with stopped := false, grant := none, runTo := some { p with heat := 256 } })).modTeam team
    (fun x => { x with runTo := some p })

/-- RUNTO (R501, R502): a point at or beyond the boundary is reached by running, one before it by a rollback
and a replay; a point of an earlier lap is UNREACHABLE. -/
def execEvRunto (tag : BitVec 32) (team lap heat stride : Nat) (s : State) : Out :=
  dbgFrame s tag team (fun s x => match x.boundary heat with
    | none => s.answer tag 1
    | some now =>
      let p : Point := { lap := lap, heat := heat, stride := stride }
      let s := s.taken tag team
      if lap < x.lap.toNat then .next (s.dbgReply tag 2 []).tick
      else if x.lap.toNat < lap ∨ now ≤ stride then .next (s.aim team p).tick
      else .next (((s.stopTeam team).aim team p).setAction team 3 0).tick)

/-- RUNTO_POINT_REACHED (R501, R502): the named heat stands at the point: the whole team stops; STOPPED. -/
def execEvRuntoPointReached (team : Nat) (s : State) : Out :=
  match s.team? team with
  | none => .next s
  | some x => match x.runTo with
    | none => .next s
    | some p => match x.boundary p.heat with
      | none => .next s
      | some now =>
        if x.action = 0 ∧ p.lap = x.lap.toNat ∧ p.stride ≤ now then
          .next ((s.stopTeam team).dbgReply x.dbgTag 0 []).tick
        else .next s

/-- Whether a unit of a team can take a step: it exists, has not ended and has a lane, or the sequencer, that
may issue. -/
def Team.steps (x : Team) (u : Nat) : Option Bool :=
  if u = 255 then (if x.body.seq.running then some x.body.seq.park.again else none)
  else match x.heat? u with
    | some h => if h.ended then none else some h.choose.isSome
    | none => none

/-- STEP (R507): one issue of a stopped heat, or of the sequencer; a heat that stands parked is PARKED. -/
def execEvStep (tag : BitVec 32) (team heat : Nat) (s : State) : Out :=
  dbgStopped s tag team (fun s x => match x.steps heat with
    | none => s.answer tag 1
    | some false => .next ((s.taken tag team).dbgReply tag 4 []).tick
    | some true => .next ((s.taken tag team).modTeam team (fun x => { x with grant := some (heat, 0#8) })).tick)

/-- QSTEP (R508): one issue of the lanes of a heat in the chosen quads; NO SUBGROUP when no live lane stands
there. -/
def execEvQstep (tag : BitVec 32) (team heat : Nat) (quads : BitVec 8) (s : State) : Out :=
  dbgStopped s tag team (fun s x => match x.heat? heat with
    | none => s.answer tag 1
    | some h =>
      if h.ended then s.answer tag 1
      else if h.live &&& quadMask quads = 0#32 then .next ((s.taken tag team).dbgReply tag 5 []).tick
      else if (h.chooseQuads quads).isNone then .next ((s.taken tag team).dbgReply tag 4 []).tick
      else .next ((s.taken tag team).modTeam team (fun x => { x with grant := some (heat, quads) })).tick)

/-- The registers a debugger reads: positions, state and the X registers (R475, R476). -/
def dbgReads (n : Nat) : Bool := decide (0x1021 ≤ n ∧ n ≤ 0x1025) || decide (0x1100 ≤ n ∧ n ≤ 0x11DF) ||
  decide (0x11F0 ≤ n ∧ n ≤ 0x11FF)

/-- The registers a debugger writes. -/
def dbgWrites (n : Nat) : Bool := dbgReads n && n != 0x1023 && n != 0x1025

/-- What a selection of a debugger names in its team: HEATID in bits 15:8, lane in bits 20:16 (R475). -/
def dbgSel (team : Nat) (sel : W64) : Sel :=
  { team := team, heat := fld sel.toNat 8 8, lane := fld sel.toNat 16 5 }

/-- READ (R476, R499): a register of the selected state of a stopped team; the data. -/
def execEvRead (tag : BitVec 32) (team : Nat) (sel : BitVec 64) (reg : BitVec 16) (s : State) : Out :=
  dbgStopped s tag team (fun s _ =>
    if dbgReads reg.toNat then
      .next ((s.taken tag team).dbgReply tag 7 (toBytes 8 (s.readSel (dbgSel team sel) reg.toNat).toNat)).tick
    else s.answer tag 1)

/-- WRITE (R476, R499, R506): a register of the selected state of a stopped team; DONE. -/
def execEvWrite (tag : BitVec 32) (team : Nat) (sel : BitVec 64) (reg : BitVec 16) (value : BitVec 64) (s : State) :
    Out :=
  dbgStopped s tag team (fun s _ =>
    if dbgWrites reg.toNat then
      .next (((s.taken tag team).writeSel (dbgSel team sel) reg.toNat value).dbgReply tag 6 []).tick
    else s.answer tag 1)

/-- RETURN (R505): the stop image is restored; STOPPED. -/
def execEvReturn (tag : BitVec 32) (team : Nat) (s : State) : Out :=
  dbgFrame s tag team (fun s x =>
    if x.stopImage.isNone then s.answer tag 2
    else .next (((s.clusterOf team).foldl State.restoreStop (s.taken tag team)).dbgReply tag 0 []).tick)

end

end Sys2Proof.Machine
end

