-- ==== Sys2Proof/Machine/Observe.lean ====
section
/-! DEFINITION. What observes the machine and changes no result: the trace network and ring (R514–R519), the
equality check's comparison (R512), the timestamp (R61), the patrol scrub (R532, R533), and power, clocks
and ageing (R535–R538). -/

namespace Sys2Proof.Machine

/-! ### Trace (R514, R516–R518) -/

/-- The 64 bytes of a trace record. -/
def TraceRec.bytes (r : TraceRec) : List Byte :=
  toBytes 8 r.gtc.toNat ++ toBytes 2 r.src ++ toBytes 1 r.kind ++ toBytes 1 r.vfs ++ toBytes 4 r.teamId.toNat ++
    toBytes 4 r.gridId.toNat ++ toBytes 1 r.heatId ++ toBytes 1 0 ++ toBytes 2 r.code ++ toBytes 8 r.lap.toNat ++
    toBytes 8 r.stride.toNat ++ toBytes 8 r.a.toNat ++ toBytes 8 r.b.toNat ++ toBytes 8 0

/-- Whether the ring cannot take a record: the next one would reach the read pointer, or there is no ring. -/
def State.ringFull (s : State) : Bool := s.ringLen == 0 || (s.ringWrite + 64) % s.ringLen == s.ringRead

/-- The buffer of a source: a core, a pacer or the starter. -/
def State.traceBuf (s : State) (src : Nat) : List TraceRec :=
  if src < 128 then (s.core src).trace else mget [] s.devTrace src

/-- Replace the buffer of a source. -/
def State.setTraceBuf (s : State) (src : Nat) (l : List TraceRec) : State :=
  if src < 128 then s.putCore src { s.core src with trace := l }
  else { s with devTrace := mset [] s.devTrace src l }

/-- TRACE_DRAIN (R516, R517): the oldest record of a source enters the ring, unless the ring is full. -/
def execEvTraceDrain (src : Nat) (s : State) : Out :=
  match s.traceBuf src with
  | [] => .next s
  | r :: t =>
    let a := s.ringBase + s.ringWrite
    if s.ringFull ∨ s.rangeWaits a 64 then .next s
    else
      let s1 := (s.setTraceBuf src t).perform (pairsAt a r.bytes)
      .next { s1 with ringWrite := (s1.ringWrite + 64) % s1.ringLen }.tick

/-- Whether a scheduler samples in this cycle (R518, R519). -/
def State.sampleDue (s : State) (core : Nat) : Bool :=
  let k := s.core core
  (s.samplePeriod != 0 && k.cycles.toNat % 2 ^ s.samplePeriod == 0) || (k.capture != 0 && k.cycles.toNat % 256 == 0)

/-- The stall sample of a scheduler (R515, R518). -/
def State.stallRecord (s : State) (core sched : Nat) : TraceRec :=
  let c := s.charge core sched
  let base : TraceRec := { kind := 2, code := c.1 }
  match c.2 with
  | none => base
  | some (t, u, h) =>
    if c.1 = 1 then base
    else
      let l := h.lane (lowLane (h.choose.getD h.live))
      let blame := c.1 == 2 || c.1 == 3
      let x : Team := (s.team? t).getD {}
      { base with
        teamId := BitVec.ofNat 32 x.teamId, gridId := BitVec.ofNat 32 x.grid, heatId := u, lap := x.lap
        stride := h.stride, code := c.1 + 16 * l.idx + (if blame then 256 * h.blamedIdx else 0)
        a := l.hdr.setWidth 64, b := if blame then h.blamed.setWidth 64 else 0#64 }

/-- STALL_SAMPLE (R518, R519): a scheduler writes one sample of the heat charged in this cycle. -/
def execEvStallSample (core sched : Nat) (s : State) : Out :=
  let k := s.core core
  if 128 ≤ core ∨ 4 ≤ sched ∨ !s.traces 2 ∨ !s.sampleDue core ∨ k.sampled.contains sched then .next s
  else .next ((s.putCore core { k with sampled := sched :: k.sampled }).traceCore core (s.stallRecord core sched)).tick

/-! ### The equality check (R512) -/

/-- A mismatch between the digests that a checker and its primary formed for a lap goes to the control node, the
black box and the trace (R512, R515). -/
def State.reportMismatch (s : State) (x : Team) (lap : Nat) (theirs ours : W64 × W64) : State :=
  let s1 := s.mgmtEvent 3 (toBytes 4 x.grid ++ toBytes 4 x.teamId ++ toBytes 8 lap ++
    toBytes 8 theirs.1.toNat ++ toBytes 8 theirs.2.toNat ++ toBytes 8 ours.1.toNat ++ toBytes 8 ours.2.toNat)
  let s2 := s1.blackBoxAdd { src := 130, kind := 7, asid := x.asid, a := theirs.1, b := ours.1 }
  s2.traceDev 130 {
    kind := 7, teamId := BitVec.ofNat 32 x.teamId, gridId := BitVec.ofNat 32 x.grid, lap := BitVec.ofNat 64 lap
    a := theirs.1, b := ours.1 }

/-- Whether a checker has nothing more to compare: it has run to its end, and one side has no closed lap left. -/
def Team.compared (x : Team) : Bool := x.exited && (x.ours.isEmpty || x.theirs.isEmpty)

/-- A checker that has been compared to its end goes. -/
def State.dropCompared (s : State) (t : Nat) : State :=
  match s.team? t with
  | none => s
  | some x => if x.compared then { s with teams := s.teams.filter (fun e => e.1 != t) } else s

/-- EQUALITY_DIGEST_COMPARE (R512): a checker, whose digest of its oldest lap not yet compared is h1:h0, and its primary
have both closed that lap, and the starter compares their digests. A mismatch, or an address that differed in a
forwarded read, is reported, and nothing else happens. No other digest is compared. -/
def execEvEqualityDigestCompare (team : Nat) (h0 h1 : BitVec 64) (s : State) : Out :=
  match s.team? team with
  | none => .next s
  | some x =>
    if x.checks.isNone then .next s
    else match x.ours, x.theirs with
      | o :: os, p :: ps =>
        if o.2 ≠ (h0, h1) then .next s else
        let s1 := s.putTeam team { x with ours := os, theirs := ps, mismatch := x.mismatch.filter (· != o.1) }
        let s2 := if x.mismatch.contains o.1 ∨ o.2 ≠ p.2 then s1.reportMismatch x p.1 p.2 o.2 else s1
        .next (s2.dropCompared team).tick
      | _, _ => if x.compared then .next (s.dropCompared team).tick else .next s

/-! ### The timestamp (R61, R513) -/

/-- GTC_TICK (R61): GTC advances by one tick of 1 ns. -/
def execEvGtcTick (s : State) : Out := .next { s with gtc := s.gtc + 1#64 }.tick

/-! ### The patrol scrub (R530, R532, R533) -/

/-- Ticks of 24 hours. -/
def dayTicks : Nat := 86400 * 10 ^ 9

/-- A unit is corrected: with 16 units of a frame corrected within 24 hours the frame becomes a candidate. -/
def State.noteCorrection (s : State) (unit : Nat) : State :=
  let recent := s.corrections.filter (fun c => c.1 != unit && decide (s.gtc.toNat - c.2.toNat < dayTicks))
  let all := recent ++ [(unit, s.gtc)]
  let s := { s with corrections := all }
  if 16 ≤ (all.filter (fun c => c.1 / 1024 == unit / 1024)).length then s.candidate (unit / 1024) else s

/-- PATROL_SCRUB (R530, R532, R533): a unit is read: outcome 0 correct, 1 corrected and written back, 2 found
uncorrectable, which poisons it and makes its frame a candidate. -/
def execEvPatrolScrub (unit outcome : Nat) (s : State) : Out :=
  if !inMemory (64 * unit) 64 ∨ 3 ≤ outcome then .next s
  else if s.unitBad unit ∨ outcome = 2 then
    .next ({ s with poison := if s.poison.contains unit then s.poison else s.poison ++ [unit] }.candidate (unit / 1024)).tick
  else if outcome = 1 then .next (s.noteCorrection unit).tick
  else .next s.tick

/-! ### Power and clocks (R535–R537) -/

/-- The state of a die. -/
def State.dieVfs (s : State) (die : Nat) : Nat := if die = 0 then s.vfsA else s.vfsB

/-- Put a die into a state: the change takes 2 µs, in which no scheduler of the die issues (R535). -/
def State.setVfs (s : State) (die v : Nat) : State :=
  if s.dieVfs die = v then s
  else
    let s := if die = 0 then { s with vfsA := v } else { s with vfsB := v }
    { s with vfChanging := if s.vfChanging.contains die then s.vfChanging else s.vfChanging ++ [die] }

/-- VF_STATE_CHANGE_DONE (R535): the die issues again. -/
def execEvVfStateChangeDone (die : Nat) (s : State) : Out :=
  if s.vfChanging.contains die then .next { s with vfChanging := s.vfChanging.filter (· != die) }.tick else .next s

/-- Report a throttle start (kind 4) or end (kind 5) of a die: trace, black box, management event 5 (R515,
R537). -/
def State.noteThrottle (s : State) (die kind code v : Nat) : State :=
  let s := s.traceDev (128 + die) { kind := kind, code := code, a := BitVec.ofNat 64 v }
  let s := s.blackBoxAdd { src := 128 + die, kind := kind, code := code, a := BitVec.ofNat 64 v }
  s.mgmtEvent 5 (toBytes 2 (128 + die) ++ toBytes 1 kind ++ toBytes 1 code ++ toBytes 8 v)

/-- Start the capture of R519 on every core of a die. -/
def State.startCapture (s : State) (die : Nat) : State :=
  (upto 64).foldl (fun s c => s.putCore (64 * die + c) { s.core (64 * die + c) with capture := 65536 }) s

/-- A throttle starts, unless it is in force already. -/
def State.throttleOn (s : State) (die code : Nat) : State :=
  if s.throttled.contains (die, code) then s
  else ({ s with throttled := s.throttled ++ [(die, code)] }.noteThrottle die 4 code (s.dieVfs die)).startCapture die

/-- A throttle ends, if it is in force. -/
def State.throttleOff (s : State) (die code : Nat) : State :=
  if s.throttled.contains (die, code) then
    { s with throttled := s.throttled.filter (· != (die, code)) }.noteThrottle die 5 code (s.dieVfs die)
  else s

/-- Replace what a pacer counts. -/
def State.putPacer (s : State) (die : Nat) (p : Pacer) : State := { s with pacers := mset {} s.pacers die p }

/-- A die drops to state 5 at once, if it stands higher (R536). -/
def State.dropToFive (s : State) (die : Nat) : State := (s.setVfs die (min (s.dieVfs die) 5)).throttleOn die 0

/-- The power limit (R536): over the limit the die goes one state down at once and again every 100 µs (ten
measurements); over 3,400 W both dies drop to state 5; after 1 ms (100 measurements) below 95 % it goes one up. -/
def State.powerStep (s : State) (die avg1 avg10 : Nat) : State :=
  let p : Pacer := mget {} s.pacers die
  let v := s.dieVfs die
  let s := { s with withhold := decide (s.powerLimit < avg1) }
  if 3400 < avg10 then
    ((s.putPacer die { p with below := 0 }).dropToFive 0).dropToFive 1
  else if s.powerLimit < avg1 then
    match p.above with
    | some n =>
      if 9 ≤ n then (s.putPacer die { p with above := some 0, below := 0 }).setVfs die (v - 1)
      else s.putPacer die { p with above := some (n + 1), below := 0 }
    | none => ((s.putPacer die { p with above := some 0, below := 0 }).setVfs die (v - 1)).throttleOn die 0
  else if 100 * avg1 < 95 * s.powerLimit then
    if 99 ≤ p.below then
      let up := if p.hot.isNone then min 11 (v + 1) else v
      let s := (s.putPacer die { p with above := none, below := 0 }).setVfs die up
      if up = 11 then s.throttleOff die 0 else s
    else s.putPacer die { p with above := none, below := p.below + 1 }
  else s.putPacer die { p with above := none, below := 0 }

/-- The thermal limit (R536): from 105 °C one state down every 100 µs until below 100 °C; from 110 °C state
0. -/
def State.thermalStep (s : State) (die temp : Nat) : State :=
  let p : Pacer := mget {} s.pacers die
  let v := s.dieVfs die
  if 110 ≤ temp then ((s.putPacer die { p with hot := some 0 }).setVfs die 0).throttleOn die 1
  else match p.hot with
    | some n =>
      if temp < 100 then (s.putPacer die { p with hot := none }).throttleOff die 1
      else if 9 ≤ n then (s.putPacer die { p with hot := some 0 }).setVfs die (v - 1)
      else s.putPacer die { p with hot := some (n + 1) }
    | none =>
      if 105 ≤ temp then ((s.putPacer die { p with hot := some 0 }).setVfs die (v - 1)).throttleOn die 1
      else s

/-- PACER_MEASUREMENT (R536, R537): the pacer of a die has measured: the module's average over the last 1 ms
and the highest over 10 ms in W, and the die's junction temperature in °C. -/
def execEvPacerMeasurement (die avg1 avg10 temp : Nat) (s : State) : Out :=
  if 2 ≤ die then .next s
  else .next ((s.powerStep die avg1 avg10).thermalStep die temp).tick

/-- AGEING_CHECK (R538): a quartet's drift in percent: from 3 it is capped two states below the top, from 8
it is fenced; both are kept in flash. -/
def execEvAgeingCheck (quartet drift : Nat) (s : State) : Out :=
  let die := quartet / 16
  if 32 ≤ quartet then .next s
  else if 8 ≤ drift ∧ !s.fenced.contains quartet then
    .next (({ s with fenced := s.fenced ++ [quartet] }.noteThrottle die 4 2 0).startCapture die).tick
  else if 3 ≤ drift ∧ drift < 8 ∧ !s.capped.contains quartet then
    .next (({ s with capped := s.capped ++ [quartet] }.noteThrottle die 4 2 9).startCapture die).tick
  else .next s

end Sys2Proof.Machine
end

