-- ==== Sys2Proof/Machine/Resample.lean ====
section
/-! DEFINITION. The completion of a resample: counts, survivors, clones and the lineage log (R234–R236,
R413–R416, R420–R434). -/

namespace Sys2Proof.Machine

/-! ### Weights and counts (R235, R423) -/

/-- A weight as a multiple of 2^−149; negative, infinite and NaN weights count as 0. -/
def weightOf (w : W32) : Nat :=
  let e := fld w.toNat 23 8
  let m := fld w.toNat 0 23
  if w.getLsbD 31 ∨ e = 255 then 0 else if e = 0 then m else (2 ^ 23 + m) * 2 ^ (e - 1)

/-- Whether a weight sets k7: negative and not −0, or NaN (R423). -/
def weightBad (w : W32) : Bool :=
  let e := fld w.toNat 23 8
  let m := fld w.toNat 0 23
  (e == 255 && m != 0) || (w.getLsbD 31 && !(e == 0 && m == 0))

/-- F(x) of R235. -/
def countF (n total u x : Nat) : Nat := (n * x * 2 ^ 53 + u * total) / (total * 2 ^ 53)

/-- The copy counts of weights in order, from the prefix sum before them. -/
def copyCounts (n total u : Nat) : Nat → List Nat → List Nat
  | _, [] => []
  | acc, w :: t => (countF n total u (acc + w) - countF n total u acc) :: copyCounts n total u (acc + w) t

/-- One member of a gathering: its issue, its lane, the old LINEAGE. -/
structure Member where
  issue : RsmpRec := {}
  lineage : W64 := 0#64
  deriving DecidableEq, Repr

/-- POPIDX of a member. -/
def Member.idx (m : Member) : Nat := fld m.lineage.toNat 0 40

/-- Insert a member in ascending POPIDX. -/
def insertMember (m : Member) : List Member → List Member
  | [] => [m]
  | x :: t => if m.idx ≤ x.idx then m :: x :: t else x :: insertMember m t

/-- The members of a gathering in ascending POPIDX. -/
def State.memberList (s : State) (g : Grid) : List Member :=
  g.gathering.foldr (fun r acc => match s.heat? r.team r.heat with
    | some h => insertMember { issue := r, lineage := (h.lane r.lane).lineage } acc
    | none => acc) []

/-- U: the bits every member supplied, else the draw of the round (R235, R413). -/
def Grid.resampleU (g : Grid) (ms : List Member) : Nat × Bool :=
  let drawn := (draw g.record.seed 0#64 g.round).toNat / 2 ^ 11
  match ms with
  | [] => (drawn, false)
  | m :: t => match m.issue.u with
    | some u => if t.all (fun x => x.issue.u == some u) then (u, true) else (drawn, false)
    | none => (drawn, false)

/-- What a resample decides: N, U and whether it was supplied, zero total, an invalid weight, and each
member with its count. -/
structure Outcome where
  n : Nat := 0
  u : Nat := 0
  supplied : Bool := false
  zero : Bool := false
  invalid : Bool := false
  counts : List (Member × Nat) := []

/-- The outcome for members who all name N (R235, R423). -/
def Grid.outcome (g : Grid) (ms : List Member) : Outcome :=
  let ws := ms.map (fun m => weightOf m.issue.weight)
  let sum := ws.foldl (· + ·) 0
  let ws := if sum = 0 then ws.map (fun _ => 1) else ws
  let total := if sum = 0 then ms.length else sum
  let n := (ms.headD {}).issue.count
  let u := g.resampleU ms
  { n := n, u := u.1, supplied := u.2, zero := sum == 0, invalid := ms.any (fun m => weightBad m.issue.weight)
    counts := ms.zip (copyCounts n total u.1 0 ws) }

/-! ### Whether the gathering has closed (R421, R425) -/

/-- Whether a team's live members have all issued and every result of their heats has landed; a team on
a core must be able to run. -/
def State.teamGathered (s : State) (t : Nat) (x : Team) : Bool :=
  let members := x.body.heats.filter (fun e => (lanesOf e.2.live).any (fun l => (e.2.lane l).member))
  members.all (fun e => e.2.slots.isEmpty &&
    (lanesOf e.2.live).all (fun l => !(e.2.lane l).member || (e.2.lane l).park == .rsmp)) &&
  (members.isEmpty || x.core?.isNone || s.runs t) &&
  !(s.binThreads t).any (fun b => b.member) && !x.savedBins.any (fun b => b.member)

/-- The teams of a grid that have not exited; checkers belong to no population. -/
def State.populace (s : State) (gid : Nat) : List (Nat × Team) :=
  s.teams.filter (fun e => e.2.grid == gid && !e.2.exited && e.2.checks.isNone)

/-- Whether a team has a live member in a heat. -/
def Team.hasMember (x : Team) : Bool :=
  x.body.heats.any (fun e => (lanesOf e.2.live).any (fun l => (e.2.lane l).member))

/-- Whether the gathering of a grid has closed; with no live member left it never does (R421), nor in a context that
is being removed. -/
def State.gathered (s : State) (gid : Nat) (g : Grid) : Bool :=
  g.record.pop && !g.gathering.isEmpty && decide (g.record.teams ≤ g.nextTeam) &&
    (s.ctx? g.asid).any (fun c => !c.removing) && (s.populace gid).any (fun e => e.2.hasMember) &&
    (s.populace gid).all (fun e => s.teamGathered e.1 e.2)

/-! ### Traps at completion (R234, R420, R427) -/

/-- The resample failed: no issue of the gathering stands, and every member stays parked at its RSMP, which
raises the population trap in each heat as its word issues again (R234, R420, R427, R472). -/
def State.popTrap (s : State) (gid : Nat) (g : Grid) (reason : Nat) : State :=
  let s := g.gathering.foldl (fun (s : State) r => s.modHeat r.team r.heat (fun h =>
    let x := h.lane r.lane
    if x.park = .rsmp then h.setLane r.lane { x with park := .retryRsmp reason } else h)) s
  (s.modGrid gid (fun g => { g with gathering := [] })).tick

/-- Room for clones (R427). -/
def State.cloneRoom (s : State) (gid : Nat) (g : Grid) : Nat :=
  let active := (s.populace gid).filter (fun e => e.2.core?.isSome)
  let keyed := active.foldl (fun n e => match e.2.core? with
    | none => n
    | some c => (s.core c).bins.foldl (fun n (b : Bin) => match b.key with
        | some (u, _) => if u = e.1 then n + (32 - b.threads.length) else n
        | none => n) n) 0
  let cores := (upto Config.cores).filter (fun c => active.any (fun e => e.2.core? == some c))
  let empty := cores.foldl (fun n c =>
    n + 32 * ((upto binCount).filter (fun i => ((s.core c).bin i).key.isNone)).length) 0
  keyed + empty + s.spillRoom g.asid

/-! ### Survivors and exits (R236, R414, R415) -/

/-- k6 and k7 of a member after a resample. -/
def Outcome.flags (o : Outcome) (h : Heat) (l : Nat) : Heat := (h.setK 6 l o.zero).setK 7 l o.invalid

/-- LINEAGE of new member j (R414). -/
def newLineage (old : W64) (j : Nat) : W64 :=
  BitVec.ofNat 64 ((old.toNat / 2 ^ 40 + 1) % 2 ^ 24 * 2 ^ 40 + j)

/-- Apply one count to the member's lane: it exits, or goes on as member j. -/
def State.applyCount (s : State) (o : Outcome) (m : Member) (count j : Nat) : State :=
  let r := m.issue
  match s.heat? r.team r.heat with
  | none => s
  | some h =>
    let x := h.lane r.lane
    if count = 0 then
      (s.putHeat r.team r.heat (h.setLane r.lane { x with live := false, loops := [], park := .none })).endIfEmpty r.team r.heat
    else
      s.putHeat r.team r.heat (o.flags (h.setLane r.lane { x.goOn s.stamp with lineage := newLineage m.lineage j }) r.lane)

/-- Apply every count; `j` is the number of the next new member. -/
def State.applyCounts (s : State) (o : Outcome) : List (Member × Nat) → Nat → State
  | [], _ => s
  | (m, c) :: t, j => (s.applyCount o m c j).applyCounts o t (j + c)

/-- Apply the counts to the live bodies and to the lap-start images, which both hold the members parked:
a completed resample stands at a rollback (R236). -/
def State.applyBoth (s : State) (o : Outcome) : State :=
  let live := s.applyCounts o o.counts 0
  let image := ({ s with teams := s.teams.map (fun (e : Nat × Team) =>
    (e.1, { e.2 with body := e.2.lapBody })) }).applyCounts o o.counts 0
  { live with teams := live.teams.map (fun (e : Nat × Team) =>
      match s.team? e.1, image.team? e.1 with
      | some x, some y => (e.1, { e.2 with lapBody := y.body, log := x.log, advances := x.advances })
      | _, _ => e) }

/-! ### Clones (R415, R416, R425, R426) -/

/-- The clone of a parent lane as new member j (R415). -/
def Outcome.clone (o : Outcome) (r : Record) (m : Member) (h : Heat) (j stamp : Nat) : BinThread :=
  let x := (h.lane m.issue.lane).goOn stamp
  let range := if r.pval then (upto (r.pophi + 1 - r.poplo)).map (r.poplo + ·) else []
  { team := m.issue.team, entry := x.hdr, idx := x.idx, loops := x.loops, member := true
    lineage := newLineage m.lineage j, role := h.role, budget := h.budget
    rows := range.map (fun n => (n, h.v n m.issue.lane))
    preds := (upto 8).map (fun k => (k, if k = 6 then o.zero else if k = 7 then o.invalid else h.k k m.issue.lane)) }

/-- The clones of every member in ascending j, from the state before the counts are applied. -/
def State.clones (s : State) (r : Record) (o : Outcome) : List (Member × Nat) → Nat → List BinThread
  | [], _ => []
  | (m, c) :: t, j =>
    (match s.heat? m.issue.team m.issue.heat with
      | none => []
      | some h => (upto (c - 1)).map (fun i => o.clone r m h (j + 1 + i) s.stamp)) ++ s.clones r o t (j + c)

/-- Put the clones into bins or the spill area (R416). -/
def State.placeClones (s : State) (asid : Nat) (bs : List BinThread) : State :=
  bs.foldl (fun s b => match s.placeClone b with
    | some s' => s'
    | none => s.modCtx asid (fun c => { c with spill := c.spill ++ [b] })) s

/-- Clones that wait in bins stand at a rollback of the team they joined. -/
def State.keepClones (s : State) (gid : Nat) (before : State) : State :=
  (s.gridTeams gid).foldl (fun s t =>
    let old := before.binThreads t
    let new := (s.binThreads t).filter (fun b => b.member && !old.contains b)
    s.modTeam t (fun x => { x with lapBins := x.lapBins ++ new })) s

/-! ### The lineage log (R428–R430) -/

/-- The parents of the new members in ascending j, as old LINEAGE values. -/
def parents (cs : List (Member × Nat)) : List W64 :=
  cs.foldl (fun acc e => acc ++ List.replicate e.2 e.1.lineage) []

/-- A segment (R429). -/
def segment (gid : Nat) (g : Grid) (o : Outcome) : List Byte :=
  let flags := (if o.invalid then 1 else 0) + (if o.zero then 2 else 0) + (if o.supplied then 4 else 0)
  let gen := (((o.counts.headD ({}, 0)).1.lineage.toNat / 2 ^ 40) + 1) % 2 ^ 24
  toBytes 4 gid ++ toBytes 4 o.n ++ toBytes 8 g.round.toNat ++ toBytes 8 o.u ++ toBytes 4 o.counts.length ++
    toBytes 1 flags ++ toBytes 3 gen ++ (parents o.counts).foldl (fun acc w => acc ++ toBytes 8 w.toNat) []

/-- The header of a lineage log area (R428). -/
def Context.logHeader (c : Context) : List Byte :=
  toBytes 8 c.logHead ++ toBytes 8 c.logSegs ++ toBytes 8 c.logWraps ++ toBytes 8 c.logLost ++ toBytes 32 0

/-- Append a segment to a context's lineage log (R430); of one that cannot fit only LOST is written. -/
def State.logSegment (s : State) (asid : Nat) (seg : List Byte) : State :=
  match s.ctx? asid with
  | none => s
  | some c =>
    if c.logLen = 0 then s
    else if c.logLen - 64 < seg.length then
      let c := { c with logLost := c.logLost + 1 }
      (s.modCtx asid (fun _ => c)).perform (pairsAt (c.logBase + 24) (toBytes 8 c.logLost))
    else
      let wrap := decide (c.logLen < c.logHead + seg.length)
      let head := if wrap then 64 else c.logHead
      let c' := { c with
        logHead := head + seg.length, logSegs := c.logSegs + 1, logWraps := if wrap then c.logWraps + 1 else c.logWraps }
      ((s.modCtx asid (fun _ => c')).perform (pairsAt (c.logBase + head) seg)).perform (pairsAt c.logBase c'.logHeader)

/-! ### The event -/

/-- RESAMPLE_COMPLETION (R235, R236, R413–R416, R420–R434): when every live member has issued, the counts
are formed and applied, the clones placed, the segment logged and the round advanced; or the resample
fails and no thread changes. -/
def execEvResampleCompletion (grid : Nat) (s : State) : Out :=
  match mfind s.grids grid with
  | none => .next s
  | some g =>
    if !s.gathered grid g then .next s
    else
      let ms := s.memberList g
      let o := g.outcome ms
      let survivors := (o.counts.filter (fun e => decide (e.2 ≠ 0))).length
      if ms.any (fun m => m.issue.count != o.n) then .next (s.popTrap grid g 4)
      else if s.cloneRoom grid g < o.n - survivors then .next (s.popTrap grid g 6)
      else
        let s1 := (s.applyBoth o).logSegment g.asid (segment grid g o)
        let s2 := (s1.placeClones g.asid (s.clones g.record o o.counts 0)).keepClones grid s
        .next (s2.modGrid grid (fun g => { g with
          round := g.round + 1#64, gathering := [], popSize := some o.n })).tick

end Sys2Proof.Machine
end

