-- ==== Sys2Proof/Machine/Manage.lean ====
section
/-! DEFINITION. Management requests (R527, R528): contexts, translations, tables, trap entry, trace, counters,
clocks, frames. -/

namespace Sys2Proof.Machine

/-! ### Contexts (R409, R465, R528) -/

/-- The alignment and range checks of create context (R428, R528, R529). -/
def areasOk (root places save lap lapseg log loglen relayc lspill bspill : Nat) : Bool :=
  root % 0x20000 == 0 && inMemory root 0x20000 && decide (1 ≤ places ∧ places ≤ 4096) &&
    save % 65536 == 0 && inMemory save (0xC00000 * places) && lapseg % 0x400000 == 0 && lapseg != 0 &&
    inMemory lap (lapseg * places) &&
    (loglen == 0 || (log % 65536 == 0 && loglen % 65536 == 0 && decide (loglen ≤ 2 ^ 36) && inMemory log loglen)) &&
    inMemory relayc 0x8000 && inMemory lspill 0x800000 && inMemory bspill 0x4000000

/-- CREATE_CONTEXT (R428, R446, R528): status 2 when the identifier is in use, 1 for a misaligned area or one
outside memory; creation advances CGEN and writes the lineage log header. -/
def execEvCreateContext (tag : BitVec 32) (asid root places save lap lapseg log loglen relayc lspill bspill wdog : Nat)
    (eqchk : Bool) (s : State) : Out :=
  mgmtFrame s (fun s =>
    if 1024 ≤ asid then s.answer tag 1
    else if (s.ctx? asid).isSome then s.answer tag 2
    else if !areasOk root places save lap lapseg log loglen relayc lspill bspill then s.answer tag 1
    else
      let gen := mget 0#16 s.cgens asid + 1#16
      let c : Context := {
        root := root, places := places, save := save, lapArea := lap, lapSeg := lapseg, logBase := log
        logLen := loglen, relayc := relayc, lspill := lspill, bspill := bspill, wdog := wdog, eqchk := eqchk
        cgen := gen }
      let s1 := { s with contexts := mput s.contexts asid c, cgens := mput s.cgens asid gen }
      let s2 := if loglen = 0 then s1 else s1.perform (pairsAt log c.logHeader)
      s2.answer tag 0)

/-- Whether a core is frozen for a fault of a context. -/
def Core.frozenFor (k : Core) (asid : Nat) : Bool :=
  match k.frozen with
  | some r => r.asid == asid
  | none => false

/-- A core that stays frozen after a trap-heat fault resumes once its contexts have been removed: no team is left on
it (R474). -/
def State.unstick (s : State) (c : Nat) : State :=
  let k := s.core c
  if k.stuck && (s.residents c).isEmpty then
    (s.putCore c { k with frozen := none, frozenAt := none, stuck := false, trapOn := false, actions := [] }).nextQueued c
  else s

/-- REMOVE_CONTEXT (R409, R527): fatal removal. -/
def execEvRemoveContext (tag : BitVec 32) (asid : Nat) (s : State) : Out :=
  mgmtFrame s (fun s =>
    match s.ctx? asid with
    | none => s.answer tag 1
    | some c =>
      if c.removing then s.answer tag 2
      else ((upto Config.cores).foldl State.unstick (s.removeContext asid)).answer tag 0)

/-- A stuck core whose fault belongs to a released context, or on which one of its teams stands, takes its actions and
goes on (R474). -/
def State.releaseCore (s : State) (asid c : Nat) : State :=
  let k := s.core c
  if k.stuck && (k.frozenFor asid || (s.residents c).any (fun t => (s.team? t).any (fun x => x.asid == asid))) then
    (s.putCore c { k with stuck := false }).eret c
  else s

/-- RELEASE_FROZEN_CONTEXT (R282, R465, R474): the teams that HALT left frozen go on. -/
def execEvReleaseFrozenContext (tag : BitVec 32) (asid : Nat) (s : State) : Out :=
  mgmtFrame s (fun s =>
    match s.ctx? asid with
    | none => s.answer tag 1
    | some _ =>
      let s1 := { s with teams := s.teams.map (fun (e : Nat × Team) =>
        (e.1, if e.2.asid = asid then { e.2 with halted := false } else e.2)) }
      let s2 := s1.modCtx asid (fun c => { c with broadcast := false })
      ((upto Config.cores).foldl (fun s k => s.releaseCore asid k) s2).answer tag 0)

/-- An invalidation request (R281, R527): the translations are dropped, and it is answered once every access that
used one has performed; until then it waits. -/
def invalidateFrame (s : State) (tag : W32) (x : TlbiScope) : Out :=
  mgmtFrame s (fun s1 => if s1.outstanding x || s1.deferredOpen x then .next (s.invalidate x)
    else (s1.invalidate x).answer tag 0)

/-- INVALIDATE_TRANSLATIONS_ASID (R281, R527): as TLBI.asid. -/
def execEvInvalidateTranslationsAsid (tag : BitVec 32) (asid : Nat) (s : State) : Out :=
  invalidateFrame s tag { asid := some asid }

/-- INVALIDATE_TRANSLATIONS_VA (R281, R527): as TLBI.va. -/
def execEvInvalidateTranslationsVa (tag : BitVec 32) (asid : Nat) (va : BitVec 72) (s : State) : Out :=
  invalidateFrame s tag { asid := some asid, va := some va.toNat }

/-! ### Tables (R411, R441, R442, R458, R475) -/

/-- WRITE_DOMAIN_TABLE_ENTRY (R441). -/
def execEvWriteDomainTableEntry (tag : BitVec 32) (dev : Nat) (entry : BitVec 128) (s : State) : Out :=
  mgmtFrame s (fun s =>
    let e := entry.toNat
    let len := fld e 64 64
    if 1024 ≤ dev ∨ fld e 1 31 ≠ 0 ∨ len % 65536 ≠ 0 ∨ 2 ^ 61 - 2 ^ 20 < len then s.answer tag 1
    else
      let d : DomEntry := { explen := len, incarn := BitVec.ofNat 32 (fld e 32 32), valid := bitAt e 0 }
      { s with domain := mset {} s.domain dev d }.answer tag 0)

/-- Whether two export entries overlap. -/
def ExpEntry.meets (a b : ExpEntry) : Bool :=
  a.valid && b.valid && decide (a.offbase < b.offbase + b.len ∧ b.offbase < a.offbase + a.len)

/-- WRITE_EXPORT_TABLE_ENTRY (R442): valid entries do not overlap. -/
def execEvWriteExportTableEntry (tag : BitVec 32) (index : Nat) (entry : BitVec 256) (s : State) : Out :=
  mgmtFrame s (fun s =>
    let w := entry.toNat
    let e : ExpEntry := {
      vabase := fld w 192 64, len := fld w 128 64, offbase := fld w 64 64, asid := fld w 16 10, valid := bitAt w 0 }
    if 1024 ≤ index ∨ fld w 26 38 ≠ 0 ∨ fld w 1 15 ≠ 0 ∨ e.len % 65536 ≠ 0 ∨ e.offbase % 65536 ≠ 0 ∨
        s.exports.any (fun x => x.1 != index && x.2.meets e) then s.answer tag 1
    else { s with exports := mset {} s.exports index e }.answer tag 0)

/-- WRITE_GROUP_TABLE_ENTRY (R458). -/
def execEvWriteGroupTableEntry (tag : BitVec 32) (index : Nat) (entry : BitVec 128) (s : State) : Out :=
  mgmtFrame s (fun s =>
    let w := entry.toNat
    let e : GrpEntry := {
      mlist := fld w 64 64, limit := fld w 48 16, self := fld w 28 10, m := fld w 17 11, valid := bitAt w 0 }
    if 256 ≤ index ∨ fld w 38 10 ≠ 0 ∨ fld w 1 16 ≠ 0 ∨
        (e.valid ∧ (e.m = 0 ∨ 1024 < e.m ∨ e.limit = 0 ∨ e.m ≤ e.self)) then s.answer tag 1
    else { s with groups := mset {} s.groups index e }.answer tag 0)

/-- Whether a team of a deterministic grid is resident. -/
def State.detResident (s : State) : Bool :=
  s.teams.any (fun e => match mfind s.grids e.2.grid with
    | some g => g.record.det && e.2.core?.isSome
    | none => false)

/-- WRITE_REMAP_TABLE (R411, R527): 32 entries, none naming a fenced quartet; busy while a deterministic grid
is resident. -/
def execEvWriteRemapTable (tag : BitVec 32) (quartets : List Nat) (s : State) : Out :=
  mgmtFrame s (fun s =>
    if quartets.length ≠ 32 ∨ quartets.any (fun q => decide (32 ≤ q) || s.fenced.contains q) then s.answer tag 1
    else if s.detResident then s.answer tag 2
    else { s with remap := (upto 32).map (fun i => (i, quartets.getD i i)), detTurn := [] }.answer tag 0)

/-- SET_THENTRY (R475, R527): the trap-heat entry of a core; busy while that core is frozen. -/
def execEvSetThentry (tag : BitVec 32) (core : Nat) (entry : BitVec 64) (s : State) : Out :=
  mgmtFrame s (fun s =>
    if 128 ≤ core then s.answer tag 1
    else if (s.core core).frozen.isSome ∨ (s.core core).stuck then s.answer tag 2
    else (s.putCore core { s.core core with thentry := entry }).answer tag 0)

/-! ### Trace, counters, black box (R516–R518, R520, R521) -/

/-- TRACE_SETUP (R516, R518): ring, read pointer, enabled kinds, sampling period 2^k; a new ring begins
empty. -/
def execEvTraceSetup (tag : BitVec 32) (base len read kinds k : Nat) (s : State) : Out :=
  mgmtFrame s (fun s =>
    if len % 65536 ≠ 0 ∨ (len ≠ 0 ∧ (!inMemory base len ∨ len ≤ read)) ∨ read % 64 ≠ 0 ∨
        !(k == 0 || decide (10 ≤ k ∧ k ≤ 24)) then s.answer tag 1
    else
      let same := s.ringBase == base && s.ringLen == len
      { s with
        ringBase := base, ringLen := len, ringRead := read, ringWrite := if same then s.ringWrite else 0
        traceKinds := kinds, samplePeriod := k }.answer tag 0)

/-- EVENT_COUNTER_SELECT (R520): the source of counter i of a core. -/
def execEvEventCounterSelect (tag : BitVec 32) (core i source : Nat) (s : State) : Out :=
  mgmtFrame s (fun s =>
    if 128 ≤ core ∨ 16 ≤ i ∨ 0x12 < source then s.answer tag 1
    else (s.putCore core { s.core core with evSel := mset 0 (s.core core).evSel i source }).answer tag 0)

/-- EVENT_COUNTER_ZERO (R520): counter i of a core becomes 0. -/
def execEvEventCounterZero (tag : BitVec 32) (core i : Nat) (s : State) : Out :=
  mgmtFrame s (fun s =>
    if 128 ≤ core ∨ 16 ≤ i then s.answer tag 1
    else (s.putCore core { s.core core with evCnt := mset 0#64 (s.core core).evCnt i 0#64 }).answer tag 0)

/-- The 32 bytes of a black-box entry (R521). -/
def BlackBox.bytes (b : BlackBox) : List Byte :=
  toBytes 8 b.gtc.toNat ++ toBytes 2 b.src ++ toBytes 1 b.kind ++ toBytes 1 b.vfs ++ toBytes 2 b.code ++
    toBytes 2 b.asid ++ toBytes 8 b.a.toNat ++ toBytes 8 b.b.toNat

/-- READ_BLACK_BOX (R521): the write position and the entries, oldest first. -/
def execEvReadBlackBox (tag : BitVec 32) (s : State) : Out :=
  mgmtFrame s (fun s => .next (s.mgmtReply tag 0
    (toBytes 4 s.blackWrite ++ s.blackBox.foldl (fun acc b => acc ++ b.bytes) [])).tick)

/-! ### Clock and power (R61, R513, R536) -/

/-- SET_GTC (R61, R513, R527): only at cold reset. -/
def execEvSetGtc (tag : BitVec 32) (value : BitVec 64) (s : State) : Out :=
  mgmtFrame s (fun s =>
    if s.gtcOpen then { s with gtc := value, gtcOpen := false }.answer tag 0 else s.answer tag 1)

/-- SET_POWER_LIMIT (R536): from 1,000 W to 3,000 W. -/
def execEvSetPowerLimit (tag : BitVec 32) (watts : Nat) (s : State) : Out :=
  mgmtFrame s (fun s =>
    if watts < 1000 ∨ 3000 < watts then s.answer tag 1
    else { s with powerLimit := watts }.answer tag 0)

/-! ### Frames (R531, R533, R534) -/

/-- SET_SCALE_METADATA_MODE (R531): layout 0 ends the mode of a frame, 1 MXFP8, 2 MXFP4, 3 QF8, QF4 and
tiled. -/
def execEvSetScaleMetadataMode (tag : BitVec 32) (frame layout : Nat) (s : State) : Out :=
  mgmtFrame s (fun s =>
    if !inMemory (65536 * frame) 65536 ∨ 4 ≤ layout then s.answer tag 1
    else
      let others := s.scaleFrames.filter (fun e => e.1 != frame)
      if layout = 0 then
        { s with scaleFrames := others, spare := s.spare.filter (fun e => e.1 / 1024 != frame) }.answer tag 0
      else { s with scaleFrames := others ++ [(frame, layout)] }.answer tag 0)

/-- A copied frame's bytes in a memory. -/
def copyFrameBytes (m : FMap Byte) (old new : Nat) : FMap Byte :=
  writeBytes m (65536 * new) (readBytes m (65536 * old) 65536)

/-- The address that a byte of the old frame has after the copy. -/
def movedAddr (old new a : Nat) : Nat := if a / 65536 = old then 65536 * new + a % 65536 else a

/-- The bad units of a frame. -/
def State.badUnits (s : State) (frame : Nat) : List Nat :=
  ((upto 1024).map (1024 * frame + ·)).filter s.unitBad

/-- A rebuilt unit's 64 bytes. -/
def rebuilt (u stamp : Nat) : List Byte := (Config.rebuiltUnit u stamp ++ List.replicate 64 0#8).take 64

/-- Bytes kept by physical address, as the copy of a frame leaves them. -/
def movedBytes (f : Nat → Nat) (m : FMap Byte) : FMap Byte := m.foldl (fun m (u : Nat × Byte) => mput m (f u.1) u.2) []

/-- A piece of a command's range after the copy of a frame. -/
def Piece.moved (f : Nat → Nat) (p : Piece) : Piece :=
  match p with
  | .mem pa n leaf va => .mem (f pa) n leaf va
  | q => q

/-- `Piece.moved` for each piece of a range. -/
def movedPieces (f : Nat → Nat) (l : List (Nat × Piece)) : List (Nat × Piece) := l.map (fun p => (p.1, p.2.moved f))

/-- A heat's commands not yet accepted. -/
def CopyRec.moved (f : Nat → Nat) (r : CopyRec) : CopyRec :=
  { r with src := movedPieces f r.src, dst := movedPieces f r.dst, owned := r.owned.map (fun k => f (1024 * k) / 1024) }

/-- A command that an engine holds. -/
def EngCmd.moved (f : Nat → Nat) (c : EngCmd) : EngCmd :=
  { c with
    src := movedPieces f c.src, dst := movedPieces f c.dst, todo := movedPieces f c.todo
    owned := c.owned.map (fun k => f (1024 * k) / 1024) }

/-- What a team's body keeps by physical address. -/
def TeamBody.moved (f : Nat → Nat) (b : TeamBody) : TeamBody :=
  { b with
    heats := b.heats.map (fun (e : Nat × Heat) => (e.1, { e.2 with copies := e.2.copies.map (CopyRec.moved f) }))
    seq := { b.seq with ops := b.seq.ops.map (fun (o : SeqOp) => { o with places := movedPieces f o.places }) } }

/-- Deferred stores after the copy of a frame. -/
def movedStores (f : Nat → Nat) (l : List DefStore) : List DefStore := l.map (fun (d : DefStore) => { d with pa := f d.pa })

/-- A stop image after the copy of a frame. -/
def StopImage.moved (f : Nat → Nat) (i : StopImage) : StopImage :=
  { i with
    body := i.body.moved f, engines := i.engines.map (EngCmd.moved f), undoPoison := i.undoPoison.map (fun u => f (64 * u) / 64)
    deferred := movedStores f i.deferred, undo := movedBytes f i.undo
    bytes := i.bytes.map (fun (e : Nat × Byte) => (f e.1, e.2)) }

/-- A grid whose fetches see the copied frame. -/
def Grid.moved (old new : Nat) (g : Grid) : Grid := { g with code := copyFrameBytes g.code old new }

/-- A team's journal, deferred stores, commands and images after the copy of a frame. -/
def Team.moved (old new : Nat) (x : Team) : Team :=
  let f := movedAddr old new
  { x with
    undo := movedBytes f x.undo, undoPoison := x.undoPoison.map (fun u => f (64 * u) / 64), deferred := movedStores f x.deferred
    body := x.body.moved f, lapBody := x.lapBody.moved f
    stopImage := x.stopImage.map (StopImage.moved f), launched := x.launched.map (Grid.moved old new) }

/-- What is kept by physical address moves with the frame (R496: every byte keeps its value in the device order):
ordered records and contributions, bindings, what teams keep, and the memory that fetches see. -/
def State.moveFrame (s : State) (old new : Nat) : State :=
  let f := movedAddr old new
  { s with
    ordRecs := s.ordRecs.foldl (fun m (e : Nat × OrdRec) =>
      mput m (f e.1) { e.2 with waiting := e.2.waiting.map (fun (w : OrdMsg) => { w with pa := f w.pa }) }) []
    ordMsgs := s.ordMsgs.map (fun (w : OrdMsg) => { w with pa := f w.pa })
    engines := s.engines.map (EngCmd.moved f)
    bindings := s.bindings.map (fun (b : Binding) => { b with base := f b.base })
    teams := s.teams.map (fun (e : Nat × Team) => (e.1, e.2.moved old new))
    grids := s.grids.map (fun (e : Nat × Grid) => (e.1, e.2.moved old new)) }

/-- COPY_FRAME (R496, R533, R534): every unit of the old frame is copied with its spare word; units that stay
uncorrectable are rebuilt where the stack can, else written poisoned; the reply counts them, and the old
frame is then retired. It waits while an engine owns a part of either frame. -/
def execEvCopyFrame (tag : BitVec 32) (old new : Nat) (s : State) : Out :=
  mgmtFrame s (fun s1 =>
    if !inMemory (65536 * old) 65536 ∨ !inMemory (65536 * new) 65536 ∨ old = new then s1.answer tag 1
    else if s1.ownedRange (65536 * old) 65536 ∨ s1.ownedRange (65536 * new) 65536 then .next s
    else
      let bad := s1.badUnits old
      let fixed := bad.filter (fun u => Config.unitRebuilds u s1.stamp)
      let lost := bad.filter (fun u => !Config.unitRebuilds u s1.stamp)
      let moved (u : Nat) : Nat := 1024 * new + u % 1024
      let mem1 := copyFrameBytes s1.mem old new
      let mem2 := fixed.foldl (fun m u => writeBytes m (64 * moved u) (rebuilt u s1.stamp)) mem1
      let mode : List (Nat × Nat) := s1.scaleFrames.filter (fun (e : Nat × Nat) => e.1 == old)
      let s2 : State := { s1.moveFrame old new with
        mem := mem2
        poison := s1.poison.filter (fun u => u / 1024 != new) ++ lost.map moved
        spare := (s1.spare.filter (fun (e : Nat × W32) => e.1 / 1024 == old)).foldl (fun m (e : Nat × W32) => mput m (moved e.1) e.2)
          (s1.spare.filter (fun (e : Nat × W32) => e.1 / 1024 != new))
        scaleFrames := s1.scaleFrames.filter (fun (e : Nat × Nat) => e.1 != new) ++ mode.map (fun (e : Nat × Nat) => (new, e.2)) }
      let s3 := s2.mgmtReply tag 0
        (toBytes 4 (Config.correctedUnits old s1.stamp) ++ toBytes 4 fixed.length ++ toBytes 4 lost.length)
      .next { s3 with
        retireList := if s3.retireList.contains old then s3.retireList else s3.retireList ++ [old]
        retired := if s3.retired.contains old then s3.retired else s3.retired ++ [old] }.retest.tick)

end Sys2Proof.Machine
end

