-- ==== Sys2Proof/Machine/Trap.lean ====
section
/-! DEFINITION. What the device does around a freeze: the start of the trap heat (R463, R474), the watchdog
(R473), and the dump that the journal engine writes (R464–R469). -/

namespace Sys2Proof.Machine

/-- TRAP_HEAT_ENTRY (R463, R474): the cycle of the freeze is over, and the trap heat of the core starts, the engines
having taken what stands in q0, q2 and q4, an incomplete sequence of q2 with them (R194); with THENTRY 0 the freeze is
reported instead. -/
def execEvTrapHeatEntry (core : Nat) (s : State) : Out :=
  let k := s.core core
  if k.frozen.isNone ∨ k.freezing ∨ k.trapOn ∨ k.stuck ∨ !(s.residents core).all (fun t => match s.team? t with
      | some x => x.enginesIdle
      | none => true) then .next s
  else .next ((((s.residents core).foldl (fun (s : State) t =>
    s.modTeam t (fun x => { x with body := x.body.takePartials })) s).startTrapHeat core))

/-- Whether a team has a heat or sequencer that has not ended, and none parked in WAITC, CALLH or RSMP
(R473). -/
def Team.watched (x : Team) : Bool :=
  (x.body.heats.any (fun e => !e.2.ended) || x.body.seq.running) && !x.longPark

/-- WATCHDOG_FAULT (R473): a team of a context with a watchdog limit has issued nothing for the limit. -/
def execEvWatchdogFault (team : Nat) (s : State) : Out :=
  match s.team? team with
  | none => .next s
  | some x => match s.ctx? x.asid with
    | none => .next s
    | some c =>
      if c.wdog = 0 ∨ !s.runs team ∨ !x.watched then .next s
      else .next (s.raiseAsync team { cls := 0x41 })

/-! ### The sections of a dump (R468) -/

/-- The body of a hurdle section: the team hurdle area, h0 first. -/
def Team.hurdleBody (x : Team) : List Byte := readBytes x.body.spad (x.size - 4096) 4096

/-- The body of a sequencer section. -/
def Seq.dumpBody (q : Seq) : List Byte :=
  let pending := (q.ops.filter (fun o => match o.kind with
    | .mma _ _ _ _ _ _ _ _ _ _ _ _ => true
    | _ => false)).length
  let latch := match q.latch with
    | some (r, _) => 128 + r
    | none => 0
  toBytes 8 (q.hdr.toNat % 2 ^ 64) ++ toBytes 1 q.idx ++ toBytes 1 q.park.code ++ toBytes 1 pending ++
    toBytes 1 latch ++ toBytes 4 0 ++ (upto 16).foldl (fun acc r => acc ++ toBytes 8 (q.mr r).toNat) [] ++
    (upto 8).foldl (fun acc p => acc ++ toBytes 4 (q.profile p).toNat) [] ++ toBytes 80 0

/-- The 16 bytes of a lane in a heat record. -/
def Heat.laneRecord (h : Heat) (l : Nat) : List Byte :=
  let x := h.lane l
  let ks := (upto 8).foldl (fun a r => if r ≠ 0 ∧ h.k r l then a + 2 ^ r else a) 0
  (if x.live then
    toBytes 8 (x.hdr.toNat % 2 ^ 64) ++ toBytes 1 x.idx ++ toBytes 1 x.park.code ++ toBytes 1 x.loops.length
  else toBytes 11 0) ++ toBytes 1 ks ++ toBytes 1 l ++ toBytes 3 0

/-- The record of a heat: 0x600 + 128B bytes. -/
def Heat.dumpRecord (h : Heat) (id : Nat) : List Byte :=
  (upto 64).foldl (fun acc r => acc ++ toBytes 8 (h.sr r).toNat) [] ++
    (upto 16).foldl (fun acc r => acc ++ toBytes 16 (h.ar r).toNat) [] ++
    (upto 32).foldl (fun acc l => acc ++ h.laneRecord l) [] ++
    toBytes 8 h.stride.toNat ++ toBytes 4 h.live.toNat ++ toBytes 1 id ++ toBytes 1 h.role ++ toBytes 1 h.budget ++
    toBytes 241 0 ++
    (upto (32 * h.budget)).foldl (fun acc i => acc ++ toBytes 4 (h.v (i / 32) (i % 32)).toNat) []

/-- The body of a register section: every heat that has not ended, by HEATID. -/
def Team.registerBody (x : Team) : List Byte :=
  x.body.heats.foldl (fun acc (e : Nat × Heat) => if e.2.ended then acc else acc ++ e.2.dumpRecord e.1) []

/-- The body of a section of a kind. -/
def Team.sectionBody (x : Team) (kind : Nat) : List Byte :=
  match kind with
  | 1 => x.hurdleBody
  | 2 => x.body.seq.dumpBody
  | 3 => x.registerBody
  | _ => readBytes x.body.spad 0 x.size

/-- A section: its 32-byte header and its body. -/
def Team.dumpSection (x : Team) (kind : Nat) : List Byte :=
  let b := x.sectionBody kind
  let n := if kind = 3 then (x.body.heats.filter (fun e => !e.2.ended)).length else 0
  toBytes 1 kind ++ toBytes 1 x.share ++ toBytes 2 n ++ toBytes 4 x.teamId ++ toBytes 8 b.length ++
    toBytes 8 x.lap.toNat ++ toBytes 4 x.grid ++ toBytes 4 0 ++ b

/-- The resident teams of a context on a core, by share. -/
def State.dumpTeams (s : State) (core asid : Nat) : List Team :=
  (upto 4).filterMap (fun j => match s.teamAt core j with
    | none => none
    | some t => match s.team? t with
      | none => none
      | some x => if x.asid = asid then some x else none)

/-- The sections of a dump, in order. -/
def State.dumpSections (s : State) (core : Nat) (d : Dump) : List (List Byte) :=
  let xs := s.dumpTeams core d.fault.asid
  (upto 4).foldl (fun acc i =>
    if bitAt d.sect i then acc ++ xs.map (fun x => x.dumpSection (i + 1)) else acc) []

/-- The number of the section that a byte position lies in. -/
def sectionAt : List (List Byte) → Nat → Nat
  | [], _ => 0
  | b :: t, off => if off < b.length then 0 else sectionAt t (off - b.length) + 1

/-! ### Writing it (R466, R467, R469) -/

/-- How a write of the dump fares, page by page: it must wait, or the pieces written and, where a check
fails, the offset and the lane code. -/
inductive DumpWrite where
  | wait
  | done (pieces : List (Nat × Nat)) (bad : Option (Nat × Nat))
  deriving DecidableEq, Repr

/-- The checks of a write of `n` bytes at an address by the journal engine of a core, which belongs to no
team (R356, R469); fuel: the 64 KiB pages it touches. -/
def State.dumpPieces (s : State) (asid va off : Nat) : Nat → Nat → DumpWrite
  | 0, _ => .done [] none
  | f + 1, n =>
    if n = 0 then .done [] none
    else
      let step := min n (65536 - va % 65536)
      match s.checkMem s.bindings { asid := asid } (BitVec.ofNat 72 va) 1 .write true with
      | .held _ => .wait
      | .bad c => .done [] (some (off, c))
      | .ok (.mem pa _) _ =>
        if s.rangeWaits pa step then .wait
        else match s.dumpPieces asid (va + step) (off + step) f (n - step) with
          | .wait => .wait
          | .done ps bad => .done ((pa, step) :: ps) bad
      | .ok _ _ => .done [] (some (off, 2))

/-- Write the bytes of pieces in order. -/
def State.writePieces (s : State) : List (Nat × Nat) → List Byte → State
  | [], _ => s
  | p :: t, d => (s.perform (pairsAt p.1 (d.take p.2))).writePieces t (d.drop p.2)

/-- Whether a dump may begin (R466): the loads of the context's heats on the core have landed and its
engine commands have completed. -/
def State.dumpReady (s : State) (core asid : Nat) : Bool :=
  (s.residents core).all (fun t => match s.team? t with
    | none => true
    | some x => x.asid != asid || (x.enginesIdle && !s.engines.any (fun c => c.team == t) &&
        x.body.heats.all (fun e => e.2.slots.all (fun z => !z.isLoad))))

/-- What a dump reads of a team with an uncorrectable error, as codes of class 0x23 (R473): rows in a register
section, lines in a hurdle or scratchpad section. -/
def Team.dumpErrors (x : Team) (sect : Nat) : List Nat :=
  (if bitAt sect 2 && x.body.heats.any (fun e => !e.2.ended && !e.2.badRows.isEmpty) then [0] else []) ++
    (if x.body.spadPoison.any (fun l => bitAt sect 3 || (bitAt sect 0 && decide (x.size - 4096 ≤ 128 * l))) then [1] else [])

/-- Uncorrectable errors that a dump reads queue class 0x23 (R473). -/
def State.dumpPoison (s : State) (core : Nat) (d : Dump) : State :=
  (s.dumpTeams core d.fault.asid).foldl (fun s x => (x.dumpErrors d.sect).foldl (fun s code =>
    s.raiseOn core { cls := 0x23, asid := x.asid, share := x.share, isAsync := true, info := BitVec.ofNat 64 code, lap := x.lap }) s) s

/-- DUMP_BEGIN (R466, R468, R469): the journal engine writes the sections, up to the first write that
fails a check. -/
def execEvDumpBegin (core : Nat) (s : State) : Out :=
  match (s.core core).dump with
  | none => .next s
  | some d =>
    if d.begun ∨ !s.dumpReady core d.fault.asid then .next s
    else
      let secs := s.dumpSections core d
      let bytes := secs.foldl (· ++ ·) []
      match s.dumpPieces d.fault.asid (d.base + 0x80) 0 (bytes.length / 65536 + 2) bytes.length with
      | .wait => .next s
      | .done ps bad =>
        let s1 := (match bad with
          | none => s
          | some (off, _) => s.noteTranslate d.fault.asid (d.base + 0x80 + off)).writePieces ps bytes
        let d1 : Dump := match bad with
          | none => { d with begun := true, written := 0x80 + bytes.length }
          | some (off, c) => { d with
              begun := true, written := 0x80 + off
              second := some (0x10 + c, sectionAt secs off, d.base + 0x80 + off) }
        .next ((s1.putCore core { s1.core core with dump := some d1 }).dumpPoison core d).tick

/-- The resume point of the faulting unit (R467): of a precise fault the word, of an asynchronous one where the unit
stands, in its lowest lane. -/
def State.resumePoint (s : State) (core : Nat) (r : TrapRec) : Addr × Nat :=
  if !r.isAsync then (r.hdr, r.idx)
  else match (s.teamAt core r.share).bind s.team? with
    | none => (r.hdr, r.idx)
    | some x =>
      if r.heat = 255 then (x.body.seq.hdr, x.body.seq.idx)
      else match x.heat? r.heat with
        | none => (r.hdr, r.idx)
        | some h =>
          let l := h.lane (lowLane (if r.mask &&& h.live = 0#32 then h.live else r.mask &&& h.live))
          (l.hdr, l.idx)

/-- The dump header (R467). -/
def State.dumpHeader (s : State) (core : Nat) (d : Dump) : List Byte :=
  let r := d.fault
  let at_ := s.resumePoint core r
  let halted := match s.ctx? r.asid with
    | some c => c.broadcast
    | none => false
  let flags := (match d.second with
    | some _ => 3
    | none => 0) + (if halted then 4 else 0)
  let f2 : Nat × Nat × Nat := d.second.getD (0, 0, 0)
  toBytes 4 0xA29D0D01 ++ toBytes 2 1 ++ toBytes 2 flags ++ toBytes 8 r.gtc.toNat ++ toBytes 2 core ++
    toBytes 2 r.asid ++ toBytes 1 (s.dumpTeams core r.asid).length ++ toBytes 1 d.sect ++ toBytes 2 0 ++
    toBytes 1 r.cls ++ toBytes 1 r.share ++ toBytes 1 r.heat ++ toBytes 1 at_.2 ++ toBytes 4 0 ++
    toBytes 8 (at_.1.toNat % 2 ^ 64) ++ toBytes 8 (r.addr.toNat % 2 ^ 64) ++ toBytes 16 r.codes.toNat ++
    toBytes 1 f2.1 ++ toBytes 1 (if d.second.isSome then 1 else 0) ++ toBytes 2 0 ++ toBytes 4 f2.2.1 ++
    toBytes 8 f2.2.2 ++ toBytes 8 d.written ++ toBytes 40 0

/-- DUMP_FINISH (R466, R467, R469): the header is written last and BUSY clears; TRUNC says that the dump was
cut short, BADADDR that the header could not be written. -/
def execEvDumpFinish (core : Nat) (s : State) : Out :=
  match (s.core core).dump with
  | none => .next s
  | some d =>
    if !d.begun then .next s
    else
      let hdr := s.dumpHeader core d
      match s.dumpPieces d.fault.asid d.base 0 2 128 with
      | .wait => .next s
      | .done ps none =>
        let s1 := s.writePieces ps hdr
        .next (s1.putCore core { s1.core core with
          dump := none, dumps := if d.second.isSome then 2#64 else 0#64 }).tick
      | .done _ (some _) =>
        .next (s.putCore core { s.core core with dump := none, dumps := 4#64 }).tick

end Sys2Proof.Machine
end

