-- ==== Sys2Proof/Machine/Dispatch.lean ====
section
/-! DEFINITION. The one dispatch from instructions to their meanings: one arm per row of the opcode table. -/

namespace Sys2Proof.Machine

/-- The meaning of an instruction word or event. -/
def exec (i : Instr) (s : State) : Host.Outcome State Fault Refusal :=
  match i with
  | .sadd d a b => Sys2Proof.Machine.execSadd d a b s
  | .ssub d a b => Sys2Proof.Machine.execSsub d a b s
  | .smul d a b => Sys2Proof.Machine.execSmul d a b s
  | .smulhS64 d a b => Sys2Proof.Machine.execSmulhS64 d a b s
  | .smulhN64 d a b => Sys2Proof.Machine.execSmulhN64 d a b s
  | .sand d a b => Sys2Proof.Machine.execSand d a b s
  | .sor d a b => Sys2Proof.Machine.execSor d a b s
  | .sxor d a b => Sys2Proof.Machine.execSxor d a b s
  | .sshl d a b => Sys2Proof.Machine.execSshl d a b s
  | .sshr d a b => Sys2Proof.Machine.execSshr d a b s
  | .ssra d a b => Sys2Proof.Machine.execSsra d a b s
  | .sminS64 d a b => Sys2Proof.Machine.execSminS64 d a b s
  | .sminN64 d a b => Sys2Proof.Machine.execSminN64 d a b s
  | .smaxS64 d a b => Sys2Proof.Machine.execSmaxS64 d a b s
  | .smaxN64 d a b => Sys2Proof.Machine.execSmaxN64 d a b s
  | .ssel d a b => Sys2Proof.Machine.execSsel d a b s
  | .saddImm d a imm => Sys2Proof.Machine.execSaddImm d a imm s
  | .ssubImm d a imm => Sys2Proof.Machine.execSsubImm d a imm s
  | .smulImm d a imm => Sys2Proof.Machine.execSmulImm d a imm s
  | .sandImm d a imm => Sys2Proof.Machine.execSandImm d a imm s
  | .sorImm d a imm => Sys2Proof.Machine.execSorImm d a imm s
  | .sxorImm d a imm => Sys2Proof.Machine.execSxorImm d a imm s
  | .sshlImm d a imm => Sys2Proof.Machine.execSshlImm d a imm s
  | .sshrImm d a imm => Sys2Proof.Machine.execSshrImm d a imm s
  | .ssraImm d a imm => Sys2Proof.Machine.execSsraImm d a imm s
  | .sminS64Imm d a imm => Sys2Proof.Machine.execSminS64Imm d a imm s
  | .smaxS64Imm d a imm => Sys2Proof.Machine.execSmaxS64Imm d a imm s
  | .scmpEq d a b => Sys2Proof.Machine.execScmpEq d a b s
  | .scmpNe d a b => Sys2Proof.Machine.execScmpNe d a b s
  | .scmpLtS64 d a b => Sys2Proof.Machine.execScmpLtS64 d a b s
  | .scmpLeS64 d a b => Sys2Proof.Machine.execScmpLeS64 d a b s
  | .scmpLtN64 d a b => Sys2Proof.Machine.execScmpLtN64 d a b s
  | .scmpLeN64 d a b => Sys2Proof.Machine.execScmpLeN64 d a b s
  | .smov d a => Sys2Proof.Machine.execSmov d a s
  | .smovi d imm => Sys2Proof.Machine.execSmovi d imm s
  | .sluiH1 d imm => Sys2Proof.Machine.execSluiH1 d imm s
  | .sluiH2 d imm => Sys2Proof.Machine.execSluiH2 d imm s
  | .sluiH3 d imm => Sys2Proof.Machine.execSluiH3 d imm s
  | .sclz d a => Sys2Proof.Machine.execSclz d a s
  | .spopc d a => Sys2Proof.Machine.execSpopc d a s
  | .aadd d a b => Sys2Proof.Machine.execAadd d a b s
  | .aaddImm d a imm => Sys2Proof.Machine.execAaddImm d a imm s
  | .amovA d a => Sys2Proof.Machine.execAmovA d a s
  | .amovS d a => Sys2Proof.Machine.execAmovS d a s
  | .aldiH0 d imm => Sys2Proof.Machine.execAldiH0 d imm s
  | .aldiH1 d imm => Sys2Proof.Machine.execAldiH1 d imm s
  | .aldiH2 d imm => Sys2Proof.Machine.execAldiH2 d imm s
  | .aldiH3 d imm => Sys2Proof.Machine.execAldiH3 d imm s
  | .aldiH4 d imm => Sys2Proof.Machine.execAldiH4 d imm s
  | .acmp d a b => Sys2Proof.Machine.execAcmp d a b s
  | .asplit d a b => Sys2Proof.Machine.execAsplit d a b s
  | .vadd d a b p => Sys2Proof.Machine.execVadd d a b p s
  | .vsub d a b p => Sys2Proof.Machine.execVsub d a b p s
  | .vmul d a b p => Sys2Proof.Machine.execVmul d a b p s
  | .vmulhS32 d a b p => Sys2Proof.Machine.execVmulhS32 d a b p s
  | .vmulhN32 d a b p => Sys2Proof.Machine.execVmulhN32 d a b p s
  | .vmad d a b p => Sys2Proof.Machine.execVmad d a b p s
  | .vand d a b p => Sys2Proof.Machine.execVand d a b p s
  | .vor d a b p => Sys2Proof.Machine.execVor d a b p s
  | .vxor d a b p => Sys2Proof.Machine.execVxor d a b p s
  | .vshl d a b p => Sys2Proof.Machine.execVshl d a b p s
  | .vshr d a b p => Sys2Proof.Machine.execVshr d a b p s
  | .vsra d a b p => Sys2Proof.Machine.execVsra d a b p s
  | .vminS32 d a b p => Sys2Proof.Machine.execVminS32 d a b p s
  | .vminN32 d a b p => Sys2Proof.Machine.execVminN32 d a b p s
  | .vmaxS32 d a b p => Sys2Proof.Machine.execVmaxS32 d a b p s
  | .vmaxN32 d a b p => Sys2Proof.Machine.execVmaxN32 d a b p s
  | .vaddSatS32 d a b p => Sys2Proof.Machine.execVaddSatS32 d a b p s
  | .vsubSatS32 d a b p => Sys2Proof.Machine.execVsubSatS32 d a b p s
  | .vaddSatN32 d a b p => Sys2Proof.Machine.execVaddSatN32 d a b p s
  | .vsubSatN32 d a b p => Sys2Proof.Machine.execVsubSatN32 d a b p s
  | .vaddN64 d a b p => Sys2Proof.Machine.execVaddN64 d a b p s
  | .vsubN64 d a b p => Sys2Proof.Machine.execVsubN64 d a b p s
  | .vmulN64 d a b p => Sys2Proof.Machine.execVmulN64 d a b p s
  | .vshlB64 d a b p => Sys2Proof.Machine.execVshlB64 d a b p s
  | .vshrB64 d a b p => Sys2Proof.Machine.execVshrB64 d a b p s
  | .vsraS64 d a b p => Sys2Proof.Machine.execVsraS64 d a b p s
  | .vabsS32 d a p => Sys2Proof.Machine.execVabsS32 d a p s
  | .vclz d a p => Sys2Proof.Machine.execVclz d a p s
  | .vpopc d a p => Sys2Proof.Machine.execVpopc d a p s
  | .vmov d a p => Sys2Proof.Machine.execVmov d a p s
  | .vmovScalar d a p => Sys2Proof.Machine.execVmovScalar d a p s
  | .vsel d a b k => Sys2Proof.Machine.execVsel d a b k s
  | .vaddImm d a imm => Sys2Proof.Machine.execVaddImm d a imm s
  | .vandImm d a imm => Sys2Proof.Machine.execVandImm d a imm s
  | .vorImm d a imm => Sys2Proof.Machine.execVorImm d a imm s
  | .vxorImm d a imm => Sys2Proof.Machine.execVxorImm d a imm s
  | .vshlImm d a imm => Sys2Proof.Machine.execVshlImm d a imm s
  | .vshrImm d a imm => Sys2Proof.Machine.execVshrImm d a imm s
  | .vsraImm d a imm => Sys2Proof.Machine.execVsraImm d a imm s
  | .vmulImm d a imm => Sys2Proof.Machine.execVmulImm d a imm s
  | .vminS32Imm d a imm => Sys2Proof.Machine.execVminS32Imm d a imm s
  | .vmaxS32Imm d a imm => Sys2Proof.Machine.execVmaxS32Imm d a imm s
  | .vbfeS32 d a b p => Sys2Proof.Machine.execVbfeS32 d a b p s
  | .vbfeN32 d a b p => Sys2Proof.Machine.execVbfeN32 d a b p s
  | .vbfi d a b p => Sys2Proof.Machine.execVbfi d a b p s
  | .vmovi d imm => Sys2Proof.Machine.execVmovi d imm s
  | .vmoviHi d imm => Sys2Proof.Machine.execVmoviHi d imm s
  | .vcmpEq d a b p => Sys2Proof.Machine.execVcmpEq d a b p s
  | .vcmpNe d a b p => Sys2Proof.Machine.execVcmpNe d a b p s
  | .vcmpLtS32 d a b p => Sys2Proof.Machine.execVcmpLtS32 d a b p s
  | .vcmpLeS32 d a b p => Sys2Proof.Machine.execVcmpLeS32 d a b p s
  | .vcmpLtN32 d a b p => Sys2Proof.Machine.execVcmpLtN32 d a b p s
  | .vcmpLeN32 d a b p => Sys2Proof.Machine.execVcmpLeN32 d a b p s
  | .vdp4S8 d a b p => Sys2Proof.Machine.execVdp4S8 d a b p s
  | .vdp4N8 d a b p => Sys2Proof.Machine.execVdp4N8 d a b p s
  | .vdp2S16 d a b p => Sys2Proof.Machine.execVdp2S16 d a b p s
  | .vfadd d a b p => Sys2Proof.Machine.execVfadd d a b p s
  | .vfsub d a b p => Sys2Proof.Machine.execVfsub d a b p s
  | .vfmul d a b p => Sys2Proof.Machine.execVfmul d a b p s
  | .vfma d a b p => Sys2Proof.Machine.execVfma d a b p s
  | .vfmin d a b p => Sys2Proof.Machine.execVfmin d a b p s
  | .vfmax d a b p => Sys2Proof.Machine.execVfmax d a b p s
  | .vfscl d a b p => Sys2Proof.Machine.execVfscl d a b p s
  | .vfaddRz d a b p => Sys2Proof.Machine.execVfaddRz d a b p s
  | .vfmulRz d a b p => Sys2Proof.Machine.execVfmulRz d a b p s
  | .vfmaRz d a b p => Sys2Proof.Machine.execVfmaRz d a b p s
  | .vfcmpEq d a b p => Sys2Proof.Machine.execVfcmpEq d a b p s
  | .vfcmpNe d a b p => Sys2Proof.Machine.execVfcmpNe d a b p s
  | .vfcmpLt d a b p => Sys2Proof.Machine.execVfcmpLt d a b p s
  | .vfcmpLe d a b p => Sys2Proof.Machine.execVfcmpLe d a b p s
  | .vfcmpUn d a b p => Sys2Proof.Machine.execVfcmpUn d a b p s
  | .vfrcp d a p => Sys2Proof.Machine.execVfrcp d a p s
  | .vfrsq d a p => Sys2Proof.Machine.execVfrsq d a p s
  | .vfexp2 d a p => Sys2Proof.Machine.execVfexp2 d a p s
  | .vflog2 d a p => Sys2Proof.Machine.execVflog2 d a p s
  | .vftanh d a p => Sys2Proof.Machine.execVftanh d a p s
  | .vfclass d a p => Sys2Proof.Machine.execVfclass d a p s
  | .vhadd d a b p => Sys2Proof.Machine.execVhadd d a b p s
  | .vhmul d a b p => Sys2Proof.Machine.execVhmul d a b p s
  | .vhfma d a b p => Sys2Proof.Machine.execVhfma d a b p s
  | .vhsub d a b p => Sys2Proof.Machine.execVhsub d a b p s
  | .vhmin d a b p => Sys2Proof.Machine.execVhmin d a b p s
  | .vhmax d a b p => Sys2Proof.Machine.execVhmax d a b p s
  | .vcvtF32Rn d a e z => Sys2Proof.Machine.execVcvtF32Rn d a e z s
  | .vcvtF32Rz d a e z => Sys2Proof.Machine.execVcvtF32Rz d a e z s
  | .vcvtF32Sr d a e z => Sys2Proof.Machine.execVcvtF32Sr d a e z s
  | .vcvtBf16Rn d a p e z => Sys2Proof.Machine.execVcvtBf16Rn d a p e z s
  | .vcvtBf16Rz d a p e z => Sys2Proof.Machine.execVcvtBf16Rz d a p e z s
  | .vcvtBf16Sr d a p e z => Sys2Proof.Machine.execVcvtBf16Sr d a p e z s
  | .vcvtE4m3Rn d a p e z => Sys2Proof.Machine.execVcvtE4m3Rn d a p e z s
  | .vcvtE4m3Rz d a p e z => Sys2Proof.Machine.execVcvtE4m3Rz d a p e z s
  | .vcvtE4m3Sr d a p e z => Sys2Proof.Machine.execVcvtE4m3Sr d a p e z s
  | .vcvtE5m2Rn d a p e z => Sys2Proof.Machine.execVcvtE5m2Rn d a p e z s
  | .vcvtE5m2Rz d a p e z => Sys2Proof.Machine.execVcvtE5m2Rz d a p e z s
  | .vcvtE5m2Sr d a p e z => Sys2Proof.Machine.execVcvtE5m2Sr d a p e z s
  | .vcvtE2m1Rn d a p e z => Sys2Proof.Machine.execVcvtE2m1Rn d a p e z s
  | .vcvtE2m1Rz d a p e z => Sys2Proof.Machine.execVcvtE2m1Rz d a p e z s
  | .vcvtE2m1Sr d a p e z => Sys2Proof.Machine.execVcvtE2m1Sr d a p e z s
  | .vcvtS32Rn d a e z => Sys2Proof.Machine.execVcvtS32Rn d a e z s
  | .vcvtS32Rz d a e z => Sys2Proof.Machine.execVcvtS32Rz d a e z s
  | .vcvtS32Sr d a e z => Sys2Proof.Machine.execVcvtS32Sr d a e z s
  | .vcvtN32Rn d a e z => Sys2Proof.Machine.execVcvtN32Rn d a e z s
  | .vcvtN32Rz d a e z => Sys2Proof.Machine.execVcvtN32Rz d a e z s
  | .vcvtN32Sr d a e z => Sys2Proof.Machine.execVcvtN32Sr d a e z s
  | .vpackB8 d a b p => Sys2Proof.Machine.execVpackB8 d a b p s
  | .vpackB16 d a b p => Sys2Proof.Machine.execVpackB16 d a b p s
  | .vunpkB4 d a imm => Sys2Proof.Machine.execVunpkB4 d a imm s
  | .vunpkB4Sx d a imm => Sys2Proof.Machine.execVunpkB4Sx d a imm s
  | .vunpkB8 d a imm => Sys2Proof.Machine.execVunpkB8 d a imm s
  | .vunpkB8Sx d a imm => Sys2Proof.Machine.execVunpkB8Sx d a imm s
  | .vunpkB16 d a imm => Sys2Proof.Machine.execVunpkB16 d a imm s
  | .vunpkB16Sx d a imm => Sys2Proof.Machine.execVunpkB16Sx d a imm s
  | .vqntE4m3E8m0 d a b p => Sys2Proof.Machine.execVqntE4m3E8m0 d a b p s
  | .vqntE4m3S32scale d a b p => Sys2Proof.Machine.execVqntE4m3S32scale d a b p s
  | .vqntE5m2E8m0 d a b p => Sys2Proof.Machine.execVqntE5m2E8m0 d a b p s
  | .vqntE5m2S32scale d a b p => Sys2Proof.Machine.execVqntE5m2S32scale d a b p s
  | .vqntE2m1E8m0 d a b p => Sys2Proof.Machine.execVqntE2m1E8m0 d a b p s
  | .vqntE2m1S32scale d a b p => Sys2Proof.Machine.execVqntE2m1S32scale d a b p s
  | .vdqntE4m3E8m0 d a b p => Sys2Proof.Machine.execVdqntE4m3E8m0 d a b p s
  | .vdqntE4m3S32scale d a b p => Sys2Proof.Machine.execVdqntE4m3S32scale d a b p s
  | .vdqntE5m2E8m0 d a b p => Sys2Proof.Machine.execVdqntE5m2E8m0 d a b p s
  | .vdqntE5m2S32scale d a b p => Sys2Proof.Machine.execVdqntE5m2S32scale d a b p s
  | .vdqntE2m1E8m0 d a b p => Sys2Proof.Machine.execVdqntE2m1E8m0 d a b p s
  | .vdqntE2m1S32scale d a b p => Sys2Proof.Machine.execVdqntE2m1S32scale d a b p s
  | .vfrndRn d a p => Sys2Proof.Machine.execVfrndRn d a p s
  | .vfrndRz d a p => Sys2Proof.Machine.execVfrndRz d a p s
  | .vfrndRm d a p => Sys2Proof.Machine.execVfrndRm d a p s
  | .vfrndRp d a p => Sys2Proof.Machine.execVfrndRp d a p s
  | .qswpH d a p => Sys2Proof.Machine.execQswpH d a p s
  | .qswpV d a p => Sys2Proof.Machine.execQswpV d a p s
  | .qswpD d a p => Sys2Proof.Machine.execQswpD d a p s
  | .qbcast d a j => Sys2Proof.Machine.execQbcast d a j s
  | .vshflIdx d a b p => Sys2Proof.Machine.execVshflIdx d a b p s
  | .vshflUp d a c => Sys2Proof.Machine.execVshflUp d a c s
  | .vshflDown d a c => Sys2Proof.Machine.execVshflDown d a c s
  | .vshflXor d a c => Sys2Proof.Machine.execVshflXor d a c s
  | .vredAddS32 d a p => Sys2Proof.Machine.execVredAddS32 d a p s
  | .vredAddF32 d a p => Sys2Proof.Machine.execVredAddF32 d a p s
  | .vredMinS32 d a p => Sys2Proof.Machine.execVredMinS32 d a p s
  | .vredMaxS32 d a p => Sys2Proof.Machine.execVredMaxS32 d a p s
  | .vredMinF32 d a p => Sys2Proof.Machine.execVredMinF32 d a p s
  | .vredMaxF32 d a p => Sys2Proof.Machine.execVredMaxF32 d a p s
  | .vredAndB32 d a p => Sys2Proof.Machine.execVredAndB32 d a p s
  | .vredOrB32 d a p => Sys2Proof.Machine.execVredOrB32 d a p s
  | .vredXorB32 d a p => Sys2Proof.Machine.execVredXorB32 d a p s
  | .vscanAddS32 d a p => Sys2Proof.Machine.execVscanAddS32 d a p s
  | .vscanAddF32 d a p => Sys2Proof.Machine.execVscanAddF32 d a p s
  | .vscanMinS32 d a p => Sys2Proof.Machine.execVscanMinS32 d a p s
  | .vscanMaxS32 d a p => Sys2Proof.Machine.execVscanMaxS32 d a p s
  | .vscanOrB32 d a p => Sys2Proof.Machine.execVscanOrB32 d a p s
  | .vballot d a p => Sys2Proof.Machine.execVballot d a p s
  | .vvoteAll d a p => Sys2Proof.Machine.execVvoteAll d a p s
  | .vvoteAny d a p => Sys2Proof.Machine.execVvoteAny d a p s
  | .vvoteUni d a p => Sys2Proof.Machine.execVvoteUni d a p s
  | .kand d a b p => Sys2Proof.Machine.execKand d a b p s
  | .kor d a b p => Sys2Proof.Machine.execKor d a b p s
  | .kxor d a b p => Sys2Proof.Machine.execKxor d a b p s
  | .knot d a p => Sys2Proof.Machine.execKnot d a p s
  | .kmov d a p => Sys2Proof.Machine.execKmov d a p s
  | .kmovV2k d a p => Sys2Proof.Machine.execKmovV2k d a p s
  | .kmovK2v d a p => Sys2Proof.Machine.execKmovK2v d a p s
  | .kpopc d a => Sys2Proof.Machine.execKpopc d a s
  | .vldB8 d a o l p => Sys2Proof.Machine.execVldB8 d a o l p s
  | .vldB16 d a o l p => Sys2Proof.Machine.execVldB16 d a o l p s
  | .vldB32 d a o l p => Sys2Proof.Machine.execVldB32 d a o l p s
  | .vldB64 d a o l p => Sys2Proof.Machine.execVldB64 d a o l p s
  | .vldB128 d a o l p => Sys2Proof.Machine.execVldB128 d a o l p s
  | .vstB8 z a o p => Sys2Proof.Machine.execVstB8 z a o p s
  | .vstB16 z a o p => Sys2Proof.Machine.execVstB16 z a o p s
  | .vstB32 z a o p => Sys2Proof.Machine.execVstB32 z a o p s
  | .vstB64 z a o p => Sys2Proof.Machine.execVstB64 z a o p s
  | .vstB128 z a o p => Sys2Proof.Machine.execVstB128 z a o p s
  | .vldsB32 d a o l p => Sys2Proof.Machine.execVldsB32 d a o l p s
  | .vldsB64 d a o l p => Sys2Proof.Machine.execVldsB64 d a o l p s
  | .vldsB128 d a o l p => Sys2Proof.Machine.execVldsB128 d a o l p s
  | .vstsB32 z a o p => Sys2Proof.Machine.execVstsB32 z a o p s
  | .vstsB64 z a o p => Sys2Proof.Machine.execVstsB64 z a o p s
  | .vstsB128 z a o p => Sys2Proof.Machine.execVstsB128 z a o p s
  | .sld d a imm l => Sys2Proof.Machine.execSld d a imm l s
  | .sst z a imm => Sys2Proof.Machine.execSst z a imm s
  | .tldg d a l p => Sys2Proof.Machine.execTldg d a l p s
  | .pref n a o p => Sys2Proof.Machine.execPref n a o p s
  | .atomAddB32 d a o l p => Sys2Proof.Machine.execAtomAddB32 d a o l p s
  | .atomMinS32 d a o l p => Sys2Proof.Machine.execAtomMinS32 d a o l p s
  | .atomMaxS32 d a o l p => Sys2Proof.Machine.execAtomMaxS32 d a o l p s
  | .atomAndB32 d a o l p => Sys2Proof.Machine.execAtomAndB32 d a o l p s
  | .atomOrB32 d a o l p => Sys2Proof.Machine.execAtomOrB32 d a o l p s
  | .atomXorB32 d a o l p => Sys2Proof.Machine.execAtomXorB32 d a o l p s
  | .atomExchB32 d a o l p => Sys2Proof.Machine.execAtomExchB32 d a o l p s
  | .atomCasB32 d a o l p => Sys2Proof.Machine.execAtomCasB32 d a o l p s
  | .atomAddB64 d a o l p => Sys2Proof.Machine.execAtomAddB64 d a o l p s
  | .atomExchB64 d a o l p => Sys2Proof.Machine.execAtomExchB64 d a o l p s
  | .atomCasB64 d a o l p => Sys2Proof.Machine.execAtomCasB64 d a o l p s
  | .atomAddF32 d a o l p => Sys2Proof.Machine.execAtomAddF32 d a o l p s
  | .redAddB32 z a o p => Sys2Proof.Machine.execRedAddB32 z a o p s
  | .redMinS32 z a o p => Sys2Proof.Machine.execRedMinS32 z a o p s
  | .redMaxS32 z a o p => Sys2Proof.Machine.execRedMaxS32 z a o p s
  | .redOrB32 z a o p => Sys2Proof.Machine.execRedOrB32 z a o p s
  | .redAddB64 z a o p => Sys2Proof.Machine.execRedAddB64 z a o p s
  | .redAddF32 z a o p => Sys2Proof.Machine.execRedAddF32 z a o p s
  | .redAddBf16 z a o p => Sys2Proof.Machine.execRedAddBf16 z a o p s
  | .atomsAddB32 d a o l p => Sys2Proof.Machine.execAtomsAddB32 d a o l p s
  | .atomsAddB32NonReturning d a o p => Sys2Proof.Machine.execAtomsAddB32NonReturning d a o p s
  | .atomsMinS32 d a o l p => Sys2Proof.Machine.execAtomsMinS32 d a o l p s
  | .atomsMinS32NonReturning d a o p => Sys2Proof.Machine.execAtomsMinS32NonReturning d a o p s
  | .atomsMaxS32 d a o l p => Sys2Proof.Machine.execAtomsMaxS32 d a o l p s
  | .atomsMaxS32NonReturning d a o p => Sys2Proof.Machine.execAtomsMaxS32NonReturning d a o p s
  | .atomsExchB32 d a o l p => Sys2Proof.Machine.execAtomsExchB32 d a o l p s
  | .atomsExchB32NonReturning d a o p => Sys2Proof.Machine.execAtomsExchB32NonReturning d a o p s
  | .atomsCasB32 d a o l p => Sys2Proof.Machine.execAtomsCasB32 d a o l p s
  | .atomsCasB32NonReturning d a o p => Sys2Proof.Machine.execAtomsCasB32NonReturning d a o p s
  | .atomsAddF32 d a o l p => Sys2Proof.Machine.execAtomsAddF32 d a o l p s
  | .atomsAddF32NonReturning d a o p => Sys2Proof.Machine.execAtomsAddF32NonReturning d a o p s
  | .redstAnyF32 z a o p => Sys2Proof.Machine.execRedstAnyF32 z a o p s
  | .redstOrdF32 z a o p => Sys2Proof.Machine.execRedstOrdF32 z a o p s
  | .redstAnyB32 z a o p => Sys2Proof.Machine.execRedstAnyB32 z a o p s
  | .cpy q a => Sys2Proof.Machine.execCpy q a s
  | .cpytRow q a => Sys2Proof.Machine.execCpytRow q a s
  | .cpytCol q a => Sys2Proof.Machine.execCpytCol q a s
  | .cpym q a => Sys2Proof.Machine.execCpym q a s
  | .gthB32 q a p => Sys2Proof.Machine.execGthB32 q a p s
  | .gthB64 q a p => Sys2Proof.Machine.execGthB64 q a p s
  | .gthB128 q a p => Sys2Proof.Machine.execGthB128 q a p s
  | .sctB32 q a b p => Sys2Proof.Machine.execSctB32 q a b p s
  | .sctB64 q a b p => Sys2Proof.Machine.execSctB64 q a b p s
  | .sctB128 q a b p => Sys2Proof.Machine.execSctB128 q a b p s
  | .qpushB32 q a p => Sys2Proof.Machine.execQpushB32 q a p s
  | .qpushB64 q a p => Sys2Proof.Machine.execQpushB64 q a p s
  | .qpopB32 q a l p => Sys2Proof.Machine.execQpopB32 q a l p s
  | .qpopB64 q a l p => Sys2Proof.Machine.execQpopB64 q a l p s
  | .qpeekB32 q a l p => Sys2Proof.Machine.execQpeekB32 q a l p s
  | .qpeekB64 q a l p => Sys2Proof.Machine.execQpeekB64 q a l p s
  | .qlen q a => Sys2Proof.Machine.execQlen q a s
  | .bra f => Sys2Proof.Machine.execBra f s
  | .brc k n f => Sys2Proof.Machine.execBrc k n f s
  | .brx a p => Sys2Proof.Machine.execBrx a p s
  | .brxPack a p => Sys2Proof.Machine.execBrxPack a p s
  | .call k n f => Sys2Proof.Machine.execCall k n f s
  | .ret a p => Sys2Proof.Machine.execRet a p s
  | .jmpi a p => Sys2Proof.Machine.execJmpi a p s
  | .loop a imm => Sys2Proof.Machine.execLoop a imm s
  | .exit p => Sys2Proof.Machine.execExit p s
  | .nop => Sys2Proof.Machine.execNop s
  | .yield => Sys2Proof.Machine.execYield s
  | .sleep imm => Sys2Proof.Machine.execSleep imm s
  | .hregS c h => Sys2Proof.Machine.execHregS c h s
  | .hregW c h => Sys2Proof.Machine.execHregW c h s
  | .hregSw c h => Sys2Proof.Machine.execHregSw c h s
  | .hdrop c h => Sys2Proof.Machine.execHdrop c h s
  | .harr c h => Sys2Proof.Machine.execHarr c h s
  | .harrCp c h => Sys2Proof.Machine.execHarrCp c h s
  | .hwait c h => Sys2Proof.Machine.execHwait c h s
  | .harrw c h => Sys2Proof.Machine.execHarrw c h s
  | .htest d c h => Sys2Proof.Machine.execHtest d c h s
  | .commit => Sys2Proof.Machine.execCommit s
  | .fence => Sys2Proof.Machine.execFence s
  | .fenceR => Sys2Proof.Machine.execFenceR s
  | .spawn d a b p => Sys2Proof.Machine.execSpawn d a b p s
  | .launch d a o l p => Sys2Proof.Machine.execLaunch d a o l p s
  | .waitc z a o p => Sys2Proof.Machine.execWaitc z a o p s
  | .rsmp a b => Sys2Proof.Machine.execRsmp a b s
  | .rsmpU d a b => Sys2Proof.Machine.execRsmpU d a b s
  | .ratomAdd d a o l p => Sys2Proof.Machine.execRatomAdd d a o l p s
  | .ratomMax d a o l p => Sys2Proof.Machine.execRatomMax d a o l p s
  | .ratomCas d a o l p => Sys2Proof.Machine.execRatomCas d a o l p s
  | .ratomExch d a o l p => Sys2Proof.Machine.execRatomExch d a o l p s
  | .rredAddB64 z a o p => Sys2Proof.Machine.execRredAddB64 z a o p s
  | .rredAddF32 z a o p => Sys2Proof.Machine.execRredAddF32 z a o p s
  | .rharr a o p => Sys2Proof.Machine.execRharr a o p s
  | .rlaunch d a o l p => Sys2Proof.Machine.execRlaunch d a o l p s
  | .rack => Sys2Proof.Machine.execRack s
  | .coll q a => Sys2Proof.Machine.execColl q a s
  | .tld t b m => Sys2Proof.Machine.execTld t b m s
  | .tldt t b m => Sys2Proof.Machine.execTldt t b m s
  | .mmaE4m3E4m3 t k c r b m => Sys2Proof.Machine.execMmaE4m3E4m3 t k c r b m s
  | .mmaE4m3E5m2 t k c r b m => Sys2Proof.Machine.execMmaE4m3E5m2 t k c r b m s
  | .mmaE5m2E4m3 t k c r b m => Sys2Proof.Machine.execMmaE5m2E4m3 t k c r b m s
  | .mmaE5m2E5m2 t k c r b m => Sys2Proof.Machine.execMmaE5m2E5m2 t k c r b m s
  | .mmaE2m1E2m1 t k c r b m => Sys2Proof.Machine.execMmaE2m1E2m1 t k c r b m s
  | .mmaE4m3E2m1 t k c r b m => Sys2Proof.Machine.execMmaE4m3E2m1 t k c r b m s
  | .mmaBf16Bf16 t k c r b m => Sys2Proof.Machine.execMmaBf16Bf16 t k c r b m s
  | .mmasE4m3E4m3 t k c r b z => Sys2Proof.Machine.execMmasE4m3E4m3 t k c r b z s
  | .mmasE5m2E5m2 t k c r b z => Sys2Proof.Machine.execMmasE5m2E5m2 t k c r b z s
  | .mmasE2m1E2m1 t k c r b z => Sys2Proof.Machine.execMmasE2m1E2m1 t k c r b z s
  | .zacc c m => Sys2Proof.Machine.execZacc c m s
  | .accld c b m => Sys2Proof.Machine.execAccld c b m s
  | .accst c b m => Sys2Proof.Machine.execAccst c b m s
  | .drain c e => Sys2Proof.Machine.execDrain c e s
  | .drainAxpy c b m => Sys2Proof.Machine.execDrainAxpy c b m s
  | .drainRed c b => Sys2Proof.Machine.execDrainRed c b s
  | .setsp p a => Sys2Proof.Machine.execSetsp p a s
  | .swrd d c => Sys2Proof.Machine.execSwrd d c s
  | .mloop k f => Sys2Proof.Machine.execMloop k f s
  | .mbr k f => Sys2Proof.Machine.execMbr k f s
  | .madd d a z n => Sys2Proof.Machine.execMadd d a z n s
  | .mmov d a => Sys2Proof.Machine.execMmov d a s
  | .mmovI d imm => Sys2Proof.Machine.execMmovI d imm s
  | .mharr c h => Sys2Proof.Machine.execMharr c h s
  | .mharrRegister c h => Sys2Proof.Machine.execMharrRegister c h s
  | .mharrDrop c h => Sys2Proof.Machine.execMharrDrop c h s
  | .mhwait c h => Sys2Proof.Machine.execMhwait c h s
  | .mhwaitRegister c h => Sys2Proof.Machine.execMhwaitRegister c h s
  | .mend => Sys2Proof.Machine.execMend s
  | .srd d z => Sys2Proof.Machine.execSrd d z s
  | .swr d z => Sys2Proof.Machine.execSwr d z s
  | .swrPoolrb d => Sys2Proof.Machine.execSwrPoolrb d s
  | .swrPoolsb d => Sys2Proof.Machine.execSwrPoolsb d s
  | .swrPoolcb d => Sys2Proof.Machine.execSwrPoolcb d s
  | .swrTdbase d => Sys2Proof.Machine.execSwrTdbase d s
  | .swrTdcnt d => Sys2Proof.Machine.execSwrTdcnt d s
  | .swrDumpc d => Sys2Proof.Machine.execSwrDumpc d s
  | .swrTaction d => Sys2Proof.Machine.execSwrTaction d s
  | .swrCposh d => Sys2Proof.Machine.execSwrCposh d s
  | .swrCposi d => Sys2Proof.Machine.execSwrCposi d s
  | .swrCpred d => Sys2Proof.Machine.execSwrCpred d s
  | .swrXv d r => Sys2Proof.Machine.execSwrXv d r s
  | .swrXs d r => Sys2Proof.Machine.execSwrXs d r s
  | .swrXa d r => Sys2Proof.Machine.execSwrXa d r s
  | .swrXah d r => Sys2Proof.Machine.execSwrXah d r s
  | .swrXm d r => Sys2Proof.Machine.execSwrXm d r s
  | .eret => Sys2Proof.Machine.execEret s
  | .tlbiAll => Sys2Proof.Machine.execTlbiAll s
  | .tlbiAsid b => Sys2Proof.Machine.execTlbiAsid b s
  | .tlbiVa a b => Sys2Proof.Machine.execTlbiVa a b s
  | .halt a => Sys2Proof.Machine.execHalt a s
  | .clkrd d => Sys2Proof.Machine.execClkrd d s
  | .callh d a b p => Sys2Proof.Machine.execCallh d a b p s
  | .brk imm => Sys2Proof.Machine.execBrk imm s
  | .tmark a imm => Sys2Proof.Machine.execTmark a imm s
  | .cntrd d n => Sys2Proof.Machine.execCntrd d n s
  | .evTrapHeatEntry core => Sys2Proof.Machine.execEvTrapHeatEntry core s
  | .evWatchdogFault team => Sys2Proof.Machine.execEvWatchdogFault team s
  | .evBroadcastFetch team heat => Sys2Proof.Machine.execEvBroadcastFetch team heat s
  | .evSleepExpiry team heat => Sys2Proof.Machine.execEvSleepExpiry team heat s
  | .evLoadLands team heat slot => Sys2Proof.Machine.execEvLoadLands team heat slot s
  | .evStoreAcknowledged team heat imm => Sys2Proof.Machine.execEvStoreAcknowledged team heat imm s
  | .evRedstOrdArrival imm => Sys2Proof.Machine.execEvRedstOrdArrival imm s
  | .evRedstOrdResend imm => Sys2Proof.Machine.execEvRedstOrdResend imm s
  | .evPredictorNearReturn sector => Sys2Proof.Machine.execEvPredictorNearReturn sector s
  | .evCopyEngineAccept core => Sys2Proof.Machine.execEvCopyEngineAccept core s
  | .evScratchpadLineWritten team line => Sys2Proof.Machine.execEvScratchpadLineWritten team line s
  | .evCopyComplete id => Sys2Proof.Machine.execEvCopyComplete id s
  | .evGatherEngineAccept core => Sys2Proof.Machine.execEvGatherEngineAccept core s
  | .evGatherResult id => Sys2Proof.Machine.execEvGatherResult id s
  | .evScatterComplete id => Sys2Proof.Machine.execEvScatterComplete id s
  | .evGatheringClose team role => Sys2Proof.Machine.execEvGatheringClose team role s
  | .evBinTimerExpiry core bin => Sys2Proof.Machine.execEvBinTimerExpiry core bin s
  | .evBinHeatLaunch core bin => Sys2Proof.Machine.execEvBinHeatLaunch core bin s
  | .evLaunchRecordTake team => Sys2Proof.Machine.execEvLaunchRecordTake team s
  | .evGridDependenceSatisfied queue => Sys2Proof.Machine.execEvGridDependenceSatisfied queue s
  | .evTeamPlacement => Sys2Proof.Machine.execEvTeamPlacement s
  | .evUnitStart team => Sys2Proof.Machine.execEvUnitStart team s
  | .evSwapThresholdExpiry team => Sys2Proof.Machine.execEvSwapThresholdExpiry team s
  | .evShadowWritebackDone core => Sys2Proof.Machine.execEvShadowWritebackDone core s
  | .evSwapIn team core => Sys2Proof.Machine.execEvSwapIn team core s
  | .evDetTimeSlice quartet => Sys2Proof.Machine.execEvDetTimeSlice quartet s
  | .evTeamExit team => Sys2Proof.Machine.execEvTeamExit team s
  | .evResampleCompletion grid => Sys2Proof.Machine.execEvResampleCompletion grid s
  | .evTeamRollback team => Sys2Proof.Machine.execEvTeamRollback team s
  | .evDumpBegin core => Sys2Proof.Machine.execEvDumpBegin core s
  | .evDumpFinish core => Sys2Proof.Machine.execEvDumpFinish core s
  | .evEngineGrant core => Sys2Proof.Machine.execEvEngineGrant core s
  | .evMmaStepStart team => Sys2Proof.Machine.execEvMmaStepStart team s
  | .evMmaComplete team => Sys2Proof.Machine.execEvMmaComplete team s
  | .evTileLoadLands team op => Sys2Proof.Machine.execEvTileLoadLands team op s
  | .evAccumulatorWritePerforms team op => Sys2Proof.Machine.execEvAccumulatorWritePerforms team op s
  | .evDrainRowPush team op => Sys2Proof.Machine.execEvDrainRowPush team op s
  | .evCollAccept team heat => Sys2Proof.Machine.execEvCollAccept team heat s
  | .evCollMessageReceipt group k device words data => Sys2Proof.Machine.execEvCollMessageReceipt group k device words data s
  | .evCollResend group => Sys2Proof.Machine.execEvCollResend group s
  | .evCollJoinTimeout group => Sys2Proof.Machine.execEvCollJoinTimeout group s
  | .evCollComplete group => Sys2Proof.Machine.execEvCollComplete group s
  | .evFabricAccessArrival src offset size isWrite data => Sys2Proof.Machine.execEvFabricAccessArrival src offset size isWrite data s
  | .evUpliAtomicArrival src offset op x y => Sys2Proof.Machine.execEvUpliAtomicArrival src offset op x y s
  | .evFabricResponse id reason data => Sys2Proof.Machine.execEvFabricResponse id reason data s
  | .evFabricRetryLaterResend id => Sys2Proof.Machine.execEvFabricRetryLaterResend id s
  | .evFabricAccessTimeout id => Sys2Proof.Machine.execEvFabricAccessTimeout id s
  | .evRelayRequestReceipt packet => Sys2Proof.Machine.execEvRelayRequestReceipt packet s
  | .evRelayResponseReceipt packet => Sys2Proof.Machine.execEvRelayResponseReceipt packet s
  | .evRelayAcknowledgementReceipt packet => Sys2Proof.Machine.execEvRelayAcknowledgementReceipt packet s
  | .evRelayCloseReceipt packet => Sys2Proof.Machine.execEvRelayCloseReceipt packet s
  | .evRelayRetransmission asid dev serial => Sys2Proof.Machine.execEvRelayRetransmission asid dev serial s
  | .evRelayRetryLaterResend asid dev serial => Sys2Proof.Machine.execEvRelayRetryLaterResend asid dev serial s
  | .evRelayRetryLaterTimeout asid dev serial => Sys2Proof.Machine.execEvRelayRetryLaterTimeout asid dev serial s
  | .evRelayCloseResend asid dev => Sys2Proof.Machine.execEvRelayCloseResend asid dev s
  | .evRelayRestart die => Sys2Proof.Machine.execEvRelayRestart die s
  | .evPageWalkComplete asid va => Sys2Proof.Machine.execEvPageWalkComplete asid va s
  | .evEqualityDigestCompare team h0 h1 => Sys2Proof.Machine.execEvEqualityDigestCompare team h0 h1 s
  | .evStallSample core sched => Sys2Proof.Machine.execEvStallSample core sched s
  | .evTraceDrain src => Sys2Proof.Machine.execEvTraceDrain src s
  | .evPacerMeasurement die avg1 avg10 temp => Sys2Proof.Machine.execEvPacerMeasurement die avg1 avg10 temp s
  | .evVfStateChangeDone die => Sys2Proof.Machine.execEvVfStateChangeDone die s
  | .evAgeingCheck quartet drift => Sys2Proof.Machine.execEvAgeingCheck quartet drift s
  | .evPatrolScrub unit outcome => Sys2Proof.Machine.execEvPatrolScrub unit outcome s
  | .evLaunchFrameInline tag ack payload => Sys2Proof.Machine.execEvLaunchFrameInline tag ack payload s
  | .evLaunchFramePointer tag ack payload => Sys2Proof.Machine.execEvLaunchFramePointer tag ack payload s
  | .evHostRead tag ack scale payload => Sys2Proof.Machine.execEvHostRead tag ack scale payload s
  | .evHostWrite tag ack scale payload => Sys2Proof.Machine.execEvHostWrite tag ack scale payload s
  | .evTrapCallReply tag ack payload => Sys2Proof.Machine.execEvTrapCallReply tag ack payload s
  | .evFrameResend => Sys2Proof.Machine.execEvFrameResend s
  | .evWavelengthFailure => Sys2Proof.Machine.execEvWavelengthFailure s
  | .evLinkDown => Sys2Proof.Machine.execEvLinkDown s
  | .evLinkRestored => Sys2Proof.Machine.execEvLinkRestored s
  | .evUalinkPortTraining port lanes => Sys2Proof.Machine.execEvUalinkPortTraining port lanes s
  | .evColdReset => Sys2Proof.Machine.execEvColdReset s
  | .evForcedWarmReset => Sys2Proof.Machine.execEvForcedWarmReset s
  | .evCreateContext tag asid root places save lap lapseg log loglen relayc lspill bspill wdog eqchk => Sys2Proof.Machine.execEvCreateContext tag asid root places save lap lapseg log loglen relayc lspill bspill wdog eqchk s
  | .evRemoveContext tag asid => Sys2Proof.Machine.execEvRemoveContext tag asid s
  | .evReleaseFrozenContext tag asid => Sys2Proof.Machine.execEvReleaseFrozenContext tag asid s
  | .evInvalidateTranslationsAsid tag asid => Sys2Proof.Machine.execEvInvalidateTranslationsAsid tag asid s
  | .evInvalidateTranslationsVa tag asid va => Sys2Proof.Machine.execEvInvalidateTranslationsVa tag asid va s
  | .evWriteDomainTableEntry tag dev entry => Sys2Proof.Machine.execEvWriteDomainTableEntry tag dev entry s
  | .evWriteExportTableEntry tag index entry => Sys2Proof.Machine.execEvWriteExportTableEntry tag index entry s
  | .evWriteGroupTableEntry tag index entry => Sys2Proof.Machine.execEvWriteGroupTableEntry tag index entry s
  | .evWriteRemapTable tag quartets => Sys2Proof.Machine.execEvWriteRemapTable tag quartets s
  | .evSetThentry tag core entry => Sys2Proof.Machine.execEvSetThentry tag core entry s
  | .evTraceSetup tag base len read kinds k => Sys2Proof.Machine.execEvTraceSetup tag base len read kinds k s
  | .evEventCounterSelect tag core imm source => Sys2Proof.Machine.execEvEventCounterSelect tag core imm source s
  | .evEventCounterZero tag core imm => Sys2Proof.Machine.execEvEventCounterZero tag core imm s
  | .evReadBlackBox tag => Sys2Proof.Machine.execEvReadBlackBox tag s
  | .evSetGtc tag value => Sys2Proof.Machine.execEvSetGtc tag value s
  | .evSetPowerLimit tag watts => Sys2Proof.Machine.execEvSetPowerLimit tag watts s
  | .evCopyFrame tag old new => Sys2Proof.Machine.execEvCopyFrame tag old new s
  | .evSetScaleMetadataMode tag frame layout => Sys2Proof.Machine.execEvSetScaleMetadataMode tag frame layout s
  | .evAttest tag nonce => Sys2Proof.Machine.execEvAttest tag nonce s
  | .evFirmwareUpdate tag stage image => Sys2Proof.Machine.execEvFirmwareUpdate tag stage image s
  | .evWarmReset tag => Sys2Proof.Machine.execEvWarmReset tag s
  | .evStop tag team => Sys2Proof.Machine.execEvStop tag team s
  | .evRun tag team => Sys2Proof.Machine.execEvRun tag team s
  | .evRunto tag team lap heat stride => Sys2Proof.Machine.execEvRunto tag team lap heat stride s
  | .evRuntoPointReached team => Sys2Proof.Machine.execEvRuntoPointReached team s
  | .evStep tag team heat => Sys2Proof.Machine.execEvStep tag team heat s
  | .evQstep tag team heat quads => Sys2Proof.Machine.execEvQstep tag team heat quads s
  | .evRead tag team sel reg => Sys2Proof.Machine.execEvRead tag team sel reg s
  | .evWrite tag team sel reg value => Sys2Proof.Machine.execEvWrite tag team sel reg value s
  | .evReturn tag team => Sys2Proof.Machine.execEvReturn tag team s
  | .evArithmeticCycle core => Sys2Proof.Machine.execEvArithmeticCycle core s
  | .evGtcTick => Sys2Proof.Machine.execEvGtcTick s
  | .evZaccComplete team op => Sys2Proof.Machine.execEvZaccComplete team op s
  | .evAccumulatorTileRestore team tile => Sys2Proof.Machine.execEvAccumulatorTileRestore team tile s
  | .evWavelengthRestored => Sys2Proof.Machine.execEvWavelengthRestored s
  | .evOpinaFrameDrop frame => Sys2Proof.Machine.execEvOpinaFrameDrop frame s
  | .evDebuggerAttach tag asid => Sys2Proof.Machine.execEvDebuggerAttach tag asid s

end Sys2Proof.Machine
end

