-- ==== Sys2Proof/Machine/Policy.lean ====
section
/-! DEFINITION. One turn of the machine, and the order in which the machine takes its own turns when no input is
pending: events that are due in the device, then the trap heats, sequencers and heats (R404), then a
cycle of a busy core. What only the outside world causes (frames, fabric traffic, timers, the clock) comes
as an input. The order is the model's (assumption log entry 2). -/

namespace Sys2Proof.Machine

noncomputable section

/-- Whether the pacers withhold an issuer's slot in this cycle (R536): a heat's; sequencers and the trap heat
have no scheduler's slots to lose. -/
def State.slotWithheld (s : State) (w : Issuer) : Bool :=
  match w with
  | .heat t _ => match s.team? t with
    | some x => match x.core? with
      | some c => s.withholds c
      | none => false
    | none => false
  | _ => false

/-- A heat's scheduler had a word ready that the pacers withheld (R405). -/
def State.noteReady (s : State) (w : Issuer) : State :=
  match w with
  | .heat t u => match s.team? t with
    | some x => match x.core? with
      | some c => s.putCore c { s.core c with readied := (u % 4) :: (s.core c).readied }
      | none => s
    | none => s
  | _ => s

/-! ### Room for the lap (R478, R480, R544) -/

/-- Bytes of the undo journal of a lap, by its granules (R481). -/
def Team.journalBytes (x : Team) : Nat :=
  128 * x.body.heats.foldl (fun n (e : Nat × Heat) => n + e.2.journalled.length) 0 + 128 * x.body.lineJournal.length +
    16384 * x.body.tileJournal.length + 128 * (distinct (x.undo.map (fun e => e.1 / 128))).length

/-- Bytes of the values in the load-value log of a lap: a tile's or a lane's. -/
def Team.valueBytes (x : Team) : Nat :=
  x.log.foldl (fun n e => n + (if e.heat = 255 ∧ e.kind = 0 then 16384 else 32)) 0 + 128 * x.deliveries.length

/-- Bytes of journal and log, `per` of them for each entry of the log beside its value. -/
def Team.lapBytes (x : Team) (per : Nat) : Nat :=
  x.journalBytes + x.valueBytes + per * (x.log.length + x.deliveries.length)

/-- Bytes of the commit share that the deferred blocks leave to journal and log (R544). -/
def Team.freeShare (x : Team) : Nat := x.commitShare - 256 * x.blocks.length

/-- Bytes of an entry of the log beside its value. -/
def entryBytes : Nat := min 992 Config.logEntryBytes

/-- Whether journal and log fit in the share and the team's segment of the lap area (R544). -/
def State.lapFits (s : State) (t : Nat) : Bool :=
  match s.team? t with
  | none => true
  | some x => match s.ctx? x.asid with
    | none => true
    | some c => decide (x.lapBytes 992 ≤ x.freeShare + c.lapSeg) || decide (x.lapBytes entryBytes ≤ x.freeShare + c.lapSeg)

/-- What moves to the segment is counted by event source 0x0E (R520, R544). -/
def State.noteSpill (s : State) (t : Nat) : State :=
  match s.team? t with
  | none => s
  | some x => match x.core? with
    | none => s
    | some c =>
      if x.lapBytes 992 ≤ x.freeShare + x.spilled ∨ x.lapBytes entryBytes ≤ x.freeShare + x.spilled then s
      else
        let n := x.lapBytes entryBytes - x.freeShare
        (s.putTeam t { x with spilled := n }).count c 0x0E (n - x.spilled)

/-- Kind of the note by which a checker learns that its primary took a commit point before a word for want of room
(R511). -/
def closeKind : Nat := 15

/-- Whether a checker's primary took a commit point before the word that a unit of the checker issues next. -/
def State.closesHere (s : State) : Bool :=
  match s.curTeam.bind s.team? with
  | none => false
  | some x => (x.feed.any (fun e => e.1 == x.lap.toNat && e.2.kind == closeKind && e.2.heat == s.curHeatId &&
      e.2.stride == x.countOf s.curHeatId))

/-- The commit point that a word without room takes before it (R478): the word belongs to the new lap. -/
def State.closeLap (s : State) (t : Nat) : State :=
  let n := match s.team? t with
    | some x => x.countOf s.curHeatId
    | none => 0
  ((s.noteRead closeKind n 0 0 8 0).flush t).newLap t

/-- Run a prepared word, after a commit point where its journal and log entries would not fit (R478, R544): the
state in which it ran, and what it did. -/
def runFitting (i : Instr) (s : State) : State × Out :=
  match s.curTeam with
  | none => (s, exec i s)
  | some t =>
    let early := s.closesHere
    let s0 := if early then (s.flush t).newLap t else s
    match exec i s0 with
    | .next s1 =>
      if early ∨ s1.lapFits t ∨ s.mute then (s0, .next (s1.noteSpill t))
      else if s.commitHeld t then (s, .next s)
      else
        let s2 := s.closeLap t
        match exec i s2 with
        | .next s3 => (s2, .next (s3.noteSpill t))
        | o => (s2, o)
    | o => (s0, o)

/-! ### Faults of one cycle (R472) -/

/-- The core of an issuer. -/
def State.coreOf (s : State) (w : Issuer) : Nat :=
  match w with
  | .heat t _ => ((s.team? t).bind Team.core?).getD 0
  | .seq t => ((s.team? t).bind Team.core?).getD 0
  | .trap c => c

/-- The scheduler of a heat whose word trapped has had its slot of the cycle. -/
def State.useSlot (s : State) (c : Nat) (w : Issuer) : State :=
  match w with
  | .heat _ u => s.putCore c { s.core c with issued := (u % 4) :: (s.core c).issued }
  | _ => s

/-- A word of another unit of a core that freezes in this cycle: it does not issue, but a fault that it has comes
into question for the report (R472). -/
def State.probe (s : State) (w : Issuer) : State :=
  let c := s.coreOf w
  let open_ := s.putCore c { s.core c with frozen := none, frozenAt := none }
  let after := match prepare open_ w with
    | .stay s1 => s1
    | .run s1 i => match (runFitting i s1).2 with
      | .next s2 => s2
      | _ => s1
  match (after.core c).frozen with
  | none => s
  | some r =>
    let s1 := s.raiseOn c r
    if s1.stamp = s.stamp then s else s1.useSlot c w

/-! ### One turn -/

/-- Run the next word of an issuer: its preparation, run and settling; in a withheld slot a word that could issue is
only noted. -/
def runIssue (w : Issuer) (s : State) : Out :=
  match prepare s w with
  | .stay s1 => .next (if (s.core (s.coreOf w)).frozen = none ∧ (s1.core (s.coreOf w)).frozen ≠ none then
      s1.useSlot (s.coreOf w) w else s1)
  | .run s1 i =>
    let r := runFitting i s1
    match r.2 with
    | .next s2 =>
      if s.slotWithheld w ∧ s2.stamp ≠ s.stamp then .next (s.noteReady w)
      else
        let s3 := settleIssue r.1 s2
        .next (if (s1.core s1.cur.core).frozen = none ∧ (s3.core s1.cur.core).frozen ≠ none then
          s3.useSlot s1.cur.core w else s3)
    | o => o

/-- A hardware error arises (R375, R473). -/
def State.upset (s : State) (u : Upset) : State :=
  match u with
  | .row t h r => s.modHeat t h (fun y => { y with badRows := noteIn y.badRows r })
  | .line t l => s.modTeam t (fun x => { x with body := { x.body with spadPoison := noteIn x.body.spadPoison l } })
  | .tile t n => s.modTeam t (fun x => { x with body := { x.body with badTiles := noteIn x.body.badTiles n } })
  | .journal t => s.modTeam t (fun x => { x with badJournal := true })
  | .log t => s.modTeam t (fun x => { x with badLog := true })
  | .image t => s.modTeam t (fun x => { x with badImage := true })
  | .result c f => s.putCore c { s.core c with flips := (s.core c).flips ++ [f] }

/-- Whether an issuer's core freezes in this cycle (R472). -/
def State.probes (s : State) (w : Issuer) : Bool :=
  match w with
  | .trap _ => false
  | _ => (s.core (s.coreOf w)).freezing

/-- A turn before what the journal engine has to report. -/
def rawTurn (t : Turn) (s : State) : Out :=
  match t with
  | .event i => exec i s
  | .issue w => if s.probes w then .next (s.probe w) else runIssue w s
  | .upset u => .next (s.upset u).tick

/-- What the journal engine has read with an uncorrectable error, as it recorded old contents in this turn, raises
class 0x23, and the journal has the error (R473, R485). -/
def State.settleJournal (s : State) : State :=
  match s.teams.find? (fun e => e.2.body.journalFault.isSome) with
  | none => s
  | some (t, x) =>
    (s.putTeam t { x with badJournal := true, body := { x.body with journalFault := none } }).raiseAsync t
      { cls := 0x23, info := BitVec.ofNat 64 (x.body.journalFault.getD 0) }

/-- Run one turn: an event, an issue, or a hardware error. -/
def runTurn (t : Turn) (s : State) : Out :=
  match rawTurn t s with
  | .next s1 => .next s1.settleJournal
  | o => o

/-- Events due in a heat: results, acknowledgements, the end of a sleep. -/
def heatTurns (t u : Nat) (h : Heat) : List Turn :=
  ((upto h.slots.length).map (fun i => Turn.event (.evLoadLands t u i))) ++
    ((upto h.acks.length).map (fun i => Turn.event (.evStoreAcknowledged t u i))) ++
    (if h.sleepUntil.isSome then [.event (.evSleepExpiry t u)] else [])

/-- Events due in a sequencer word. -/
def opTurns (t : Nat) (o : SeqOp) : List Turn :=
  match o.kind with
  | .tileLoad _ _ => [.event (.evTileLoadLands t o.stamp)]
  | .accLoad _ => [.event (.evTileLoadLands t o.stamp)]
  | .zacc _ _ => [.event (.evZaccComplete t o.stamp)]
  | .drain _ _ _ => [.event (.evDrainRowPush t o.stamp)]
  | .mma _ _ _ _ _ _ _ _ _ _ _ _ => [.event (.evMmaStepStart t), .event (.evMmaComplete t)]
  | _ => [.event (.evAccumulatorWritePerforms t o.stamp)]

/-- Events due in a team. -/
def teamTurns (t : Nat) (x : Team) : List Turn :=
  [.event (.evUnitStart t), .event (.evTeamRollback t), .event (.evRuntoPointReached t)] ++
    x.body.heats.foldl (fun acc (e : Nat × Heat) => acc ++ heatTurns t e.1 e.2) [] ++
    x.body.seq.ops.foldl (fun acc (o : SeqOp) => acc ++ opTurns t o) [] ++
    x.restoring.map (fun l => .event (.evScratchpadLineWritten t l)) ++
    x.absent.map (fun e => .event (.evScratchpadLineWritten t e.1)) ++
    x.restoringTiles.map (fun n => .event (.evAccumulatorTileRestore t n)) ++
    (if x.launches.isEmpty then [] else [.event (.evLaunchRecordTake t)]) ++
    ((upto 3).map (fun r => .event (.evGatheringClose t r))) ++
    x.body.heats.map (fun e => .event (.evCollAccept t e.1)) ++
    (if x.isOverdue then [.event (.evSwapThresholdExpiry t)] else []) ++
    [.event (.evTeamExit t)]

/-- A swapped-out team may come back to any core. -/
def backTurns (t : Nat) (x : Team) : List Turn :=
  match x.res with
  | .saved => if x.rank = 0 then (upto Config.cores).map (fun c => .event (.evSwapIn t c)) else []
  | _ => []

/-- Cores that hold a team or are frozen. -/
def State.busyCores (s : State) : List Nat :=
  (upto Config.cores).filter (fun c => s.coreBusy c || (s.core c).frozen.isSome || (s.core c).dump.isSome)

/-- Events due in a core. -/
def coreTurns (s : State) (c : Nat) : List Turn :=
  [.event (.evTrapHeatEntry c), .event (.evDumpBegin c), .event (.evDumpFinish c), .event (.evCopyEngineAccept c),
    .event (.evGatherEngineAccept c), .event (.evEngineGrant c)] ++
    heatTurns (trapBase + c) 0 (s.core c).trap ++
    (upto (s.core c).bins.length).map (fun b => .event (.evBinHeatLaunch c b)) ++
    (upto (s.core c).bins.length).map (fun b => .event (.evBinTimerExpiry c b)) ++
    [.event (.evShadowWritebackDone c)]

/-- Page walks under way (R494). -/
def State.walkTurns (s : State) : List Turn :=
  (s.walks.filter (fun k => k.result.isNone)).map (fun k =>
    .event (.evPageWalkComplete k.asid (BitVec.ofNat 72 (65536 * k.page))))

/-- Events due in engines, queues and grids. -/
def deviceTurns (s : State) : List Turn :=
  s.walkTurns ++
  s.engines.foldl (fun acc (e : EngCmd) => acc ++ [.event (.evGatherResult e.id), .event (.evScatterComplete e.id),
      .event (.evCopyComplete e.id)] ++ e.lines.map (fun l => .event (.evScratchpadLineWritten l.1 l.2))) [] ++
    (upto s.ordMsgs.length).map (fun i => .event (.evRedstOrdArrival i)) ++
    (upto s.ordMsgs.length).map (fun i => .event (.evRedstOrdResend i)) ++
    s.colls.map (fun c => .event (.evCollComplete c.group)) ++
    s.gridQueues.map (fun e => .event (.evGridDependenceSatisfied e.1)) ++
    s.grids.map (fun e => .event (.evResampleCompletion e.1)) ++
    [.event .evTeamPlacement] ++
    s.teams.foldl (fun acc (e : Nat × Team) => acc ++ backTurns e.1 e.2) [] ++
    (s.teams.filter (fun e => e.2.checks.isSome)).map (fun e =>
      let d := (e.2.ours.headD (0, 0#64, 0#64)).2
      .event (.evEqualityDigestCompare e.1 d.1 d.2)) ++
    (upto 131).map (fun c => .event (.evTraceDrain c))

/-- The heats of a core in the order of R404: the least recently issued first (fuel: their number). -/
def byAge : Nat → List (Nat × Nat × Heat) → List (Nat × Nat × Heat)
  | 0, _ => []
  | f + 1, l => match leastRecent l with
    | none => []
    | some e => e :: byAge f (l.filter (fun x => x.1 != e.1 || x.2.1 != e.2.1))

/-- A scheduler's heats in the order in which it tries them: the least recently issued first, a heat that
yielded last (R19, R404). -/
def State.schedOrder (s : State) (c k : Nat) : List (Nat × Nat) :=
  let l := s.schedHeats c k
  let o := byAge l.length l
  (o.filter (fun e => !e.2.2.yielded) ++ o.filter (fun e => e.2.2.yielded)).map (fun e => (e.1, e.2.1))

/-- Whether a heat's next word could issue now. -/
def State.eligible (s : State) (e : Nat × Nat) : Bool :=
  match runTurn (.issue (.heat e.1 e.2)) s with
  | .next s1 => s1.stamp != s.stamp
  | _ => true

/-- The heats that the schedulers of a core pick in this cycle, in ascending HEATID (R49, R404). -/
def State.picks (s : State) (c : Nat) : List (Nat × Nat) :=
  let ps := (upto 4).filterMap (fun k => (s.schedOrder c k).find? s.eligible)
  (upto 16).foldl (fun acc u => acc ++ ps.filter (fun e => e.2 == u)) []

/-- The issues of a core: its trap heat, its sequencers, the heats its schedulers pick, then the others, whose
attempts only record what holds them. -/
def issueTurns (s : State) (c : Nat) : List Turn :=
  let ps := s.picks c
  let hs := (upto 4).foldl (fun acc k => acc ++ s.schedOrder c k) []
  [Turn.issue (.trap c)] ++ (s.residents c).map (fun t => Turn.issue (.seq t)) ++
    (ps ++ hs.filter (fun e => !ps.contains e)).map (fun e => Turn.issue (.heat e.1 e.2))

/-- The busy core that is furthest behind in cycles. -/
def State.nextCycle (s : State) : List Turn :=
  match s.busyCores with
  | [] => []
  | c :: t => [.event (.evArithmeticCycle (t.foldl (fun b k =>
      if (s.core k).cycles.toNat < (s.core b).cycles.toNat then k else b) c))]

/-- The machine's own turns, in the order it tries them. -/
def State.ownTurns (s : State) : List Turn :=
  s.teams.foldl (fun acc (e : Nat × Team) => acc ++ teamTurns e.1 e.2) [] ++
    s.busyCores.foldl (fun acc c => acc ++ coreTurns s c) [] ++ deviceTurns s ++
    s.busyCores.foldl (fun acc c => acc ++ issueTurns s c) [] ++ s.nextCycle

/-- Take the first turn that has an effect; one that only holds leaves its cause behind. -/
def firstEffect : List Turn → State → Out
  | [], s => .next s
  | t :: l, s => match runTurn t s with
    | .next s1 => if s1.stamp = s.stamp then firstEffect l s1 else .next s1
    | o => o

/-- One step of the machine (R404, R405): the oldest pending input, else the first of its own turns that has
an effect. -/
def takeTurn (s : State) : Out :=
  match s.inputs with
  | t :: l => runTurn t { s with inputs := l }
  | [] => firstEffect s.ownTurns s

end

end Sys2Proof.Machine
end

