-- ==== Sys2Proof/Machine/Step.lean ====
section
/-! DEFINITION. One step of the machine, and the state whose next step runs a given word. -/

namespace Sys2Proof.Machine

noncomputable section

/-- One step: the oldest pending input, or the machine's own next turn. -/
def step (s : State) : Host.Outcome State Fault Refusal := takeTurn s

/-- `s` with the instruction word `w` (its low `nbits` bits) in a clause of its own, where the next step
fetches it. -/
def State.withFetchWord (s : State) (nbits w : Nat) : State := s.load (w % 2 ^ nbits)

end

end Sys2Proof.Machine
end

