-- ==== Sys2Proof/Safety.lean ====
section
/-! DEFINITION. The terms in which claims are stated: the invariant of the machine, what an issue leaves
unchanged, and tables that say what each word of a family computes. -/

namespace Sys2Proof.Machine

/-- The invariant of the machine: memory is in its canonical form. -/
def State.Inv (s : State) : Prop := Memory.wf s.mem = true

/-! ### Frames -/

/-- A team without its heats. -/
def Team.still (x : Team) : Team := { x with body := { x.body with heats := [] } }

/-- A core without its trap heat and the bookkeeping of an issue (schedulers used, event counts). -/
def Core.still (k : Core) : Core := { k with trap := {}, issued := [], lastHeat := none, evCnt := [] }

/-- No wrong result of the core's vector arithmetic lies ahead (R375). -/
def State.Exact (s : State) : Prop := ∀ x ∈ (s.core s.cur.core).flips, x.reason ≠ 1

/-- The device without its teams, its cores and the count of its steps. -/
def State.device (s : State) : State := { s with teams := [], cores := [], stamp := 0 }

/-- A heat without its lanes, its registers, and what every issue changes. -/
def Heat.still (h : Heat) : Heat :=
  { h with
    lanes := [], rows := [], preds := [], s := [], a := [], slots := [], stride := 0#64, refKey := 31, turn := none
    lastIssue := none, resumed := 0#32, hold := 0, journalled := [] }

/-- Whether heat g of team u (or the trap heat of core u − `trapBase`) is the issuer. -/
def State.issues (s : State) (u g : Nat) : Prop :=
  match s.cur.who with
  | .heat t h => u = t ∧ (trapBase ≤ t ∨ g = h)
  | .trap c => u = trapBase + c
  | .seq _ => False

/-- From s to t nothing changes but the issuing heat and the bookkeeping of an issue: every other heat, every
sequencer, scratchpad and queue of every team, every core, memory, and every other part of the device. -/
def OnlyIssuer (s t : State) : Prop :=
  t.device = s.device ∧
    (∀ u g, ¬ s.issues u g → t.heat? u g = s.heat? u g) ∧
    (∀ u, (t.team? u).map Team.still = (s.team? u).map Team.still) ∧
    (∀ c, (t.core c).still = (s.core c).still) ∧
    ∀ a, readByte t.mem a = readByte s.mem a

/-- Every vector register keeps its value. -/
def SameV (h h' : Heat) : Prop := ∀ r l, l < 32 → h'.v r l = h.v r l

/-- Every predicate keeps its value. -/
def SameK (h h' : Heat) : Prop := ∀ r l, l < 32 → h'.k r l = h.k r l

/-- Every scalar register keeps its value. -/
def SameS (h h' : Heat) : Prop := ∀ r, h'.sr r = h.sr r

/-- Every address register keeps its value. -/
def SameA (h h' : Heat) : Prop := ∀ r, h'.ar r = h.ar r

/-- Every register of the heat keeps its value. -/
def SameRegs (h h' : Heat) : Prop := SameV h h' ∧ SameK h h' ∧ SameS h h' ∧ SameA h h'

/-- The heat after a word that went on: STRIDE is one higher, every window lost its word, the active lanes
moved by `move`, every other lane stands where it stood, and its queues, pending work, hurdle memberships
and budget are as before; the registers are for the statement to say. -/
def Retired (s : State) (h h' : Heat) (move : Nat → Lane → Lane) : Prop :=
  h'.still = h.still ∧
    h'.stride = h.stride + 1#64 ∧
    h'.slots = h.slots.map (fun x => x.count s.cur.active s.stamp) ∧
    ∀ l, h'.lane l = if inMask s.cur.active l then
        { move l (h.lane l) with lastCycle := some (s.core s.cur.core).cycles.toNat }
      else h.lane l

/-- The issue of `i` in s ends with the next state t, in which the issuing heat h has become h'. -/
def Issued (i : Instr) (s t : State) (h' : Heat) : Prop :=
  exec i s = .next t ∧ t.curHeat? = some h' ∧ t.stamp = s.stamp + 1

/-- A lane goes on to its next word. -/
def State.onward (s : State) : Nat → Lane → Lane := fun _ x => x.goOn s.stamp

end Sys2Proof.Machine

namespace Sys2Proof.Claims

open Sys2Proof.Machine

/-! ### Scalar and address words -/

/-- What a scalar word does: its destination, every scalar and vector register it names, its value. -/
structure ScalarForm where
  dest : Nat
  uses : List Nat
  value : Heat → W64

/-- Uses of a form as (first, count). -/
def single (l : List Nat) : List (Nat × Nat) := l.map (fun r => (r, 1))

/-- s(D) from s(A) and s(B). -/
def s2 (d a b : BitVec 6) (f : W64 → W64 → W64) : Option ScalarForm :=
  some { dest := d.toNat, uses := [d.toNat, a.toNat, b.toNat], value := fun h => f (h.sr a.toNat) (h.sr b.toNat) }

/-- s(D) from s(A). -/
def s1 (d a : BitVec 6) (f : W64 → W64) : Option ScalarForm :=
  some { dest := d.toNat, uses := [d.toNat, a.toNat], value := fun h => f (h.sr a.toNat) }

/-- s(D) from itself, or from nothing. -/
def s0 (d : BitVec 6) (f : W64 → W64) : Option ScalarForm :=
  some { dest := d.toNat, uses := [d.toNat], value := fun h => f (h.sr d.toNat) }

/-- 1 or 0. -/
def bit64 (b : Bool) : W64 := if b then 1#64 else 0#64

/-- Left shift of a w-bit value by an unsigned count (R115). -/
def shiftL {w : Nat} (x : BitVec w) (c : Nat) : BitVec w := if c ≥ w then 0#w else x <<< c

/-- Right shift with zero fill (R115). -/
def shiftR {w : Nat} (x : BitVec w) (c : Nat) : BitVec w := if c ≥ w then 0#w else x >>> c

/-- Right shift with sign fill (R115): floor of the signed value by 2^c. -/
def shiftA {w : Nat} (x : BitVec w) (c : Nat) : BitVec w :=
  if c ≥ w then (if x.msb then BitVec.allOnes w else 0#w) else BitVec.ofInt w (x.toInt / 2 ^ c)

/-- The scalar words (R114–R120, R124, R140). -/
def scalarForm (c : Cur) : Instr → Option ScalarForm
  | .sadd d a b => s2 d a b (fun x y => x + y)
  | .ssub d a b => s2 d a b (fun x y => x - y)
  | .smul d a b => s2 d a b (fun x y => x * y)
  | .smulhS64 d a b => s2 d a b (fun x y => BitVec.ofInt 64 (x.toInt * y.toInt / 2 ^ 64))
  | .smulhN64 d a b => s2 d a b (fun x y => BitVec.ofNat 64 (x.toNat * y.toNat / 2 ^ 64))
  | .sand d a b => s2 d a b (fun x y => x &&& y)
  | .sor d a b => s2 d a b (fun x y => x ||| y)
  | .sxor d a b => s2 d a b (fun x y => x ^^^ y)
  | .sshl d a b => s2 d a b (fun x y => shiftL x y.toNat)
  | .sshr d a b => s2 d a b (fun x y => shiftR x y.toNat)
  | .ssra d a b => s2 d a b (fun x y => shiftA x y.toNat)
  | .sminS64 d a b => s2 d a b (fun x y => if x.toInt < y.toInt then x else y)
  | .sminN64 d a b => s2 d a b (fun x y => if x.toNat < y.toNat then x else y)
  | .smaxS64 d a b => s2 d a b (fun x y => if x.toInt < y.toInt then y else x)
  | .smaxN64 d a b => s2 d a b (fun x y => if x.toNat < y.toNat then y else x)
  | .ssel d a b => some {
      dest := d.toNat, uses := [d.toNat, a.toNat, b.toNat]
      value := fun h => if h.sr d.toNat ≠ 0#64 then h.sr a.toNat else h.sr b.toNat }
  | .saddImm d a i => s1 d a (fun x => x + i.signExtend 64)
  | .ssubImm d a i => s1 d a (fun x => x - i.signExtend 64)
  | .smulImm d a i => s1 d a (fun x => x * i.signExtend 64)
  | .sandImm d a i => s1 d a (fun x => x &&& i.signExtend 64)
  | .sorImm d a i => s1 d a (fun x => x ||| i.signExtend 64)
  | .sxorImm d a i => s1 d a (fun x => x ^^^ i.signExtend 64)
  | .sshlImm d a i => s1 d a (fun x => shiftL x i.toNat)
  | .sshrImm d a i => s1 d a (fun x => shiftR x i.toNat)
  | .ssraImm d a i => s1 d a (fun x => shiftA x i.toNat)
  | .sminS64Imm d a i => s1 d a (fun x => if x.toInt < i.toInt then x else i.signExtend 64)
  | .smaxS64Imm d a i => s1 d a (fun x => if x.toInt < i.toInt then i.signExtend 64 else x)
  | .scmpEq d a b => s2 d a b (fun x y => bit64 (decide (x = y)))
  | .scmpNe d a b => s2 d a b (fun x y => bit64 (decide (x ≠ y)))
  | .scmpLtS64 d a b => s2 d a b (fun x y => bit64 (decide (x.toInt < y.toInt)))
  | .scmpLeS64 d a b => s2 d a b (fun x y => bit64 (decide (x.toInt ≤ y.toInt)))
  | .scmpLtN64 d a b => s2 d a b (fun x y => bit64 (decide (x.toNat < y.toNat)))
  | .scmpLeN64 d a b => s2 d a b (fun x y => bit64 (decide (x.toNat ≤ y.toNat)))
  | .smov d a => s1 d a (fun x => x)
  | .smovi d i => s0 d (fun _ => i.signExtend 64)
  | .sluiH1 d i => s0 d (fun x => x.extractLsb' 32 32 ++ i ++ x.extractLsb' 0 16)
  | .sluiH2 d i => s0 d (fun x => x.extractLsb' 48 16 ++ i ++ x.extractLsb' 0 32)
  | .sluiH3 d i => s0 d (fun x => i ++ x.extractLsb' 0 48)
  | .sclz d a => s1 d a (fun x => BitVec.ofNat 64 (if x = 0#64 then 64 else 63 - Nat.log2 x.toNat))
  | .spopc d a => s1 d a (fun x => BitVec.ofNat 64 ((List.range 64).filter (fun i => x.getLsbD i)).length)
  | .acmp d a b => some {
      dest := d.toNat, uses := [d.toNat]
      value := fun h =>
        if h.ar a.toNat = h.ar b.toNat then 0#64
        else if (h.ar a.toNat).toNat > (h.ar b.toNat).toNat then 1#64 else BitVec.allOnes 64 }
  | .kpopc d a => some {
      dest := d.toNat, uses := [d.toNat]
      value := fun h => BitVec.ofNat 64 ((lanesOf c.active).filter (fun l => h.k a.toNat l)).length }
  | _ => none

/-- What an address word does: its destination, the scalars it names, its value. -/
structure AddrForm where
  dest : Nat
  uses : List Nat := []
  value : Heat → Addr

/-- The address words (R121–R123). -/
def addrForm : Instr → Option AddrForm
  | .aadd d a b => some {
      dest := d.toNat, uses := [b.toNat]
      value := fun h => h.ar a.toNat + (h.sr b.toNat).signExtend 72 }
  | .aaddImm d a i => some { dest := d.toNat, value := fun h => h.ar a.toNat + i.signExtend 72 }
  | .amovA d a => some { dest := d.toNat, value := fun h => h.ar a.toNat }
  | .amovS d a => some { dest := d.toNat, uses := [a.toNat], value := fun h => 0#8 ++ h.sr a.toNat }
  | .aldiH0 d i => some { dest := d.toNat, value := fun _ => 0#56 ++ i }
  | .aldiH1 d i => some {
      dest := d.toNat
      value := fun h => (h.ar d.toNat).extractLsb' 32 40 ++ i ++ (h.ar d.toNat).extractLsb' 0 16 }
  | .aldiH2 d i => some {
      dest := d.toNat
      value := fun h => (h.ar d.toNat).extractLsb' 48 24 ++ i ++ (h.ar d.toNat).extractLsb' 0 32 }
  | .aldiH3 d i => some {
      dest := d.toNat
      value := fun h => (h.ar d.toNat).extractLsb' 64 8 ++ i ++ (h.ar d.toNat).extractLsb' 0 48 }
  | .aldiH4 d i => some { dest := d.toNat, value := fun h => i ++ (h.ar d.toNat).extractLsb' 0 64 }
  | _ => none

/-! ### Vector and predicate words -/

/-- What a vector word does: its destination register, the registers it names as (first, count), its
predicate, the lanes that execute it, the lanes whose pending results it waits for, and the value of a lane. -/
structure VecForm where
  dest : Nat
  uses : List (Nat × Nat)
  suses : List (Nat × Nat) := []
  pred : Nat := 0
  value : Heat → Nat → W32

/-- v(D) from v(A) and v(B) of the lane. -/
def v2 (d a b : BitVec 7) (p : BitVec 2) (f : W32 → W32 → W32) : Option VecForm :=
  some {
    dest := d.toNat, uses := [(d.toNat, 1), (a.toNat, 1), (b.toNat, 1)], pred := p.toNat
    value := fun h l => f (h.v a.toNat l) (h.v b.toNat l) }

/-- v(D) from v(A), v(B) and the old v(D) of the lane. -/
def v3 (d a b : BitVec 7) (p : BitVec 2) (f : W32 → W32 → W32 → W32) : Option VecForm :=
  some {
    dest := d.toNat, uses := [(d.toNat, 1), (a.toNat, 1), (b.toNat, 1)], pred := p.toNat
    value := fun h l => f (h.v a.toNat l) (h.v b.toNat l) (h.v d.toNat l) }

/-- v(D) from v(A) of the lane. -/
def v1 (d a : BitVec 7) (p : Nat) (f : W32 → W32) : Option VecForm :=
  some {
    dest := d.toNat, uses := [(d.toNat, 1), (a.toNat, 1)], pred := p
    value := fun h l => f (h.v a.toNat l) }

/-- An integer clamped to a range, as 32 bits. -/
def clamp (lo hi z : Int) : W32 := BitVec.ofInt 32 (if z < lo then lo else if hi < z then hi else z)

/-- Signed byte or halfword i of a word. -/
def part (w i : Nat) (x : W32) : BitVec w := x.extractLsb' (w * i) w

/-- Position, width and mask of the bit field that v(B) names (R134). -/
def fieldPos (b : W32) : Nat := (b.extractLsb' 0 5).toNat

/-- The width, 32 at most, of a field that stops at bit 31. -/
def fieldWidth (b : W32) : Nat := min (min (b.extractLsb' 8 6).toNat 32) (32 - fieldPos b)

/-- The mask of the field. -/
def fieldMask (b : W32) : W32 := BitVec.ofNat 32 ((2 ^ fieldWidth b - 1) * 2 ^ fieldPos b)

/-- The integer vector words with a 32-bit result (R126–R128, R130–R135, R137, R139). -/
def intForm : Instr → Option VecForm
  | .vadd d a b p => v2 d a b p (fun x y => x + y)
  | .vsub d a b p => v2 d a b p (fun x y => x - y)
  | .vmul d a b p => v2 d a b p (fun x y => x * y)
  | .vmulhS32 d a b p => v2 d a b p (fun x y => BitVec.ofInt 32 (x.toInt * y.toInt / 2 ^ 32))
  | .vmulhN32 d a b p => v2 d a b p (fun x y => BitVec.ofNat 32 (x.toNat * y.toNat / 2 ^ 32))
  | .vmad d a b p => v3 d a b p (fun x y z => x * y + z)
  | .vand d a b p => v2 d a b p (fun x y => x &&& y)
  | .vor d a b p => v2 d a b p (fun x y => x ||| y)
  | .vxor d a b p => v2 d a b p (fun x y => x ^^^ y)
  | .vshl d a b p => v2 d a b p (fun x y => shiftL x y.toNat)
  | .vshr d a b p => v2 d a b p (fun x y => shiftR x y.toNat)
  | .vsra d a b p => v2 d a b p (fun x y => shiftA x y.toNat)
  | .vminS32 d a b p => v2 d a b p (fun x y => if x.toInt < y.toInt then x else y)
  | .vminN32 d a b p => v2 d a b p (fun x y => if x.toNat < y.toNat then x else y)
  | .vmaxS32 d a b p => v2 d a b p (fun x y => if x.toInt < y.toInt then y else x)
  | .vmaxN32 d a b p => v2 d a b p (fun x y => if x.toNat < y.toNat then y else x)
  | .vaddSatS32 d a b p => v2 d a b p (fun x y => clamp (-2 ^ 31) (2 ^ 31 - 1) (x.toInt + y.toInt))
  | .vsubSatS32 d a b p => v2 d a b p (fun x y => clamp (-2 ^ 31) (2 ^ 31 - 1) (x.toInt - y.toInt))
  | .vaddSatN32 d a b p => v2 d a b p (fun x y => clamp 0 (2 ^ 32 - 1) ((x.toNat : Int) + y.toNat))
  | .vsubSatN32 d a b p => v2 d a b p (fun x y => clamp 0 (2 ^ 32 - 1) ((x.toNat : Int) - y.toNat))
  | .vabsS32 d a p => v1 d a p.toNat (fun x => clamp 0 (2 ^ 31 - 1) x.toInt.natAbs)
  | .vclz d a p => v1 d a p.toNat (fun x => BitVec.ofNat 32 (if x = 0#32 then 32 else 31 - Nat.log2 x.toNat))
  | .vpopc d a p => v1 d a p.toNat (fun x => BitVec.ofNat 32 ((List.range 32).filter (fun i => x.getLsbD i)).length)
  | .vmov d a p => v1 d a p.toNat (fun x => x)
  | .vmovScalar d a p => some {
      dest := d.toNat, uses := [(d.toNat, 1)], suses := [(a.toNat, 1)], pred := p.toNat
      value := fun h _ => (h.sr a.toNat).extractLsb' 0 32 }
  | .vsel d a b k => some {
      dest := d.toNat, uses := [(d.toNat, 1), (a.toNat, 1), (b.toNat, 1)]
      value := fun h l => if h.k k.toNat l then h.v a.toNat l else h.v b.toNat l }
  | .vaddImm d a i => v1 d a 0 (fun x => x + i.signExtend 32)
  | .vandImm d a i => v1 d a 0 (fun x => x &&& i.signExtend 32)
  | .vorImm d a i => v1 d a 0 (fun x => x ||| i.signExtend 32)
  | .vxorImm d a i => v1 d a 0 (fun x => x ^^^ i.signExtend 32)
  | .vshlImm d a i => v1 d a 0 (fun x => shiftL x i.toNat)
  | .vshrImm d a i => v1 d a 0 (fun x => shiftR x i.toNat)
  | .vsraImm d a i => v1 d a 0 (fun x => shiftA x i.toNat)
  | .vmulImm d a i => v1 d a 0 (fun x => x * i.signExtend 32)
  | .vminS32Imm d a i => v1 d a 0 (fun x => if x.toInt < i.toInt then x else i.signExtend 32)
  | .vmaxS32Imm d a i => v1 d a 0 (fun x => if x.toInt < i.toInt then i.signExtend 32 else x)
  | .vbfeN32 d a b p => v2 d a b p (fun x y => (x &&& fieldMask y) >>> fieldPos y)
  | .vbfeS32 d a b p => v2 d a b p (fun x y =>
      let f := ((x &&& fieldMask y) >>> fieldPos y).toNat
      if fieldWidth y = 0 then 0#32
      else BitVec.ofInt 32 (if f < 2 ^ (fieldWidth y - 1) then (f : Int) else (f : Int) - 2 ^ fieldWidth y))
  | .vbfi d a b p => v3 d a b p (fun x y z => (z &&& ~~~fieldMask y) ||| ((x <<< fieldPos y) &&& fieldMask y))
  | .vmovi d i => some { dest := d.toNat, uses := [(d.toNat, 1)], value := fun _ _ => i.signExtend 32 }
  | .vmoviHi d i => some {
      dest := d.toNat, uses := [(d.toNat, 1)], value := fun h l => i ++ (h.v d.toNat l).extractLsb' 0 16 }
  | .vdp4S8 d a b p => v3 d a b p (fun x y z => BitVec.ofInt 32 ((z.toNat : Int) +
      (part 8 0 x).toInt * (part 8 0 y).toInt + (part 8 1 x).toInt * (part 8 1 y).toInt +
      (part 8 2 x).toInt * (part 8 2 y).toInt + (part 8 3 x).toInt * (part 8 3 y).toInt))
  | .vdp4N8 d a b p => v3 d a b p (fun x y z => BitVec.ofNat 32 (z.toNat +
      (part 8 0 x).toNat * (part 8 0 y).toNat + (part 8 1 x).toNat * (part 8 1 y).toNat +
      (part 8 2 x).toNat * (part 8 2 y).toNat + (part 8 3 x).toNat * (part 8 3 y).toNat))
  | .vdp2S16 d a b p => v3 d a b p (fun x y z => BitVec.ofInt 32 ((z.toNat : Int) +
      (part 16 0 x).toInt * (part 16 0 y).toInt + (part 16 1 x).toInt * (part 16 1 y).toInt))
  | .kmovK2v d a p => some {
      dest := d.toNat, uses := [(d.toNat, 1)], pred := p.toNat
      value := fun h l => if h.k a.toNat l then 1#32 else 0#32 }
  | _ => none

/-- ROUND of an exact FP32 result (R99, R145). -/
def rounded (m : RMode) (v : FVal) : W32 := BitVec.ofNat 32 (round .f32 m 0 v)

/-- The exact value of an FP32 word. -/
def real (x : W32) : FVal := valOf .f32 x.toNat

/-- Both BF16 halves of a result (R150): half i from the halves i of the operands. -/
def perHalf (f : Nat → Nat) : W32 := BitVec.ofNat 32 (f 0 + 65536 * f 1)

/-- Half i of a word as a number. -/
def half (x : W32) (i : Nat) : Nat := (part 16 i x).toNat

/-- ROUND to BF16. -/
def bf16 (v : FVal) : Nat := round .bf16 .rn 0 v % 65536

/-- The exact value of half i of a word. -/
def halfReal (x : W32) (i : Nat) : FVal := valOf .bf16 (half x i)

/-- The floating-point words with a 32-bit result (R145, R146, R148–R150, R153, R154). -/
def floatForm : Instr → Option VecForm
  | .vfadd d a b p => v2 d a b p (fun x y => rounded .rn (addV (real x) (real y)))
  | .vfsub d a b p => v2 d a b p (fun x y => rounded .rn (addV (real x) (negV (real y))))
  | .vfmul d a b p => v2 d a b p (fun x y => rounded .rn (mulV (real x) (real y)))
  | .vfma d a b p => v3 d a b p (fun x y z => rounded .rn (addV (mulV (real x) (real y)) (real z)))
  | .vfaddRz d a b p => v2 d a b p (fun x y => rounded .rz (addV (real x) (real y)))
  | .vfmulRz d a b p => v2 d a b p (fun x y => rounded .rz (mulV (real x) (real y)))
  | .vfmaRz d a b p => v3 d a b p (fun x y z => rounded .rz (addV (mulV (real x) (real y)) (real z)))
  | .vfmin d a b p => v2 d a b p (fun x y => BitVec.ofNat 32 (minMax .f32 false x.toNat y.toNat))
  | .vfmax d a b p => v2 d a b p (fun x y => BitVec.ofNat 32 (minMax .f32 true x.toNat y.toNat))
  | .vfscl d a b p => v2 d a b p (fun x y => BitVec.ofNat 32 (scl x.toNat y.toInt))
  | .vfrcp d a p => v1 d a p.toNat (fun x => BitVec.ofNat 32 (rcp x.toNat))
  | .vfrsq d a p => v1 d a p.toNat (fun x => BitVec.ofNat 32 (rsqrt x.toNat))
  | .vfexp2 d a p => v1 d a p.toNat (fun x => BitVec.ofNat 32 (exp2 x.toNat))
  | .vflog2 d a p => v1 d a p.toNat (fun x => BitVec.ofNat 32 (log2F x.toNat))
  | .vftanh d a p => v1 d a p.toNat (fun x => BitVec.ofNat 32 (tanhF x.toNat))
  | .vfclass d a p => v1 d a p.toNat (fun x => BitVec.ofNat 32 (fclass x.toNat))
  | .vfrndRn d a p => v1 d a p.toNat (fun x => BitVec.ofNat 32 (rndInt .rn x.toNat))
  | .vfrndRz d a p => v1 d a p.toNat (fun x => BitVec.ofNat 32 (rndInt .rz x.toNat))
  | .vfrndRm d a p => v1 d a p.toNat (fun x => BitVec.ofNat 32 (rndInt .rm x.toNat))
  | .vfrndRp d a p => v1 d a p.toNat (fun x => BitVec.ofNat 32 (rndInt .rp x.toNat))
  | .vhadd d a b p => v2 d a b p (fun x y => perHalf (fun i => bf16 (addV (halfReal x i) (halfReal y i))))
  | .vhsub d a b p => v2 d a b p (fun x y => perHalf (fun i => bf16 (addV (halfReal x i) (negV (halfReal y i)))))
  | .vhmul d a b p => v2 d a b p (fun x y => perHalf (fun i => bf16 (mulV (halfReal x i) (halfReal y i))))
  | .vhfma d a b p => v3 d a b p (fun x y z => perHalf (fun i =>
      bf16 (addV (mulV (halfReal x i) (halfReal y i)) (halfReal z i))))
  | .vhmin d a b p => v2 d a b p (fun x y => perHalf (fun i => minMax .bf16 false (half x i) (half y i) % 65536))
  | .vhmax d a b p => v2 d a b p (fun x y => perHalf (fun i => minMax .bf16 true (half x i) (half y i) % 65536))
  | .vpackB8 d a b p => v2 d a b p (fun x y => y.extractLsb' 0 8 ++ x.extractLsb' 8 24)
  | .vpackB16 d a b p => v2 d a b p (fun x y => y.extractLsb' 0 16 ++ x.extractLsb' 16 16)
  | .vunpkB4 d a i => v1 d a 0 (fun x => (part 4 i.toNat x).setWidth 32)
  | .vunpkB4Sx d a i => v1 d a 0 (fun x => (part 4 i.toNat x).signExtend 32)
  | .vunpkB8 d a i => v1 d a 0 (fun x => (part 8 i.toNat x).setWidth 32)
  | .vunpkB8Sx d a i => v1 d a 0 (fun x => (part 8 i.toNat x).signExtend 32)
  | .vunpkB16 d a i => v1 d a 0 (fun x => (part 16 i.toNat x).setWidth 32)
  | .vunpkB16Sx d a i => v1 d a 0 (fun x => (part 16 i.toNat x).signExtend 32)
  | _ => none

/-- The format of the elements of a floating-point word that the shadow unit repeats (R142). -/
def shadowFmt : Instr → Option Fmt
  | .vfadd _ _ _ _ | .vfsub _ _ _ _ | .vfmul _ _ _ _ | .vfma _ _ _ _ | .vfmin _ _ _ _ | .vfmax _ _ _ _
  | .vfscl _ _ _ _ | .vfaddRz _ _ _ _ | .vfmulRz _ _ _ _ | .vfmaRz _ _ _ _ => some .f32
  | .vfrcp _ _ _ | .vfrsq _ _ _ | .vfexp2 _ _ _ | .vflog2 _ _ _ | .vftanh _ _ _ => some .f32
  | .vhadd _ _ _ _ | .vhsub _ _ _ _ | .vhmul _ _ _ _ | .vhfma _ _ _ _ | .vhmin _ _ _ _ | .vhmax _ _ _ _ => some .bf16
  | _ => none

/-- A result with the flipped bits of a wrong one in the element that the error hits (R375). -/
def wrongResult (f : Fmt) (v : W32) (x : Flip) : W32 :=
  putElem f v x.part ((elemOf f v x.part).xor (x.bits % 2 ^ f.width))

/-- What a 64-bit vector word does: first register of the destination pair, uses, predicate, value. -/
structure PairForm where
  dest : Nat
  uses : List (Nat × Nat)
  pred : Nat
  value : Heat → Nat → W64

/-- A pair word of three pairs. -/
def pr3 (d a b : BitVec 6) (p : BitVec 2) (f : W64 → W64 → W64) : Option PairForm :=
  some {
    dest := 2 * d.toNat, uses := [(2 * d.toNat, 2), (2 * a.toNat, 2), (2 * b.toNat, 2)], pred := p.toNat
    value := fun h l => f (h.pair (2 * a.toNat) l) (h.pair (2 * b.toNat) l) }

/-- A pair shifted by v(B). -/
def prShift (d a : BitVec 6) (b : BitVec 7) (p : BitVec 2) (f : W64 → Nat → W64) : Option PairForm :=
  some {
    dest := 2 * d.toNat, uses := [(2 * d.toNat, 2), (2 * a.toNat, 2), (b.toNat, 1)], pred := p.toNat
    value := fun h l => f (h.pair (2 * a.toNat) l) (h.v b.toNat l).toNat }

/-- The 64-bit vector words (R129). -/
def pairForm : Instr → Option PairForm
  | .vaddN64 d a b p => pr3 d a b p (fun x y => x + y)
  | .vsubN64 d a b p => pr3 d a b p (fun x y => x - y)
  | .vmulN64 d a b p => pr3 d a b p (fun x y => x * y)
  | .vshlB64 d a b p => prShift d a b p shiftL
  | .vshrB64 d a b p => prShift d a b p shiftR
  | .vsraS64 d a b p => prShift d a b p shiftA
  | _ => none

/-- What a word that writes a predicate does. -/
structure PredForm where
  dest : Nat
  uses : List (Nat × Nat) := []
  pred : Nat
  value : Heat → Nat → Bool

/-- A comparison of v(A) and v(B). -/
def cmp (d : BitVec 3) (a b : BitVec 7) (p : BitVec 2) (f : W32 → W32 → Bool) : Option PredForm :=
  some {
    dest := d.toNat, uses := [(a.toNat, 1), (b.toNat, 1)], pred := p.toNat
    value := fun h l => f (h.v a.toNat l) (h.v b.toNat l) }

/-- A word over predicates. -/
def kk (d : BitVec 3) (p : BitVec 2) (f : Heat → Nat → Bool) : Option PredForm :=
  some { dest := d.toNat, pred := p.toNat, value := f }

/-- The lane-wise words that write a predicate (R136, R138, R139, R147). -/
def predForm : Instr → Option PredForm
  | .vcmpEq d a b p => cmp d a b p (fun x y => decide (x = y))
  | .vcmpNe d a b p => cmp d a b p (fun x y => decide (x ≠ y))
  | .vcmpLtS32 d a b p => cmp d a b p (fun x y => decide (x.toInt < y.toInt))
  | .vcmpLeS32 d a b p => cmp d a b p (fun x y => decide (x.toInt ≤ y.toInt))
  | .vcmpLtN32 d a b p => cmp d a b p (fun x y => decide (x.toNat < y.toNat))
  | .vcmpLeN32 d a b p => cmp d a b p (fun x y => decide (x.toNat ≤ y.toNat))
  | .vfcmpEq d a b p => cmp d a b p (fun x y => eqV (real x) (real y))
  | .vfcmpNe d a b p => cmp d a b p (fun x y => !eqV (real x) (real y))
  | .vfcmpLt d a b p => cmp d a b p (fun x y => ltV (real x) (real y))
  | .vfcmpLe d a b p => cmp d a b p (fun x y => ltV (real x) (real y) || eqV (real x) (real y))
  | .vfcmpUn d a b p => cmp d a b p (fun x y => isNaN .f32 x.toNat || isNaN .f32 y.toNat)
  | .kand d a b p => kk d p (fun h l => h.k a.toNat l && h.k b.toNat l)
  | .kor d a b p => kk d p (fun h l => h.k a.toNat l || h.k b.toNat l)
  | .kxor d a b p => kk d p (fun h l => h.k a.toNat l ^^ h.k b.toNat l)
  | .knot d a p => kk d p (fun h l => !h.k a.toNat l)
  | .kmov d a p => kk d p (fun h l => h.k a.toNat l)
  | .kmovV2k d a p => some {
      dest := d.toNat, uses := [(a.toNat, 1)], pred := p.toNat, value := fun h l => decide (h.v a.toNat l ≠ 0#32) }
  | _ => none

/-! ### Cross-lane words (R159–R162) -/

/-- What a word that reads other lanes does: the registers it names, its lanes, the rows it waits for, and the
value of each taking lane. -/
structure CrossForm where
  dest : Nat
  uses : List (Nat × Nat)
  pred : Nat
  lanes : Mask
  waits : List Uses
  value : Heat → Nat → W32

/-- No pending result and no uncorrectable row stands in the way of the word (R31, R32, R143, R473). -/
def CrossForm.ready (f : CrossForm) (s : State) (h : Heat) : Prop :=
  s.curHeat? = some h ∧ overBudget h.budget f.uses = none ∧ h.blocker s.cur.active f.waits = none ∧
    h.badRow f.uses = false

/-- The lane of its quad at distance t (R159). -/
def quadAt (t l : Nat) : Nat := 4 * (l / 4) + (l % 4).xor t

/-- A quad word: v(D) from v(A) of lane `f l`. -/
def quad (c : Cur) (d a : BitVec 7) (p : Nat) (f : Nat → Nat) : Option CrossForm :=
  some {
    dest := d.toNat, uses := [(d.toNat, 1), (a.toNat, 1)], pred := p, lanes := c.lanes
    waits := [{ lanes := c.lanes, vr := [(d.toNat, 1)] },
      { lanes := maskOf (fun i => (lanesOf c.lanes).any (fun l => f l == i)), vr := [(a.toNat, 1)] }]
    value := fun h l => h.v a.toNat (f l) }

/-- A shuffle: v(A) of the source lane when that lane is active, else the lane's own. -/
def shfl (c : Cur) (d a : BitVec 7) (more : List (Nat × Nat)) (p : Nat) (src : Heat → Nat → Int) : Option CrossForm :=
  some {
    dest := d.toNat, uses := (d.toNat, 1) :: (a.toNat, 1) :: more, pred := p, lanes := c.active
    waits := [{ lanes := c.active, vr := (d.toNat, 1) :: (a.toNat, 1) :: more }]
    value := fun h l =>
      if 0 ≤ src h l ∧ src h l < 32 ∧ inMask c.active (src h l).toNat then h.v a.toNat (src h l).toNat
      else h.v a.toNat l }

/-- The contributors of a reduction. -/
def contributors (c : Cur) (p : BitVec 2) (h : Heat) : Mask := h.taking c.active p.toNat

/-- A reduction or scan over the network of R161; `at_` picks the element a lane writes. -/
def net (c : Cur) (d a : BitVec 7) (p : BitVec 2) (op : W32 → W32 → W32) (ident : W32) (at_ : Nat → Nat) :
    Option CrossForm :=
  some {
    dest := d.toNat, uses := [(d.toNat, 1), (a.toNat, 1)], pred := p.toNat, lanes := c.active
    waits := [{ lanes := c.active, vr := [(d.toNat, 1), (a.toNat, 1)] }]
    value := fun h l => (network op ((List.range 32).map (fun i =>
      if inMask (contributors c p h) i then h.v a.toNat i else ident))).getD (at_ l) 0#32 }

/-- FP32 addition, minimum and maximum on words. -/
def fAdd (x y : W32) : W32 := addF32 x y

/-- The smaller of two signed words. -/
def lower (x y : W32) : W32 := if x.toInt < y.toInt then x else y

/-- The larger of two signed words. -/
def upper (x y : W32) : W32 := if x.toInt < y.toInt then y else x

/-- The smaller or larger of two FP32 words. -/
def fPick (big : Bool) (x y : W32) : W32 := BitVec.ofNat 32 (minMax .f32 big x.toNat y.toNat)

/-- The cross-lane words with a vector result. -/
def crossForm (c : Cur) : Instr → Option CrossForm
  | .qswpH d a p => quad c d a p.toNat (quadAt 1)
  | .qswpV d a p => quad c d a p.toNat (quadAt 2)
  | .qswpD d a p => quad c d a p.toNat (quadAt 3)
  | .qbcast d a j => quad c d a 0 (fun l => 4 * (l / 4) + j.toNat)
  | .vshflIdx d a b p => shfl c d a [(b.toNat, 1)] p.toNat (fun h l => (((h.v b.toNat l).toNat % 32 : Nat) : Int))
  | .vshflUp d a n => shfl c d a [] 0 (fun _ l => (l : Int) - n.toNat)
  | .vshflDown d a n => shfl c d a [] 0 (fun _ l => (l : Int) + n.toNat)
  | .vshflXor d a n => shfl c d a [] 0 (fun _ l => ((l.xor n.toNat : Nat) : Int))
  | .vredAddS32 d a p => net c d a p (· + ·) 0#32 (fun _ => 31)
  | .vredAddF32 d a p => net c d a p fAdd 0x80000000#32 (fun _ => 31)
  | .vredMinS32 d a p => net c d a p lower 0x7FFFFFFF#32 (fun _ => 31)
  | .vredMaxS32 d a p => net c d a p upper 0x80000000#32 (fun _ => 31)
  | .vredMinF32 d a p => net c d a p (fPick false) 0x7F800000#32 (fun _ => 31)
  | .vredMaxF32 d a p => net c d a p (fPick true) 0xFF800000#32 (fun _ => 31)
  | .vredAndB32 d a p => net c d a p (· &&& ·) 0xFFFFFFFF#32 (fun _ => 31)
  | .vredOrB32 d a p => net c d a p (· ||| ·) 0#32 (fun _ => 31)
  | .vredXorB32 d a p => net c d a p (· ^^^ ·) 0#32 (fun _ => 31)
  | .vscanAddS32 d a p => net c d a p (· + ·) 0#32 id
  | .vscanAddF32 d a p => net c d a p fAdd 0x80000000#32 id
  | .vscanMinS32 d a p => net c d a p lower 0x7FFFFFFF#32 id
  | .vscanMaxS32 d a p => net c d a p upper 0x80000000#32 id
  | .vscanOrB32 d a p => net c d a p (· ||| ·) 0#32 id
  | .vballot d a p => some {
      dest := d.toNat, uses := [(d.toNat, 1)], pred := p.toNat, lanes := c.active
      waits := [{ lanes := c.active, vr := [(d.toNat, 1)] }]
      value := fun h _ => maskOf (fun l => inMask (contributors c p h) l && h.k a.toNat l) }
  | _ => none

/-- What a vote does: k(D) of every contributor takes one value. -/
structure VoteForm where
  dest : Nat
  uses : List (Nat × Nat) := []
  pred : BitVec 2
  value : Heat → Mask → Prop

/-- The votes (R162). -/
def voteForm : Instr → Option VoteForm
  | .vvoteAll d a p => some { dest := d.toNat, pred := p, value := fun h m => ∀ l, inMask m l → h.k a.toNat l }
  | .vvoteAny d a p => some { dest := d.toNat, pred := p, value := fun h m => ∃ l, inMask m l ∧ h.k a.toNat l }
  | .vvoteUni d a p => some {
      dest := d.toNat, uses := [(a.toNat, 1)], pred := p
      value := fun h m => ∀ l n, inMask m l → inMask m n → h.v a.toNat l = h.v a.toNat n }
  | _ => none

/-! ### Conversions and quantisation (R151–R158) -/

/-- What a VCVT does: target format, mode, registers, target element, source element, source format. -/
structure CvtForm where
  fmt : Fmt
  mode : RMode
  dest : Nat
  src : Nat
  toElem : Nat
  fromElem : Nat
  srcFmt : Fmt

/-- A VCVT of a format and mode. -/
def cv (f : Fmt) (m : RMode) (d a : BitVec 7) (p : Nat) (e z : BitVec 3) : Option CvtForm :=
  some { fmt := f, mode := m, dest := d.toNat, src := a.toNat, toElem := p, fromElem := e.toNat, srcFmt := srcFmt z }

/-- The VCVT words. -/
def cvtForm : Instr → Option CvtForm
  | .vcvtF32Rn d a e z => cv .f32 .rn d a 0 e z
  | .vcvtF32Rz d a e z => cv .f32 .rz d a 0 e z
  | .vcvtF32Sr d a e z => cv .f32 .sr d a 0 e z
  | .vcvtBf16Rn d a p e z => cv .bf16 .rn d a p.toNat e z
  | .vcvtBf16Rz d a p e z => cv .bf16 .rz d a p.toNat e z
  | .vcvtBf16Sr d a p e z => cv .bf16 .sr d a p.toNat e z
  | .vcvtE4m3Rn d a p e z => cv .e4m3 .rn d a p.toNat e z
  | .vcvtE4m3Rz d a p e z => cv .e4m3 .rz d a p.toNat e z
  | .vcvtE4m3Sr d a p e z => cv .e4m3 .sr d a p.toNat e z
  | .vcvtE5m2Rn d a p e z => cv .e5m2 .rn d a p.toNat e z
  | .vcvtE5m2Rz d a p e z => cv .e5m2 .rz d a p.toNat e z
  | .vcvtE5m2Sr d a p e z => cv .e5m2 .sr d a p.toNat e z
  | .vcvtE2m1Rn d a p e z => cv .e2m1 .rn d a p.toNat e z
  | .vcvtE2m1Rz d a p e z => cv .e2m1 .rz d a p.toNat e z
  | .vcvtE2m1Sr d a p e z => cv .e2m1 .sr d a p.toNat e z
  | .vcvtS32Rn d a e z => cv .s32 .rn d a 0 e z
  | .vcvtS32Rz d a e z => cv .s32 .rz d a 0 e z
  | .vcvtS32Sr d a e z => cv .s32 .sr d a 0 e z
  | .vcvtN32Rn d a e z => cv .n32 .rn d a 0 e z
  | .vcvtN32Rz d a e z => cv .n32 .rz d a 0 e z
  | .vcvtN32Sr d a e z => cv .n32 .sr d a 0 e z
  | _ => none

/-- The rounding of one lane: the encoding, and the heat with the lane's CVCNT as the rounding leaves it. -/
def cvtLane (s : State) (h : Heat) (f : CvtForm) (l : Nat) : Nat × Heat :=
  h.roundVal s.seed (inMask s.cur.helpers l) l f.fmt f.mode (valOf f.srcFmt (elemOf f.srcFmt (h.v f.src l) f.fromElem))

/-- Registers of a VQNT or VDQNT: target or source format, D, A, B and P. -/
structure QuantForm where
  fmt : Fmt
  dest : Nat
  src : Nat
  scale : Nat
  p : Nat

/-- Fields of a quantisation. -/
def qf (f : Fmt) (d a b : BitVec 7) (p : BitVec 2) : Option QuantForm :=
  some { fmt := f, dest := d.toNat, src := a.toNat, scale := b.toNat, p := p.toNat }

/-- VQNT with an E8M0 scale for each row. -/
def rowForm : Instr → Option QuantForm
  | .vqntE4m3E8m0 d a b p => qf .e4m3 d a b p
  | .vqntE5m2E8m0 d a b p => qf .e5m2 d a b p
  | .vqntE2m1E8m0 d a b p => qf .e2m1 d a b p
  | _ => none

/-- VQNT with one 32-bit scale for a block. -/
def blockForm : Instr → Option QuantForm
  | .vqntE4m3S32scale d a b p => qf .e4m3 d a b p
  | .vqntE5m2S32scale d a b p => qf .e5m2 d a b p
  | .vqntE2m1S32scale d a b p => qf .e2m1 d a b p
  | _ => none

/-- VDQNT; the flag says that the scale is E8M0. -/
def dequantForm : Instr → Option (QuantForm × Bool)
  | .vdqntE4m3E8m0 d a b p => (qf .e4m3 d a b p).map (fun x => (x, true))
  | .vdqntE5m2E8m0 d a b p => (qf .e5m2 d a b p).map (fun x => (x, true))
  | .vdqntE2m1E8m0 d a b p => (qf .e2m1 d a b p).map (fun x => (x, true))
  | .vdqntE4m3S32scale d a b p => (qf .e4m3 d a b p).map (fun x => (x, false))
  | .vdqntE5m2S32scale d a b p => (qf .e5m2 d a b p).map (fun x => (x, false))
  | .vdqntE2m1S32scale d a b p => (qf .e2m1 d a b p).map (fun x => (x, false))
  | _ => none

/-- Quantised lane l (R156): its elements by the scale, whether each was exact, and its CVCNT. -/
def quantised (s : State) (h : Heat) (f : QuantForm) (scale : FVal) (bad : Bool) (l : Nat) : Heat × Bool :=
  h.quantLane (fun i => h.v (f.src + i) l) s.seed (inMask s.cur.helpers l) f.fmt f.dest scale bad l

/-- The scale code of lane l's row. -/
def rowCode (h : Heat) (f : QuantForm) (l : Nat) : Nat := e8m0Code f.fmt (h.amaxBits f.src l)

/-- The greatest magnitude of a block. -/
def blockMax (h : Heat) (f : QuantForm) : Nat :=
  (List.range 32).foldl (fun m l => max m (h.amaxBits f.src l)) 0

/-- The scale that lane l of a VDQNT uses (R158). -/
def laneScale (h : Heat) (f : QuantForm) (e8 : Bool) (l : Nat) : FVal :=
  if e8 then e8m0 (elemOf .e4m3 (h.v f.scale l) f.p) else s32scale (h.v f.scale f.p).toNat

/-! ### Memory words (R163–R184) -/

/-- The device without what memory words may change: memory, its errors and ordered words, page bindings,
requests to the fabric, the predictor, and whether a write has met a grid's counter. -/
def besideMemory (s : State) : State :=
  { s.device with
    mem := [], poison := [], ordRecs := [], bindings := [], fabric := [], predictor := []
    grids := s.grids.map (fun (e : Nat × Grid) => (e.1, { e.2 with met := false })) }

/-- A team without its heats and what memory words may change: scratchpad, deferred stores, log, journal,
digest records, and whether a write has met a counter that a heat waits for. -/
def teamBeside (x : Team) : Team :=
  { x with
    deferred := [], log := [], undo := [], undoPoison := [], recs := []
    body := { x.body with
      heats := [], spad := [], spadPoison := [], lineJournal := [], journalFault := .none
      waiters := x.body.waiters.map (fun (w : Waiter) => { w with met := false }) } }

/-- A core without what an issue and a descriptor use change. -/
def coreBeside (k : Core) : Core := { k.still with descs := [] }

/-- From s to t nothing changes but the issuing heat and what memory words may change. -/
def OnlyMemory (s t : State) : Prop :=
  besideMemory t = besideMemory s ∧
    (∀ u g, ¬ s.issues u g → t.heat? u g = s.heat? u g) ∧
    (∀ u, (t.team? u).map teamBeside = (s.team? u).map teamBeside) ∧
    ∀ c, coreBeside (t.core c) = coreBeside (s.core c)

/-- No target of an access is held: no engine owns its sector, no ordered word waits there, no line of it is
absent, and its lane has no ordered contribution on its way (R165, R173, R183, R192, R347). -/
def Clear (s : State) (n : Nat) (ts : List (Nat × Target)) : Prop :=
  ∀ x ∈ ts, s.targetWaits n x.2 = false ∧ s.targetAbsent n x.2 = false ∧ s.ordSent x.1 = false

/-- The issuing team neither checks another team nor is checked by one (R510). -/
def Unchecked (s : State) : Prop :=
  ∀ u x, s.curTeam = some u → s.team? u = some x → x.checker = none ∧ x.checks = none

/-- The value written last at an address. -/
def lastWrite (ws : List (Nat × Byte)) (a : Nat) : Option Byte :=
  ws.foldl (fun acc w => if w.1 = a then some w.2 else acc) none

/-- A load: bytes of a lane's row, registers, address, window length, predicate, address space. -/
structure LoadForm where
  size : Nat
  regs : Nat
  dest : Nat
  base : BitVec 4
  ofs : BitVec 7
  la : BitVec 4
  pred : Nat
  window : Bool := false

/-- The loads of R172 and R173. -/
def loadForm : Instr → Option LoadForm
  | .vldB8 d a o l p => some {
      size := 1, regs := 1, dest := d.toNat, base := a, ofs := o, la := l, pred := p.toNat }
  | .vldB16 d a o l p => some {
      size := 2, regs := 1, dest := d.toNat, base := a, ofs := o, la := l, pred := p.toNat }
  | .vldB32 d a o l p => some {
      size := 4, regs := 1, dest := d.toNat, base := a, ofs := o, la := l, pred := p.toNat }
  | .vldB64 d a o l p => some {
      size := 8, regs := 2, dest := 2 * d.toNat, base := a, ofs := o, la := l, pred := p.toNat }
  | .vldB128 d a o l p => some {
      size := 16, regs := 4, dest := 4 * d.toNat, base := a, ofs := o, la := l, pred := p.toNat }
  | .vldsB32 d a o l p => some {
      size := 4, regs := 1, dest := d.toNat, base := a, ofs := o, la := l, pred := p.toNat, window := true }
  | .vldsB64 d a o l p => some {
      size := 8, regs := 2, dest := 2 * d.toNat, base := a, ofs := o, la := l, pred := p.toNat, window := true }
  | .vldsB128 d a o l p => some {
      size := 16, regs := 4, dest := 4 * d.toNat, base := a, ofs := o, la := l, pred := p.toNat, window := true }
  | _ => none

/-- Registers a load names. -/
def LoadForm.uses (f : LoadForm) : List (Nat × Nat) := (f.dest, f.regs) :: ofsUse f.ofs

/-- Address of a lane (R45). -/
def LoadForm.addr (f : LoadForm) (h : Heat) (l : Nat) : Addr := h.laneAddr f.base f.ofs l

/-- The checks of one lane (R164). -/
def LoadForm.check (f : LoadForm) (s : State) (h : Heat) (bs : List Binding) (l : Nat) : Chk :=
  if f.window then s.checkWindow bs s.curTeam (f.addr h l) f.size false
  else s.checkMem bs s.curWho (f.addr h l) f.size .read false

/-- What lane l of a load reads: its logged value in replay, else memory or scratchpad; a fabric part
comes later. -/
def readLane (s : State) (h : Heat) (n : Nat) (a : Nat → Addr) (x : Nat × Target) : Nat :=
  (s.logged 0 h.stride.toNat x.1 (a x.1).toNat).getD (s.targetNat (a x.1).toNat n x.2)

/-- Fabric targets of lanes that no log supplies. -/
def fabricLanes (s : State) (h : Heat) (a : Nat → Addr) (ts : List (Nat × Target)) : List (Nat × Nat × Nat) :=
  ts.filterMap (fun x => match x.2, s.logged 0 h.stride.toNat x.1 (a x.1).toNat with
    | .fab dev off, none => some (x.1, dev, off)
    | _, _ => none)

/-- A store: bytes of a lane, registers, address, predicate, address space. -/
structure StoreForm where
  size : Nat
  regs : Nat
  src : Nat
  base : BitVec 4
  ofs : BitVec 7
  pred : Nat
  window : Bool := false

/-- The stores of R172 and R173. -/
def storeForm : Instr → Option StoreForm
  | .vstB8 z a o p => some { size := 1, regs := 1, src := z.toNat, base := a, ofs := o, pred := p.toNat }
  | .vstB16 z a o p => some { size := 2, regs := 1, src := z.toNat, base := a, ofs := o, pred := p.toNat }
  | .vstB32 z a o p => some { size := 4, regs := 1, src := z.toNat, base := a, ofs := o, pred := p.toNat }
  | .vstB64 z a o p => some { size := 8, regs := 2, src := 2 * z.toNat, base := a, ofs := o, pred := p.toNat }
  | .vstB128 z a o p => some { size := 16, regs := 4, src := 4 * z.toNat, base := a, ofs := o, pred := p.toNat }
  | .vstsB32 z a o p => some { size := 4, regs := 1, src := z.toNat, base := a, ofs := o, pred := p.toNat, window := true }
  | .vstsB64 z a o p => some { size := 8, regs := 2, src := 2 * z.toNat, base := a, ofs := o, pred := p.toNat, window := true }
  | .vstsB128 z a o p => some { size := 16, regs := 4, src := 4 * z.toNat, base := a, ofs := o, pred := p.toNat, window := true }
  | _ => none

/-- Registers a store names. -/
def StoreForm.uses (f : StoreForm) : List (Nat × Nat) := (f.src, f.regs) :: ofsUse f.ofs

/-- Address of a lane. -/
def StoreForm.addr (f : StoreForm) (h : Heat) (l : Nat) : Addr := h.laneAddr f.base f.ofs l

/-- The checks of one lane. -/
def StoreForm.check (f : StoreForm) (s : State) (h : Heat) (bs : List Binding) (l : Nat) : Chk :=
  if f.window then s.checkWindow bs s.curTeam (f.addr h l) f.size true
  else s.checkMem bs s.curWho (f.addr h l) f.size .write false

/-- The bytes of a lane, lowest register first, each little-endian (R9, R41, R172). -/
def StoreForm.bytes (f : StoreForm) (h : Heat) (l : Nat) : List Byte :=
  ((List.range f.regs).flatMap (fun i => toBytes 4 (h.v (f.src + i) l).toNat)).take f.size

/-- Whether a store to a target waits in the commit buffer: a D page, for a heat of a team. -/
def deferred (s : State) (t : Target) : Bool :=
  match t with
  | .mem _ leaf => pteD leaf && s.curTeam.isSome
  | _ => false

/-- The writes of memory of a store's lanes; with `defer`, those to D pages are not among them. -/
def memWrites (s : State) (defer : Bool) (bytes : Nat → List Byte) (ts : List (Nat × Target)) : List (Nat × Byte) :=
  ts.flatMap (fun x => match x.2 with
    | .mem pa _ => if defer && deferred s x.2 then [] else pairsAt pa (bytes x.1)
    | _ => [])

/-- The writes of a team's scratchpad of a store's lanes. -/
def spadWrites (bytes : Nat → List Byte) (u : Nat) (ts : List (Nat × Target)) : List (Nat × Byte) :=
  ts.flatMap (fun x => match x.2 with
    | .spad v off => if v = u then pairsAt off (bytes x.1) else []
    | _ => [])

/-- The stores that join the commit buffer. -/
def bufferStores (s : State) (defer : Bool) (addr : Nat → Addr) (bytes : Nat → List Byte)
    (ts : List (Nat × Target)) : List DefStore :=
  ts.filterMap (fun x => match x.2 with
    | .mem pa leaf => if defer && deferred s x.2 then
        some { va := (addr x.1).toNat, pa := pa, bytes := bytes x.1, leaf := leaf } else none
    | _ => none)

/-- The parts of a store that go to the fabric. -/
def fabricStores (bytes : Nat → List Byte) (ts : List (Nat × Target)) : List (Nat × Nat × Option (List Byte)) :=
  ts.filterMap (fun x => match x.2 with
    | .fab dev off => some (dev, off, some (bytes x.1))
    | _ => none)

/-- What a store leaves, from state s to t, for its checked lanes ts: memory, every scratchpad, the commit
buffer and the requests to the fabric hold what its lanes wrote in ascending order, and nothing else. -/
def Wrote (s t : State) (defer : Bool) (addr : Nat → Addr) (bytes : Nat → List Byte) (ts : List (Nat × Target)) : Prop :=
  (∀ a, readByte t.mem a = (lastWrite (memWrites s defer bytes ts) a).getD (readByte s.mem a)) ∧
    (∀ u x y, s.team? u = some x → t.team? u = some y →
      (∀ b, readByte y.body.spad b = (lastWrite (spadWrites bytes u ts) b).getD (readByte x.body.spad b)) ∧
        y.deferred = x.deferred ++ (if s.curTeam = some u then bufferStores s defer addr bytes ts else [])) ∧
    ∃ new, t.fabric = s.fabric ++ new ∧ new.map (fun q => (q.dev, q.offset, q.data)) = fabricStores bytes ts

/-- The lanes of a store that are acknowledged later: all but those of the commit buffer (R170). -/
def ackedLanes (s : State) (defer : Bool) (ts : List (Nat × Target)) : Mask :=
  maskOf (fun l => ts.any (fun x => x.1 == l && !(defer && deferred s x.2)))

/-- The acknowledgement a store or reduction waits for. -/
def ackOf (s : State) (m : Mask) (parts : Nat) : List Ack :=
  if m = 0#32 then [] else [{ stamp := s.stamp, mask := m, isFabric := decide (parts ≠ 0), waiting := parts }]

/-- A lane's store that must close the lap: not deferred, to a page of width CLUSTER or wider or to the
fabric (R478). -/
def closesLap (s : State) (t : Target) : Bool :=
  match t with
  | .mem _ leaf => decide (1 ≤ pteSw leaf) && !deferred s t && s.curTeam.isSome
  | .fab _ _ => s.curTeam.isSome
  | .spad _ _ => false

/-- The ranges of the lanes whose stores wait in the commit buffer. -/
def deferRanges (s : State) (n : Nat) (ts : List (Nat × Target)) : List (Nat × Nat) :=
  ts.filterMap (fun x => match x.2 with
    | .mem pa _ => if deferred s x.2 then some (pa, n) else none
    | _ => none)

/-- An atomic or reduction: bytes, registers named, (first register, count, LA) of the result if it returns
one, address, predicate, address space, and the new value of a lane from the old one. -/
structure AtomForm where
  size : Nat
  uses : List (Nat × Nat)
  dest : Option (Nat × Nat × Nat) := none
  base : BitVec 4
  ofs : BitVec 7
  pred : Nat
  window : Bool := false
  value : Heat → Nat → Nat → Nat

/-- A 4-byte atomic on v(D). -/
def at4 (d a : Nat) (ab : BitVec 4) (o : BitVec 7) (la : Option (BitVec 4)) (p : BitVec 1) (w : Bool)
    (f : W32 → W32 → W32) : Option AtomForm :=
  some {
    size := 4, uses := [(d, a)], dest := la.map (fun l => (d, 1, l.toNat)), base := ab, ofs := o, pred := p.toNat
    window := w, value := fun h l old => (f (h.v d l) (BitVec.ofNat 32 old)).toNat }

/-- An 8-byte atomic on pair(D). -/
def at8 (d n : Nat) (ab : BitVec 4) (o : BitVec 7) (la : Option (BitVec 4)) (p : BitVec 1)
    (f : Heat → Nat → W64 → W64) : Option AtomForm :=
  some {
    size := 8, uses := [(d, n)], dest := la.map (fun l => (d, 2, l.toNat)), base := ab, ofs := o, pred := p.toNat
    value := fun h l old => (f h l (BitVec.ofNat 64 old)).toNat }

/-- Compare and swap on v(D), v(D + 1). -/
def cas32 (d : BitVec 6) (ab : BitVec 4) (o : BitVec 7) (la : Option (BitVec 4)) (p : BitVec 1) (w : Bool) :
    Option AtomForm :=
  some {
    size := 4, uses := [(2 * d.toNat, 2)], dest := la.map (fun l => (2 * d.toNat, 1, l.toNat)), base := ab, ofs := o
    pred := p.toNat, window := w
    value := fun h l old => if old = (h.v (2 * d.toNat) l).toNat then (h.v (2 * d.toNat + 1) l).toNat else old }

/-- The atomics and reductions of R178–R182. -/
def atomForm : Instr → Option AtomForm
  | .atomAddB32 d a o l p => at4 d.toNat 1 a o (some l) p false (· + ·)
  | .atomMinS32 d a o l p => at4 d.toNat 1 a o (some l) p false (fun x old => lower old x)
  | .atomMaxS32 d a o l p => at4 d.toNat 1 a o (some l) p false (fun x old => upper old x)
  | .atomAndB32 d a o l p => at4 d.toNat 1 a o (some l) p false (· &&& ·)
  | .atomOrB32 d a o l p => at4 d.toNat 1 a o (some l) p false (· ||| ·)
  | .atomXorB32 d a o l p => at4 d.toNat 1 a o (some l) p false (· ^^^ ·)
  | .atomExchB32 d a o l p => at4 d.toNat 1 a o (some l) p false (fun x _ => x)
  | .atomAddF32 d a o l p => at4 d.toNat 1 a o (some l) p false (fun x old => fAdd old x)
  | .atomCasB32 d a o l p => cas32 d a o (some l) p false
  | .atomAddB64 d a o l p => at8 (2 * d.toNat) 2 a o (some l) p (fun h x old => old + h.pair (2 * d.toNat) x)
  | .atomExchB64 d a o l p => at8 (2 * d.toNat) 2 a o (some l) p (fun h x _ => h.pair (2 * d.toNat) x)
  | .atomCasB64 d a o l p => at8 (4 * d.toNat) 4 a o (some l) p (fun h x old =>
      if old = h.pair (4 * d.toNat) x then h.pair (4 * d.toNat + 2) x else old)
  | .redAddB32 z a o p => at4 z.toNat 1 a o none p false (· + ·)
  | .redMinS32 z a o p => at4 z.toNat 1 a o none p false (fun x old => lower old x)
  | .redMaxS32 z a o p => at4 z.toNat 1 a o none p false (fun x old => upper old x)
  | .redOrB32 z a o p => at4 z.toNat 1 a o none p false (· ||| ·)
  | .redAddF32 z a o p => at4 z.toNat 1 a o none p false (fun x old => fAdd old x)
  | .redAddB64 z a o p => at8 (2 * z.toNat) 2 a o none p (fun h x old => old + h.pair (2 * z.toNat) x)
  | .redAddBf16 z a o p => some {
      size := 2, uses := [(z.toNat, 1)], base := a, ofs := o, pred := p.toNat
      value := fun h l old => bf16 (addV (valOf .bf16 old) (valOf .bf16 ((h.v z.toNat l).toNat % 65536))) }
  | .atomsAddB32 d a o l p => at4 d.toNat 1 a o (some l) p true (· + ·)
  | .atomsAddB32NonReturning d a o p => at4 d.toNat 1 a o none p true (· + ·)
  | .atomsMinS32 d a o l p => at4 d.toNat 1 a o (some l) p true (fun x old => lower old x)
  | .atomsMinS32NonReturning d a o p => at4 d.toNat 1 a o none p true (fun x old => lower old x)
  | .atomsMaxS32 d a o l p => at4 d.toNat 1 a o (some l) p true (fun x old => upper old x)
  | .atomsMaxS32NonReturning d a o p => at4 d.toNat 1 a o none p true (fun x old => upper old x)
  | .atomsExchB32 d a o l p => at4 d.toNat 1 a o (some l) p true (fun x _ => x)
  | .atomsExchB32NonReturning d a o p => at4 d.toNat 1 a o none p true (fun x _ => x)
  | .atomsAddF32 d a o l p => at4 d.toNat 1 a o (some l) p true (fun x old => fAdd old x)
  | .atomsAddF32NonReturning d a o p => at4 d.toNat 1 a o none p true (fun x old => fAdd old x)
  | .atomsCasB32 d a o l p => cas32 d a o (some l) p true
  | .atomsCasB32NonReturning d a o p => cas32 d a o none p true
  | .redstAnyF32 z a o p => at4 z.toNat 1 a o none p false (fun x old => fAdd old x)
  | .redstAnyB32 z a o p => at4 z.toNat 1 a o none p false (· + ·)
  | _ => none

/-- Registers an atomic names, its offset included. -/
def AtomForm.all (f : AtomForm) : List (Nat × Nat) := f.uses ++ ofsUse f.ofs

/-- Address of a lane. -/
def AtomForm.addr (f : AtomForm) (h : Heat) (l : Nat) : Addr := h.laneAddr f.base f.ofs l

/-- The checks of one lane: a fabric address fails with code 2 (R178). -/
def AtomForm.check (f : AtomForm) (s : State) (h : Heat) (bs : List Binding) (l : Nat) : Chk :=
  if f.window then s.checkWindow bs s.curTeam (f.addr h l) f.size true
  else s.checkMem bs s.curWho (f.addr h l) f.size .write true

/-- Where a byte stands: device memory, or the scratchpad of a team. -/
inductive Spot where
  | mem (pa : Nat)
  | spad (team off : Nat)
  deriving DecidableEq

/-- Byte i of a target. -/
def spotAt (t : Target) (i : Nat) : Option Spot :=
  match t with
  | .mem pa _ => some (.mem (pa + i))
  | .spad u off => some (.spad u (off + i))
  | .fab _ _ => none

/-- What stands at a spot. -/
def lookAt (s : State) : Spot → Byte
  | .mem a => readByte s.mem a
  | .spad u b => match s.team? u with
    | some x => readByte x.body.spad b
    | none => 0#8

/-- The little-endian number of `n` bytes at a target. -/
def numberAt (look : Spot → Byte) (n : Nat) (t : Target) : Nat :=
  ofBytes ((List.range n).map (fun i => ((spotAt t i).map look).getD 0#8))

/-- The bytes after `n` bytes at a target became x. -/
def putNumber (look : Spot → Byte) (n x : Nat) (t : Target) : Spot → Byte := fun p =>
  ((List.range n).foldl (fun acc i => if spotAt t i = some p then some ((toBytes n x).getD i 0#8) else acc) none).getD (look p)

/-- The lanes of an atomic one after another (R169, R178): the old value of each, and the bytes after all. -/
def atomLanes (n : Nat) (f : Nat → Nat → Nat) : (Spot → Byte) → List (Nat × Target) →
    List (Nat × Nat) × (Spot → Byte)
  | look, [] => ([], look)
  | look, x :: rest =>
    let old := numberAt look n x.2
    let r := atomLanes n f (putNumber look n (f x.1 old) x.2) rest
    ((x.1, old) :: r.1, r.2)

/-- What an atomic leaves, from state s to t, for its checked lanes ts. -/
def Exchanged (s t : State) (f : AtomForm) (h : Heat) (ts : List (Nat × Target)) : Prop :=
  ∀ p, lookAt t p = (atomLanes f.size (f.value h) (lookAt s) ts).2 p

/-- The team of every scratchpad target exists. -/
def Placed (s : State) (ts : List (Nat × Target)) : Prop :=
  ∀ x ∈ ts, ∀ u off, x.2 = .spad u off → (s.team? u).isSome

/-- The issuing team holds no deferred store. -/
def Empty (s : State) : Prop := ∀ u x, s.curTeam = some u → s.team? u = some x → x.deferred = []

/-- No target carries an uncorrectable error. -/
def Sound (s : State) (n : Nat) (ts : List (Nat × Target)) : Prop := ∀ x ∈ ts, s.targetBad n x.2 = false

/-! ### Transfers (R201–R205) -/

/-- The fall-through address of the clause of an issue (R15). -/
def fall (c : Cur) : Addr := c.hdr + BitVec.ofNat 72 (4 * (c.n + 1))

/-- What a transfer does: the registers it names, its taking lanes and the target of each. -/
structure MoveForm where
  uses : List (Nat × Nat) := []
  taking : Heat → Mask
  target : Heat → Nat → Addr

/-- Lanes whose k(K) differs from NEG (R30, R201). -/
def branchLanes (c : Cur) (k : BitVec 3) (n : BitVec 1) (h : Heat) : Mask :=
  maskOf (fun l => inMask c.active l && (h.k k.toNat l ^^ decide (n = 1#1)))

/-- The transfers but CALL. -/
def moveForm (c : Cur) : Instr → Option MoveForm
  | .bra f => some { taking := fun _ => c.active, target := fun _ _ => fall c + 4 * f.signExtend 72 }
  | .brc k n f => some { taking := branchLanes c k n, target := fun _ _ => fall c + 4 * f.signExtend 72 }
  | .brx a p => some {
      uses := [(a.toNat, 1)], taking := fun h => h.taking c.active p.toNat
      target := fun h l => fall c + 4 * (h.v a.toNat l).signExtend 72 }
  | .ret a p => some {
      uses := [(2 * a.toNat, 2)], taking := fun h => h.taking c.active p.toNat
      target := fun h l => 0#8 ++ h.pair (2 * a.toNat) l }
  | .jmpi a p => some { taking := fun h => h.taking c.active p.toNat, target := fun h _ => h.ar a.toNat }
  | _ => none

/-! ### Queues (R186–R188) -/

/-- From s to t nothing changes but the issuing heat, the team queues and the log of its team. -/
def OnlyQueues (s t : State) : Prop :=
  t.device = s.device ∧ (∀ u g, ¬ s.issues u g → t.heat? u g = s.heat? u g) ∧
    (∀ u, (t.team? u).map (fun x => { x with log := [], body := { x.body with heats := [], queues := [] } }) =
      (s.team? u).map (fun x => { x with log := [], body := { x.body with heats := [], queues := [] } })) ∧
    (∀ c, (t.core c).still = (s.core c).still) ∧ ∀ a, readByte t.mem a = readByte s.mem a

/-- A push: queue, predicate, registers, value of a lane. -/
structure PushForm where
  queue : Nat
  pred : Nat
  uses : List (Nat × Nat)
  value : Heat → Nat → W64

/-- The pushes. -/
def pushForm : Instr → Option PushForm
  | .qpushB32 q a p => some {
      queue := q.toNat, pred := p.toNat, uses := [(a.toNat, 1)], value := fun h l => 0#32 ++ h.v a.toNat l }
  | .qpushB64 q a p => some {
      queue := q.toNat, pred := p.toNat, uses := [(2 * a.toNat, 2)], value := fun h l => h.pair (2 * a.toNat) l }
  | _ => none

/-- A pop or peek: queue, predicate, registers, LA, whether the entry leaves. -/
structure TakeForm where
  queue : Nat
  pred : Nat
  dest : Nat
  regs : Nat
  la : BitVec 4
  pop : Bool

/-- The pops and peeks. -/
def takeForm : Instr → Option TakeForm
  | .qpopB32 q a l p => some { queue := q.toNat, pred := p.toNat, dest := a.toNat, regs := 1, la := l, pop := true }
  | .qpopB64 q a l p => some { queue := q.toNat, pred := p.toNat, dest := 2 * a.toNat, regs := 2, la := l, pop := true }
  | .qpeekB32 q a l p => some { queue := q.toNat, pred := p.toNat, dest := a.toNat, regs := 1, la := l, pop := false }
  | .qpeekB64 q a l p => some { queue := q.toNat, pred := p.toNat, dest := 2 * a.toNat, regs := 2, la := l, pop := false }
  | _ => none

/-- The entries of queue q as the issuing heat sees it (R47). -/
def queueOf (s : State) (h : Heat) (q : Nat) : List QEntry :=
  if q < 8 then h.queue q
  else match s.curTeam with
    | some u => match s.team? u with
      | some x => mget [] x.body.queues q
      | none => []
    | none => []

/-! ### Engine commands (R189–R197, R243) -/

/-- A copy command: OPC, CQ and the first register of its block. -/
def copyForm : Instr → Option (BitVec 4 × BitVec 4 × Nat)
  | .cpy q a => some (0#4, q, 4 * a.toNat)
  | .cpytRow q a => some (1#4, q, 4 * a.toNat)
  | .cpytCol q a => some (2#4, q, 4 * a.toNat)
  | .cpym q a => some (3#4, q, 4 * a.toNat)
  | _ => none

/-- The block of a copy command: OPC in bits 19:16 and CQ in bits 23:20 of word 3 (R189). -/
def copyBlock (h : Heat) (opc cq : BitVec 4) (r : Nat) : List W64 :=
  [h.sr r, h.sr (r + 1), h.sr (r + 2),
    (h.sr (r + 3)).extractLsb' 24 40 ++ cq ++ opc ++ (h.sr (r + 3)).extractLsb' 0 16]

/-- A word that pushes a copy command, the registers it reads, and the block that it pushes: one of the copy words, or
a QPUSH to q0 by lanes 0 to 3 (R189, R190; log entry 73). -/
def CopyWord (i : Instr) (s : State) (h : Heat) (uses suses : List (Nat × Nat)) (w : List W64) : Prop :=
  (∃ opc cq r, copyForm i = some (opc, cq, r) ∧ uses = [] ∧ suses = [(r, 4)] ∧ w = copyBlock h opc cq r) ∨
  ∃ f, pushForm i = some f ∧ f.queue = 0 ∧ uses = f.uses ∧ suses = [] ∧ h.taking s.cur.active f.pred = 0xF#32 ∧
    w = [f.value h 0, f.value h 1, f.value h 2, f.value h 3]

/-- The same of a collective command: COLL, or a QPUSH to q4 by lanes 0 to 3 (R243; log entry 73). -/
def CollWord (i : Instr) (s : State) (h : Heat) (uses suses : List (Nat × Nat)) (w : List W64) : Prop :=
  (∃ q a : BitVec 4, let r := 4 * a.toNat
    i = .coll q a ∧ uses = [] ∧ suses = [(r, 4)] ∧ w = [h.sr r, h.sr (r + 1), h.sr (r + 2),
      (h.sr (r + 3)).extractLsb' 20 44 ++ q ++ (h.sr (r + 3)).extractLsb' 0 16]) ∨
  ∃ f, pushForm i = some f ∧ f.queue = 4 ∧ uses = f.uses ∧ suses = [] ∧ h.taking s.cur.active f.pred = 0xF#32 ∧
    w = [f.value h 0, f.value h 1, f.value h 2, f.value h 3]

/-- The values that a push puts into its entry. -/
def PushForm.vals (f : PushForm) (s : State) (h : Heat) : FMap W64 :=
  (lanesOf (h.taking s.cur.active f.pred)).map (fun l => (l, f.value h l))

/-- The header word of the sequence that a QPUSH to q2 begins or goes on with (R197). -/
def PushForm.header (f : PushForm) (h : Heat) : W64 :=
  match partialSeq 20 h.gatherList with
  | [] => f.value h 0
  | e :: _ => mget 0#64 e.vals 0

/-- The address entry of the sequence that a QPUSH to q2 ends: lanes and values. -/
def PushForm.addresses (f : PushForm) (s : State) (h : Heat) : Mask × FMap W64 :=
  match (partialSeq 20 h.gatherList).drop 1 with
  | [] => (h.taking s.cur.active f.pred, f.vals s h)
  | e :: _ => (e.mask, e.vals)

/-- A gather or scatter: reply queue, predicate, first address register, first data register and their
number, size code. -/
structure GatherForm where
  queue : Nat
  pred : Nat
  addr : Nat
  data : Nat := 0
  regs : Nat := 0
  size : Nat
  write : Bool := false

/-- The gathers and scatters (R195, R196). -/
def gatherForm : Instr → Option GatherForm
  | .gthB32 q a p => some { queue := q.toNat, pred := p.toNat, addr := 2 * a.toNat, size := 0 }
  | .gthB64 q a p => some { queue := q.toNat, pred := p.toNat, addr := 2 * a.toNat, size := 1 }
  | .gthB128 q a p => some { queue := q.toNat, pred := p.toNat, addr := 2 * a.toNat, size := 2 }
  | .sctB32 q a b p => some {
      queue := q.toNat, pred := p.toNat, addr := 2 * a.toNat, data := b.toNat, regs := 1, size := 0, write := true }
  | .sctB64 q a b p => some {
      queue := q.toNat, pred := p.toNat, addr := 2 * a.toNat, data := 2 * b.toNat, regs := 2, size := 1, write := true }
  | .sctB128 q a b p => some {
      queue := q.toNat, pred := p.toNat, addr := 2 * a.toNat, data := 4 * b.toNat, regs := 4, size := 2, write := true }
  | _ => none

/-- Registers a gather or scatter names. -/
def GatherForm.uses (f : GatherForm) : List (Nat × Nat) :=
  if f.write then [(f.addr, 2), (f.data, f.regs)] else [(f.addr, 2)]

/-- Its header word (R197): kind, size code, reply queue. -/
def GatherForm.header (f : GatherForm) : W64 :=
  BitVec.ofNat 64 ((if f.write then 1 else 0) + f.size * 2 ^ 4 + f.queue * 2 ^ 6)

/-- The values that its address and data entries hold for a lane: v(A), then the data, 64 bits an entry. -/
def GatherForm.values (f : GatherForm) (h : Heat) (l : Nat) : List W64 :=
  h.pair f.addr l ::
    (if f.regs = 1 then [0#32 ++ h.v f.data l]
     else if f.regs = 2 then [h.pair f.data l]
     else if f.regs = 4 then [h.pair f.data l, h.pair (f.data + 2) l] else [])

/-- Every thread that waits in a bin of core c or in the spill area of context a. -/
def waitingThreads (s : State) (c a : Nat) : List BinThread :=
  (s.core c).bins.flatMap (fun b => b.threads) ++ (match s.ctx? a with
    | some x => x.spill
    | none => [])

/-! ### Relay operations (R237, R238) -/

/-- A relay operation: number, bytes, registers, result, address, predicate, operands of a lane. -/
structure RelayForm where
  op : Nat
  size : Nat
  uses : List (Nat × Nat)
  dest : Option (Nat × Nat × Nat) := none
  base : BitVec 4
  ofs : BitVec 7
  pred : Nat
  x : Heat → Nat → W64 := fun _ _ => 0#64
  y : Heat → Nat → W64 := fun _ _ => 0#64

/-- The relay operations. -/
def relayForm : Instr → Option RelayForm
  | .ratomAdd d a o l p => some {
      op := 0, size := 8, uses := [(2 * d.toNat, 2)], dest := some (2 * d.toNat, 2, l.toNat), base := a, ofs := o
      pred := p.toNat, x := fun h n => h.pair (2 * d.toNat) n }
  | .ratomMax d a o l p => some {
      op := 1, size := 8, uses := [(2 * d.toNat, 2)], dest := some (2 * d.toNat, 2, l.toNat), base := a, ofs := o
      pred := p.toNat, x := fun h n => h.pair (2 * d.toNat) n }
  | .ratomCas d a o l p => some {
      op := 2, size := 8, uses := [(4 * d.toNat, 4)], dest := some (4 * d.toNat, 2, l.toNat), base := a, ofs := o
      pred := p.toNat, x := fun h n => h.pair (4 * d.toNat) n, y := fun h n => h.pair (4 * d.toNat + 2) n }
  | .ratomExch d a o l p => some {
      op := 3, size := 8, uses := [(2 * d.toNat, 2)], dest := some (2 * d.toNat, 2, l.toNat), base := a, ofs := o
      pred := p.toNat, x := fun h n => h.pair (2 * d.toNat) n }
  | .rredAddB64 z a o p => some {
      op := 4, size := 8, uses := [(2 * z.toNat, 2)], base := a, ofs := o, pred := p.toNat
      x := fun h n => h.pair (2 * z.toNat) n }
  | .rredAddF32 z a o p => some {
      op := 5, size := 4, uses := [(z.toNat, 1)], base := a, ofs := o, pred := p.toNat
      x := fun h n => 0#32 ++ h.v z.toNat n }
  | .rharr a o p => some { op := 6, size := 8, uses := [], base := a, ofs := o, pred := p.toNat }
  | .rlaunch d a o l p => some {
      op := 7, size := 128, uses := [(d.toNat, 1)], dest := some (d.toNat, 1, l.toNat), base := a, ofs := o
      pred := p.toNat }
  | _ => none

/-- Address of a lane. -/
def RelayForm.addr (f : RelayForm) (h : Heat) (l : Nat) : Addr := h.laneAddr f.base f.ofs l

/-- Device and offset of a fabric target. -/
def fabricOf (t : Target) : Nat × Nat :=
  match t with
  | .fab dev off => (dev, off)
  | _ => (0, 0)

/-- Next serial of a stream (R446): a stream not yet used starts at 1. -/
def nextSerial (s : State) (a dev : Nat) : W32 :=
  match s.ctx? a with
  | some c => (mget {} c.streams dev).next
  | none => 1#32

/-! ### Hurdles (R213–R225) -/

/-- The registering words and their modes. -/
def regForm : Instr → Option (BitVec 1 × BitVec 8 × HMode)
  | .hregS c n => some (c, n, .s)
  | .hregW c n => some (c, n, .w)
  | .hregSw c n => some (c, n, .sw)
  | _ => none

/-- The hurdle a word names. -/
def hurdleId (c : BitVec 1) (n : BitVec 8) : HId := { cluster := c == 1#1, h := n.toNat }

/-- A cluster hurdle's word first performs the deferred stores of its cluster (R225). -/
def opened (s : State) (u : Nat) (c : BitVec 1) : State := if c = 1#1 then s.flush u else s

/-- A cluster hurdle's word closes the lap (R225). -/
def closed (t : State) (c : BitVec 1) : State := if c = 1#1 then t.endLap else t

/-- A cluster hurdle's word waits while a deferred store's page is being migrated (R497). -/
def mayOpen (s : State) (u : Nat) (c : BitVec 1) : Prop := c = 1#1 → s.commitHeld u = false

/-- A hurdle word of the heat g of team u goes on: the state r in which the hurdle unit has done its part
becomes t, in which the heat has issued and its lanes have moved, or parked with p. -/
def WentOn (r t : State) (p : Park) : Prop :=
  ∃ h h', r.curHeat? = some h ∧ t.curHeat? = some h' ∧ OnlyIssuer r t ∧
    Retired r h h' (if p = .none then r.onward else fun _ x => { x with park := p }) ∧ SameRegs h h'

/-! ### The team sequencer (R248–R276) -/

/-- From s to t nothing changes but the sequencer of team u and the bookkeeping of an issue. -/
def OnlySequencer (s t : State) (u : Nat) : Prop :=
  t.device = s.device ∧ (∀ v g, t.heat? v g = s.heat? v g) ∧
    (∀ v, (t.team? v).map (fun x => { x with body := { x.body with seq := if v = u then {} else x.body.seq } }) =
      (s.team? v).map (fun x => { x with body := { x.body with seq := if v = u then {} else x.body.seq } })) ∧
    ∀ c, (t.core c).still = (s.core c).still

/-- A sequencer without its registers, its words and its place in the stream. -/
def seqRest (q : Seq) : Seq :=
  { q with
    m := [], ops := [], hdr := 0#72, idx := 0, count := 0#64, park := .none, clauseStamp := 0, lastCycle := .none }

/-- An issued word without the moment it became ready for the engine. -/
def unready (o : SeqOp) : SeqOp := { o with readyAt := .none }

/-- The sequencer goes on to the next word of its stream. -/
def SeqOnward (c : Cur) (q q' : Seq) : Prop :=
  q'.count = q.count + 1#64 ∧ q'.park = .none ∧
    (if c.idx + 1 < c.n then q'.hdr = q.hdr ∧ q'.idx = c.idx + 1 else q'.hdr = fall c ∧ q'.idx = 0)

/-- A sequencer word of team u goes on from r to t; a parked one stays at its word. -/
def SeqWentOn (r t : State) (u : Nat) (p : Park) : Prop :=
  ∃ q q', r.curSeq? = some q ∧ t.curSeq? = some q' ∧ OnlySequencer r t u ∧ seqRest q' = seqRest q ∧ q'.m = q.m ∧
    q'.ops = q.ops ∧
    (if p = .none then SeqOnward r.cur q q'
     else q'.count = q.count + 1#64 ∧ q'.park = p ∧ q'.hdr = q.hdr ∧ q'.idx = q.idx)

/-- A sequencer word has joined the issued ones: its kind, places and first address. -/
def Enlisted (s t : State) (u : Nat) (kind : SeqOpKind) (places : List (Nat × Piece)) (addr : Nat) : Prop :=
  ∃ q q' o, s.curSeq? = some q ∧ t.curSeq? = some q' ∧ OnlySequencer s t u ∧ SeqOnward s.cur q q' ∧
    seqRest q' = seqRest q ∧ q'.m = q.m ∧ q'.ops.map unready = q.ops.map unready ++ [o] ∧ o.kind = kind ∧
    o.places = places ∧ o.addr = addr ∧ o.stamp = s.stamp

/-- A word that writes a sequencer register (R251): the register and its value. -/
def seqForm : Instr → Option (Nat × (Seq → W64))
  | .mmov d a => some (d.toNat, fun q => q.mr a.toNat)
  | .mmovI d n => some (d.toNat, fun _ => n.signExtend 64)
  | .madd d a z n => some (d.toNat, fun q =>
      q.mr a.toNat + n.signExtend 64 * (if z = 0#2 then 1 else if z = 1#2 then 64 else if z = 2#2 then 1024 else 65536))
  | _ => none

/-- A sequencer load or store of one range: the tiles it names, its address register, address space, bytes,
alignment, whether it stores, and what it becomes. -/
structure RangeForm where
  tiles : List Nat := []
  base : Nat
  window : Bool
  bytes : Nat
  align : Nat
  write : Bool := false
  kind : SeqOpKind

/-- TLD, TLDT, ACCLD and ACCST (R256, R257, R267). -/
def rangeForm : Instr → Option RangeForm
  | .tld t b m => some {
      base := b.toNat, window := m == 1#1, bytes := 4096, align := 64, kind := .tileLoad t.toNat 0 }
  | .tldt t b m => if m.toNat < 6 then some {
      base := b.toNat, window := m.getLsbD 0, bytes := 4096, align := 64
      kind := .tileLoad t.toNat (if m.toNat / 2 = 0 then 8 else if m.toNat / 2 = 1 then 16 else 4) } else none
  | .accld c b m => some {
      tiles := [c.toNat], base := b.toNat, window := m == 1#1, bytes := 16384, align := 256, kind := .accLoad c.toNat }
  | .accst c b m => some {
      tiles := [c.toNat], base := b.toNat, window := m == 1#1, bytes := 16384, align := 256, write := true
      kind := .accStore c.toNat }
  | _ => none

/-- The tiles a word names lie in the allocation and none awaits restore (R275, R407). -/
def TilesReady (x : Team) (tiles : List Nat) : Prop := ∀ n ∈ tiles, n < x.accCount ∧ n ∉ x.restoringTiles

/-- A strided drain: tile, address register, bytes of an element, what the stride word must not hold, what it
becomes. -/
def stridedForm (q : Seq) : Instr → Option (Nat × Nat × Nat × Bool × SeqOpKind)
  | .drainAxpy c b m => some (c.toNat, b.toNat, (if m = 1#1 then 2 else 4), false,
      .axpy c.toNat ((q.mr (b.toNat + 1)).extractLsb' 0 32) (m == 1#1))
  | .drainRed c b => some (c.toNat, b.toNat, 4, (q.mr (b.toNat + 1)).extractLsb' 0 32 != 0#32, .red c.toNat)
  | _ => none

/-- An MMA or MMAS: formats of A and B, whether it is scaled, TA, KEEP, tile, profile register, address
register, steps and scale selector. -/
structure MmaWord where
  a : Nat
  b : Nat
  scaled : Bool := false
  ta : BitVec 4
  keep : BitVec 1
  tile : Nat
  prof : Nat
  base : Nat
  steps : Nat := 1
  sigma : Nat := 0

/-- The MMA and MMAS words (R260): formats 0 E4M3, 1 E5M2, 2 E2M1, 3 BF16. -/
def mmaForm : Instr → Option MmaWord
  | .mmaE4m3E4m3 t k c r b m => some {
      a := 0, b := 0, ta := t, keep := k, tile := c.toNat, prof := r.toNat, base := b.toNat, steps := m.toNat + 1 }
  | .mmaE4m3E5m2 t k c r b m => some {
      a := 0, b := 1, ta := t, keep := k, tile := c.toNat, prof := r.toNat, base := b.toNat, steps := m.toNat + 1 }
  | .mmaE5m2E4m3 t k c r b m => some {
      a := 1, b := 0, ta := t, keep := k, tile := c.toNat, prof := r.toNat, base := b.toNat, steps := m.toNat + 1 }
  | .mmaE5m2E5m2 t k c r b m => some {
      a := 1, b := 1, ta := t, keep := k, tile := c.toNat, prof := r.toNat, base := b.toNat, steps := m.toNat + 1 }
  | .mmaE2m1E2m1 t k c r b m => some {
      a := 2, b := 2, ta := t, keep := k, tile := c.toNat, prof := r.toNat, base := b.toNat, steps := m.toNat + 1 }
  | .mmaE4m3E2m1 t k c r b m => some {
      a := 0, b := 2, ta := t, keep := k, tile := c.toNat, prof := r.toNat, base := b.toNat, steps := m.toNat + 1 }
  | .mmaBf16Bf16 t k c r b m => some {
      a := 3, b := 3, ta := t, keep := k, tile := c.toNat, prof := r.toNat, base := b.toNat, steps := m.toNat + 1 }
  | .mmasE4m3E4m3 t k c r b z => some {
      a := 0, b := 0, scaled := true, ta := t, keep := k, tile := c.toNat, prof := r.toNat, base := b.toNat
      sigma := z.toNat }
  | .mmasE5m2E5m2 t k c r b z => some {
      a := 1, b := 1, scaled := true, ta := t, keep := k, tile := c.toNat, prof := r.toNat, base := b.toNat
      sigma := z.toNat }
  | .mmasE2m1E2m1 t k c r b z => some {
      a := 2, b := 2, scaled := true, ta := t, keep := k, tile := c.toNat, prof := r.toNat, base := b.toNat
      sigma := z.toNat }
  | _ => none

/-- The form of an MMA word. -/
def MmaWord.form (f : MmaWord) : MmaForm := { afmt := f.a, bfmt := f.b, scaled := f.scaled }

/-- Bits of an element of a format. -/
def mmaBits (f : Nat) : Nat := if f = 2 then 4 else if f = 3 then 16 else 8

/-- K of a form (R260): 512 bits of A for a row. -/
def MmaWord.k (f : MmaWord) : Nat := 512 / mmaBits f.a

/-- Bytes of B that one step reads: 64 columns of K elements. -/
def MmaWord.bBytes (f : MmaWord) : Nat := 64 * (f.k * mmaBits f.b / 8)

/-- The sequencer's hurdle words: flag, number. -/
def seqHurdleForm : Instr → Option (BitVec 1 × BitVec 8)
  | .mharr c h => some (c, h)
  | .mharrRegister c h => some (c, h)
  | .mharrDrop c h => some (c, h)
  | .mhwait c h => some (c, h)
  | .mhwaitRegister c h => some (c, h)
  | _ => none

/-! ### System registers (R56–R61, R277, R475, R476) -/

/-- What SRD of a register of scope team, grid, context or core gives a heat of team x (R56, R57). -/
def teamReg (s : State) (h : Heat) (x : Team) (n : Nat) : Option W64 :=
  match n with
  | 0x01 => some (BitVec.ofNat 64 s.curHeatId)
  | 0x02 => some (BitVec.ofNat 64 x.teamId)
  | 0x03 => some (BitVec.ofNat 64 (x.teamId / x.csize))
  | 0x04 => some (BitVec.ofNat 64 x.rank)
  | 0x05 => some (BitVec.ofNat 64 x.grid)
  | 0x06 => some (BitVec.ofNat 64 (if s.curDet then x.logicalCore else s.cur.core))
  | 0x07 => some (BitVec.ofNat 64 h.role)
  | 0x20 => some (s.core s.cur.core).poolrb
  | 0x21 => some (s.core s.cur.core).poolsb
  | 0x22 => some (s.core s.cur.core).poolcb
  | 0x40 => some x.lap
  | 0x41 => some h.stride
  | 0x50 => some (match s.gridOf x with
      | some g => g.record.seed
      | none => 0#64)
  | 0x51 => some s.tdbase
  | 0x52 => some s.tdcnt
  | _ => none

/-- What SRD of a trap-heat register of core c gives, for the record r of the fault handled (R475). -/
def faultReg (k : Core) (r : TrapRec) (n : Nat) : Option W64 :=
  match n with
  | 0x1000 => some (BitVec.ofNat 64 r.cls)
  | 0x1001 => some (BitVec.ofNat 64 r.asid)
  | 0x1002 => some (BitVec.ofNat 64 (r.share + 2 ^ 8 * r.heat + 2 ^ 16 * (if r.isAsync then 1 else 0)))
  | 0x1003 => some (r.hdr.extractLsb' 0 64)
  | 0x1004 => some (BitVec.ofNat 64 r.idx)
  | 0x1005 => some (0#32 ++ r.word)
  | 0x1006 => some (r.live ++ r.mask)
  | 0x1007 => some r.info
  | 0x1008 => some (r.addr.extractLsb' 0 64)
  | 0x1009 => some (0#56 ++ r.addr.extractLsb' 64 8)
  | 0x100A => some (r.codes.extractLsb' 0 64)
  | 0x100B => some (r.codes.extractLsb' 64 64)
  | 0x100C => some r.lap
  | 0x100D => some r.stride
  | 0x1010 => some k.thentry
  | 0x1020 => some k.csel
  | 0x1030 => some k.lastAction
  | 0x1040 => some k.dumpa
  | 0x1042 => some k.dumps
  | _ => none

/-- What a lane register gives (R57, R58, R305, R545). -/
def laneValue (s : State) (h : Heat) (n l : Nat) : W64 :=
  if inMask s.cur.helpers l then
    (if n = 0x30 then 0xFFFFFFFFFFFFFFFE else if n = 0x31 then 0xFFFFFFFF else 0)
  else if n = 0x30 then (if s.privileged then 0xFFFFFFFFFFFFFFFF else (h.lane l).lineage)
  else if n = 0x31 then
    (if s.privileged then 0xFFFFFFFF
     else if (h.lane l).member then BitVec.ofNat 64 ((h.lane l).lineage.toNat % 2 ^ 40) else 0xFFFFFFFF)
  else (h.lane l).cvcnt

/-- The privileged words but SRD (R277). -/
def privilegedWord : Instr → Bool
  | .swr _ _ => true
  | .swrPoolrb _ => true
  | .swrPoolsb _ => true
  | .swrPoolcb _ => true
  | .swrTdbase _ => true
  | .swrTdcnt _ => true
  | .swrDumpc _ => true
  | .swrTaction _ => true
  | .swrCposh _ => true
  | .swrCposi _ => true
  | .swrCpred _ => true
  | .swrXv _ _ => true
  | .swrXs _ _ => true
  | .swrXa _ _ => true
  | .swrXah _ _ => true
  | .swrXm _ _ => true
  | .eret => true
  | .tlbiAll => true
  | .tlbiAsid _ => true
  | .tlbiVa _ _ => true
  | .halt _ => true
  | _ => false

/-- An SWR from s(D) that writes a register of the core: D and the core after it. -/
def coreWrite : Instr → Option (Nat × (Core → W64 → Core))
  | .swr d r => if r = 0x1020#16 then some (d.toNat, fun k v => { k with csel := v &&& 0x1FFFFF#64 })
      else if r = 0x1040#16 then some (d.toNat, fun k v => { k with dumpa := v }) else none
  | .swrTaction d => some (d.toNat, fun k v =>
      if v.extractLsb' 0 2 = 3#2 then k
      else { k with
        actions := mset 0 k.actions (v.extractLsb' 8 2).toNat (v.extractLsb' 0 2).toNat
        lastAction := v &&& 0x303#64 })
  | .swrDumpc d => some (d.toNat, fun k v =>
      match k.dump, k.frozen with
      | some _, _ => k
      | none, none => { k with dumps := 4#64 }
      | none, some r =>
        if v.toNat < 16 ∧ k.dumpa.toNat % 128 = 0 then
          { k with dumps := 1#64, dump := some { fault := r, sect := v.toNat, base := k.dumpa.toNat } }
        else { k with dumps := 4#64 })
  | _ => none

/-- A write of a pool boundary (R60). -/
def poolWrite : Instr → Option (Nat × (Core → W64 → Core))
  | .swrPoolrb d => some (d.toNat, fun k v => { k with poolrb := v &&& 0xFF#64 })
  | .swrPoolsb d => some (d.toNat, fun k v => { k with poolsb := v &&& 0xFF#64 })
  | .swrPoolcb d => some (d.toNat, fun k v => { k with poolcb := v &&& 0xFF#64 })
  | _ => none

/-- A write of a register of a selected heat (R476): D, and the heat after it for the selected lane. -/
def heatWrite (stamp : Nat) : Instr → Option (Nat × (Heat → Nat → W64 → Heat))
  | .swrCposh d => some (d.toNat, fun h l v => h.setLane l { h.lane l with hdr := 0#8 ++ v, clauseStamp := stamp })
  | .swrCposi d => some (d.toNat, fun h l v =>
      h.setLane l { h.lane l with idx := v.toNat % 16, clauseStamp := stamp })
  | .swrXa d r => some (d.toNat, fun h _ v => h.setA r.toNat ((h.ar r.toNat).extractLsb' 64 8 ++ v))
  | .swrXah d r => some (d.toNat, fun h _ v =>
      h.setA r.toNat (v.extractLsb' 0 8 ++ (h.ar r.toNat).extractLsb' 0 64))
  | .swrXv d r => some (d.toNat, fun h l v =>
      if r.toNat < h.budget then
        { h with slots := h.slots.map (fun (x : Slot) =>
            if x.touches (maskOf (· == l)) [(r.toNat, 1)] [] then { x with cancelled := true } else x) }.setV r.toNat l
          (v.extractLsb' 0 32)
      else h)
  | .swrXs d r => some (d.toNat, fun h _ v =>
      { h with slots := h.slots.map (fun (x : Slot) =>
          if x.touches 0#32 [] [(r.toNat, 1)] then { x with cancelled := true } else x) }.setS r.toNat v)
  | .swrCpred d => some (d.toNat, fun h l v =>
      (List.range 8).foldl (fun y r => y.setK r l (v.getLsbD r)) h)
  | _ => none

/-- Which translations a TLBI names: context and address. -/
def tlbiForm (h : Heat) : Instr → Option (List Nat × Option Nat × Option Nat)
  | .tlbiAll => some ([], none, none)
  | .tlbiAsid b => some ([b.toNat], some ((h.sr b.toNat).toNat % 1024), none)
  | .tlbiVa a b => some ([b.toNat], some ((h.sr b.toNat).toNat % 1024), some (h.ar a.toNat).toNat)
  | _ => none

/-- Whether a TLBI names a cached translation (R281). -/
def named (asid va : Option Nat) (e : TlbEntry) : Bool :=
  (match asid with
    | some a => e.asid == a
    | none => true) &&
  (match va with
    | some v => decide (e.base ≤ v) && decide (v < e.base + e.size)
    | none => true)

/-! ### Events -/

/-- Every byte of memory is as before. -/
def SameMem (s t : State) : Prop := ∀ a, readByte t.mem a = readByte s.mem a

/-- Memory after a list of writes, the last one at an address counting; every other byte is as before. -/
def Stored (s t : State) (ws : List (Nat × Byte)) : Prop :=
  ∀ a, readByte t.mem a = (lastWrite ws a).getD (readByte s.mem a)

/-- From s to t nothing changes but heat g of team u. -/
def OnlyHeat (s t : State) (u g : Nat) : Prop :=
  t.device = s.device ∧ t.cores = s.cores ∧ (∀ v, (t.team? v).map Team.still = (s.team? v).map Team.still) ∧
    ∀ v k, (v ≠ u ∨ k ≠ g) → t.heat? v k = s.heat? v k

/-- From s to t no core changes but core c. -/
def OnlyCore (s t : State) (c : Nat) : Prop := ∀ d, d ≠ c → t.core d = s.core d

/-- From s to t no team changes but team u. -/
def OnlyTeam (s t : State) (u : Nat) : Prop := ∀ v, v ≠ u → t.team? v = s.team? v

/-- What a lane slot of a heat of budget b holds: lane state, vector registers, predicates. -/
structure Seat where
  lane : Lane
  rows : List W32
  preds : List Bool

/-- The seat of lane l. -/
def seatOf (h : Heat) (b l : Nat) : Seat :=
  { lane := h.lane l, rows := (List.range b).map (fun r => h.v r l), preds := (List.range 8).map (fun r => h.k r l) }

/-- The seat of lane l of a gathered heat: a live lane has moved to its target, and its thread takes along what it
has issued and is not yet done (R17, R307). -/
def movedSeat (s : State) (u : Nat) (e : Nat × Heat) (b l : Nat) : Seat :=
  let x := e.2.lane l
  { seatOf e.2 b l with
    lane := if x.live then
        { x with carried := s.carriedFrom u e.1 e.2 l, since := s.stamp }.moveTo x.park.packTarget s.stamp
      else x }

/-- The place of lane l of a heat in the order of R307: by target, empty slots last. -/
def seatKey (h : Heat) (l : Nat) : Nat := if (h.lane l).live then (h.lane l).park.packTarget.toNat else 2 ^ 72

/-- Of a list of (HEATID, team), the pair served next after `last` in rotation (R192). -/
def NextInTurn (l : List (Nat × Nat)) (last x : Nat × Nat) : Prop :=
  let after (a b : Nat × Nat) : Prop := a.1 < b.1 ∨ (a.1 = b.1 ∧ a.2 < b.2)
  x ∈ l ∧ ((after last x ∧ ∀ y ∈ l, after last y → ¬ after y x) ∨
    ((∀ y ∈ l, ¬ after last y) ∧ ∀ y ∈ l, ¬ after y x))

/-- The writes of memory of a copy or scatter whose data is b: destination pieces with their positions. -/
def copyWrites (b : List Byte) (dst : List (Nat × Piece)) : List (Nat × Byte) :=
  dst.flatMap (fun p => match p.2 with
    | .mem pa n _ _ => (List.range n).map (fun i => (pa + i, b.getD (p.1 + i) 0#8))
    | _ => [])

/-- The completion word of a copy or scatter (R193). -/
def replyWord (status opc tag : Nat) : W64 := BitVec.ofNat 64 (status * 2 ^ 20 + opc * 2 ^ 16 + tag)

/-- The entries of queue q of heat g of team u, or of the team (R47). -/
def entriesOf (s : State) (u g q : Nat) : List QEntry :=
  match s.team? u with
  | none => []
  | some x => if 8 ≤ q then mget [] x.body.queues q
    else match x.heat? g with
      | some h => h.queue q
      | none => []

/-- An event in which the copy or gather engine goes on with a command that is not done, of a team that neither
checks another nor is checked (R192, R352, R510). -/
def EngineTurn (i : Instr) (s : State) (c : EngCmd) : Prop :=
  c.written = false ∧ (∀ x, s.team? c.team = some x → x.checker = none ∧ x.checks = none) ∧
    ((i = .evCopyComplete c.id ∧ s.engines.find? (fun z => z.id == c.id && decide (z.opc < 4)) = some c) ∨
      (i = .evScatterComplete c.id ∧ s.engines.find? (fun z => z.id == c.id && z.opc == 4) = some c) ∨
      (i = .evGatherResult c.id ∧ c.outs = [] ∧ s.engines.find? (fun z => z.id == c.id && z.opc == 5) = some c))

/-- A command's reply may be pushed: its heat still stands and its queue has room, and a replay has come to where
it was pushed (R193, R484). -/
def MayReply (s : State) (c : EngCmd) : Prop :=
  c.team < trapBase ∧ (∃ h, s.heat? c.team c.heat = some h ∧ h.ended = false ∧ h.born ≤ c.id) ∧
    (c.queue ≠ 0 → (entriesOf s c.team c.heat c.queue).length < Config.queueDepth) ∧
    s.entryReached c.team c.heat c.stride = true

/-- An entry that holds w in every lane. -/
def Uniform (e : QEntry) (w : W64) : Prop := e.mask = 0xFFFFFFFF#32 ∧ ∀ l, l < 32 → mget 0#64 e.vals l = w

/-- The last frame sent to the host in t is f. -/
def SentLast (t : State) (f : Frame) : Prop := t.hostOut.getLast? = some f

/-- The dependence counter of a grid holds its value (R393). -/
def CounterReached (s : State) (g : Grid) : Prop :=
  ∃ base size leaf, s.translate g.asid g.waitAddr = .page base size leaf ∧
    g.waitVal ≤ readNat s.mem (pageAddr leaf size g.waitAddr) 8

/-- No waiting head grid has lost the right to read its counter (R393). -/
def HeadsReadable (s : State) : Prop :=
  ∀ k ∈ s.heads, ∀ g, mfind s.grids k = some g →
    g.waitAddr = 0 ∨ g.met = true ∨ g.nextTeam ≠ 0 ∨ s.waitReadable g.asid g.waitAddr = true

/-- A bin of core c may launch as heat g of team u (R401, R548): its key, the free HEATID and resident slot, and
room for its rows. -/
def BinFits (s : State) (c i u g slot : Nat) (entry : Addr) : Prop :=
  u < trapBase ∧ ((s.core c).bin i).key = some (u, entry) ∧ ((s.core c).bin i).threads.length ≤ 32 ∧
    (∃ x, s.team? u = some x ∧ x.core? = some c ∧ x.freeHeat = some g) ∧
    lowSlot ((s.coreHeats c).map (fun h => h.slot)) g = some slot ∧
    rowBytesOf (s.coreHeats c) + 128 * (((s.core c).bin i).threads.headD {}).budget ≤ (s.core c).bankBytes

/-- Heat g of team u is formed of the bin's threads, in order from lane 0 (R62, R401). -/
def BinLaunched (s t : State) (c i u g slot : Nat) (entry : Addr) : Prop :=
  let ts := ((s.core c).bin i).threads
  ∃ x h, s.team? u = some x ∧ t.heat? u g = some h ∧ h.slot = slot ∧ h.role = (ts.headD {}).role ∧
    h.budget = (ts.headD {}).budget ∧ (∀ n, h.sr n = if n < 8 then (s.teamArgs x).getD n 0#64 else 0#64) ∧
    (∀ l, ts.length ≤ l → (h.lane l).live = false) ∧
    ∀ l b, ts[l]? = some b → (h.lane l).live = true ∧ (h.lane l).hdr = entry ∧ (h.lane l).idx = b.idx ∧
      (h.lane l).lineage = b.lineage ∧ (h.lane l).cvcnt = b.cvcnt ∧ (h.lane l).park = .none ∧
      (b.rows = [] → ∀ j, j < b.args.length → h.v j l = b.args.getD j 0#32)

/-- Team u has left core c for its shadow bank (R406): its registers, scratchpad and tiles are as before, its
bins' threads are in its image. -/
def MovedOut (s t : State) (c u : Nat) : Prop :=
  ∃ x y, s.team? u = some x ∧ t.team? u = some y ∧ y.res = .shadow c ∧ y.savedBins = (s.core c).binsOf u ∧
    y.body.spad = x.body.spad ∧ y.body.acc = x.body.acc ∧
    (∀ g h, x.heat? g = some h → ∃ h', y.heat? g = some h' ∧ SameRegs h h' ∧ h'.stride = h.stride) ∧
    (t.core c).shadowBusy = some u ∧ (∀ i e, ((t.core c).bin i).key ≠ some (u, e)) ∧ OnlyCore s t c ∧
    OnlyTeam s t u ∧ SameMem s t

/-- The value an ACCST, DRAIN.AXPY or DRAIN.RED leaves at an element g whose target holds `old`, and its bytes
(R267, R269, R270). -/
def drainValue (k : SeqOpKind) (g : W32) (old : Nat) : List Byte :=
  match k with
  | .axpy _ alpha true => toBytes 2 (bf16 (addV (valOf .bf16 old) (mulV (real alpha) (real g))))
  | .axpy _ alpha false => toBytes 4 (rounded .rn (addV (real (BitVec.ofNat 32 old)) (mulV (real alpha) (real g)))).toNat
  | .red _ => toBytes 4 (addF32 (BitVec.ofNat 32 old) g).toNat
  | _ => toBytes 4 g.toNat

/-- Bytes of a drained element. -/
def drainSize (k : SeqOpKind) : Nat :=
  match k with
  | .axpy _ _ true => 2
  | _ => 4

/-- A heat at its team's start: role, budget, 32 live lanes at the role's entry, s0 to s7 the arguments, every
other register zero, and membership of h0 (R62, R224). -/
def FreshHeat (r : Record) (role : Nat) (h : Heat) : Prop :=
  h.role = role ∧ h.budget = r.budgetOf role ∧ h.ended = false ∧
    (∀ l, l < 32 → (h.lane l).live = true ∧ (h.lane l).hdr = r.roleEntry role ∧ (h.lane l).idx = 0 ∧
      (h.lane l).loops = [] ∧ (h.lane l).park = .none) ∧
    (∀ i, h.sr i = if i < 8 then r.args.getD i 0#64 else 0#64) ∧ (∀ n l, h.v n l = 0#32) ∧
    (∀ n, h.ar n = 0#72) ∧ (∀ n l, n ≠ 0 → h.k n l = false) ∧ mget {} h.hmem 0 = { mode := .sw }

/-! ### Collectives, the fabric and the relay -/

/-- The tree of R245 over a list: the left part is the largest power of two below the length. -/
inductive Tree (f : Nat → Nat → Nat) : List Nat → Nat → Prop where
  | one (x : Nat) : Tree f [x] x
  | node (a b : List Nat) (x y k : Nat) : a.length = 2 ^ k → b ≠ [] → b.length ≤ 2 ^ k → Tree f a x → Tree f b y →
      Tree f (a ++ b) (f x y)

/-- OP of a TYPE (R243, R245). -/
def memberOp (type x y : Nat) : Nat :=
  match type with
  | 0 => (fAdd (BitVec.ofNat 32 x) (BitVec.ofNat 32 y)).toNat
  | 1 => roundRn .bf16 (addV (valOf .bf16 x) (valOf .bf16 y))
  | 2 => (x + y) % 2 ^ 32
  | 3 => (x + y) % 2 ^ 64
  | 4 => (upper (BitVec.ofNat 32 x) (BitVec.ofNat 32 y)).toNat
  | _ => minMax .f32 true x y

/-- Bytes of an element of a TYPE. -/
def elemBytes (type : Nat) : Nat :=
  match type with
  | 1 => 2
  | 3 => 8
  | _ => 4

/-- Element i of a byte list. -/
def elemAt (type : Nat) (b : List Byte) (i : Nat) : Nat := ofBytes ((b.drop (i * elemBytes type)).take (elemBytes type))

/-- d holds n elements, element i the tree over the members' elements at(i). -/
def Reduced (type n m : Nat) (part : Nat → List Byte) (pos : Nat → Nat) (d : List Byte) : Prop :=
  d.length = n * elemBytes type ∧ ∀ i, i < n → ∃ v,
    Tree (memberOp type) ((List.range m).map (fun x => elemAt type (part x) (pos i))) v ∧
      elemAt type d i = v % 2 ^ (8 * elemBytes type)

/-- What member `self` of m receives of an operation (R244). -/
def Combined (op type n root m self : Nat) (part : Nat → List Byte) (d : List Byte) : Prop :=
  match op with
  | 0 => Reduced type n m part (fun i => i) d
  | 1 => Reduced type n m part (fun i => self * n + i) d
  | 2 => d = (List.range m).flatMap part
  | _ => d = part root

/-- What a member sent to collective c. -/
def partOf (c : CollCmd) (x : Nat) : List Byte :=
  match c.parts.find? (fun p => p.1 == x) with
  | some p => p.2.2
  | none => []

/-- The other members of a group. -/
def othersOf (g : GrpEntry) : List Nat := (List.range g.m).filter (· != g.self)

/-- The device that a group's member list names for member m (R458). -/
def listedDevice (s : State) (g : GrpEntry) (m : Nat) : Nat := readNat s.mem (g.mlist + 2 * m) 2

/-- Messages of collective (n, k), one for each other member of its group, all of these words and bytes (R459). -/
def ToOthers (s : State) (n k : Nat) (words : List W64) (data : List Byte) (ms : List CollMsg) : Prop :=
  let g := mget {} s.groups n
  ms.map (fun m => (m.member, m.dev)) = (othersOf g).map (fun m => (m, listedDevice s g m)) ∧
    ∀ m ∈ ms, m.group = n ∧ m.k = k ∧ m.words = words ∧ m.data = data

/-- The status of a collective of which every verdict is known: 0, or the lowest failure that a member names as its
own; 15 names none (R460, assumption log entry 70). -/
def Decided (vs : List (Nat × Nat)) (st : Nat) : Prop :=
  (st = 0 ∧ ∀ v ∈ vs, v.2 = 0 ∨ v.2 = 15) ∨
    (st ≠ 0 ∧ st ≠ 15 ∧ (∃ v ∈ vs, v.2 = st) ∧ ∀ v ∈ vs, v.2 = 0 ∨ v.2 = 15 ∨ st ≤ v.2)

/-- c after the verdict v of member m: a timeout decides it, and so does the last verdict (R460). -/
def Judged (g : GrpEntry) (c c' : CollCmd) (m v : Nat) : Prop :=
  c'.verdicts = c.verdicts ++ [(m, v)] ∧ c'.parts = c.parts ∧ c'.group = c.group ∧ c'.k = c.k ∧
    (v = 1 → c'.done = some 1) ∧ (v ≠ 1 → c.verdicts.length + 1 < g.m → c'.done = none) ∧
    (v ≠ 1 → g.m ≤ c.verdicts.length + 1 → ∃ st, c'.done = some st ∧ Decided c'.verdicts st)

/-- The command of collective (n, k) in s is c, in t c'. -/
def CollChanges (s t : State) (c c' : CollCmd) : Prop :=
  t.colls = s.colls.filter (fun x => !(x.group == c.group && x.k == c.k)) ++ [c']

/-- c is the accepted command of group n with the lowest number. -/
def FirstOf (s : State) (n : Nat) (c : CollCmd) : Prop :=
  c ∈ s.colls ∧ c.group = n ∧ c.accepted = true ∧
    ∀ d ∈ s.colls, d.group = n → d.accepted = true → d = c ∨ c.k < d.k

/-- The engine's command of a collective, of a team that neither checks another nor is checked. -/
def CollEngine (s : State) (c : CollCmd) (cmd : EngCmd) : Prop :=
  s.engines.find? (fun e => e.id == c.id && e.opc == 6) = some cmd ∧ cmd.team = c.team ∧ cmd.lines = [] ∧
    ∀ x, s.team? c.team = some x → x.checker = none ∧ x.checks = none

/-- The new value of an UPLI atomic, in the order of the rows of R178, on a word. -/
def upli (op : Nat) (x y : W64) (old : Nat) : Nat :=
  let a := x.setWidth 32
  let o := BitVec.ofNat 32 old
  match op with
  | 0 => (o + a).toNat
  | 1 => (lower o a).toNat
  | 2 => (upper o a).toNat
  | 3 => (o &&& a).toNat
  | 4 => (o ||| a).toNat
  | 5 => (o ^^^ a).toNat
  | 6 => a.toNat
  | 7 => if o = a then (y.setWidth 32).toNat else o.toNat
  | 8 => (BitVec.ofNat 64 old + x).toNat
  | 9 => x.toNat
  | 10 => if BitVec.ofNat 64 old = x then y.toNat else old
  | _ => (fAdd o a).toNat

/-- The 64 bytes of a relay packet (R448). -/
def packetOf (p : Packet) : List Byte :=
  toBytes 1 p.kind ++ toBytes 1 p.op ++ toBytes 2 p.srcdev ++ toBytes 2 p.asid ++ toBytes 2 p.cgen.toNat ++
    toBytes 4 p.serial.toNat ++ toBytes 4 p.ackthr.toNat ++ toBytes 4 p.oinc.toNat ++ toBytes 4 p.srcinc.toNat ++
    toBytes 8 p.offset ++ toBytes 8 p.x.toNat ++ toBytes 8 p.y.toNat ++ toBytes 1 (if p.retrans then 1 else 0) ++
    toBytes 1 p.reason ++ List.replicate 14 0#8

/-- The bytes of physical ranges, in order. -/
def bytesAt (s : State) (ps : List (Nat × Nat)) : List Byte := ps.flatMap (fun p => readBytes s.mem p.1 p.2)

/-- A range of addresses cut at the ends of its 64 KiB pages: address and length of each part. -/
inductive PageCut : Nat → Nat → List (Nat × Nat) → Prop where
  | nil (va : Nat) : PageCut va 0 []
  | cons (va m n : Nat) (l : List (Nat × Nat)) : 0 < m → m = min (m + n) (65536 - va % 65536) →
      PageCut (va + m) n l → PageCut va (m + n) ((va, m) :: l)

/-- Why a page refuses an access that arrives: 2 no translation, 7 migrating, 3 not permitted, 4 not of width DOMAIN
(R443). -/
def pageRefusal (s : State) (asid : Nat) (k : Access) (va : Nat) : Option Nat :=
  match s.translate asid va with
  | .page _ _ leaf =>
    if pteMig leaf = 1 then some 7
    else if permits k leaf = false then some 3
    else if pteSw leaf ≠ 3 then some 4
    else none
  | _ => some 2

/-- The physical address of a translated one. -/
def pagePlace (s : State) (asid va : Nat) : Nat :=
  match s.translate asid va with
  | .page _ size leaf => pageAddr leaf size va
  | _ => 0

/-- The field rules of R448 for a packet of a kind. -/
def PacketOk (kind : Nat) (p : Packet) : Prop :=
  p.kind = kind ∧ p.srcdev < 1024 ∧ p.asid < 1024 ∧ p.offset < 2 ^ 61 ∧ (kind = 1 → p.reason < 256) ∧
    (kind = 1 → p.op < 8 ∧ (p.op ≠ 2 → p.y = 0#64)) ∧ (kind ≠ 1 → p.y = 0#64) ∧ (kind = 2 → p.op < 5) ∧
    (kind = 2 → p.reason < 8) ∧ (3 ≤ kind → p.serial = 0#32 ∧ p.op < 256 ∧ p.reason < 256)

/-- The new value of a remote operation (R238). -/
def remote (op : Nat) (x y : W64) (old : Nat) : Nat :=
  let o := BitVec.ofNat 64 old
  match op with
  | 0 => (o + x).toNat
  | 1 => (if o.toInt < x.toInt then x else o).toNat
  | 2 => if o = x then y.toNat else old
  | 3 => x.toNat
  | 4 => (o + x).toNat
  | 5 => (fAdd (BitVec.ofNat 32 old) (x.setWidth 32)).toNat
  | _ => (o + 1#64).toNat

/-- Bytes a remote operation other than RLAUNCH touches. -/
def remoteSize (op : Nat) : Nat := if op = 5 then 4 else 8

/-- The last packet sent in t goes to dev: kind, status or operation, serial, and what it carries. -/
def SentPacket (s t : State) (dev : Nat) (f : Packet → Prop) : Prop :=
  ∃ q, t.packets = s.packets ++ [(dev, packetOf q)] ∧ f q

/-- q answers request p with a status, a reason and a result (R448, R449). -/
def Answers (s : State) (p : Packet) (status reason : Nat) (result : W64) (q : Packet) : Prop :=
  q.kind = 2 ∧ q.op = status ∧ q.srcdev = p.srcdev ∧ q.asid = p.asid ∧ q.cgen = p.cgen ∧ q.serial = p.serial ∧
    q.oinc = s.incarnation ∧ q.srcinc = p.srcinc ∧ q.x = result ∧ q.y = 0#64 ∧ q.reason = reason

/-- A relay completion (R240): lane, serial and status. -/
def Completion (e : QEntry) (lane : Nat) (serial : W32) (status : Nat) : Prop :=
  e.mask = BitVec.ofNat 32 (2 ^ lane) ∧ mget 0#64 e.vals lane = BitVec.ofNat 32 status ++ serial

/-- An operation heads its stream, whose later operations stand unanswered, and its heat's q6 has room: it may
complete (R454). -/
def HeadOp (s : State) (asid dev : Nat) (c : Context) (o : RelayOp) (rest : List RelayOp) : Prop :=
  s.ctx? asid = some c ∧ c.removing = false ∧ (mget {} c.streams dev).used = true ∧
    (mget {} c.streams dev).closes = none ∧ (mget {} c.streams dev).ops = o :: rest ∧ o.answer = none ∧
    (∀ r ∈ rest, r.answer = none ∧ r.serial ≠ o.serial) ∧ (∀ a ∈ c.relayArea, a.1 ≠ o.team) ∧
    o.team < trapBase ∧ (∃ x h, s.team? o.team = some x ∧ x.asid = asid ∧ x.core?.isSome = true ∧ x.checker = none ∧
      x.owesQ6 o.heat = false ∧ x.heat? o.heat = some h ∧ h.ended = false ∧ h.born ≤ o.stamp ∧
      (h.queue 6).length < Config.queueDepth)

/-- The head operation has completed with a status: its serial is acknowledged, its entry stands in q6, its result
in the waiting slot (R240, R454). -/
def Completed (s t : State) (asid dev : Nat) (o : RelayOp) (rest : List RelayOp) (status : Nat) (v : W64) : Prop :=
  ∃ c' x h x' h' e, t.ctx? asid = some c' ∧ (mget {} c'.streams dev).ops = rest ∧
    (mget {} c'.streams dev).ackt = o.serial ∧ s.team? o.team = some x ∧ x.heat? o.heat = some h ∧
    t.team? o.team = some x' ∧ x'.heat? o.heat = some h' ∧ h'.queue 6 = h.queue 6 ++ [e] ∧
    Completion e o.lane o.serial status ∧ SameRegs h h' ∧ SameMem s t ∧
    h'.slots = h.slots.map (fun z => if (o.op ≤ 3 ∨ o.op = 7) ∧ z.stamp = o.stamp ∧ z.waiting ≠ 0 then
      { z with vals := mput z.vals o.lane (if status = 0 then v.toNat else 0), waiting := z.waiting - 1 } else z)

/-! ### Observation, the link, the host -/

/-- The device but for what every exchange with the host changes: numbers of the link, what has been sent, the
count of steps. -/
def offLink (s : State) : State :=
  { s with rxSeq := 0#32, txSeq := 0#32, hostOut := [], unacked := [], wire := [], stamp := 0 }

/-- From s to t one message has been sent: its frames carry the type, the tag and together the payload. -/
def Sent (s t : State) (type : Nat) (tag : W32) (payload : List Byte) : Prop :=
  ∃ fs : List Frame, t.hostOut = s.hostOut ++ fs ∧ fs ≠ [] ∧ (∀ f ∈ fs, f.type = type ∧ f.tag = tag ∧
    f.payload.length ≤ 4096) ∧ fs.flatMap (fun f => f.payload) = payload

/-- Frames pass over the link and the device is not in recovery mode (R522, R539). -/
def LinkReady (s : State) : Prop := s.linkDown = false ∧ 0 < s.wavelengths ∧ s.recovery = false

/-- A request is answered with a status, and the device goes from s to s' (R527). -/
def Managed (i : Instr) (s : State) (tag : W32) (status : Nat) (s' : State) : Prop :=
  ∃ t, exec i s = .next t ∧ offLink t = offLink s' ∧ Sent s t 11 tag (toBytes 4 status)

/-- The voltage-frequency state of a die. -/
def vfsAt (s : State) (die : Nat) : Nat := if die = 0 then s.vfsA else s.vfsB

/-- What a frame fails of the link's rules: length, CRC, reserved flags, number (R523, R524). -/
def BadFrame (s : State) (f : List Byte) : Prop :=
  f.length < 20 ∨ ofBytes ((f.drop 2).take 2) + 20 ≠ f.length ∨ 4096 < ofBytes ((f.drop 2).take 2) ∨
    ofBytes (f.drop (f.length - 4)) ≠ (crc32 (f.take (f.length - 4))).toNat ∨ 4 ≤ ofBytes ((f.drop 1).take 1) ∨
    ofBytes ((f.drop 4).take 4) ≠ s.rxSeq.toNat

/-- The payload of a launch frame up to its record or pointer (R390). -/
def launchHead (kind asid ptag wa wv : Nat) : List Byte :=
  toBytes 1 kind ++ [0#8] ++ toBytes 2 asid ++ toBytes 4 ptag ++ toBytes 8 wa ++ toBytes 8 wv

/-- The payload of a host read or the head of a host write (R526). -/
def hostHead (asid va n : Nat) : List Byte :=
  toBytes 2 asid ++ List.replicate 6 0#8 ++ toBytes 8 va ++ toBytes 4 n

/-- The host's launch frame carries this record: inline, or at an address the starter may read (R389, R390). -/
def Launches (i : Instr) (s : State) (tag ack : W32) (asid ptag wa wv : Nat) (record : List Byte) : Prop :=
  (i = .evLaunchFrameInline tag ack (launchHead 1 asid ptag wa wv ++ record) ∧ record.length = 128) ∨
    ∃ a b size leaf, i = .evLaunchFramePointer tag ack (launchHead 2 asid ptag wa wv ++ toBytes 8 a) ∧ a < 2 ^ 64 ∧
      a % 128 = 0 ∧ s.translate asid a = .page b size leaf ∧ pteMig leaf ≠ 1 ∧ pteR leaf = true ∧ 2 ≤ pteSw leaf ∧
      s.rangeWaits (pageAddr leaf size a) 128 = false ∧ s.bytesBad (pageAddr leaf size a) 128 = false ∧
      record = readBytes s.mem (pageAddr leaf size a) 128

/-- A launch frame is refused with a check code: no grid, and the result says so. -/
def Refused (i : Instr) (s : State) (tag : W32) (ptag code : Nat) : Prop :=
  ∃ t, exec i s = .next t ∧ offLink t = offLink s ∧
    Sent s t 2 tag (toBytes 4 ptag ++ toBytes 4 0xFFFFFFFF ++ toBytes 4 code)

/-- Nothing of a program is left: no team, grid, context, translation, request or collective (R541). -/
def Cleared (t : State) : Prop :=
  t.teams = [] ∧ t.grids = [] ∧ t.gridQueues = [] ∧ t.contexts = [] ∧ t.tlb = [] ∧ t.cores = [] ∧ t.engines = [] ∧
    t.fabric = [] ∧ t.colls = [] ∧ t.owners = [] ∧ t.bindings = [] ∧ t.exports = [] ∧ t.domain = [] ∧ t.groups = [] ∧
    t.tables = [] ∧ t.walks = [] ∧ t.collWait = [] ∧ t.ordMsgs = [] ∧ t.ordRecs = []

/-- What outlives every reset: flash, fuses, and what flash keeps of frames and quartets (R533, R538, R541). -/
def Fuses (s t : State) : Prop :=
  t.flash = s.flash ∧ t.rollback = s.rollback ∧ t.retired = s.retired ∧ t.fenced = s.fenced ∧ t.capped = s.capped ∧
    t.self = s.self

/-! ### Management and the debugger -/

/-- A debugger is attached to the context of team x, whose key is u; the teams of its cluster are distinct (R499). -/
def Debugged (s : State) (u : Nat) (x : Team) : Prop :=
  LinkReady s ∧ u < trapBase ∧ s.team? u = some x ∧ u ∈ x.cluster ∧ x.cluster.Nodup ∧
    ∃ c, s.ctx? x.asid = some c ∧ c.attached = true

/-- A request is accepted with status 0, and its answer follows as management event 6 (R499, R527). -/
def Replied (s t : State) (tag : W32) (code : Nat) (data : List Byte) : Prop :=
  ∃ fs : List Frame, t.hostOut = s.hostOut ++ { type := 11, flags := 2, tag := tag, payload := toBytes 4 0 } :: fs ∧
    (∀ f ∈ fs, f.type = 12) ∧ fs.flatMap (fun f => f.payload) = toBytes 2 6 ++ Config.debugReply tag code data

/-- Every team of x's cluster has gone from z to f z, its debugger's tag being set. -/
def ClusterNow (s t : State) (x : Team) (tag : W32) (f : Nat → Team → Team) : Prop :=
  ∀ v z, v ∈ x.cluster → s.team? v = some z → t.team? v = some { f v z with dbgTag := tag }

/-- A team has stopped: its registers stand, and its first stop of the lap is kept (R500). -/
def HasStopped (z y : Team) : Prop :=
  y.stopped = true ∧ y.runTo = none ∧ y.grant = none ∧ y.lap = z.lap ∧ y.log = z.log ∧ y.undo = z.undo ∧
    y.body.spad = z.body.spad ∧ y.body.acc = z.body.acc ∧ y.body.queues = z.body.queues ∧
    (∀ g h, z.heat? g = some h → ∃ h', y.heat? g = some h' ∧ SameRegs h h' ∧ h'.stride = h.stride ∧ h'.queues = h.queues) ∧
    ∃ i, y.stopImage = some i ∧ (z.stopImage = none → i.body = y.body ∧ i.log = z.log ∧ i.deferred = z.deferred) ∧
      (z.stopImage ≠ none → y.stopImage = z.stopImage)

/-- The registers of a selected heat as a debugger reads them (R475, R476). -/
def dbgValue (h : Heat) (lane n : Nat) : W64 :=
  if n = 0x1021 then (h.lane lane).hdr.setWidth 64
  else if n = 0x1022 then BitVec.ofNat 64 (h.lane lane).idx
  else if n = 0x1025 then h.live.setWidth 64
  else if 0x1100 ≤ n ∧ n ≤ 0x117F then
    (if n - 0x1100 < h.budget ∧ n - 0x1100 ∉ h.badRows then (h.v (n - 0x1100) lane).setWidth 64 else 0#64)
  else if 0x1180 ≤ n ∧ n ≤ 0x11BF then h.sr (n - 0x1180)
  else if 0x11C0 ≤ n ∧ n ≤ 0x11CF then (h.ar (n - 0x11C0)).extractLsb' 0 64
  else if 0x11D0 ≤ n ∧ n ≤ 0x11DF then ((h.ar (n - 0x11D0)).extractLsb' 64 8).setWidth 64
  else 0#64

/-- Whether register n is one of those `dbgValue` gives. -/
def dbgNamed (n : Nat) : Prop :=
  n = 0x1021 ∨ n = 0x1022 ∨ n = 0x1025 ∨ (0x1100 ≤ n ∧ n ≤ 0x11DF)

/-- The heat after a debugger's write of a register (R476). -/
def DbgWritten (h h' : Heat) (lane n : Nat) (v : W64) : Prop :=
  (∀ r l, l < 32 → h'.v r l = if n = 0x1100 + r ∧ r < 128 ∧ r < h.budget ∧ l = lane then v.setWidth 32 else h.v r l) ∧
    (∀ r l, l < 32 → h'.k r l = if n = 0x1024 ∧ 1 ≤ r ∧ r < 8 ∧ l = lane then v.getLsbD r else h.k r l) ∧
    (∀ r, h'.sr r = if n = 0x1180 + r ∧ r < 64 then v else h.sr r) ∧
    (∀ r, h'.ar r = if n = 0x11C0 + r ∧ r < 16 then (h.ar r).extractLsb' 64 8 ++ v
      else if n = 0x11D0 + r ∧ r < 16 then v.extractLsb' 0 8 ++ (h.ar r).extractLsb' 0 64 else h.ar r) ∧
    ∀ l, (h'.lane l).hdr = (if n = 0x1021 ∧ l = lane then v.setWidth 72 else (h.lane l).hdr) ∧
      (h'.lane l).idx = if n = 0x1022 ∧ l = lane then (v.extractLsb' 0 4).toNat else (h.lane l).idx

/-! ### Steps -/

/-- A team of core c whose words are issued as they come: it neither checks another nor replays a lap, no debugger
steps it, and its core neither freezes in this cycle nor changes its clock. -/
def PlainTeam (s : State) (c : Nat) (x : Team) : Prop :=
  x.core? = some c ∧ x.due = [] ∧ x.feed = [] ∧ x.checks = none ∧ x.grant = none ∧ x.runTo = none ∧
    (s.core c).freezing = false ∧ s.changing c = false

/-- What follows the run of a word prepared in s0, from s1 to s2: yields, a debugger's answer, walks (R19, R494, R507), the slot of a
heat that froze its core, and what the journal engine reports (R473). -/
noncomputable def settled (s0 s1 s2 : State) : State :=
  let s3 := settleIssue s1 s2
  (if (s0.core s0.cur.core).frozen = none ∧ (s3.core s0.cur.core).frozen ≠ none then
    s3.useSlot s0.cur.core s0.cur.who else s3).settleJournal

/-- A step from s runs instruction i of team u in s1; where its journal and log entries do not fit, a commit point
that need not wait comes first (R478, R544). -/
def StepRuns (s s1 : State) (u : Nat) (i : Instr) : Prop :=
  (∀ s2, exec i s1 = .next s2 → s2.lapFits u = true → step s = .next (settled s1 s1 (s2.noteSpill u))) ∧
    (∀ s2 s3, exec i s1 = .next s2 → s2.lapFits u = false → s1.commitHeld u = false →
      exec i (s1.closeLap u) = .next s3 → step s = .next (settled s1 (s1.closeLap u) (s3.noteSpill u))) ∧
    ∀ o, exec i s1 = o → (∀ s2, o ≠ .next s2) → step s = o

end Sys2Proof.Claims
end

