-- ==== Sys2Proof/Certificates/Slice0/Obligations.lean ====
section
/-! DEFINITION. The statements for the provers. -/

open Sys2Proof Sys2Proof.Machine Sys2Proof.Claims

/-- R109, R114–R125, R140: a scalar word, none of whose registers is pending, writes its result to s(D) once, an
address word to a(D), ASPLIT both parts of a(A), and each leaves every other register, memory and every other heat as
they were; its lanes go on. -/
def Obligations.ScalarAndAddressResults : Prop :=
  (∀ (i : Instr) (f : ScalarForm) (s : State) (h : Heat), scalarForm s.cur i = some f →
    s.ready h s.cur.lanes [] (single f.uses) →
    ∃ t h', Issued i s t h' ∧ OnlyIssuer s t ∧ Retired s h h' s.onward ∧
      (∀ r, h'.sr r = if r = f.dest then f.value h else h.sr r) ∧ SameV h h' ∧ SameK h h' ∧ SameA h h') ∧
  (∀ (i : Instr) (f : AddrForm) (s : State) (h : Heat), addrForm i = some f →
    s.ready h s.cur.lanes [] (single f.uses) →
    ∃ t h', Issued i s t h' ∧ OnlyIssuer s t ∧ Retired s h h' s.onward ∧
      (∀ r, h'.ar r = if r = f.dest then f.value h else h.ar r) ∧ SameV h h' ∧ SameK h h' ∧ SameS h h') ∧
  ∀ (d b : BitVec 6) (a : BitVec 4) (s : State) (h : Heat), d ≠ b →
    s.ready h s.cur.lanes [] (single [d.toNat, b.toNat]) →
    ∃ t h', Issued (.asplit d a b) s t h' ∧ OnlyIssuer s t ∧ Retired s h h' s.onward ∧
      h'.sr d.toNat = (h.ar a.toNat).extractLsb' 0 64 ∧
      h'.sr b.toNat = 0#56 ++ (h.ar a.toNat).extractLsb' 64 8 ∧
      (∀ r, r ≠ d.toNat → r ≠ b.toNat → h'.sr r = h.sr r) ∧ SameV h h' ∧ SameK h h' ∧ SameA h h'

/-- R110, R126–R135, R137, R139: an integer vector word writes v(D), a 64-bit one pair(D), in every executing lane
whose predicate is set, helper lanes included, and nothing else. -/
def Obligations.VectorIntegerResults : Prop :=
  (∀ (i : Instr) (f : VecForm) (s : State) (h : Heat), intForm i = some f →
    s.ready h s.cur.lanes f.uses f.suses →
    ∃ t h', Issued i s t h' ∧ OnlyIssuer s t ∧ Retired s h h' s.onward ∧
      (∀ r l, l < 32 → h'.v r l =
        if r = f.dest ∧ inMask s.cur.lanes l ∧ h.k f.pred l then f.value h l else h.v r l) ∧
      SameK h h' ∧ SameS h h' ∧ SameA h h') ∧
  ∀ (i : Instr) (f : PairForm) (s : State) (h : Heat), pairForm i = some f →
    s.ready h s.cur.lanes f.uses [] →
    ∃ t h', Issued i s t h' ∧ OnlyIssuer s t ∧ Retired s h h' s.onward ∧
      (∀ l, l < 32 → h'.pair f.dest l =
        if inMask s.cur.lanes l ∧ h.k f.pred l then f.value h l else h.pair f.dest l) ∧
      (∀ r l, l < 32 → r ≠ f.dest → r ≠ f.dest + 1 → h'.v r l = h.v r l) ∧
      SameK h h' ∧ SameS h h' ∧ SameA h h'

/-- R145–R150, R153, R154: the floating-point, packing and unpacking words, in the same terms. -/
def Obligations.VectorFloatResults : Prop :=
  ∀ (i : Instr) (f : VecForm) (s : State) (h : Heat), floatForm i = some f →
    s.ready h s.cur.lanes f.uses f.suses → s.Exact →
    ∃ t h', Issued i s t h' ∧ OnlyIssuer s t ∧ Retired s h h' s.onward ∧
      (∀ r l, l < 32 → h'.v r l =
        if r = f.dest ∧ inMask s.cur.lanes l ∧ h.k f.pred l then f.value h l else h.v r l) ∧
      SameK h h' ∧ SameS h h' ∧ SameA h h'

/-- R136, R138, R139, R147: a comparison or predicate word writes k(D) in every executing lane whose predicate
is set; a write to k0 changes nothing, and k0 reads as 1 (R43). -/
def Obligations.PredicateResults : Prop :=
  (∀ (h : Heat) (l r l' : Nat) (x : Bool), h.k 0 l = true ∧ (h.setK r l' x).k 0 l = true ∧ h.setK 0 l x = h) ∧
  ∀ (i : Instr) (f : PredForm) (s : State) (h : Heat), predForm i = some f →
    s.ready h s.cur.lanes f.uses [] →
    ∃ t h', Issued i s t h' ∧ OnlyIssuer s t ∧ Retired s h h' s.onward ∧
      (∀ r l, l < 32 → h'.k r l =
        if r ≠ 0 ∧ r = f.dest ∧ inMask s.cur.lanes l ∧ h.k f.pred l then f.value h l else h.k r l) ∧
      SameV h h' ∧ SameS h h' ∧ SameA h h'

/-- R159–R162: a quad word, shuffle, reduction, scan or ballot writes v(D) in its taking lanes from the registers
that the named lanes held before the word; VVOTE writes k(D) of every contributor with one value: whether all, or
any, contributors have k(A) set, or all hold the same v(A). -/
def Obligations.CrossLaneResults : Prop :=
  (∀ (i : Instr) (f : CrossForm) (s : State) (h : Heat), crossForm s.cur i = some f →
    f.ready s h → s.Exact →
    ∃ t h', Issued i s t h' ∧ OnlyIssuer s t ∧ Retired s h h' s.onward ∧
      (∀ r l, l < 32 → h'.v r l =
        if r = f.dest ∧ inMask f.lanes l ∧ h.k f.pred l then f.value h l else h.v r l) ∧
      SameK h h' ∧ SameS h h' ∧ SameA h h') ∧
  ∀ (i : Instr) (f : VoteForm) (s : State) (h : Heat), voteForm i = some f →
    s.ready h s.cur.active f.uses [] →
    ∃ t h', Issued i s t h' ∧ OnlyIssuer s t ∧ Retired s h h' s.onward ∧
      (∀ l, l < 32 → f.dest ≠ 0 → inMask (contributors s.cur f.pred h) l →
        (h'.k f.dest l = true ↔ f.value h (contributors s.cur f.pred h))) ∧
      (∀ r l, l < 32 → ¬ (r = f.dest ∧ inMask (contributors s.cur f.pred h) l) → h'.k r l = h.k r l) ∧
      SameV h h' ∧ SameS h h' ∧ SameA h h'

/-- R151, R152: VCVT writes element P of v(D) in every executing lane with the rounding of element E of v(A);
the other elements stay, and CVCNT of an active lane is as the rounding leaves it. -/
def Obligations.ConvertResults : Prop :=
  ∀ (i : Instr) (f : CvtForm) (s : State) (h : Heat), cvtForm i = some f →
    s.ready h s.cur.lanes [(f.dest, 1), (f.src, 1)] [] → s.Exact →
    ∃ t h', Issued i s t h' ∧ OnlyIssuer s t ∧
      Retired s h h' (fun l x => { x with cvcnt := ((cvtLane s h f l).2.lane l).cvcnt }.goOn s.stamp) ∧
      (∀ r l, l < 32 → h'.v r l =
        if r = f.dest ∧ inMask s.cur.lanes l then putElem f.fmt (h.v f.dest l) f.toElem (cvtLane s h f l).1
        else h.v r l) ∧
      SameK h h' ∧ SameS h h' ∧ SameA h h'

/-- R155, R156: VQNT with E8M0 scales quantises each executing lane's row by the scale of its greatest
magnitude, writes the scale code to byte P of v(B) and to k7 whether every element was exact. -/
def Obligations.QuantiseRowResults : Prop :=
  ∀ (i : Instr) (f : QuantForm) (s : State) (h : Heat), rowForm i = some f →
    s.ready h s.cur.lanes [(f.dest, packedRegs f.fmt), (f.src, 32), (f.scale, 1)] [] →
    ∃ t h', Issued i s t h' ∧ OnlyIssuer s t ∧
      Retired s h h' (fun l x => { x with cvcnt :=
        ((quantised s h f (e8m0 (rowCode h f l)) (rowCode h f l == 0xFF) l).1.lane l).cvcnt }.goOn s.stamp) ∧
      (∀ l, inMask s.cur.lanes l →
        let q := quantised s h f (e8m0 (rowCode h f l)) (rowCode h f l == 0xFF) l
        h'.v f.scale l = putElem .e4m3 (h.v f.scale l) f.p (rowCode h f l) ∧ h'.k 7 l = q.2 ∧
        ∀ r, r ≠ f.scale → h'.v r l = if f.dest ≤ r ∧ r < f.dest + packedRegs f.fmt then q.1.v r l else h.v r l) ∧
      (∀ r l, l < 32 → ¬ inMask s.cur.lanes l → h'.v r l = h.v r l) ∧
      (∀ r l, l < 32 → ¬ (r = 7 ∧ inMask s.cur.lanes l) → h'.k r l = h.k r l) ∧ SameS h h' ∧ SameA h h'

/-- R155–R157: VQNT with one 32-bit scale takes the partial-mask trap, class 7, unless all 32 lanes are active;
with all active and none a helper it quantises the block, writes the scale to v(B) of lane P and to k7 of every
lane whether every element was exact. -/
def Obligations.QuantiseBlockResults : Prop :=
  (∀ (i : Instr) (f : QuantForm) (s : State) (h : Heat), blockForm i = some f →
    s.ready h s.cur.lanes [(f.dest, packedRegs f.fmt), (f.src, 32), (f.scale, 1)] [] →
    s.cur.active ≠ 0xFFFFFFFF#32 → exec i s = .next (s.raise 7 s.cur.active.toNat)) ∧
  ∀ (i : Instr) (f : QuantForm) (s : State) (h : Heat), blockForm i = some f →
    s.ready h s.cur.lanes [(f.dest, packedRegs f.fmt), (f.src, 32), (f.scale, 1)] [] →
    s.cur.active = 0xFFFFFFFF#32 → s.cur.helpers = 0#32 → f.p < 32 →
    ¬ (f.dest ≤ f.scale ∧ f.scale < f.dest + packedRegs f.fmt) →
    let code := s32Code f.fmt (blockMax h f)
    let q := quantised s h f (valOf .f32 code) (decide (0x7F800000 ≤ blockMax h f))
    ∃ t h', Issued i s t h' ∧ OnlyIssuer s t ∧
      Retired s h h' (fun l x => { x with cvcnt := ((q l).1.lane l).cvcnt }.goOn s.stamp) ∧
      h'.v f.scale f.p = BitVec.ofNat 32 code ∧
      (∀ l, l < 32 → (h'.k 7 l = true ↔ ∀ l', l' < 32 → (q l').2 = true)) ∧
      (∀ r l, l < 32 → f.dest ≤ r → r < f.dest + packedRegs f.fmt → h'.v r l = (q l).1.v r l) ∧
      (∀ r l, l < 32 → ¬ (f.dest ≤ r ∧ r < f.dest + packedRegs f.fmt) → ¬ (r = f.scale ∧ l = f.p) →
        h'.v r l = h.v r l) ∧
      (∀ r l, l < 32 → r ≠ 7 → h'.k r l = h.k r l) ∧ SameS h h' ∧ SameA h h'

/-- R158: VDQNT writes element i of the packed row times the scale, rounded to FP32, to v(D + i) in every
executing lane, for i from 0 to 31. -/
def Obligations.DequantiseResults : Prop :=
  ∀ (i : Instr) (f : QuantForm) (e8 : Bool) (s : State) (h : Heat), dequantForm i = some (f, e8) →
    s.ready h s.cur.lanes [(f.dest, 32), (f.src, packedRegs f.fmt), (f.scale, 1)] [] →
    s.ready h (if e8 then s.cur.lanes else BitVec.ofNat 32 (2 ^ f.p)) [(f.scale, 1)] [] → s.Exact →
    ∃ t h', Issued i s t h' ∧ OnlyIssuer s t ∧ Retired s h h' s.onward ∧
      (∀ j l, j < 32 → inMask s.cur.lanes l → h'.v (f.dest + j) l =
        rounded .rn (mulV (valOf f.fmt (elemOf f.fmt (h.v (f.src + j * f.fmt.width / 32) l) (j % (32 / f.fmt.width))))
          (laneScale h f e8 l))) ∧
      (∀ r l, l < 32 → ¬ (f.dest ≤ r ∧ r < f.dest + 32 ∧ inMask s.cur.lanes l) → h'.v r l = h.v r l) ∧
      SameK h h' ∧ SameS h h' ∧ SameA h h'

/-- R170, R172, R173: a load whose checks pass takes a scoreboard slot that holds what each taking lane reads,
in its window; a helper lane reads its own row (R168); registers and memory stay until the result lands. -/
def Obligations.LoadResults : Prop :=
  ∀ (i : Instr) (f : LoadForm) (s : State) (h : Heat) (ts hs : List (Nat × Target)) (bs bs' : List Binding),
    loadForm i = some f → s.ready h s.cur.lanes f.uses [] →
    (lanesOf (h.taking s.cur.active f.pred) ≠ [] ∨ lanesOf (h.taking s.cur.helpers f.pred) ≠ []) →
    h.pending.length < Config.slotCount → (f.window = true → s.portBusy = false) → Unchecked s →
    checkAll (f.check s h) (f.addr h) (lanesOf (h.taking s.cur.active f.pred)) s.bindings = .ok ts bs →
    Clear s f.size ts →
    helperTargets (f.check s h) (lanesOf (h.taking s.cur.helpers f.pred)) bs = .ok hs bs' → Clear s f.size hs →
    ∃ t h' x, Issued i s t h' ∧ OnlyMemory s t ∧
      Retired s { h with
        slots := h.slots ++ [x]
        waves := if f.window then accessWaves f.size (ts ++ hs) else h.waves } h' s.onward ∧
      SameRegs h h' ∧ (∀ a, readByte t.mem a = readByte s.mem a) ∧ t.bindings = bs' ∧
      x.dest = .vec f.dest f.regs ∧ x.mask = s.cur.active ∧ x.stamp = s.stamp ∧
      x.allow = (if f.la = 0#4 then none else some f.la.toNat) ∧
      (∀ y ∈ hs, mget 0 x.vals y.1 = readLane s h f.size (f.addr h) y) ∧
      (∀ y ∈ ts, (∀ z ∈ hs, z.1 ≠ y.1) → mget 0 x.vals y.1 = readLane s h f.size (f.addr h) y) ∧
      (∀ l, (mfind x.vals l).isSome ↔
        l ∈ lanesOf (h.taking s.cur.active f.pred) ∨ l ∈ lanesOf (h.taking s.cur.helpers f.pred)) ∧
      (∃ new, t.fabric = s.fabric ++ new ∧ x.waiting = new.length ∧
        new.map (fun q => (q.lane, q.dev, q.offset)) = fabricLanes s h (f.addr h) ts) ∧
      (∀ y ∈ ts, inMask x.poison y.1 = true ↔
        s.logged 0 h.stride.toNat y.1 (f.addr h y.1).toNat = none ∧ s.targetBad f.size y.2 = true)

/-- R174: SLD reads 8 bytes at a(A) + 8·IMM8 once, for s(D), in a scoreboard slot; SST writes s(S) there once,
and all active lanes wait for its acknowledgement. -/
def Obligations.ScalarMemoryResults : Prop :=
  (∀ (d : BitVec 6) (a : BitVec 4) (imm : BitVec 8) (la : BitVec 4) (s : State) (h : Heat) (x : Nat × Target)
      (bs : List Binding), let addr : Nat → Addr := fun _ => h.ar a.toNat + 8 * imm.signExtend 72
    s.ready h s.cur.lanes [] (single [d.toNat]) → h.pending.length < Config.slotCount → Unchecked s →
    checkAll (fun bs l => s.checkMem bs s.curWho (addr l) 8 .read false) addr [lowLane s.cur.active] s.bindings =
      .ok [x] bs → Clear s 8 [x] →
    ∃ t h' y, Issued (.sld d a imm la) s t h' ∧ OnlyMemory s t ∧
      Retired s { h with slots := h.slots ++ [y] } h' s.onward ∧ SameRegs h h' ∧
      (∀ b, readByte t.mem b = readByte s.mem b) ∧ y.dest = .scalar d.toNat ∧ y.mask = s.cur.active ∧
      y.allow = (if la = 0#4 then none else some la.toNat) ∧ y.vals.map Prod.snd = [readLane s h 8 addr x] ∧
      y.waiting = (fabricLanes s h addr [x]).length) ∧
  ∀ (z : BitVec 6) (a : BitVec 4) (imm : BitVec 8) (s : State) (h : Heat) (x : Nat × Target) (bs : List Binding),
    let addr : Nat → Addr := fun _ => h.ar a.toNat + 8 * imm.signExtend 72
    let bytes : Nat → List Byte := fun _ => toBytes 8 (h.sr z.toNat).toNat
    s.ready h s.cur.lanes [] (single [z.toNat]) → Unchecked s →
    checkAll (fun bs l => s.checkMem bs s.curWho (addr l) 8 .write false) addr [lowLane s.cur.active] s.bindings =
      .ok [x] bs → Clear s 8 [x] → closesLap s x.2 = false →
    (∀ u y, s.curTeam = some u → s.team? u = some y → deferRanges s 8 [x] = [] ∨ y.hasRoom (deferRanges s 8 [x]) = true) →
    ∃ (t : State) (h' : Heat), exec (.sst z a imm) s = .next t.retest ∧ t.curHeat? = some h' ∧ OnlyMemory s t ∧
      Retired s { h with
        acks := h.acks ++ ackOf s (if deferred s x.2 then 0#32 else s.cur.active) (fabricStores bytes [x]).length }
        h' s.onward ∧
      SameRegs h h' ∧ Wrote s t true addr bytes [x]

/-- R175, R341: TLDG takes a slot for v(8D) to v(8D + 7) that holds, for each taking lane l, row l of the tile, or
column l where the descriptor's orientation and FLIP differ. Each row of it that lies on the fabric is asked for, 32
bytes at its own address, and the slot waits for these answers. -/
def Obligations.TileLoadResult : Prop :=
  ∀ (d a la : BitVec 4) (p : BitVec 1) (s : State) (h : Heat) (desc : Desc) (b : List Byte) (ts hs : List (Nat × Target))
      (bs0 bs1 bs2 : List Binding), let handle := (h.ar a.toNat).toNat
    let lanes := lanesOf (h.taking s.cur.active p.toNat)
    let column := desc.orient != hFlip handle
    let addr := desc.rowAddr (hRow handle) (hCol handle)
    let s1 := { s with bindings := bs2 }
    s.ready h s.cur.lanes [(8 * d.toNat, 8)] [] → lanes ≠ [] → h.pending.length < Config.slotCount → Unchecked s →
    fld handle 65 7 = 0 → s.useDesc s.bindings h.stride.toNat (hDesc handle) = .ok desc b bs0 →
    desc.holds (hRow handle) (hCol handle) = true → s.checkTile desc column addr lanes bs0 = .ok ts bs1 →
    s.helperTile desc column addr (lanesOf (h.taking s.cur.helpers p.toNat)) bs1 = .ok hs bs2 →
    (∀ r, r < 32 → s1.piecesWait (s1.rowPieces (addr r)) = false) → (∀ l st n, s.logged 0 st l n = none) →
    let far := (List.range 32).filter (fun r => (column || lanes.contains r) && bitAt (addr r) 71)
    ∃ t h' x, Issued (.tldg d a la p) s t h' ∧ OnlyMemory s t ∧
      Retired s { h with slots := h.slots ++ [x] } h' s.onward ∧ SameRegs h h' ∧
      (∀ b, readByte t.mem b = readByte s.mem b) ∧ x.dest = .vec (8 * d.toNat) 8 ∧ x.mask = s.cur.active ∧
      x.allow = (if la = 0#4 then none else some la.toNat) ∧
      (∃ new, t.fabric = s.fabric ++ new ∧ x.waiting = new.length ∧ new.map (fun q => (q.dev, q.offset, q.size, q.pos)) =
        far.map (fun r => (fld (addr r) 61 10, fld (addr r) 0 61, 32, r))) ∧
      ∀ l ∈ lanes, ¬ inMask s.cur.helpers l → (if column then far = [] else l ∉ far) → mget 0 x.vals l =
        if column then ofBytes ((List.range 32).map (fun j => (s1.rowBytes (addr j)).getD l 0#8))
        else ofBytes (s1.rowBytes (addr l))

/-- R172, R173, R358: a store whose checks pass, that closes no lap and finds room, writes memory, scratchpad,
commit buffer and fabric lane by lane in ascending order; its lanes wait for the acknowledgement of what is
not deferred; waiting counters are tested again (R232). -/
def Obligations.StoreResults : Prop :=
  ∀ (i : Instr) (f : StoreForm) (s : State) (h : Heat) (ts : List (Nat × Target)) (bs : List Binding),
    storeForm i = some f → s.ready h s.cur.lanes f.uses [] → lanesOf (h.taking s.cur.active f.pred) ≠ [] →
    (f.window = true → s.portBusy = false) →
    checkAll (f.check s h) (f.addr h) (lanesOf (h.taking s.cur.active f.pred)) s.bindings = .ok ts bs →
    Clear s f.size ts → Unchecked s → (∀ x ∈ ts, closesLap s x.2 = false) →
    (∀ u x, s.curTeam = some u → s.team? u = some x →
      deferRanges s f.size ts = [] ∨ x.hasRoom (deferRanges s f.size ts) = true) →
    ∃ (t : State) (h' : Heat), exec i s = .next t.retest ∧ t.curHeat? = some h' ∧ t.stamp = s.stamp + 1 ∧ OnlyMemory s t ∧
      Retired s { h with
        acks := h.acks ++ ackOf s (ackedLanes s true ts) (fabricStores (f.bytes h) ts).length
        waves := if f.window then accessWaves f.size ts else h.waves } h' s.onward ∧
      SameRegs h h' ∧ t.bindings = bs ∧ Wrote s t true (f.addr h) (f.bytes h) ts

/-- R170, R358, R359, R478, R544: a store that is not deferred, to a page of width CLUSTER or wider or to the
fabric, first performs the deferred stores of its cluster and then its own, and closes the lap; one whose
deferred lanes find no room performs the deferred stores and opens a lap before it joins the buffer; an atomic or
reduction aimed at a deferred page or at a page of width CLUSTER or wider is a commit point. -/
def Obligations.AccessClosesLap : Prop :=
  (∀ (i : Instr) (f : StoreForm) (s s1 s2 : State) (h h1 h2 : Heat) (u : Nat) (ts : List (Nat × Target))
      (bs : List Binding), storeForm i = some f → f.window = false →
    s.ready h s.cur.lanes f.uses [] → lanesOf (h.taking s.cur.active f.pred) ≠ [] →
    checkAll (f.check s h) (f.addr h) (lanesOf (h.taking s.cur.active f.pred)) s.bindings = .ok ts bs →
    Clear s f.size ts → Unchecked s → s.curTeam = some u → s.commitHeld u = false →
    s1 = { s with bindings := bs }.flush u → s1.curHeat? = some h1 →
    s2 = s1.endLap → s2.curHeat? = some h2 →
    if ts.any (fun x => closesLap s x.2) then
      ∃ (t : State) (h' : Heat), exec i s = .next t.retest.endLap ∧ t.curHeat? = some h' ∧ SameRegs h1 h' ∧
        Retired s1 { h1 with
          acks := h1.acks ++ ackOf s1 (ackedLanes s1 false ts) (fabricStores (f.bytes h) ts).length }
          h' s1.onward ∧
        Wrote s1 t false (f.addr h) (f.bytes h) ts
    else (∃ x, s.team? u = some x ∧ deferRanges s f.size ts ≠ [] ∧ x.hasRoom (deferRanges s f.size ts) = false) →
      ∃ (t : State) (h' : Heat), exec i s = .next t.retest ∧ t.curHeat? = some h' ∧ SameRegs h2 h' ∧
        Retired s2 { h2 with
          acks := h2.acks ++ ackOf s2 (ackedLanes s2 true ts) (fabricStores (f.bytes h) ts).length }
          h' s2.onward ∧
        Wrote s2 t true (f.addr h) (f.bytes h) ts) ∧
  ∀ (i : Instr) (f : AtomForm) (s s1 : State) (h h1 : Heat) (u : Nat) (ts : List (Nat × Target))
      (bs : List Binding), atomForm i = some f → f.window = false →
    s.ready h s.cur.lanes f.all [] → lanesOf (h.taking s.cur.active f.pred) ≠ [] →
    (f.dest.isSome → h.pending.length < Config.slotCount) →
    checkAll (f.check s h) (f.addr h) (lanesOf (h.taking s.cur.active f.pred)) s.bindings = .ok ts bs →
    Clear s f.size ts → Unchecked s → s.curTeam = some u → s.commitHeld u = false →
    (∃ x ∈ ts, closesLap s x.2 = true ∨ deferred s x.2 = true) →
    s1 = { s with bindings := bs }.flush u → s1.curHeat? = some h1 → Sound s1 f.size ts → Empty s1 →
    ∃ (t : State) (h' : Heat), exec i s = .next t.retest.endLap ∧ t.curHeat? = some h' ∧ SameRegs h1 h' ∧ Exchanged s1 t f h ts

/-- R169, R178–R182: an atomic or reduction of data without errors, aimed at no deferred page and at no page of
width CLUSTER or wider, replaces the value of each taking lane's target by the new one, lane after lane in
ascending order; a returning form keeps the old values in a scoreboard slot, another waits for its
acknowledgement. -/
def Obligations.AtomicResults : Prop :=
  ∀ (i : Instr) (f : AtomForm) (s : State) (h : Heat) (ts : List (Nat × Target)) (bs : List Binding),
    atomForm i = some f → s.ready h s.cur.lanes f.all [] → lanesOf (h.taking s.cur.active f.pred) ≠ [] →
    (f.dest.isSome → h.pending.length < Config.slotCount) → (f.window = true → s.portBusy = false) →
    checkAll (f.check s h) (f.addr h) (lanesOf (h.taking s.cur.active f.pred)) s.bindings = .ok ts bs →
    Clear s f.size ts → Unchecked s → Placed s ts → Sound s f.size ts → Empty s →
    (∀ x ∈ ts, closesLap s x.2 = false ∧ deferred s x.2 = false) →
    ∃ t h' old, exec i s = .next t.retest ∧ t.curHeat? = some h' ∧ t.stamp = s.stamp + 1 ∧ OnlyMemory s t ∧
      SameRegs h h' ∧ Exchanged s t f h ts ∧ old = (atomLanes f.size (f.value h) (lookAt s) ts).1 ∧
      match f.dest with
      | some (d, n, la) => ∃ x,
          Retired s { h with
            slots := h.slots ++ [x], waves := if f.window then atomicWaves f.size ts else h.waves } h' s.onward ∧
          x.dest = .vec d n ∧ x.mask = s.cur.active ∧ x.allow = (if la = 0 then none else some la) ∧
          x.waiting = 0 ∧ ∀ y ∈ old, mfind x.vals y.1 = some y.2
      | none =>
          Retired s { h with
            acks := h.acks ++ [{ stamp := s.stamp, mask := maskOf (fun l => ts.any (fun x => x.1 == l)) }]
            waves := if f.window then atomicWaves f.size ts else h.waves } h' s.onward

/-- R183: REDST.ord sends one contribution per taking lane, value v(S) and index v(S + 1), to the word's home
slice, and waits for as many acceptances; memory changes only there. -/
def Obligations.OrderedReduction : Prop :=
  ∀ (z : BitVec 6) (a : BitVec 4) (o : BitVec 7) (p : BitVec 1) (s : State) (h : Heat) (ts : List (Nat × Target))
      (bs : List Binding), let lanes := lanesOf (h.taking s.cur.active p.toNat)
    let addr := fun l => h.laneAddr a o l
    s.ready h s.cur.lanes ((2 * z.toNat, 2) :: ofsUse o) [] → lanes ≠ [] →
    checkAll (fun bs l => s.checkMem bs s.curWho (addr l) 4 .write true) addr lanes s.bindings = .ok ts bs →
    (∀ x ∈ ts, ∀ pa leaf, x.2 = .mem pa leaf →
      s.ownedRange pa 4 = false ∧ (s.curTeam.isSome → pteSw leaf = 0 ∧ pteD leaf = false)) →
    ∃ t h', Issued (.redstOrdF32 z a o p) s t h' ∧ SameRegs h h' ∧ (∀ b, readByte t.mem b = readByte s.mem b) ∧
      Retired s { h with acks := h.acks ++ [{
        stamp := s.stamp, mask := maskOf (fun l => ts.any (fun x => x.1 == l)), waiting := ts.length }] } h' s.onward ∧
      ∃ new, t.ordMsgs = s.ordMsgs ++ new ∧ new.length = ts.length ∧
        new.map (fun m => (m.pa, m.value, m.index, m.refused)) = ts.map (fun x =>
          ((match x.2 with | .mem pa _ => pa | _ => 0), h.v (2 * z.toNat) x.1, (h.v (2 * z.toNat + 1) x.1).toNat, false))

/-- R166, R169, R176, R212: NOP and PREF change no register and go on; YIELD and SLEEP 0 give the next cycle to
another heat; SLEEP n makes the heat ineligible for 16·n cycles; a load, store, atomic or reduction that no lane
takes does nothing but go on. -/
def Obligations.IdleWords : Prop :=
  (∀ (i : Instr) (s : State) (h : Heat), s.ready h s.cur.lanes (match i with | .pref _ _ o _ => ofsUse o | _ => []) [] →
    ∀ g : Heat, (match i with
      | .nop => g = h
      | .pref _ _ _ _ => g = h
      | .yield => g = { h with yielded := true }
      | .sleep n => g = if n = 0#9 then { h with yielded := true }
          else { h with sleepUntil := some ((s.core s.cur.core).cycles.toNat + 16 * n.toNat) }
      | _ => False) →
    ∃ t h', Issued i s t h' ∧ OnlyIssuer s t ∧ Retired s g h' s.onward ∧ SameRegs h h') ∧
  ∀ (i : Instr) (s : State) (h : Heat) (uses : List (Nat × Nat)) (p : Nat),
    ((loadForm i).map (fun f => (f.uses, f.pred)) = some (uses, p) ∨
      (storeForm i).map (fun f => (f.uses, f.pred)) = some (uses, p) ∨
      (atomForm i).map (fun f => (f.all, f.pred)) = some (uses, p)) →
    s.ready h s.cur.lanes uses [] → lanesOf (h.taking s.cur.active p) = [] →
    lanesOf (h.taking s.cur.helpers p) = [] →
    ∃ t h', Issued i s t h' ∧ OnlyIssuer s t ∧ Retired s h h' s.onward ∧ SameRegs h h'

/-- R201, R202, R204, R205, R208, R15: a transfer moves its taking lanes to word 0 of their target clause and the
other active lanes to the fall-through, and changes no register; CALL also writes the fall-through address to the
link pair, the last two registers of the budget, of each taking lane. -/
def Obligations.TransferResults : Prop :=
  (∀ (i : Instr) (s : State) (f : MoveForm) (h : Heat), moveForm s.cur i = some f →
    s.ready h s.cur.lanes f.uses [] →
    ∃ t h', Issued i s t h' ∧ OnlyIssuer s t ∧ SameRegs h h' ∧
      Retired s h h' (fun l x =>
        x.moveTo (if inMask (f.taking h) l then f.target h l else fall s.cur) s.stamp)) ∧
  ∀ (k : BitVec 3) (n : BitVec 1) (f : BitVec 19) (s : State) (h : Heat), 2 ≤ h.budget →
    s.ready h s.cur.lanes [(h.budget - 2, 2)] [] →
    ∃ t h', Issued (.call k n f) s t h' ∧ OnlyIssuer s t ∧
      Retired s h h' (fun l x =>
        x.moveTo (if inMask (branchLanes s.cur k n h) l then fall s.cur + 4 * f.signExtend 72 else fall s.cur) s.stamp) ∧
      (∀ l, l < 32 → h'.pair (h.budget - 2) l =
        if inMask (branchLanes s.cur k n h) l then (fall s.cur).extractLsb' 0 64 else h.pair (h.budget - 2) l) ∧
      (∀ r l, l < 32 → r ≠ h.budget - 2 → r ≠ h.budget - 1 → h'.v r l = h.v r l) ∧
      SameK h h' ∧ SameS h h' ∧ SameA h h'

/-- R207, R208, R51: LOOP pushes an entry with the lane's count, or skips the body when it is 0; a full stack in
any active lane raises the loop-depth trap; a lane that takes up its top entry's end address goes back to the
entry's start while the count lasts, and else drops the entry. -/
def Obligations.LoopResults : Prop :=
  (∀ (a : BitVec 7) (n : BitVec 9) (s : State) (h : Heat), s.ready h s.cur.lanes [(a.toNat, 1)] [] →
    (∀ l, inMask s.cur.active l → (h.lane l).loops.length < 4) →
    ∃ t h', Issued (.loop a n) s t h' ∧ OnlyIssuer s t ∧ SameRegs h h' ∧
      Retired s h h' (fun l x =>
        if h.v a.toNat l = 0#32 then x.moveTo (fall s.cur + 4 * n.setWidth 72) s.stamp
        else { x with
          hdr := fall s.cur, idx := 0, park := .none, clauseStamp := s.stamp
          loops := { count := h.v a.toNat l, start := fall s.cur, stop := fall s.cur + 4 * n.setWidth 72 } :: x.loops })) ∧
  (∀ (a : BitVec 7) (n : BitVec 9) (s : State) (h : Heat) (l : Nat), s.ready h s.cur.lanes [(a.toNat, 1)] [] →
    inMask s.cur.active l → 4 ≤ (h.lane l).loops.length → exec (.loop a n) s = .next (s.raise 6 0)) ∧
  ∀ (x : Lane) (e : LoopEntry) (rest : List LoopEntry) (p : Addr) (n : Nat), x.loops = e :: rest →
    ((x.moveTo p n).idx = 0 ∧
      (p ≠ e.stop → (x.moveTo p n).hdr = p ∧ (x.moveTo p n).loops = e :: rest) ∧
      (p = e.stop → e.count ≠ 1#32 → (x.moveTo p n).hdr = e.start ∧
        (x.moveTo p n).loops = { e with count := e.count - 1#32 } :: rest) ∧
      (p = e.stop → e.count = 1#32 → x.moveTo p n = { x with loops := rest }.moveTo p n))

/-- R203, R306: BRX.pack parks each active lane at the word with its target, and counts in STRIDE only when the
gathering closes. R210: EXIT ends the threads of its taking lanes; the heat ends with its last live lane. -/
def Obligations.PackAndExit : Prop :=
  (∀ (a : BitVec 7) (p : BitVec 2) (s : State) (h : Heat), s.ready h s.cur.lanes [(a.toNat, 1)] [] →
    ∃ t h', Issued (.brxPack a p) s t h' ∧ OnlyIssuer s t ∧ SameRegs h h' ∧ h'.stride = h.stride ∧
      Retired s { h with stride := h.stride - 1#64 } h' (fun l x =>
        let target : Addr := if h.k p.toNat l then fall s.cur + 4 * (h.v a.toNat l).signExtend 72 else fall s.cur
        { x with park := .brxPack target s.stamp })) ∧
  ∀ (p : BitVec 2) (s : State) (h : Heat), s.ready h s.cur.lanes [] [] →
    ∃ (t : State) (h' : Heat), exec (.exit p) s = .next (t.endIfEmpty s.curKey s.curHeatId) ∧ t.curHeat? = some h' ∧ OnlyIssuer s t ∧
      SameRegs h h' ∧
      Retired s h h' (fun l x =>
        if inMask (h.taking s.cur.active p.toNat) l then { x with live := false, loops := [] } else x.goOn s.stamp) ∧
      ((∃ l, l < 32 ∧ (h'.lane l).live = true) → exec (.exit p) s = .next t) ∧
      ((∀ l, l < 32 → (h'.lane l).live = false) → h.hmem = [] →
        ∃ u, exec (.exit p) s = .next u ∧ u.curHeat? = some { h' with ended := true } ∧ OnlyIssuer s u)

/-- R359, R478, R480, R481: at a commit point a team's deferred stores perform in acceptance order; a new lap of a
team that nobody checks and no debugger runs advances LAP by one, restarts every STRIDE, and takes its start image,
with journal and log empty. -/
def Obligations.LapEnds : Prop :=
  (∀ (s : State) (u : Nat) (x : Team), s.team? u = some x → x.checks = none →
    let ws := x.deferred.flatMap (fun d => pairsAt d.pa d.bytes)
    (∀ a, readByte (s.flushTeam u).mem a = (lastWrite ws a).getD (readByte s.mem a)) ∧
      ∃ y, (s.flushTeam u).team? u = some y ∧ y.deferred = [] ∧ y.lap = x.lap) ∧
  ∀ (s : State) (u v : Nat) (x : Team), v ∈ s.clusterOf u → (s.clusterOf u).Nodup → s.team? v = some x →
    (∀ w ∈ s.clusterOf u, ∀ z, s.team? w = some z → z.checker = none ∧ z.runTo = none) →
    ∃ y, (s.newLap u).team? v = some y ∧ y.lap = x.lap + 1#64 ∧ y.body.seq.count = 0#64 ∧ y.lapBody = y.body ∧
      y.log = [] ∧ y.deliveries = [] ∧ y.undo = [] ∧ y.undoPoison = [] ∧ y.relaunches = 0 ∧ y.replaying = false ∧
      (∀ g h, x.heat? g = some h → y.heat? g = some { h with stride := 0#64, journalled := [] }) ∧
      (∀ a, readByte (s.newLap u).mem a = readByte s.mem a)

/-- R226–R228: COMMIT is a commit point of its team; FENCE goes on when no earlier load, store or copy of its
lanes is pending, and FENCE.r when no fabric access or relay operation is; else they hold. R29, R230, R237: a LAUNCH
or relay operation that no lane takes is a commit point too. -/
def Obligations.CommitAndFences : Prop :=
  (∀ (s s1 : State) (h h1 : Heat) (u : Nat), s.ready h s.cur.lanes [] [] → s.curTeam = some u →
    s.commitHeld u = false → s1 = s.flush u → s1.curHeat? = some h1 →
    ∃ t : State, exec .commit s = .next t.endLap ∧ WentOn s1 t .none) ∧
  (∀ (i : Instr) (uses : List (Nat × Nat)) (p : Nat) (s s1 : State) (h h1 : Heat) (u : Nat),
    (match i with
      | .launch d _ o _ q => uses = (d.toNat, 1) :: ofsUse o ∧ p = q.toNat
      | _ => (relayForm i).map (fun f => (f.uses ++ ofsUse f.ofs, f.pred)) = some (uses, p)) →
    s.ready h s.cur.lanes uses [] → lanesOf (h.taking s.cur.active p) = [] → s.curTeam = some u →
    s.commitHeld u = false → s1 = s.flush u → s1.curHeat? = some h1 →
    ∃ t : State, exec i s = .next t.endLap ∧ WentOn s1 t .none) ∧
  (∀ (s : State) (h : Heat), s.ready h s.cur.lanes [] [] →
    if (∀ x ∈ h.pending, x.isLoad = true → x.mask &&& s.cur.active = 0#32) ∧
        s.unfinished s.curKey s.curHeatId h s.cur.active .ack (fun _ _ => true) = false ∧
        (∀ r ∈ h.copies, h.owns r.id = true → r.coll = true) then
      ∃ t : State, exec .fence s = .next t ∧ WentOn s t .none
    else exec .fence s = .next (s.hold h .none 8)) ∧
  ∀ (s : State) (h : Heat), s.ready h s.cur.lanes [] [] →
    if (∀ x ∈ h.pending, x.isLoad = true → x.isFabric = true → x.mask &&& s.cur.active = 0#32) ∧
        s.unfinished s.curKey s.curHeatId h s.cur.active .fabAck (fun _ _ => true) = false ∧
        s.unfinished s.curKey s.curHeatId h s.cur.active .relay (fun _ _ => true) = false then
      ∃ t : State, exec .fenceR s = .next t ∧ WentOn s t .none
    else exec .fenceR s = .next (s.hold h .none 8)

/-- R47–R49, R186–R188: a push into a team queue with room, and with no other heat's turn before it, appends one
entry with the values and mask of the taking lanes; a pop or peek reads the oldest entry into a scoreboard slot,
zero in a taking lane whose mask bit is clear, and a pop removes it; QLEN counts the entries. A push or pop that R47
forbids takes the queue-binding fault, class 5; one that no lane takes only goes on; a push to a full team queue and a
pop of an empty queue park the heat. -/
def Obligations.QueueResults : Prop :=
  (∀ (i : Instr) (f : PushForm) (s : State) (h : Heat) (u : Nat) (x : Team), pushForm i = some f →
    s.ready h s.cur.lanes f.uses [] → s.curTeam = some u → s.team? u = some x →
    let m := h.taking s.cur.active f.pred
    (f.queue ∈ [1, 3, 5, 6, 7] → exec i s = .next (s.raise 5 f.queue)) ∧
    (f.queue ∉ [1, 3, 5, 6, 7] → m = 0#32 →
      ∃ t h', Issued i s t h' ∧ OnlyIssuer s t ∧ Retired s h h' s.onward ∧ SameRegs h h') ∧
    (8 ≤ f.queue → m ≠ 0#32 → Config.queueDepth ≤ (queueOf s h f.queue).length →
      exec i s = .next (s.hold h (.retryQueue (16 + f.queue)) 6))) ∧
  (∀ (i : Instr) (f : TakeForm) (s : State) (h : Heat) (u : Nat) (x : Team), takeForm i = some f →
    s.ready h s.cur.lanes [(f.dest, f.regs)] [] → s.curTeam = some u → s.team? u = some x →
    let may := f.queue ∈ [1, 3, 5, 6] ∨ (f.queue = 7 ∧ h.role = 2) ∨ 8 ≤ f.queue
    let m := h.taking s.cur.active f.pred
    (¬ may → exec i s = .next (s.raise 5 f.queue)) ∧
    (may → m = 0#32 → ∃ t h', Issued i s t h' ∧ OnlyIssuer s t ∧ Retired s h h' s.onward ∧ SameRegs h h') ∧
    (may → m ≠ 0#32 → h.pending.length < Config.slotCount → queueOf s h f.queue = [] →
      exec i s = .next (s.hold h (.retryQueue f.queue) 5))) ∧
  (∀ (i : Instr) (f : PushForm) (s : State) (h : Heat) (u : Nat) (x : Team), pushForm i = some f → 8 ≤ f.queue →
    s.ready h s.cur.lanes f.uses [] → s.curTeam = some u → s.team? u = some x →
    h.taking s.cur.active f.pred ≠ 0#32 → (queueOf s h f.queue).length < Config.queueDepth →
    s.queueTurn h f.queue (16 + f.queue) = false →
    ∃ t h' e, Issued i s t h' ∧ OnlyQueues s t ∧ Retired s h h' s.onward ∧ SameRegs h h' ∧
      (∀ q, queueOf t h' q = if q = f.queue then queueOf s h q ++ [e] else queueOf s h q) ∧
      e.mask = h.taking s.cur.active f.pred ∧ e.heat = s.curHeatId ∧ e.stride = h.stride.toNat ∧
      ∀ l, inMask e.mask l → mget 0#64 e.vals l = f.value h l) ∧
  (∀ (i : Instr) (f : TakeForm) (s : State) (h : Heat) (u : Nat) (x : Team) (e : QEntry) (rest : List QEntry),
    takeForm i = some f → (f.queue ∈ [1, 3, 5, 6] ∨ (f.queue = 7 ∧ h.role = 2) ∨ 8 ≤ f.queue) →
    s.ready h s.cur.lanes [(f.dest, f.regs)] [] → s.curTeam = some u → s.team? u = some x → x.replaying = false →
    Unchecked s → h.taking s.cur.active f.pred ≠ 0#32 → h.pending.length < Config.slotCount →
    s.queueTurn h f.queue f.queue = false → queueOf s h f.queue = e :: rest →
    (∀ c, s.ctx? s.curAsid = some c → ∀ y ∈ c.relayArea, y.1 ≠ u) →
    ∃ t h' y, Issued i s t h' ∧ OnlyQueues s t ∧ SameRegs h h' ∧
      Retired s { h with slots := h.slots ++ [y], queues := h'.queues } h' s.onward ∧
      (∀ q, queueOf t h' q = if q = f.queue ∧ f.pop = true then rest else queueOf s h q) ∧
      y.dest = .vec f.dest f.regs ∧ y.mask = s.cur.active ∧ y.isLoad = false ∧ y.waiting = 0 ∧
      y.allow = (if f.la = 0#4 then none else some f.la.toNat) ∧
      (∀ l, inMask (h.taking s.cur.active f.pred) l → mfind y.vals l =
        some (if inMask e.mask l then (mget 0#64 e.vals l).toNat % 2 ^ (32 * f.regs) else 0))) ∧
  ∀ (q : BitVec 4) (a : BitVec 6) (s : State) (h : Heat) (u : Nat) (x : Team),
    s.ready h s.cur.lanes [] (single [a.toNat]) → s.curTeam = some u → s.team? u = some x → x.replaying = false →
    Unchecked s →
    ∃ t h', Issued (.qlen q a) s t h' ∧ OnlyQueues s t ∧ Retired s h h' s.onward ∧
      (∀ r, h'.sr r = if r = a.toNat then BitVec.ofNat 64 (queueOf s h q.toNat).length else h.sr r) ∧
      (∀ n, queueOf t h' n = queueOf s h n) ∧ SameV h h' ∧ SameK h h' ∧ SameA h h'

/-- R189, R190, R192: a copy word, or a QPUSH to q0, whose block is well-formed and whose ranges pass their checks
pushes its four words as one entry into q0, with the pieces of both ranges; the sectors and scratchpad lines of its
destination belong to it from then on; memory does not change yet. One that closes a lap performs the deferred stores
first. A QPUSH to q0 or q4 by other lanes than 0 to 3 takes the command-format fault, class 0xC. That QPUSH.b32 pushes
a command too is the model's choice (log entry 73). -/
def Obligations.CopyPush : Prop :=
  (∀ (i : Instr) (f : PushForm) (s : State) (h : Heat) (u : Nat), pushForm i = some f → f.queue ∈ [0, 4] →
    s.ready h s.cur.lanes f.uses [] → s.curTeam = some u → h.taking s.cur.active f.pred ≠ 0#32 →
    h.taking s.cur.active f.pred ≠ 0xF#32 → exec i s = .next (s.raise 0x0C 0)) ∧
  ∀ (i : Instr) (uses suses : List (Nat × Nat)) (w : List W64) (s s1 : State) (h h1 : Heat) (u : Nat) (x : Team)
      (src dst : List (Nat × Piece)) (bs bs' : List Binding), CopyWord i s h uses suses w →
    s.ready h s.cur.lanes uses suses → s.curTeam = some u → s.team? u = some x →
    let closes := src.any (fun p => p.2.closes false) || dst.any (fun p => p.2.closes true)
    let s0 := { s with bindings := bs' }.noteCopyDesc h.stride.toNat w
    copyFormatBad x.csize w = false → s.copySource h.stride.toNat w s.bindings = .ok src bs → s.copyDest w bs = .ok dst bs' →
    (h.queue 0).length < Config.queueDepth → (closes = true → s0.commitHeld u = false) →
    s1 = (if closes then s0.flush u else s0) → s1.curHeat? = some h1 →
    ∃ (t : State) (h' : Heat) (e : QEntry) (c : CopyRec), exec i s = .next (if closes then t.endLap else t) ∧ t.curHeat? = some h' ∧ SameRegs h1 h' ∧
      Retired s1 { h1 with queues := mset [] h1.queues 0 (h1.queue 0 ++ [e]), copies := h1.copies ++ [c] } h' s1.onward ∧
      (∀ a, readByte t.mem a = readByte s1.mem a) ∧ e.mask = 0xF#32 ∧ e.id = s1.stamp ∧ c.id = s1.stamp ∧
      (∀ n, n < 4 → mget 0#64 e.vals n = w.getD n 0#64) ∧ c.src = src ∧ c.dst = dst ∧ c.owned = destSectors dst ∧
      c.coll = false ∧
      ∀ v y, s1.team? v = some y → ∃ z, t.team? v = some z ∧
        ∀ l, mget 0 z.absent l = mget 0 y.absent l + if (v, l) ∈ destLines dst then 1 else 0

/-- R195–R197: a gather or scatter with a taking lane pushes its sequence into q2: the header word, the lanes'
addresses, the data of a scatter. A QPUSH to q2 begins a sequence, with a well-formed header from lane 0 alone (else
the command-format fault, class 0xC), or goes on with one, or ends it, where the elements are checked as those of a
gather or scatter. That QPUSH.b32 does so too is the model's choice (log entry 73). -/
def Obligations.GatherPush : Prop :=
  (∀ (i : Instr) (f : PushForm) (s : State) (h : Heat) (u : Nat), pushForm i = some f → f.queue = 2 →
    s.ready h s.cur.lanes f.uses [] → s.curTeam = some u →
    let m := h.taking s.cur.active f.pred
    let part := partialSeq 20 h.gatherList
    m ≠ 0#32 →
    (part = [] → m ≠ 1#32 ∨ headerBad (f.header h) = true → exec i s = .next (s.raise 0x0C 0)) ∧
    ((part = [] → m = 1#32 ∧ headerBad (f.header h) = false) → (h.queue 2).length < Config.queueDepth →
      (part.length + 1 < seqLength (f.header h) → ∃ t h' e, Issued i s t h' ∧ OnlyIssuer s t ∧ SameRegs h h' ∧
        Retired s { h with queues := mset [] h.queues 2 (h.queue 2 ++ [e]) } h' s.onward ∧ e.mask = m ∧
        ∀ l, inMask m l → mget 0#64 e.vals l = f.value h l) ∧
      ∀ (s1 : State) (h1 : Heat) (ts : List (Nat × Target)) (bs : List Binding),
        let write := fld (f.header h).toNat 0 4 == 1
        let size := elemSize (fld (f.header h).toNat 4 2)
        let addr := fun l => ((mget 0#64 (f.addresses s h).2 l).setWidth 72 : Addr)
        let closes := ts.any (fun t => match t.2 with
          | .mem _ leaf => pteD leaf || (write && decide (1 ≤ pteSw leaf))
          | _ => false)
        seqLength (f.header h) ≤ part.length + 1 →
        checkAll (fun bs l => s.checkMem bs s.curWho (addr l) size (if write then .write else .read) true) addr
          (lanesOf (f.addresses s h).1) s.bindings = .ok ts bs → (closes = true → s.commitHeld u = false) →
        s1 = (if closes then { s with bindings := bs }.flush u else { s with bindings := bs }) → s1.curHeat? = some h1 →
        ∃ (t : State) (h' : Heat) (e : QEntry) (c : CopyRec), exec i s = .next (if closes then t.endLap else t) ∧
          t.curHeat? = some h' ∧ SameRegs h1 h' ∧
          Retired s1 { h1 with queues := mset [] h1.queues 2 (h1.queue 2 ++ [e]), copies := h1.copies ++ [c] } h' s1.onward ∧
          (∀ a, readByte t.mem a = readByte s1.mem a) ∧ c.id = s1.stamp ∧ e.id = s1.stamp ∧ e.mask = m ∧
          ∀ l, inMask m l → mget 0#64 e.vals l = f.value h l)) ∧
  ∀ (i : Instr) (f : GatherForm) (s s1 : State) (h h1 : Heat) (u : Nat) (ts : List (Nat × Target)) (bs : List Binding),
    gatherForm i = some f → s.ready h s.cur.lanes f.uses [] → s.curTeam = some u →
    let m := h.taking s.cur.active f.pred
    let size := 4 * 2 ^ f.size
    let addr := fun l => (0#8 ++ h.pair f.addr l : Addr)
    let closes := ts.any (fun t => match t.2 with
      | .mem _ leaf => pteD leaf || (f.write && decide (1 ≤ pteSw leaf))
      | _ => false)
    m ≠ 0#32 → partialSeq 20 h.gatherList = [] →
    checkAll (fun bs l => s.checkMem bs s.curWho (addr l) size (if f.write then .write else .read) true) addr
      (lanesOf m) s.bindings = .ok ts bs →
    (h.queue 2).length + seqLength f.header ≤ Config.queueDepth → (closes = true → s.commitHeld u = false) →
    s1 = (if closes then { s with bindings := bs }.flush u else { s with bindings := bs }) → s1.curHeat? = some h1 →
    (∀ l, inMask m l → f.values h1 l = f.values h l) →
    ∃ (t : State) (h' : Heat) (es : List QEntry) (c : CopyRec), exec i s = .next (if closes then t.endLap else t) ∧ t.curHeat? = some h' ∧ SameRegs h1 h' ∧
      Retired s1 { h1 with queues := mset [] h1.queues 2 (h1.queue 2 ++ es), copies := h1.copies ++ [c] } h' s1.onward ∧
      (∀ a, readByte t.mem a = readByte s1.mem a) ∧ c.id = s1.stamp ∧ es.length = seqLength f.header ∧
      (∀ e ∈ es, e.id = s1.stamp) ∧
      (∀ e, es.head? = some e → e.mask = 1#32 ∧ mget 0#64 e.vals 0 = f.header) ∧
      ∀ l, inMask m l → (es.drop 1).map (fun e => mget 0#64 e.vals l) = f.values h l

/-- R243: COLL, or a QPUSH to q4, checks its block and ranges and, always as a commit point, pushes its four words into
q4. That QPUSH.b32 does so too is the model's choice (log entry 73). -/
def Obligations.CollPush : Prop :=
  ∀ (i : Instr) (uses suses : List (Nat × Nat)) (w : List W64) (s s1 : State) (h h1 : Heat) (u : Nat)
      (src dst : List (Nat × Piece)) (bs bs' : List Binding), CollWord i s h uses suses w →
    s.ready h s.cur.lanes uses suses → s.curTeam = some u → Unchecked s → s.collBad w = false →
    s.collRange s.curWho false w s.bindings = .ok src bs → s.collRange s.curWho true w bs = .ok dst bs' →
    (h.queue 4).length < Config.queueDepth → s.commitHeld u = false →
    s1 = { s with bindings := bs' }.flush u → s1.curHeat? = some h1 →
    ∃ (t : State) (h' : Heat) (e : QEntry) (c : CopyRec), exec i s = .next t.endLap ∧ t.curHeat? = some h' ∧ SameRegs h1 h' ∧
      Retired s1 { h1 with queues := mset [] h1.queues 4 (h1.queue 4 ++ [e]), copies := h1.copies ++ [c] } h' s1.onward ∧
      (∀ b, readByte t.mem b = readByte s1.mem b) ∧ e.mask = 0xF#32 ∧ e.id = s1.stamp ∧ c.id = s1.stamp ∧
      (∀ n, n < 4 → mget 0#64 e.vals n = w.getD n 0#64) ∧ c.src = src ∧ c.dst = dst ∧ c.coll = true

/-- R229, R400: SPAWN creates one thread per taking lane, with entry a(D), LINEAGE pair(A) and n arguments from
v(A + 2): each waits in a bin of the core or in the spill area of the context. -/
def Obligations.SpawnResults : Prop :=
  ∀ (d : BitVec 4) (a : BitVec 6) (b : BitVec 7) (p : BitVec 2) (s : State) (h : Heat) (u : Nat),
    s.ready h s.cur.lanes [(2 * a.toNat, 2 + b.toNat)] [] → s.curTeam = some u →
    (lanesOf (h.taking s.cur.active p.toNat)).length ≤ s.spillRoom s.curAsid →
    (s.core s.cur.core).bins.length ≤ 8 →
    ∃ t h', Issued (.spawn d a b p) s t h' ∧ Retired s h h' s.onward ∧ SameRegs h h' ∧
      (∀ v g, ¬ s.issues v g → t.heat? v g = s.heat? v g) ∧ (∀ n, readByte t.mem n = readByte s.mem n) ∧
      (waitingThreads t s.cur.core s.curAsid).Perm (waitingThreads s s.cur.core s.curAsid ++
        (lanesOf (h.taking s.cur.active p.toNat)).map (fun l => {
          team := u, entry := h.ar d.toNat, lineage := h.pair (2 * a.toNat) l, role := h.role, budget := h.budget
          args := (List.range b.toNat).map (fun n => h.v (2 * a.toNat + 2 + n) l) }))

/-- R230, R231: LAUNCH is a commit point; each taking lane's record joins the team's pending order, and the
GRIDID lands later in a scoreboard slot. R232: WAITC parks the heat on the counters of its taking lanes, tested
at once. R234, R421: RSMP is a commit point; each lane's weight joins the gathering of the grid and its lane
parks. R420, R427: one whose gathering failed raises the population trap when it issues again. -/
def Obligations.GridWords : Prop :=
  (∀ (d : BitVec 7) (a : BitVec 4) (o : BitVec 7) (la : BitVec 4) (p : BitVec 1) (s s1 : State) (h h1 : Heat)
      (u : Nat) (x : Team) (ts : List (Nat × Target)) (bs : List Binding),
    let lanes := lanesOf (h.taking s.cur.active p.toNat)
    s.ready h s.cur.lanes ((d.toNat, 1) :: ofsUse o) [] → s.curTeam = some u → Unchecked s → lanes ≠ [] →
    h.pending.length < Config.slotCount →
    checkAll (fun bs l => s.checkMem bs s.curWho (h.laneAddr a o l) 128 .read true) (h.laneAddr a o) lanes s.bindings =
      .ok ts bs → Clear s 128 ts → s.commitHeld u = false → s1 = { s with bindings := bs }.flush u →
    s1.curHeat? = some h1 → s1.team? u = some x → x.launches.length + ts.length ≤ 4 → Sound s1 128 ts →
    ∃ (t : State) (h' : Heat) (y : Slot) (new : List PendLaunch), exec (.launch d a o la p) s = .next t.endLap ∧ t.curHeat? = some h' ∧ SameRegs h1 h' ∧
      Retired s1 { h1 with slots := h1.slots ++ [y] } h' s1.onward ∧ y.dest = .vec d.toNat 1 ∧
      y.waiting = ts.length ∧ y.stamp = s1.stamp ∧ (t.team? u).map (fun z => z.launches) = some (x.launches ++ new) ∧
      new.map (fun r => (r.record, r.heat, r.lane, r.slot)) = ts.map (fun e =>
        (readBytes s1.mem (match e.2 with | .mem pa _ => pa | _ => 0) 128, s1.curHeatId, e.1, s1.stamp))) ∧
  (∀ (z : BitVec 6) (a : BitVec 4) (o : BitVec 7) (p : BitVec 1) (s : State) (h : Heat) (u : Nat) (x : Team)
      (ts : List (Nat × Target)) (bs : List Binding), let lanes := lanesOf (h.taking s.cur.active p.toNat)
    s.ready h s.cur.lanes ((2 * z.toNat, 2) :: ofsUse o) [] → s.curTeam = some u → lanes ≠ [] →
    checkAll (fun bs l => s.checkMem bs s.curWho (h.laneAddr a o l) 8 .read true) (h.laneAddr a o) lanes s.bindings =
      .ok ts bs → Clear s 8 ts → s.team? u = some x →
    ∃ (t : State) (h' : Heat) (w : Waiter), exec (.waitc z a o p) s = .next (t.retestTeam u) ∧ t.curHeat? = some h' ∧ SameRegs h h' ∧
      Retired s h h' (fun _ y => { y with park := .waitc }) ∧
      (t.team? u).map (fun y => y.body.waiters) = some (x.body.waiters ++ [w]) ∧ w.heat = s.curHeatId ∧
      w.mask = s.cur.active ∧
      w.conds = ts.map (fun e => (e.1, (h.laneAddr a o e.1).toNat, (h.pair (2 * z.toNat) e.1).toNat))) ∧
  ∀ (i : Instr) (a n : Nat) (draw_ : Option Nat) (sr : List Nat) (s s1 : State) (h h1 : Heat) (u : Nat) (x : Team)
      (g : Grid),
    (match i with
      | .rsmp va sb => a = va.toNat ∧ n = sb.toNat ∧ draw_ = none ∧ sr = [sb.toNat]
      | .rsmpU sd va sb => a = va.toNat ∧ n = sb.toNat ∧ sr = [sb.toNat, sd.toNat] ∧
          draw_ = some ((h1.sr sd.toNat).toNat / 2 ^ 11)
      | _ => False) →
    s.ready h s.cur.lanes [(a, 1)] (single sr) → s.curTeam = some u → Unchecked s → s.cur.active = h.live →
    (∀ r, h.popPending s.cur.active = some r →
      exec i s = .next ((s.putCurHeat (h.repark s.cur.active)).raise 9 r)) ∧
    (h.popPending s.cur.active = none →
    s.curGrid? = some g → g.record.pop = true → (∀ l, inMask s.cur.active l → (h.lane l).member = true) →
    1 ≤ (h.sr n).toNat → (h.sr n).toNat ≤ 2 ^ 24 → (∀ l, inMask s.cur.active l → h.v a l ≠ 0x7F800000#32) →
    s.commitHeld u = false → s1 = s.flush u → s1.curHeat? = some h1 → s1.team? u = some x →
    mfind s1.grids x.grid = some g →
    ∃ (t : State) (h' : Heat), exec i s = .next t.endLap ∧ t.curHeat? = some h' ∧ SameRegs h1 h' ∧
      Retired s1 h1 h' (fun _ y => { y with park := .rsmp }) ∧
      (mfind t.grids x.grid).map (fun (g : Grid) => g.gathering) = some (g.gathering ++ (lanesOf s.cur.active).map (fun l => {
        team := u, heat := s.curHeatId, lane := l, weight := h1.v a l, count := (h.sr n).toNat, u := draw_ })))

/-- R237, R238, R446: a relay operation with room in its windows is a commit point; each taking lane, in
ascending order, takes the next serial of its target's stream and sends one request; a returning form keeps a
scoreboard slot. R242: RACK acknowledges every stream whose ack-through has advanced. -/
def Obligations.RelayWords : Prop :=
  (∀ (i : Instr) (f : RelayForm) (s s1 : State) (h h1 : Heat) (u : Nat) (c : Context) (ts : List (Nat × Target))
      (bs : List Binding), relayForm i = some f → s.ready h s.cur.lanes (f.uses ++ ofsUse f.ofs) [] →
    s.curTeam = some u → lanesOf (h.taking s.cur.active f.pred) ≠ [] →
    (f.dest.isSome → h.pending.length < Config.slotCount) → Unchecked s → s.fabricUp = true →
    checkAll (fun bs l => s.checkRelay bs (f.addr h l) f.size) (f.addr h) (lanesOf (h.taking s.cur.active f.pred))
      s.bindings = .ok ts bs →
    (∀ x ∈ ts, s.ordSent x.1 = false ∧ s.fabOpen x.1 = false) →
    s.relayFull ts = false → s.commitHeld u = false → s1 = { s with bindings := bs }.flush u →
    s1.curHeat? = some h1 → s1.ctx? s1.curAsid = some c →
    ∃ (t : State) (h' : Heat) (new : List (Nat × Packet)), exec i s = .next t.endLap ∧ t.curHeat? = some h' ∧ SameRegs h1 h' ∧
      (∀ a, readByte t.mem a = readByte s1.mem a) ∧ t.packets = s1.packets ++ new.map (fun p => (p.1, packetOf p.2)) ∧
      new.map (fun p => (p.1, p.2.kind, p.2.op, p.2.offset, p.2.x, p.2.y, p.2.retrans)) =
        ts.map (fun e => ((fabricOf e.2).1, 1, f.op, (fabricOf e.2).2, f.x h1 e.1, f.y h1 e.1, false)) ∧
      (∀ dev, nextSerial t s1.curAsid dev = nextSerial s1 s1.curAsid dev +
        BitVec.ofNat 32 (ts.filter (fun e => (fabricOf e.2).1 == dev)).length) ∧
      match f.dest with
      | some (d, n, la) => ∃ y, Retired s1 { h1 with slots := h1.slots ++ [y] } h' s1.onward ∧ y.dest = .vec d n ∧
          y.waiting = ts.length ∧ y.isLoad = false ∧ y.allow = (if la = 0 then none else some la)
      | none => Retired s1 h1 h' s1.onward) ∧
  ∀ (s : State) (h : Heat) (u : Nat) (c : Context), s.ready h s.cur.lanes [] [] → s.curTeam = some u →
    s.ctx? s.curAsid = some c → (c.streams.map Prod.fst).Nodup → Unchecked s → s.fabricUp = true →
    ∃ (t : State) (h' : Heat) (new : List (Nat × Packet)), Issued .rack s t h' ∧ Retired s h h' s.onward ∧ SameRegs h h' ∧
      t.packets = s.packets ++ new.map (fun p => (p.1, packetOf p.2)) ∧
      new.map (fun p => (p.1, p.2.kind, p.2.ackthr)) =
        (c.streams.filter (fun e => e.2.used && decide (e.2.ackt ≠ e.2.lastAck))).map (fun e => (e.1, 3, e.2.ackt))

/-- R215–R220, R222, R223, R225: what each hurdle word does when every live lane of its heat is active. On a
cluster hurdle it is a commit point. A word that names a hurdle its heat is no member of in the needed mode takes
the hurdle-membership trap. -/
def Obligations.HurdleWords : Prop :=
  (∀ (i : Instr) (c : BitVec 1) (n : BitVec 8) (mode : HMode) (s r : State) (h h1 : Heat) (u : Nat) (x : Team),
    regForm i = some (c, n, mode) → s.ready h s.cur.lanes [] [] → s.curTeam = some u → s.cur.active = h.live →
    mayOpen s u c → (s.member u s.curHeatId (hurdleId c n)).pending ≠ some .none → r = opened s u c →
    r.curHeat? = some h1 → r.team? u = some x → x.replaying = false → x.checks = none → x.checker = none →
    let w := r.hurdle u (hurdleId c n)
    let note := r.noteReplay 2 h1.stride.toNat (hurdleId c n).key ((if w.arr = 0#16 then 1 else 0) + 2 * w.phase.toNat)
    ∃ t : State, exec i s = .next (closed t c) ∧
      WentOn (note.register u s.curHeatId (hurdleId c n) mode (decide (w.arr = 0#16)) w.phase) t
        (if w.arr = 0#16 then .none else .regHurdle (hurdleId c n).cluster (hurdleId c n).h)) ∧
  (∀ (c : BitVec 1) (n : BitVec 8) (s r : State) (h h1 : Heat) (u : Nat),
    s.ready h s.cur.lanes [] [] → s.curTeam = some u → s.cur.active = h.live → mayOpen s u c → r = opened s u c →
    r.curHeat? = some h1 →
    ∃ t : State, exec (.hdrop c n) s = .next (closed t c) ∧ WentOn (r.dropUnit u s.curHeatId (hurdleId c n)) t .none) ∧
  (∀ (c : BitVec 1) (n : BitVec 8) (s r : State) (h h1 : Heat) (u : Nat),
    s.ready h s.cur.lanes [] [] → s.curTeam = some u → s.cur.active = h.live → mayOpen s u c → r = opened s u c →
    r.curHeat? = some h1 → let m := s.member u s.curHeatId (hurdleId c n)
    let cps := (h1.copies.filter (fun e => !e.covered && !e.coll && h1.owns e.id)).map (fun e => e.id)
    m.mode.signals = true → m.pending ≠ some .none → m.arrived = false →
    (∃ t : State, exec (.harr c n) s = .next (closed t c) ∧ WentOn (r.arrive u s.curHeatId (hurdleId c n) true) t .none) ∧
    (∃ t : State, exec (.harrCp c n) s = .next (closed t c) ∧
      if cps = [] then WentOn (r.arrive u s.curHeatId (hurdleId c n) true) t .none
      else WentOn ((r.arrive u s.curHeatId (hurdleId c n) false).modHeat u s.curHeatId (fun y => { y with
        copies := y.copies.map (fun e => { e with covered := true })
        arrivals := y.arrivals ++ [{ cluster := c == 1#1, h := n.toNat, ids := cps }] })) t .none) ∧
    (m.mode.waits = true → ∃ t : State, exec (.harrw c n) s = .next (closed t c) ∧
      let after := r.arrive u s.curHeatId (hurdleId c n) true
      WentOn after t (if later (after.hurdle u (hurdleId c n)).phase (r.hurdle u (hurdleId c n)).phase then .none
        else .waitHurdle (hurdleId c n).cluster (hurdleId c n).h))) ∧
  (∀ (c : BitVec 1) (n : BitVec 8) (s r : State) (h h1 : Heat) (u : Nat) (x : Team),
    s.ready h s.cur.lanes [] [] → s.curTeam = some u → mayOpen s u c → r = opened s u c → r.curHeat? = some h1 →
    r.team? u = some x → x.replaying = false → x.checks = none → x.checker = none → let m := r.member u s.curHeatId (hurdleId c n)
    let pass := later (r.hurdle u (hurdleId c n)).phase m.wait
    (s.cur.active = h.live → (s.member u s.curHeatId (hurdleId c n)).mode.waits = true →
      (s.member u s.curHeatId (hurdleId c n)).pending ≠ some .none →
      let note := r.noteReplay 3 h1.stride.toNat (hurdleId c n).key (if pass then 0 else 1)
      ∃ t : State, exec (.hwait c n) s = .next (closed t c) ∧
        if pass then WentOn (if m.mode = .w then
            note.putMember u s.curHeatId (hurdleId c n) { m with wait := m.wait + 1#32 } else note) t .none
        else WentOn note t (.waitHurdle (hurdleId c n).cluster (hurdleId c n).h)) ∧
    (∀ d : BitVec 3, d ≠ 0#3 → ∃ (t : State) (h' : Heat), exec (.htest d c n) s = .next (closed t c) ∧ t.curHeat? = some h' ∧
      Retired r h1 h' r.onward ∧ SameV h1 h' ∧ SameS h1 h' ∧ SameA h1 h' ∧
      ∀ k l, l < 32 → h'.k k l =
        if k = d.toNat ∧ inMask s.cur.active l then decide (m.mode ≠ .none) && pass else h1.k k l)) ∧
  ∀ (c : BitVec 1) (n : BitVec 8) (s : State) (h : Heat) (u : Nat), s.ready h s.cur.lanes [] [] →
    s.curTeam = some u → s.cur.active = h.live →
    let m := s.member u s.curHeatId (hurdleId c n)
    (m.mode.signals = false → exec (.harr c n) s = .next (s.raise 8 (hurdleId c n).key) ∧
      exec (.harrCp c n) s = .next (s.raise 8 (hurdleId c n).key)) ∧
    (m.mode.signals = false ∨ m.mode.waits = false → exec (.harrw c n) s = .next (s.raise 8 (hurdleId c n).key)) ∧
    (m.mode.waits = false → exec (.hwait c n) s = .next (s.raise 8 (hurdleId c n).key))

/-- R217–R219, R221, R254: an arrival sets the unit's flag and its wait number and adds one to ARR; when ARR
reaches SIG, the phase advances by one, ARR starts again at 0, and what was pending joins SIG and WAIT. -/
def Obligations.HurdleArrival : Prop :=
  ∀ (s : State) (u g : Nat) (c : BitVec 1) (n : BitVec 8) (x : Team), u < trapBase → s.team? u = some x →
    x.replaying = false → (c = 1#1 → (s.team? (s.clusterKey u)).isSome) →
    let i := hurdleId c n
    let w := s.hurdle u i
    let t := s.arrive u g i true
    (w.sig = 0#16 ∨ w.arr + 1#16 ≠ w.sig →
      t.hurdle u i = { w with arr := w.arr + 1#16 } ∧
      ((x.heat? g).isSome → g ≠ 255 → t.member u g i = { s.member u g i with arrived := true, wait := w.phase })) ∧
    (w.sig ≠ 0#16 → w.arr + 1#16 = w.sig →
      t.hurdle u i = { phase := w.phase + 1#32, sig := w.sig + w.psig, wait := w.wait + w.pwait })

/-- R251, R252, R259, R271: MMOV and MADD write m(D); MLOOP counts down and branches while the count is not 0;
MBR branches on a nonzero register; SETSP installs a valid profile word and takes the profile trap on another;
SWRD reads and clears the monitors of a tile; MEND ends the stream. -/
def Obligations.SequencerMoves : Prop :=
  (∀ (i : Instr) (d : Nat) (f : Seq → W64) (s : State) (u : Nat) (x : Team), seqForm i = some (d, f) →
    s.cur.who = .seq u → s.team? u = some x →
    ∃ t q', exec i s = .next t ∧ t.curSeq? = some q' ∧ OnlySequencer s t u ∧ SeqOnward s.cur x.body.seq q' ∧
      seqRest q' = seqRest x.body.seq ∧ q'.ops = x.body.seq.ops ∧
      ∀ r, q'.mr r = if r = d then f x.body.seq else x.body.seq.mr r) ∧
  (∀ (k : BitVec 3) (f : BitVec 19) (s : State) (u : Nat) (x : Team), s.cur.who = .seq u → s.team? u = some x →
    let v := x.body.seq.mr k.toNat
    (∃ t q', exec (.mloop k f) s = .next t ∧ t.curSeq? = some q' ∧ OnlySequencer s t u ∧ q'.idx = 0 ∧
      q'.count = x.body.seq.count + 1#64 ∧ seqRest q' = seqRest x.body.seq ∧ q'.ops = x.body.seq.ops ∧
      q'.hdr = (if v = 0#64 ∨ v = 1#64 then fall s.cur else fall s.cur + 4 * f.signExtend 72) ∧
      ∀ r, q'.mr r = if r = k.toNat ∧ v ≠ 0#64 then v - 1#64 else x.body.seq.mr r) ∧
    ∃ t q', exec (.mbr k f) s = .next t ∧ t.curSeq? = some q' ∧ OnlySequencer s t u ∧ q'.idx = 0 ∧
      q'.count = x.body.seq.count + 1#64 ∧ seqRest q' = seqRest x.body.seq ∧ q'.ops = x.body.seq.ops ∧
      q'.m = x.body.seq.m ∧ q'.hdr = (if v = 0#64 then fall s.cur else fall s.cur + 4 * f.signExtend 72)) ∧
  (∀ (p : BitVec 3) (a : BitVec 4) (s : State) (u : Nat) (x : Team), s.cur.who = .seq u → s.team? u = some x →
    let v := x.body.seq.mr a.toNat
    if v.toNat < 2 ^ 21 ∧ v.extractLsb' 5 3 ≤ 4#3 ∧ v.extractLsb' 11 3 ≤ 5#3 ∧ v.extractLsb' 17 2 ≠ 3#2 then
      ∃ t q', exec (.setsp p a) s = .next t ∧ t.curSeq? = some q' ∧ OnlySequencer s t u ∧
        SeqOnward s.cur x.body.seq q' ∧ q'.m = x.body.seq.m ∧ q'.ops = x.body.seq.ops ∧ q'.t = x.body.seq.t ∧
        ∀ r, q'.profile r = if r = p.toNat then v.extractLsb' 0 32 else x.body.seq.profile r
    else exec (.setsp p a) s = .next (s.raise 0x0A 1)) ∧
  (∀ (d : BitVec 4) (c : BitVec 8) (s : State) (u : Nat) (x : Team), s.cur.who = .seq u → s.team? u = some x →
    TilesReady x [c.toNat] → (∀ o ∈ x.body.seq.ops, c.toNat ∉ o.kind.tiles) →
    ∃ t q' y, exec (.swrd d c) s = .next t ∧ t.curSeq? = some q' ∧ t.device = s.device ∧
      SeqOnward s.cur x.body.seq q' ∧ seqRest q' = seqRest x.body.seq ∧ q'.ops = x.body.seq.ops ∧
      (∀ r, q'.mr r = if r = d.toNat then (mget {} x.body.acc c.toNat).swamped ++ (mget {} x.body.acc c.toNat).lost
        else x.body.seq.mr r) ∧ t.team? u = some y ∧
      ∀ n, mget {} y.body.acc n =
        if n = c.toNat then { mget {} x.body.acc n with lost := 0#32, swamped := 0#32 } else mget {} x.body.acc n) ∧
  ∀ (s : State) (u : Nat) (x : Team), s.cur.who = .seq u → s.team? u = some x →
    ∃ t q', exec .mend s = .next t ∧ t.curSeq? = some q' ∧ OnlySequencer s t u ∧ SeqOnward s.cur x.body.seq q' ∧
      q'.running = false ∧ q'.m = x.body.seq.m ∧ q'.ops = x.body.seq.ops

/-- R256, R257, R260–R270, R272: a tile load, accumulator load or store, strided drain, DRAIN, ZACC, MMA or MMAS
whose checks pass joins the issued words with what it has to do; the sequencer goes on. A load from a deferred
page, or a store to one or to a page of width CLUSTER or wider, is a commit point. -/
def Obligations.SequencerWords : Prop :=
  (∀ (i : Instr) (f : RangeForm) (s s1 : State) (u : Nat) (x : Team) (ps : List (Nat × Piece)) (bs : List Binding),
    rangeForm i = some f → s.cur.who = .seq u → s.team? u = some x → x.sampled = false → TilesReady x f.tiles →
    (∀ t w, f.kind = .tileLoad t w → ∀ r ∈ x.body.seq.reads, t ∉ r.2) →
    let a := (x.body.seq.mr f.base).toNat
    let k := if f.write then Access.write else Access.read
    a % f.align = 0 → s.spacePos f.window k 0 a f.bytes = .ok ps bs → (f.write = false → s.placesAbsent ps = false) →
    let closes := ps.any (fun p => p.2.closes f.write)
    (closes = true → s.commitHeld u = false) →
    s1 = (if closes then { s with bindings := bs }.flush u else { s with bindings := bs }) →
    (s1.team? u).isSome → ∃ t : State, exec i s = .next (if closes then t.endLap else t) ∧ Enlisted s1 t u f.kind ps a) ∧
  (∀ (i : Instr) (s s1 : State) (u : Nat) (x : Team) (c b size : Nat) (bad : Bool) (kind : SeqOpKind)
      (ps : List (Nat × Piece)) (bs : List Binding), s.cur.who = .seq u → s.team? u = some x →
    stridedForm x.body.seq i = some (c, b, size, bad, kind) → b ≠ 15 → x.sampled = false → TilesReady x [c] →
    let a := (x.body.seq.mr b).toNat
    let stride := ((x.body.seq.mr (b + 1)).extractLsb' 32 32).toNat
    if stride % size ≠ 0 ∨ bad = true then exec i s = .next (s.raise 0x0B 3)
    else a % size = 0 →
      checkPos (fun bs r => s.checkMemPos bs .write r.1 r.2.1 r.2.2)
        ((List.range 64).map (fun r => (64 * size * r, a + r * stride, 64 * size))) s.bindings = .ok ps bs →
      let closes := ps.any (fun p => p.2.closes true)
      (closes = true → s.commitHeld u = false) →
      s1 = (if closes then { s with bindings := bs }.flush u else { s with bindings := bs }) →
      (s1.team? u).isSome → ∃ t : State, exec i s = .next (if closes then t.endLap else t) ∧ Enlisted s1 t u kind ps a) ∧
  (∀ (c : BitVec 8) (m : BitVec 3) (s : State) (u : Nat) (x : Team), s.cur.who = .seq u → s.team? u = some x →
    TilesReady x ((List.range (m.toNat + 1)).map (fun n => c.toNat + n)) →
    ∃ t, exec (.zacc c m) s = .next t ∧ Enlisted s t u (.zacc c.toNat (m.toNat + 1)) [] 0) ∧
  (∀ (c : BitVec 8) (e : BitVec 3) (s : State) (u : Nat) (x : Team) (g : Grid) (y : Heat), s.cur.who = .seq u →
    s.team? u = some x → TilesReady x [c.toNat] → s.gridOf x = some g → e.toNat < g.record.hepi →
    x.heat? (g.record.firstHeat 2 + e.toNat) = some y → y.ended = false → y.role = 2 →
    ∃ t, exec (.drain c e) s = .next t ∧ Enlisted s t u (.drain c.toNat (g.record.firstHeat 2 + e.toNat) 0) [] 0) ∧
  ∀ (i : Instr) (f : MmaWord) (s : State) (u v off : Nat) (x : Team) (bs : List Binding), mmaForm i = some f →
    s.cur.who = .seq u → s.team? u = some x →
    (f.scaled = false → f.ta.toNat + f.steps ≤ 16 ∧ (f.keep = 0#1 ∨ f.steps = 1)) → (f.scaled = true → f.base ≠ 15) →
    (x.body.seq.ops.filter (fun o => o.kind.isMma)).length < 2 →
    f.k % 2 ^ profLog (x.body.seq.profile f.prof) = 0 → TilesReady x [f.tile] →
    (f.scaled = true → descBad x f.form (x.body.seq.mr (f.base + 1)) f.sigma = false) →
    let a := (x.body.seq.mr f.base).toNat
    a % 1024 = 0 →
    s.checkSpadPos s.bindings 0 a (f.steps * f.bBytes) false = .ok [(0, .spad v off (f.steps * f.bBytes))] bs →
    ∃ t, exec i s = .next t ∧ Enlisted { s with bindings := bs } t u
      (.mma f.form f.ta.toNat (f.keep == 1#1) f.tile (x.body.seq.profile f.prof) v off f.steps 0
        (if f.scaled then x.body.seq.mr (f.base + 1) else 0#64) f.sigma false) [] a

/-- R220, R225, R253, R254: the hurdle words of a sequencer, on a hurdle it may use: MHARR arrives, its rise
waiting for the earlier words not yet complete; MHWAIT waits until PHASE > W; the others register and leave. -/
def Obligations.SequencerHurdles : Prop :=
  ∀ (i : Instr) (c : BitVec 1) (n : BitVec 8) (s r : State) (u : Nat) (x y : Team), seqHurdleForm i = some (c, n) →
    s.cur.who = .seq u → s.team? u = some x → (c = 1#1 → n.toNat < 64) → (c = 0#1 → n ≠ 0#8) →
    mayOpen s u c → r = opened s u c → r.team? u = some y → y.replaying = false → y.checks = none →
    y.checker = none → let id := hurdleId c n
    let m := s.member u 255 id
    let m1 := r.member u 255 id
    let w := r.hurdle u id
    let words := (y.body.seq.ops.filter (fun o => !o.kind.allStarted)).map (fun o => o.stamp)
    match i with
    | .mharr _ _ => m.mode.signals = true → m.pending ≠ some .none → m.arrived = false →
        ∃ t : State, exec i s = .next (closed t c) ∧
          if words = [] then SeqWentOn (r.arrive u 255 id true) t u .none
          else SeqWentOn ((r.modSeq u (fun q => { q with
            arrivals := q.arrivals ++ [{ cluster := c == 1#1, h := n.toNat, words := words }] })).arrive u 255 id false)
            t u .none
    | .mhwait _ _ => m.mode.waits = true → m.pending ≠ some .none →
        let pass := later w.phase m1.wait
        let note := r.noteReplay 3 y.body.seq.count.toNat id.key (if pass then 0 else 1)
        ∃ t : State, exec i s = .next (closed t c) ∧
          if pass then SeqWentOn (if m1.mode = .w then note.putMember u 255 id { m1 with wait := m1.wait + 1#32 }
            else note) t u .none
          else SeqWentOn note t u (.waitHurdle id.cluster id.h)
    | .mharrDrop _ _ => ∃ t : State, exec i s = .next (closed t c) ∧ SeqWentOn (r.dropUnit u 255 id) t u .none
    | _ => m.pending ≠ some .none →
        let new := match i with
          | .mharrRegister _ _ => HMode.s
          | _ => HMode.w
        let mode := if m1.mode = .none ∨ m1.mode = new then new else .sw
        let note := r.noteReplay 2 y.body.seq.count.toNat id.key ((if w.arr = 0#16 then 1 else 0) + 2 * w.phase.toNat)
        ∃ t : State, exec i s = .next (closed t c) ∧
          SeqWentOn (note.register u 255 id mode (decide (w.arr = 0#16)) w.phase) t u
            (if w.arr = 0#16 then .none else .regHurdle id.cluster id.h)

/-- R56–R58, R61, R277, R289, R305, R475, R545: SRD reads a lane register into v(D) or pair(D) and any other one
into s(D); outside the trap heat a privileged register raises the privilege trap, and GTC the clock-read trap in
deterministic mode. -/
def Obligations.SystemReads : Prop :=
  (∀ (d : BitVec 7) (r : BitVec 16) (s : State) (h : Heat), s.ready h s.cur.lanes [] [] → s.privileged = false →
    (r = 0x10#16 ∨ r = 0x11#16 ∨ 0x1000#16 ≤ r) → exec (.srd d r) s = .next (s.raise 3 0)) ∧
  (∀ (d : BitVec 7) (s : State) (h : Heat), s.ready h s.cur.lanes [(d.toNat, 1)] [] →
    ∃ t h', Issued (.srd d 0#16) s t h' ∧ OnlyIssuer s t ∧ Retired s h h' s.onward ∧
      (∀ r l, l < 32 → h'.v r l = if r = d.toNat ∧ inMask s.cur.lanes l then BitVec.ofNat 32 l else h.v r l) ∧
      SameK h h' ∧ SameS h h' ∧ SameA h h') ∧
  (∀ (d : BitVec 7) (r : BitVec 16) (s : State) (h : Heat), (r = 0x30#16 ∨ r = 0x31#16 ∨ r = 0x32#16) →
    s.ready h s.cur.lanes [(d.toNat, 2)] [] →
    ∃ t h', Issued (.srd d r) s t h' ∧ OnlyIssuer s t ∧ Retired s h h' s.onward ∧
      (∀ l, l < 32 → h'.pair d.toNat l =
        if inMask s.cur.lanes l then laneValue s h r.toNat l else h.pair d.toNat l) ∧
      (∀ n l, l < 32 → n ≠ d.toNat → n ≠ d.toNat + 1 → h'.v n l = h.v n l) ∧ SameK h h' ∧ SameS h h' ∧ SameA h h') ∧
  (∀ (d : BitVec 7) (r : BitVec 16) (s : State) (h : Heat) (u : Nat) (x : Team) (v : W64),
    s.ready h s.cur.lanes [] (single [d.toNat]) → s.curTeam = some u → s.team? u = some x →
    teamReg s h x r.toNat = some v →
    ∃ t h', Issued (.srd d r) s t h' ∧ OnlyIssuer s t ∧ Retired s h h' s.onward ∧
      (∀ n, h'.sr n = if n = d.toNat then v else h.sr n) ∧ SameV h h' ∧ SameK h h' ∧ SameA h h') ∧
  (∀ (d : BitVec 7) (s : State) (h : Heat) (u : Nat) (x : Team), s.ready h s.cur.lanes [] (single [d.toNat]) →
    s.curTeam = some u → s.team? u = some x → x.replaying = false → Unchecked s →
    if s.curDet then exec (.srd d 0x60#16) s = .next (s.raise 0x31 1)
    else ∃ t h', Issued (.srd d 0x60#16) s t h' ∧ t.device = s.device ∧ Retired s h h' s.onward ∧
      (∀ n, h'.sr n = if n = d.toNat then s.gtc else h.sr n) ∧ SameV h h' ∧ SameK h h' ∧ SameA h h') ∧
  ∀ (d : BitVec 7) (r : BitVec 16) (s : State) (h : Heat) (c : Nat) (rec_ : TrapRec) (v : W64),
    s.ready h s.cur.lanes [] (single [d.toNat]) → s.cur.who = .trap c → s.cur.core = c →
    (s.core c).frozen = some rec_ → rec_.cls ≠ 0x40 →
    (faultReg (s.core c) rec_ r.toNat = some v ∨ (r = 0x10#16 ∧ v = BitVec.ofNat 64 c) ∨
      (r = 0x11#16 ∧ v = BitVec.ofNat 64 (c / 64))) →
    ∃ t h', Issued (.srd d r) s t h' ∧ OnlyIssuer s t ∧ Retired s h h' s.onward ∧
      (∀ n, h'.sr n = if n = d.toNat then v else h.sr n) ∧ SameV h h' ∧ SameK h h' ∧ SameA h h'

/-- R31, R32, R38, R42, R142, R375, R463, R471–R474: outside the trap heat every privileged word raises the privilege
trap; an integer vector word that names a register at or above the budget raises the budget trap, one that names
a pending register holds, and one that names a row with an uncorrectable error raises class 0x23; a floating-point
word with a wrong result raises the shadow-divergence trap before it writes, or writes it when its shadow agrees
(that an error is the turn `upset`: log entry 23). A fault freezes
the core: the record keeps its class, its information, the position, the word, the lanes and the lap, the team no
longer issues, and no register, position or byte of memory changes; in the cycle of the freeze the fault first in
the order of R472 is the one reported, and an asynchronous fault on a core that is frozen waits in its queue; a fault
of the trap heat leaves the core frozen. -/
def Obligations.FaultEntry : Prop :=
  (∀ (i : Instr) (s : State) (h : Heat), privilegedWord i = true → s.ready h s.cur.lanes [] [] →
    s.privileged = false → exec i s = .next (s.raise 3 0)) ∧
  (∀ (i : Instr) (f : VecForm) (s : State) (h : Heat) (r n : Nat), intForm i = some f → s.curHeat? = some h →
    (r, n) ∈ f.uses → 0 < n → h.budget < r + n →
    ∃ v, h.budget ≤ v ∧ exec i s = .next (s.raise 4 (v % 128))) ∧
  (∀ (i : Instr) (f : VecForm) (s : State) (h : Heat) (x : Slot) (cause : Nat), intForm i = some f →
    s.curHeat? = some h → overBudget h.budget f.uses = none →
    h.blocker s.cur.active [{ lanes := s.cur.lanes, vr := f.uses, sr := f.suses }] = some (x, cause) →
    exec i s = .next (s.hold { h with blamed := x.hdr, blamedIdx := x.idx } .none cause)) ∧
  (∀ (i : Instr) (f : VecForm) (s : State) (h : Heat), intForm i = some f → s.curHeat? = some h →
    overBudget h.budget f.uses = none →
    h.blocker s.cur.active [{ lanes := s.cur.lanes, vr := f.uses, sr := f.suses }] = none →
    (∃ r n k, (r, n) ∈ f.uses ∧ k ∈ h.badRows ∧ r ≤ k ∧ k < r + n) →
    exec i s = .next (s.raiseRec { s.curRecord 0x23 0 with isAsync := true })) ∧
  (∀ (i : Instr) (f : VecForm) (b : Fmt) (s : State) (h : Heat) (x : Flip), floatForm i = some f →
    shadowFmt i = some b → s.ready h s.cur.lanes f.uses f.suses → (s.core s.cur.core).flips = [x] → x.reason = 1 →
    x.part < 32 / b.width → x.index < 32 → inMask s.cur.lanes x.index = true → h.k f.pred x.index = true →
    let v := f.value h x.index
    let w := wrongResult b v x
    (shadowAgrees b (elemOf b v x.part) (elemOf b w x.part) = false →
      exec i s = .next ((s.putCore s.cur.core { s.core s.cur.core with flips := [] }).raise 0x22 1)) ∧
    (shadowAgrees b (elemOf b v x.part) (elemOf b w x.part) = true →
      ∃ t h', Issued i s t h' ∧ Retired s h h' s.onward ∧ (t.core s.cur.core).flips = [] ∧
        (∀ r l, l < 32 → h'.v r l = if r = f.dest ∧ l = x.index then w
          else if r = f.dest ∧ inMask s.cur.lanes l ∧ h.k f.pred l then f.value h l else h.v r l) ∧
        SameK h h' ∧ SameS h h' ∧ SameA h h')) ∧
  (∀ (s : State) (u g c cls info : Nat) (x : Team) (h : Heat), s.cur.who = .heat u g → s.cur.core = c → u < trapBase →
    s.team? u = some x → x.heat? g = some h → x.core? = some c → x.checks = none →
    let t := s.raise cls info
    ((s.core c).queue.length < 64 → t.mem = s.mem) ∧
    ((s.core c).frozen = none → ∃ r h', (t.core c).frozen = some r ∧ r.cls = cls ∧ r.info = BitVec.ofNat 64 info ∧
      r.asid = x.asid ∧ r.share = x.share ∧ r.heat = g ∧ r.isAsync = false ∧ r.hdr = s.cur.hdr ∧ r.idx = s.cur.idx ∧
      r.word = s.cur.word ∧ r.mask = s.cur.active ∧ r.live = h.live ∧ r.lap = x.lap ∧ r.stride = h.stride ∧
      r.gtc = s.gtc ∧ (t.core c).trapOn = false ∧ (t.core c).csel = 0#64 ∧ t.runs u = false ∧
      t.heat? u g = some h' ∧ SameRegs h h' ∧ h'.stride = h.stride ∧
      ∀ l, (h'.lane l).hdr = (h.lane l).hdr ∧ (h'.lane l).idx = (h.lane l).idx) ∧
    ∀ r0, (s.core c).frozen = some r0 →
      ((s.core c).freezing = true → if (s.curRecord cls info).order < r0.order then
          ∃ r, (t.core c).frozen = some r ∧ r.cls = cls ∧ r.hdr = s.cur.hdr ∧
            (r0.isAsync = false → (t.core c).queue = (s.core c).queue)
        else t = s) ∧
      ((s.core c).freezing = false → (s.core c).queue.length < 64 →
        ∃ r, (t.core c).queue = (s.core c).queue ++ [r] ∧ (t.core c).frozen = some r0 ∧ r.cls = cls ∧
          r.hdr = s.cur.hdr)) ∧
  ∀ (s : State) (c cls info : Nat), s.cur.who = .trap c →
    ((s.raise cls info).core c).stuck = true ∧ ((s.raise cls info).core c).trapOn = false ∧
      (s.raise cls info).mem = s.mem

/-- R57, R59, R60, R279, R464, R475, R476: each SWR of the trap heat writes its register: CVCNT of the active
lanes, a register of the core, a pool boundary unless a team is resident, the tensor table of the context, or a
register of the selected heat or sequencer. -/
def Obligations.SystemWrites : Prop :=
  (∀ (d : BitVec 7) (s : State) (h : Heat) (c : Nat), s.cur.who = .trap c →
    s.ready h s.cur.lanes [(d.toNat, 2)] [] →
    ∃ t h', Issued (.swr d 0x32#16) s t h' ∧ OnlyIssuer s t ∧ SameRegs h h' ∧
      Retired s h h' (fun l x => { x with cvcnt := h.pair d.toNat l }.goOn s.stamp)) ∧
  (∀ (i : Instr) (d : Nat) (f : Core → W64 → Core) (s : State) (h : Heat) (c : Nat), s.cur.who = .trap c →
    s.cur.core = c → s.ready h s.cur.lanes [] (single [d]) →
    (coreWrite i = some (d, f) ∨ (poolWrite i = some (d, f) ∧ s.coreBusy c = false)) →
    ∃ t h', Issued i s t h' ∧ t.device = s.device ∧ t.teams = s.teams ∧ Retired s h h' s.onward ∧ SameRegs h h' ∧
      (t.core c).still = (f (s.core c) (h.sr d)).still ∧ ∀ k, k ≠ c → t.core k = s.core k) ∧
  (∀ (i : Instr) (d : Nat) (f : Core → W64 → Core) (s : State) (h : Heat) (c : Nat), s.cur.who = .trap c →
    s.ready h s.cur.lanes [] (single [d]) → poolWrite i = some (d, f) → s.coreBusy c = true →
    exec i s = .next (s.raise 0x0D 0)) ∧
  (∀ (d : BitVec 6) (s : State) (h : Heat) (c : Nat) (x : Context), s.cur.who = .trap c → s.cur.core = c →
    s.ready h s.cur.lanes [] (single [d.toNat]) → s.ctx? s.curAsid = some x →
    (∃ t h', Issued (.swrTdbase d) s t h' ∧ SameRegs h h' ∧ (∀ k, (t.core k).descs = []) ∧
      let v := h.sr d.toNat &&& 0xFFFFFFFFFFFFFF00#64
      t.ctx? s.curAsid = some { x with tdbase := v } ∧ ∀ u, t.team? u = (s.team? u).map (fun y =>
        if y.asid = s.curAsid then { y with tdbase := v } else y)) ∧
    ∃ t h', Issued (.swrTdcnt d) s t h' ∧ SameRegs h h' ∧ (∀ k, (t.core k).descs = []) ∧
      let v := h.sr d.toNat &&& 0x1FFF#64
      t.ctx? s.curAsid = some { x with tdcnt := v } ∧ ∀ u, t.team? u = (s.team? u).map (fun y =>
        if y.asid = s.curAsid then { y with tdcnt := v } else y)) ∧
  (∀ (i : Instr) (d : Nat) (f : Heat → Nat → W64 → Heat) (s : State) (h g : Heat) (c u : Nat) (x : Team),
    s.cur.who = .trap c → s.cur.core = c → heatWrite s.stamp i = some (d, f) → s.ready h s.cur.lanes [] (single [d]) →
    let v := (s.core c).csel.toNat
    s.teamAt c (v % 256) = some u → u < trapBase → s.team? u = some x → x.heat? (v / 256 % 256) = some g → g.ended = false →
    ∃ t h', Issued i s t h' ∧ t.device = s.device ∧ SameRegs h h' ∧
      ∀ y k, t.heat? y k = if y = u ∧ k = v / 256 % 256 then some (f g (v / 65536 % 32) (h.sr d))
        else if y = trapBase + c then some h' else s.heat? y k) ∧
  (∀ (d : BitVec 6) (r : BitVec 4) (s : State) (h : Heat) (c u : Nat) (x : Team), s.cur.who = .trap c →
    s.cur.core = c → s.ready h s.cur.lanes [] (single [d.toNat]) → s.teamAt c ((s.core c).csel.toNat % 256) = some u →
    u < trapBase → (s.core c).csel.toNat / 256 % 256 = 255 → s.team? u = some x → x.heat? 255 = none →
    ∃ t h' y, Issued (.swrXm d r) s t h' ∧ SameRegs h h' ∧ t.team? u = some y ∧
      ∀ n, y.body.seq.mr n = if n = r.toNat then h.sr d.toNat else x.body.seq.mr n) ∧
  ∀ (d : BitVec 7) (r : BitVec 16) (s : State) (h : Heat), s.ready h s.cur.lanes [] [] → s.privileged = true →
    r ≠ 0x32#16 → r ≠ 0x1020#16 → r ≠ 0x1040#16 → exec (.swr d r) s = .next (s.raise 2 0)

/-- R280, R477: ERET, with no access of the trap heat outstanding and no fault queued, ends the freeze: the trap
heat stops, and each resident team takes its action, the faulting team's cluster that of the faulting share. -/
def Obligations.ReturnFromTrap : Prop :=
  ∀ (s : State) (h : Heat) (c : Nat) (r : TrapRec), s.cur.who = .trap c → s.cur.core = c →
    s.ready h s.cur.lanes [] [] → h.acks = [] → (s.core c).frozen = some r → (s.core c).queue = [] →
    (s.core c).removeAtEret = [] →
    ∃ t, exec .eret s = .next t ∧ (t.core c).frozen = none ∧ (t.core c).trapOn = false ∧ (t.core c).actions = [] ∧
      (∀ k, k ≠ c → t.core k = s.core k) ∧ (∀ a, readByte t.mem a = readByte s.mem a) ∧
      (∀ u x, s.team? u = some x → u ∉ s.residents c → (∀ v ∈ s.residents c, ∀ y, s.team? v = some y → u ∉ y.cluster) →
        t.team? u = some x) ∧
      ∀ u x, s.residents c = [u] → s.team? u = some x → x.cluster = [u] → x.share = r.share →
        let a := mget 0 (s.core c).actions r.share
        ∃ y, t.team? u = some y ∧ y.body = x.body ∧
          y.action = max x.action (if a = 0 ∧ r.share ≠ 255 ∧ (r.cls = 0x20 ∨ r.cls = 0x22 ∨ r.cls = 0x23) then 1 else a)

/-- R281, R495: TLBI drops every cached translation and table entry it names and goes on once no access uses one. R282, R465:
HALT of a context freezes its teams on the core at the next return, with action 1 stops its other cores too, and
with action 2 removes it; reserved bits raise the illegal-instruction trap. -/
def Obligations.TlbiAndHalt : Prop :=
  (∀ (i : Instr) (sr : List Nat) (asid va : Option Nat) (s : State) (h : Heat) (c : Nat), s.cur.who = .trap c →
    tlbiForm h i = some (sr, asid, va) → s.ready h s.cur.lanes [] (single sr) →
    (s.invalidate { asid := asid, va := va }).outstanding { asid := asid, va := va } = false →
    (s.invalidate { asid := asid, va := va }).deferredOpen { asid := asid, va := va } = false →
    (∀ g ∈ s.heads, ∀ x, mfind s.grids g = some x → x.waitAddr = 0) →
    ∃ t h', Issued i s t h' ∧ SameRegs h h' ∧ t.teams = s.teams ∧ t.mem = s.mem ∧
      t.tlb = s.tlb.filter (fun e => !named asid va e) ∧
      ∀ e ∈ t.tables, e ∈ s.tables ∧ ¬ ((∀ a, asid = some a → e.asid = a) ∧
        ∀ v, va = some v → e.tag = walkTag v e.level)) ∧
  ∀ (a : BitVec 6) (s : State) (h : Heat) (c : Nat), s.cur.who = .trap c → s.cur.core = c →
    s.ready h s.cur.lanes [] (single [a.toNat]) → let v := h.sr a.toNat
    let id := (v.extractLsb' 0 10).toNat
    (v.extractLsb' 10 6 ≠ 0#6 ∨ v.extractLsb' 18 46 ≠ 0#46 ∨ v.extractLsb' 16 2 = 3#2 →
      exec (.halt a) s = .next (s.raise 2 0)) ∧
    (v.extractLsb' 10 6 = 0#6 → v.extractLsb' 18 46 = 0#46 → (∃ e ∈ s.teams, e.2.asid = id) →
      (v.extractLsb' 16 2 = 0#2 → ∃ t, exec (.halt a) s = .next t ∧ (t.core c).frozen = (s.core c).frozen ∧
        ∀ u x, u ∈ s.residents c → s.team? u = some x → ∃ y, t.team? u = some y ∧ y.body = x.body ∧
          y.halted = (x.halted || decide (x.asid = id))) ∧
      (v.extractLsb' 16 2 = 1#2 → ∃ t, exec (.halt a) s = .next t ∧
        ∀ d, d < 128 → d ≠ c → (∃ e ∈ s.teams, e.2.asid = id ∧ e.2.core? = some d) → (s.core d).frozen = none →
          ∃ r, (t.core d).frozen = some r ∧ r.cls = 0x40 ∧ r.asid = id) ∧
      (v.extractLsb' 16 2 = 2#2 → ∃ t, exec (.halt a) s = .next t ∧
        (t.core c).removeAtEret = (s.core c).removeAtEret ++ [id] ∧
        ∀ e ∈ t.teams, e.2.asid = id → e.2.core? = some c))

/-- R283–R289: outside deterministic mode CLKRD and CNTRD read into s(D), inside they take the clock-read trap;
CALLH is a commit point that sends the taking lanes' words to the control node and parks the lanes; BRK completes
and then traps, or stops the team for an attached debugger; TMARK writes a trace record where its kind is
enabled. -/
def Obligations.ClocksAndCalls : Prop :=
  (∀ (i : Instr) (d : BitVec 6) (reason : Nat) (v : W64) (s : State) (h : Heat) (u : Nat) (x : Team),
    ((i = .clkrd d ∧ reason = 2 ∧ v = (s.core s.cur.core).cycles) ∨ (∃ n, i = .cntrd d n ∧ reason = 3 ∧
      v = s.counter n.toNat)) → s.ready h s.cur.lanes [] (single [d.toNat]) → s.curTeam = some u →
    s.team? u = some x → x.replaying = false → Unchecked s →
    if s.curDet then exec i s = .next (s.raise 0x31 reason)
    else ∃ t h', Issued i s t h' ∧ t.device = s.device ∧ Retired s h h' s.onward ∧
      (∀ n, h'.sr n = if n = d.toNat then v else h.sr n) ∧ SameV h h' ∧ SameK h h' ∧ SameA h h') ∧
  (∀ (d a b : BitVec 7) (p : BitVec 2) (s s1 : State) (h h1 : Heat) (u : Nat) (x : Team),
    s.ready h s.cur.lanes [(a.toNat, b.toNat), (d.toNat, 1)] [] → s.curTeam = some u →
    let m := h.taking s.cur.active p.toNat
    m ≠ 0#32 → h.loading m = false → s.unfinished s.curKey s.curHeatId h m .ack (fun _ _ => true) = false →
    Unchecked s1 → s.commitHeld u = false → s1 = s.flush u → s1.curHeat? = some h1 → s1.team? u = some x →
    ∃ (t : State) (h' : Heat) (tag : W32), exec (.callh d a b p) s = .next t.endLap ∧ t.curHeat? = some h' ∧
      SameRegs h1 h' ∧ Retired s1 h1 h' (fun _ y => { y with park := .callh d.toNat m tag }) ∧
      t.hostOut.length = s1.hostOut.length + (32 + 128 * b.toNat) / 4096 + 1 ∧
      (32 + 128 * b.toNat ≤ 4096 → t.hostOut = s1.hostOut ++ [{
        type := 8, flags := 2, tag := tag, payload := callRecord x h1 s.curHeatId m a.toNat b.toNat }])) ∧
  (∀ (n : BitVec 9) (s : State) (h : Heat) (u : Nat) (x : Team), s.ready h s.cur.lanes [] [] → s.curTeam = some u →
    u < trapBase → s.team? u = some x → x.checks = none → (s.core s.cur.core).frozen = none →
    s.attached s.curAsid = false →
    ∃ t r, exec (.brk n) s = .next t ∧ (t.core s.cur.core).frozen = some r ∧ r.cls = 0x30 ∧ r.info = BitVec.ofNat 64 n.toNat ∧
      r.stride = h.stride ∧ ∃ h', t.curHeat? = some h' ∧ h'.stride = h.stride + 1#64 ∧ SameRegs h h') ∧
  (∀ (n : BitVec 9) (s : State) (h : Heat) (u : Nat) (x : Team), s.ready h s.cur.lanes [] [] → s.curTeam = some u →
    s.team? u = some x → x.checks = none → x.cluster = [u] → s.attached s.curAsid = true →
    ∃ t y, exec (.brk n) s = .next t ∧ t.team? u = some y ∧ y.stopped = true ∧ (t.core s.cur.core).frozen = (s.core s.cur.core).frozen) ∧
  ∀ (a : BitVec 6) (n : BitVec 9) (s : State) (h : Heat), s.ready h s.cur.lanes [] (single [a.toNat]) →
    ∃ t h', Issued (.tmark a n) s t h' ∧ SameRegs h h' ∧ Retired s h h' s.onward ∧
      (bitAt s.traceKinds 1 = false → OnlyIssuer s t) ∧
      (bitAt s.traceKinds 1 = true → s.mute = false → (s.core s.cur.core).traceLost = 0 → (s.core s.cur.core).trace.length < 1024 →
        ∃ r, (t.core s.cur.core).trace = (s.core s.cur.core).trace ++ [r] ∧ r.kind = 1 ∧ r.code = n.toNat ∧
          r.a = h.sr a.toNat ∧ r.gtc = s.gtc ∧ r.src = s.cur.core)

/-- R463, R466–R469, R473, R474: the trap heat of a frozen core starts with 32 lanes at THENTRY and every
register zero, or, with THENTRY 0, the core stays frozen and the control node is told; the watchdog freezes the
core of an idle team with class 0x41; a dump writes its sections up to the first failing check, then its header. -/
def Obligations.FreezeEvents : Prop :=
  (∀ (c : Nat) (s : State) (r : TrapRec), (s.core c).frozen = some r → (s.core c).trapOn = false →
    (s.core c).stuck = false → (s.core c).freezing = false →
    (∀ u ∈ s.residents c, ∀ x, s.team? u = some x → x.enginesIdle = true) →
    let taken := fun (t : State) => ∀ u, t.team? u = (s.team? u).map (fun x =>
      if u ∈ s.residents c then { x with body := x.body.takePartials } else x)
    ((s.core c).thentry ≠ 0#64 → ∃ t h, exec (.evTrapHeatEntry c) s = .next t ∧ t.device = s.device ∧
      taken t ∧ OnlyCore s t c ∧ t.core c = { s.core c with trap := h, trapOn := true } ∧
      (∀ l, l < 32 → (h.lane l).live = true ∧ (h.lane l).hdr = 0#8 ++ (s.core c).thentry ∧ (h.lane l).idx = 0 ∧
        (h.lane l).park = .none) ∧
      (∀ n l, h.v n l = 0#32) ∧ (∀ n, h.sr n = 0#64) ∧ (∀ n, h.ar n = 0#72) ∧ ∀ n l, n ≠ 0 → h.k n l = false) ∧
    ((s.core c).thentry = 0#64 → ∃ t f, exec (.evTrapHeatEntry c) s = .next t ∧ taken t ∧
      t.core c = { s.core c with stuck := true } ∧ SameMem s t ∧ t.hostOut = s.hostOut ++ [f] ∧ f.type = 12)) ∧
  (∀ (u c : Nat) (s : State) (x : Team) (k : Context), u < trapBase → s.team? u = some x → x.core? = some c →
    s.ctx? x.asid = some k → k.wdog ≠ 0 → s.runs u = true → x.watched = true → x.checks = none →
    ∃ t r, exec (.evWatchdogFault u) s = .next t ∧ SameMem s t ∧ (t.core c).frozen = some r ∧ r.cls = 0x41 ∧
      r.asid = x.asid ∧ r.share = x.share ∧ r.isAsync = true ∧ r.lap = x.lap) ∧
  (∀ (c : Nat) (s : State) (d : Dump) (ps : List (Nat × Nat)) (bad : Option (Nat × Nat)),
    (s.core c).dump = some d → d.begun = false → s.dumpReady c d.fault.asid = true →
    (∀ x ∈ s.dumpTeams c d.fault.asid, x.dumpErrors d.sect = []) →
    let secs := s.dumpSections c d
    let bytes := secs.flatten
    s.dumpPieces d.fault.asid (d.base + 0x80) 0 (bytes.length / 65536 + 2) bytes.length = .done ps bad →
    ∃ t, exec (.evDumpBegin c) s = .next t ∧ OnlyCore s t c ∧ Stored s t (piecePairs ps bytes) ∧
      (t.core c).frozen = (s.core c).frozen ∧ (t.core c).dump = some { d with
        begun := true
        written := 0x80 + (match bad with
          | none => bytes.length
          | some e => e.1)
        second := match bad with
          | none => d.second
          | some e => some (0x10 + e.2, sectionAt secs e.1, d.base + 0x80 + e.1) }) ∧
  ∀ (c : Nat) (s : State) (d : Dump) (ps : List (Nat × Nat)) (bad : Option (Nat × Nat)),
    (s.core c).dump = some d → d.begun = true → s.dumpPieces d.fault.asid d.base 0 2 128 = .done ps bad →
    ∃ t, exec (.evDumpFinish c) s = .next t ∧ OnlyCore s t c ∧ (t.core c).dump = none ∧
      (bad = none → Stored s t (piecePairs ps (s.dumpHeader c d)) ∧
        (t.core c).dumps = if d.second.isSome then 2#64 else 0#64) ∧
      (bad ≠ none → SameMem s t ∧ (t.core c).dumps = 4#64)

/-- R61, R302, R404, R405, R491, R493, R494: a clause fetched ahead joins the loop buffers, 48 words at most; the
valid translation that a page walk gives is cached in its die's TLB and in the micro-TLBs of the cores that wait for
it, which all take this one result, and an invalid one is not; at the end of a cycle every scheduler charges exactly
one stall counter; GTC advances by one. -/
def Obligations.TimeEvents : Prop :=
  (∀ (u g : Nat) (s : State) (x : Team) (h : Heat) (m : Mask) (ws : List W32), g ≠ 255 → u < trapBase →
    s.team? u = some x → s.heat? u g = some h → h.choose = some m → let hdr := (h.lane (lowLane m)).hdr
    (∀ e ∈ h.loopBuf, e.1 ≠ hdr) → s.fetchClause (s.coreOfKey u / 64) x.asid (s.codeOf u) hdr = .ok ws →
    ∃ t h', exec (.evBroadcastFetch u g) s = .next t ∧ OnlyHeat s t u g ∧ t.heat? u g = some h' ∧
      { h' with loopBuf := h.loopBuf } = h ∧ (hdr, ws) ∈ h'.loopBuf ∧
      (∀ e ∈ h'.loopBuf, e = (hdr, ws) ∨ e ∈ h.loopBuf) ∧ (h'.loopBuf.map (fun e => e.2.length)).sum ≤ 48) ∧
  (∀ (u : Nat) (s : State) (x : Team) (ws : List W32), s.team? u = some x →
    (∀ e ∈ x.body.seq.loopBuf, e.1 ≠ x.body.seq.hdr) →
    s.fetchClause (x.core?.getD 0 / 64) x.asid (s.codeOf u) x.body.seq.hdr = .ok ws →
    ∃ t y, exec (.evBroadcastFetch u 255) s = .next t ∧ t.device = s.device ∧ t.cores = s.cores ∧ OnlyTeam s t u ∧
      t.team? u = some y ∧ y = { x with body := { x.body with seq := { x.body.seq with loopBuf := y.body.seq.loopBuf } } } ∧
      (x.body.seq.hdr, ws) ∈ y.body.seq.loopBuf) ∧
  (∀ (a base size leaf : Nat) (va : BitVec 72) (s : State), va.getLsbD 71 = false →
    let k := s.theWalk a va.toNat
    let homes := (128 + k.die) :: k.users.map (fun x => x.1)
    s.walkResult k va.toNat = .page base size leaf →
    ∃ t : State, exec (.evPageWalkComplete a va) s = .next t ∧
      t = { s with tlb := t.tlb, tables := t.tables, walks := t.walks, stamp := s.stamp + 1 } ∧
      t.walks = s.walks.map (fun w => if w = k then { w with result := some (.page base size leaf) } else w) ∧
      ∀ z, z ∈ t.tlb ↔ (∃ n ∈ homes, z = { home := n, asid := a, base := base, size := size, leaf := BitVec.ofNat 64 leaf }) ∨
        (z ∈ s.tlb ∧ ¬ (z.home ∈ homes ∧ z.asid = a ∧ z.base < base + size ∧ base < z.base + z.size))) ∧
  (∀ (a : Nat) (va : BitVec 72) (s : State), va.getLsbD 71 = false →
    s.walkResult (s.theWalk a va.toNat) va.toNat = .invalid →
    ∃ t : State, exec (.evPageWalkComplete a va) s = .next t ∧ t.tlb = s.tlb ∧ SameMem s t) ∧
  (∀ (c : Nat) (s : State), c < 128 →
    ∃ (t : State) (n : Nat → Nat), exec (.evArithmeticCycle c) s = .next t ∧ t.device = s.device ∧ OnlyCore s t c ∧
      (t.core c).cycles = (s.core c).cycles + 1#64 ∧ (t.core c).issued = [] ∧ (t.core c).frozen = (s.core c).frozen ∧
      (∀ k m, k < 4 → m < 16 → mget 0#64 (t.core c).stalls (16 * k + m) =
        mget 0#64 (s.core c).stalls (16 * k + m) + if m = n k then 1#64 else 0#64) ∧
      (∀ k, k < 4 → n k < 16 ∧ ((s.core c).frozen ≠ none → n k = 15) ∧
        ((s.core c).frozen = none → (s.core c).stuck = false → k ∈ (s.core c).readied → n k = 14) ∧
        ((s.core c).frozen = none → (s.core c).stuck = false → s.vfChanging = [] → k ∉ (s.core c).readied →
          (k ∈ (s.core c).issued → n k = 0) ∧
          (k ∉ (s.core c).issued → s.schedHeats c k = [] → n k = 1))) ∧
      ∀ u g h, u < trapBase → s.heat? u g = some h →
        ∃ h', t.heat? u g = some h' ∧ SameRegs h h' ∧ ∀ l, h'.lane l = h.lane l) ∧
  ∀ s : State, exec .evGtcTick s = .next { s with gtc := s.gtc + 1#64, stamp := s.stamp + 1 }

/-- R170, R171, R183, R203, R212, R306–R308, R338: a result whose parts have all come lands in its registers and
frees its slot, data with an error raising class 0x20; an acknowledgement is forgotten; an ordered contribution is
applied when its index is next, else waits; a gathering closes with its threads ordered by target, then by old
HEATID; a sleep ends; a far sector is near again. -/
def Obligations.LandingEvents : Prop :=
  (∀ (u g i b n : Nat) (s : State) (h : Heat) (x : Slot), u < trapBase → s.heat? u g = some h →
    h.slots[i]? = some x → h.slots.find? (fun z => z.stamp == x.stamp) = some x → x.waiting = 0 →
    x.cancelled = false → x.dest = .vec b n → (∀ e ∈ x.vals, e.1 < 32) → mrising x.vals = true →
    s.landsLater u g x = false →
    (x.poison ≠ 0#32 → ∃ y c, s.team? u = some y ∧ y.checks = none ∧ y.core? = some c ∧ (s.core c).frozen = none) →
    ∃ t h', exec (.evLoadLands u g i) s = .next t ∧ t.heat? u g = some h' ∧ SameMem s t ∧
      h'.slots = h.slots.filter (fun z => z.stamp != x.stamp) ∧
      (∀ r l, l < 32 → h'.v r l =
        if b ≤ r ∧ r < b + n ∧ (mfind x.vals l).isSome ∧ inMask x.poison l = false
        then BitVec.ofNat 32 (mget 0 x.vals l / 2 ^ (32 * (r - b))) else h.v r l) ∧
      SameK h h' ∧ SameS h h' ∧ SameA h h' ∧
      (x.poison ≠ 0#32 → ∃ y c r, s.team? u = some y ∧ y.core? = some c ∧ (t.core c).frozen = some r ∧
        r.cls = 0x20 ∧ r.mask = x.poison ∧ r.heat = g ∧ r.isAsync = true)) ∧
  (∀ (u g i d : Nat) (v : Nat × Nat) (s : State) (h : Heat) (x : Slot), u < trapBase → s.heat? u g = some h →
    h.slots[i]? = some x → h.slots.find? (fun z => z.stamp == x.stamp) = some x → x.waiting = 0 →
    x.cancelled = false → x.dest = .scalar d → x.vals = [v] → x.poison = 0#32 → s.landsLater u g x = false →
    ∃ t h', exec (.evLoadLands u g i) s = .next t ∧ t.heat? u g = some h' ∧ SameMem s t ∧
      h'.slots = h.slots.filter (fun z => z.stamp != x.stamp) ∧
      (∀ r, h'.sr r = if r = d then BitVec.ofNat 64 v.2 else h.sr r) ∧ SameV h h' ∧ SameK h h' ∧ SameA h h') ∧
  (∀ (u g i : Nat) (s : State) (h : Heat) (a : Ack), u < trapBase → s.heat? u g = some h → h.acks[i]? = some a →
    a.waiting = 0 → a.fault = none → a.frames = [] → ∃ t, exec (.evStoreAcknowledged u g i) s = .next t ∧ t.device = s.device ∧ t.cores = s.cores ∧
      OnlyTeam s t u ∧ (∀ k, k ≠ g → t.heat? u k = s.heat? u k) ∧
      t.heat? u g = some { h with acks := h.acks.filter (fun z => z.stamp != a.stamp) }) ∧
  (∀ (i : Nat) (s : State) (m : OrdMsg) (r : OrdRec), s.ordMsgs[i]? = some m → m.refused = false →
    s.ownedRange m.pa 4 = false → (m.team < trapBase → (s.team? m.team).isSome) → mfind s.ordRecs m.pa = some r →
    (m.index = r.e → s.bytesBad m.pa 4 = false → (∀ w ∈ r.waiting, r.e + 1 < w.index) →
      ∃ t, exec (.evRedstOrdArrival i) s = .next t ∧ t.ordMsgs = s.ordMsgs.eraseIdx i ∧
        Stored s t (pairsAt m.pa (toBytes 4 (addF32 (BitVec.ofNat 32 (readNat s.mem m.pa 4)) m.value).toNat)) ∧
        mfind t.ordRecs m.pa = some { r with e := r.e + 1 }) ∧
    (r.e < m.index → (∀ z ∈ s.ordRecs, z.2.waiting = []) →
      ∃ t, exec (.evRedstOrdArrival i) s = .next t ∧ t.ordMsgs = s.ordMsgs.eraseIdx i ∧ SameMem s t ∧
        mfind t.ordRecs m.pa = some { r with waiting := r.waiting ++ [m] })) ∧
  (∀ (i : Nat) (s : State) (m : OrdMsg), s.ordMsgs[i]? = some m → m.refused = true →
    exec (.evRedstOrdResend i) s =
      .next { s with ordMsgs := s.ordMsgs.set i { m with refused := false }, stamp := s.stamp + 1 }) ∧
  (∀ (k : Nat) (s : State) (e : PredEntry), mfind s.predictor k = some e → e.far = true →
    e.transfers.headD 0 + 1024 ≤ s.dieClock (homeDieOf (1024 * k)) →
    exec (.evPredictorNearReturn k) s =
      .next { s with predictor := mput s.predictor k { e with far := false }, stamp := s.stamp + 1 }) ∧
  (∀ (u g c n : Nat) (s : State) (x : Team) (h : Heat), u < trapBase → s.team? u = some x → x.core? = some c →
    s.heat? u g = some h → h.sleepUntil = some n → n ≤ (s.core c).cycles.toNat →
    ∃ t, exec (.evSleepExpiry u g) s = .next t ∧ OnlyHeat s t u g ∧ t.heat? u g = some { h with sleepUntil := none }) ∧
  ∀ (u role b : Nat) (s : State) (x : Team), u < trapBase → s.team? u = some x → mrising x.body.heats = true →
    let hs := x.body.heats.filter (fun e => e.2.role == role)
    let g := hs.filter (fun e => e.2.packed)
    g ≠ [] → (∀ e ∈ hs, e.2.packReady = true) → (∀ e ∈ g, e.2.slots = [] ∧ e.2.budget = b) →
    ∃ t, exec (.evGatheringClose u role) s = .next t ∧ t.device = s.device ∧
      (∀ v k, (v ≠ u ∨ ∀ e ∈ g, e.1 ≠ k) → t.heat? v k = s.heat? v k) ∧
      (∀ e ∈ g, ∃ h', t.heat? u e.1 = some h' ∧ h'.stride = e.2.stride + BitVec.ofNat 64 e.2.packIssues) ∧
      ∀ l, l < 32 → ∃ σ : List Nat, σ.Perm (List.range g.length) ∧
        σ.Pairwise (fun i j => seatKey (g.getD i (0, {})).2 l < seatKey (g.getD j (0, {})).2 l ∨
          (seatKey (g.getD i (0, {})).2 l = seatKey (g.getD j (0, {})).2 l ∧ i < j)) ∧
        ∀ j, j < g.length → ∃ h', t.heat? u (g.getD j (0, {})).1 = some h' ∧
          seatOf h' b l = movedSeat s u (g.getD (σ.getD j 0) (0, {})) b l

/-- R191–R197, R328–R330, R352: the copy and gather engines of a core take commands in rotation by HEATID; a command
reads the parts of its source one at a time, writes a line of a scratchpad or a sector of memory at once and owns it
no longer, completes when its parts are answered and pushes its completion word; a gather pushes the elements of its
lanes; a restored line comes back in ascending order. -/
def Obligations.EngineEvents : Prop :=
  (∀ (c g u : Nat) (s : State) (h : Heat) (e : QEntry) (l : List QEntry),
    NextInTurn (s.engineHeats c (fun h => !(h.queue 0).isEmpty)) (s.core c).copyLast (g, u) →
    (∀ z ∈ s.engineHeats c (fun h => !(h.queue 0).isEmpty), z.2 < 2 ^ 64) → (s.core c).copyLast.2 < 2 ^ 64 →
    u < trapBase → s.heat? u g = some h → h.queue 0 = e :: l →
    let w := (List.range 4).map (fun i => mget 0#64 e.vals i)
    ∃ t h' cmd, exec (.evCopyEngineAccept c) s = .next t ∧ SameMem s t ∧ t.engines = s.engines ++ [cmd] ∧
      cmd.id = e.id ∧ cmd.core = c ∧ cmd.team = u ∧ cmd.heat = g ∧ cmd.buf = none ∧
      cmd.opc = ((w.getD 3 0#64).extractLsb' 16 4).toNat ∧ cmd.queue = ((w.getD 3 0#64).extractLsb' 20 4).toNat ∧
      cmd.tag = ((w.getD 3 0#64).extractLsb' 0 16).toNat ∧ cmd.src = (s.copyRec u g e.id).src ∧
      cmd.dst = (s.copyRec u g e.id).dst ∧ (t.core c).copyLast = (g, u) ∧ t.heat? u g = some h' ∧
      h'.queue 0 = (h.queue 0).filter (fun z => z.id != e.id) ∧ SameRegs h h') ∧
  (∀ (u line : Nat) (rest : List Nat) (s : State) (x : Team), s.team? u = some x → x.restoring = line :: rest →
    ∃ t y, exec (.evScratchpadLineWritten u line) s = .next t ∧ t.team? u = some y ∧ SameMem s t ∧
      y.restoring = rest ∧ y.body.spad = x.body.spad) ∧
  (∀ (u line p off n : Nat) (s : State) (x : Team) (cmd : EngCmd) (b : List Byte), s.team? u = some x →
    line ∉ x.restoring → s.engines.find? (fun z => z.opc != 6 && z.lines.contains (u, line)) = some cmd →
    cmd.buf = some b → cmd.todo = [] → cmd.skips = [] → cmd.bads = [] → cmd.dst = [(p, .spad u off n)] →
    p + n ≤ b.length → s.lineWriter cmd.id (u, line) = false →
    ∃ t y, exec (.evScratchpadLineWritten u line) s = .next t ∧ t.team? u = some y ∧ SameMem s t ∧
      (∀ a, readByte y.body.spad a =
        if off ≤ a ∧ a < off + n ∧ a / 128 = line then b.getD (p + (a - off)) 0#8 else readByte x.body.spad a) ∧
      mget 0 y.absent line = mget 0 x.absent line - 1 ∧
      t.engines = s.engines.map (fun z => if z.id = cmd.id then { cmd with lines := cmd.lines.erase (u, line) } else z)) ∧
  (∀ (i : Instr) (cmd : EngCmd) (s : State), EngineTurn i s cmd → cmd.buf = none →
    (∀ (pos : Nat) (q : Piece) (l : List (Nat × Piece)), cmd.todo = (pos, q) :: l → s.pieceWaits cmd q = false →
      ∃ t : State, exec i s = .next t ∧ SameMem s t ∧ t.engines = s.engines.map (fun z => if z.id = cmd.id then
        { cmd with todo := l, parts := mput cmd.parts pos (s.pieceBytes q), bads := cmd.bads ++ s.pieceBad pos q } else z)) ∧
    (cmd.todo = [] → cmd.waiting = 0 → let data := cmd.parts.flatMap (fun e => e.2)
      ∃ (t : State) (c' : EngCmd) (b : List Byte), exec i s = .next t ∧ SameMem s t ∧
        t.engines = s.engines.map (fun z => if z.id = cmd.id then c' else z) ∧ c'.buf = some b ∧
        b.length = data.length ∧ c'.dst = cmd.dst ∧ c'.lines = cmd.lines ∧ c'.owned = cmd.owned ∧
        ∀ n, n < b.length → b.getD n 0#8 =
          data.getD (if cmd.opc = 2 then n / 1024 * 1024 + n % 32 * 32 + n % 1024 / 32 else n) 0#8)) ∧
  (∀ (i : Instr) (k : Nat) (s : State) (cmd : EngCmd) (b : List Byte), EngineTurn i s cmd → cmd.buf = some b →
    cmd.todo = [] → cmd.lines = [] → cmd.skips = [] → (∀ p ∈ cmd.dst, p.1 + p.2.len ≤ b.length) →
    cmd.owned.find? (fun k => !s.sectorWaits cmd k) = some k →
    ∃ t : State, exec i s = .next t ∧ Stored s t ((copyWrites b cmd.dst).filter (fun w => w.1 / 1024 == k)) ∧
      t.engines = s.engines.map (fun z => if z.id = cmd.id then
        { cmd with owned := cmd.owned.filter (· != k) } else z)) ∧
  (∀ (i : Instr) (id status : Nat) (s : State) (cmd : EngCmd),
    ((i = .evCopyComplete id ∧ s.engines.find? (fun z => z.id == id && decide (z.opc < 4)) = some cmd ∧
        status = if cmd.bads ≠ [] then 1 else if cmd.refused = true ∨ cmd.skips ≠ [] then 2 else 0) ∨
      (i = .evScatterComplete id ∧ s.engines.find? (fun z => z.id == id && z.opc == 4) = some cmd ∧ status = 0 ∧
        cmd.tag = 0)) →
    cmd.written = true → MayReply s cmd →
    ∃ t : State, exec i s = .next t ∧ SameMem s t ∧ t.engines = s.engines.filter (fun z => z.id != cmd.id) ∧
      (cmd.queue ≠ 0 → ∃ e, Uniform e (replyWord status cmd.opc cmd.tag) ∧
        entriesOf t cmd.team cmd.heat cmd.queue = entriesOf s cmd.team cmd.heat cmd.queue ++ [e])) ∧
  (∀ (c g u : Nat) (s : State) (h : Heat) (es : List QEntry),
    NextInTurn (s.engineHeats c (fun h => !(headSeq h.gatherList).isEmpty)) (s.core c).gatherLast (g, u) →
    (∀ z ∈ s.engineHeats c (fun h => !(headSeq h.gatherList).isEmpty), z.2 < 2 ^ 64) →
    (s.core c).gatherLast.2 < 2 ^ 64 → u < trapBase → s.heat? u g = some h → es = headSeq h.gatherList → es ≠ [] →
    let w := mget 0#64 (es.headD {}).vals 0
    ∃ t h' cmd, exec (.evGatherEngineAccept c) s = .next t ∧ SameMem s t ∧ t.engines = s.engines ++ [cmd] ∧
      cmd.id = (es.getLastD {}).id ∧ cmd.team = u ∧ cmd.heat = g ∧
      cmd.opc = (if w.extractLsb' 0 4 = 1#4 then 4 else 5) ∧ cmd.queue = (w.extractLsb' 6 4).toNat ∧
      cmd.elem = (if w.extractLsb' 4 2 = 0#2 then 4 else if w.extractLsb' 4 2 = 1#2 then 8 else 16) ∧
      cmd.mask = (es.getD 1 {}).mask ∧ (t.core c).gatherLast = (g, u) ∧ t.heat? u g = some h' ∧
      h'.gatherList = h.gatherList.filter (fun z => !(es.map (fun e => e.id)).contains z.id) ∧ SameRegs h h') ∧
  ∀ (id : Nat) (s : State) (cmd : EngCmd) (b : List Byte),
    s.engines.find? (fun z => z.id == id && z.opc == 5) = some cmd → cmd.outs = [] → cmd.written = true →
    cmd.buf = some b → cmd.bads = [] → (cmd.elem = 4 ∨ cmd.elem = 8) → cmd.queue ≠ 0 → MayReply s cmd →
    ∃ t e, exec (.evGatherResult id) s = .next t ∧ SameMem s t ∧
      t.engines = s.engines.filter (fun z => z.id != cmd.id) ∧
      entriesOf t cmd.team cmd.heat cmd.queue = entriesOf s cmd.team cmd.heat cmd.queue ++ [e] ∧ e.mask = cmd.mask ∧
      ∀ i l, (lanesOf cmd.mask)[i]? = some l →
        mget 0#64 e.vals l = BitVec.ofNat 64 (ofBytes ((b.drop (cmd.elem * i)).take cmd.elem))

/-- R62, R211, R231, R234–R236, R313, R385, R389, R391–R401, R413, R414: a bin launches as a heat; the starter takes
a pending record, frees a grid whose counter is reached, places the next unit with fresh heats and starts its
units; a finished team leaves and its grid counts it; a resample keeps, ends and renumbers the members, or fails
and changes no thread (R420, R427). -/
def Obligations.StarterEvents : Prop :=
  (∀ (c i u g slot : Nat) (entry : Addr) (s : State), BinFits s c i u g slot entry →
    (((s.core c).bin i).threads.length = 32 → ∃ t, exec (.evBinHeatLaunch c i) s = .next t ∧ SameMem s t ∧
      BinLaunched s t c i u g slot entry) ∧
    (((s.core c).bin i).expires ≤ (s.core c).cycles.toNat → s.binDet ((s.core c).bin i) = false →
      ∃ t, exec (.evBinTimerExpiry c i) s = .next t ∧ SameMem s t ∧ BinLaunched s t c i u g slot entry)) ∧
  (∀ (u : Nat) (s : State) (x : Team) (h : Heat) (z : Slot) (p : PendLaunch) (l : List PendLaunch), u < trapBase →
    s.team? u = some x → x.launches = p :: l → s.heat? u p.heat = some h → h.slots = [z] → z.stamp = p.slot →
    z.waiting ≠ 0 → let r := parseRecord p.record
    (r.code ≠ 0 ∨ s.queueFull r.queue = false) →
    ∃ t y h' z', exec (.evLaunchRecordTake u) s = .next t ∧ SameMem s t ∧ t.team? u = some y ∧ y.launches = l ∧
      t.heat? u p.heat = some h' ∧ h'.slots = [z'] ∧ z'.waiting = z.waiting - 1 ∧ SameRegs h h' ∧
      (r.code ≠ 0 → mget 0 z'.vals p.lane = 0xFFFFFFFF ∧ t.grids = s.grids ∧ t.gridQueues = s.gridQueues) ∧
      (r.code = 0 → mget 0 z'.vals p.lane = s.nextGrid.toNat ∧ t.lastGrid = s.nextGrid ∧
        mget [] t.gridQueues r.queue = mget [] s.gridQueues r.queue ++ [s.nextGrid.toNat] ∧
        ∃ g, mfind t.grids s.nextGrid.toNat = some g ∧ g.record = r ∧ g.asid = x.asid ∧ g.tag = none)) ∧
  (∀ (q gid : Nat) (s : State) (g : Grid), HeadsReadable s → (mget [] s.gridQueues q).head? = some gid →
    mfind s.grids gid = some g → g.waitAddr ≠ 0 → (g.met = true ∨ CounterReached s g) →
    exec (.evGridDependenceSatisfied q) s =
      .next { s with grids := mput s.grids gid { g with waitAddr := 0 }, stamp := s.stamp + 1 }) ∧
  (∀ (s : State) (e : Nat × Nat) (l : List (Nat × Nat)), s.dispatchOrder = e :: l → ∀ z ∈ l, z.1 / 8 ≤ e.1 / 8) ∧
  (∀ (q gid : Nat) (s : State) (g : Grid) (l : List (Nat × Nat)) (fs : List Fit), HeadsReadable s →
    s.dispatchOrder = (q, gid) :: l → mfind s.grids gid = some g → s.hasPlaces g.asid g.record.n = true →
    s.chooseUnit g g.nextTeam [] (fun c => s.fit c g.record g.record.freshHeats) = some fs →
    (∀ f ∈ fs, s.poolBroken f.core = false) → s.lowestOut.findSome? s.recallUnit = none →
    s.sampleUnit g g.nextTeam = false →
    ∃ t, exec .evTeamPlacement s = .next t ∧ SameMem s t ∧ t.nextTeam = s.nextTeam + g.record.n ∧ t.lastQueue = q ∧
      mfind t.grids gid = some { g with nextTeam := g.nextTeam + g.record.n } ∧
      mget [] t.gridQueues q = (if g.record.teams ≤ g.nextTeam + g.record.n
        then (mget [] s.gridQueues q).filter (· != gid) else mget [] s.gridQueues q) ∧
      ∀ k, k < g.record.n → ∃ y, t.team? (s.nextTeam + k) = some y ∧ y.grid = gid ∧ y.asid = g.asid ∧
        y.teamId = g.nextTeam + k ∧ y.rank = k ∧ y.started = false ∧ y.size = g.record.granules * 65536 ∧
        y.res = .active (fs.getD k {}).core (fs.getD k {}).share (fs.getD k {}).seqSlot (fs.getD k {}).accBase ∧
        ∀ e ∈ g.record.layout, ∃ h, y.heat? e.1 = some h ∧ FreshHeat g.record e.2 h) ∧
  (∀ (u c : Nat) (s : State) (x : Team), s.team? u = some x → x.started = false → x.core? = some c → u ∈ x.cluster →
    ∃ t : State, exec (.evUnitStart u) s = .next t ∧ { t.device with contexts := [] } = { s.device with contexts := [] } ∧
      (x.cluster = [u] → ∀ k, s.ctx? x.asid = some k →
        t.ctx? x.asid = some { k with tdbase := x.tdbase, tdcnt := x.tdcnt }) ∧
      (∀ v y, v ∈ x.cluster → s.team? v = some y → t.team? v = some { y with started := true, lapBody := y.body } ∧
        ∀ k, y.core? = some k → (t.core k).descs = []) ∧
      (∀ v, v ∉ x.cluster → t.team? v = s.team? v)) ∧
  (∀ (u : Nat) (s : State) (x : Team) (g : Grid), s.runs u = true → s.team? u = some x → s.teamDone u x = true →
    x.cluster = [u] → x.deferred = [] → (∀ e ∈ x.body.seq.hmem, e.1 < 256) → x.checks = none → x.checker = none →
    mfind s.grids x.grid = some g →
    (g.finished.length + 1 < g.record.teams →
      ∃ t g', exec (.evTeamExit u) s = .next t ∧ SameMem s t ∧ t.team? u = none ∧
        (∀ b, b ∈ t.bindings ↔ b ∈ s.bindings ∧ b.owner ≠ u) ∧ mfind t.grids x.grid = some g' ∧
        g'.finished = g.finished ++ [x.teamId]) ∧
    (∀ pa, g.finished.length + 1 = g.record.teams → g.record.done ≠ 0 → g.status = 0 → s.doneAdd g = .at pa →
      ∃ t, exec (.evTeamExit u) s = .next t ∧ t.team? u = none ∧ mfind t.grids x.grid = none ∧
        Stored s t (pairsAt pa (toBytes 8 (readNat s.mem pa 8 + 1))) ∧
        ∀ tag, g.tag = some tag → SentLast t {
          type := 3, flags := 2, tag := tag, payload := toBytes 4 x.grid ++ toBytes 4 0 })) ∧
  (∀ (gid : Nat) (s : State) (g : Grid) (c : Context), mfind s.grids gid = some g → s.gathered gid g = true →
    s.ctx? g.asid = some c → c.logLen = 0 → let o := g.outcome (s.memberList g)
    (∀ m ∈ s.memberList g, m.issue.count = o.n) →
    o.n - (o.counts.filter (fun e => decide (e.2 ≠ 0))).length ≤ s.cloneRoom gid g →
    (g.gathering.map (fun r => (r.team, r.heat, r.lane))).Nodup →
    (∀ r ∈ g.gathering, r.team < trapBase ∧ r.lane < 32 ∧ (∀ n, r.u = some n → n < 2 ^ 53) ∧
      ∃ h, s.heat? r.team r.heat = some h ∧ (h.lane r.lane).live = true ∧ (h.lane r.lane).park = .rsmp) →
    (o.counts.map (fun e => e.2)).sum = o.n ∧
    ∃ (t : State) (g' : Grid), exec (.evResampleCompletion gid) s = .next t ∧ SameMem s t ∧
      mfind t.grids gid = some g' ∧ g'.round = g.round + 1#64 ∧ g'.gathering = [] ∧ g'.popSize = some o.n ∧
      ∀ i m k, o.counts[i]? = some (m, k) → ∃ h h', s.heat? m.issue.team m.issue.heat = some h ∧
        t.heat? m.issue.team m.issue.heat = some h' ∧ SameV h h' ∧
        (k = 0 → (h'.lane m.issue.lane).live = false) ∧
        (k ≠ 0 → (h'.lane m.issue.lane).live = true ∧ (h'.lane m.issue.lane).park = .none ∧
          (h'.lane m.issue.lane).hdr = ((h.lane m.issue.lane).goOn s.stamp).hdr ∧
          (h'.lane m.issue.lane).idx = ((h.lane m.issue.lane).goOn s.stamp).idx ∧
          (h'.lane m.issue.lane).lineage = newLineage m.lineage ((o.counts.take i).map (fun e => e.2)).sum ∧
          h'.k 6 m.issue.lane = o.zero ∧ h'.k 7 m.issue.lane = o.invalid)) ∧
  ∀ (gid reason : Nat) (s : State) (g : Grid), mfind s.grids gid = some g → s.gathered gid g = true →
    let o := g.outcome (s.memberList g)
    ((∃ m ∈ s.memberList g, m.issue.count ≠ o.n) ∧ reason = 4) ∨
      ((∀ m ∈ s.memberList g, m.issue.count = o.n) ∧ reason = 6 ∧
        s.cloneRoom gid g < o.n - (o.counts.filter (fun e => decide (e.2 ≠ 0))).length) →
    (g.gathering.map (fun r => (r.team, r.heat, r.lane))).Nodup →
    (∀ r ∈ g.gathering, r.team < trapBase ∧ r.lane < 32 ∧
      ∃ h, s.heat? r.team r.heat = some h ∧ (h.lane r.lane).park = .rsmp) →
    ∃ (t : State) (g' : Grid), exec (.evResampleCompletion gid) s = .next t ∧ SameMem s t ∧
      mfind t.grids gid = some g' ∧ g'.round = g.round ∧ g'.gathering = [] ∧
      ∀ r ∈ g.gathering, ∃ h h', s.heat? r.team r.heat = some h ∧ t.heat? r.team r.heat = some h' ∧ SameRegs h h' ∧
        h'.lane r.lane = { h.lane r.lane with park := .retryRsmp reason }

/-- R233, R285, R330, R386, R403, R406, R407, R411, R483, R484, R486: a unit parked for long, or out of turn, moves to
the shadow bank with its registers; its image reaches its save area; a saved unit returns with them, its scratchpad
lines and tiles awaiting restore; a team with action 1 goes back to its lap start, memory included, and leaves its
core; one with action 2 is removed and its grid ends with status 2. -/
def Obligations.SwapEvents : Prop :=
  (∀ (u c : Nat) (s : State) (x : Team), s.team? u = some x → x.cluster = [u] → x.core? = some c →
    s.unitMayLeave [] u = true → u < trapBase → x.checks = none →
    (x.longPark = true → ∃ t, exec (.evSwapThresholdExpiry u) s = .next t ∧ MovedOut s t c u) ∧
    (∀ q l, s.offTurn q = u :: l → ∃ t, exec (.evDetTimeSlice q) s = .next t ∧ MovedOut s t c u)) ∧
  (∀ (q : Nat) (s : State), s.offTurn q = [] → s.nextTurn q ≠ s.turnOf q →
    exec (.evDetTimeSlice q) s =
      .next { s with detTurn := mput s.detTurn q (s.nextTurn q), stamp := s.stamp + 1 }) ∧
  (∀ (c u : Nat) (s : State) (x : Team), (s.core c).shadowBusy = some u → s.team? u = some x →
    x.body.badSave = none → (∀ v ∈ s.residents c, ∀ y, s.team? v = some y → y.isOverdue = false) →
    ∃ t, exec (.evShadowWritebackDone c) s = .next t ∧ SameMem s t ∧ t.team? u = some { x with res := .saved } ∧
      OnlyTeam s t u ∧ OnlyCore s t c ∧ t.core c = { s.core c with shadowBusy := none }) ∧
  (∀ (u c : Nat) (s : State) (x : Team) (g : Grid) (f : Fit), s.team? u = some x → x.cluster = [u] → x.csize = 1 →
    x.res = .saved → x.exited = false → x.late = [] → x.restorable = true → x.avoid = none →
    mfind s.grids x.grid = some g → g.record.det = false → State.fitBack s s g.record x u c = some f →
    ∃ t y, exec (.evSwapIn u c) s = .next t ∧ SameMem s t ∧ t.team? u = some y ∧ (t.core f.core).shadowBusy = none ∧
      y.res = .active f.core f.share f.seqSlot f.accBase ∧ y.savedBins = [] ∧ y.restoring = x.lazyLines ∧
      y.restoringTiles = (if x.lazyLines = [] then [] else List.range x.accCount) ∧ y.body.spad = x.body.spad ∧ y.body.acc = x.body.acc ∧
      ∀ k h, x.heat? k = some h → ∃ h', y.heat? k = some h' ∧ SameRegs h h' ∧ h'.stride = h.stride) ∧
  (∀ (u c : Nat) (s : State) (x : Team), s.team? u = some x → x.cluster = [u] → x.core? = some c → x.action = 1 →
    x.replaying = false → s.lapQuiet u x = true → x.canRollBack = true → s.mayRelaunch u = true → x.checker = none →
    ∃ t y, exec (.evTeamRollback u) s = .next t ∧ Stored s t x.undo ∧ t.team? u = some y ∧ y.res = .shadow c ∧
      y.action = 0 ∧ y.replaying = true ∧ y.deferred = [] ∧ y.undo = [] ∧ y.log = x.log ∧ y.lap = x.lap ∧
      y.body.spad = x.lapBody.spad ∧ y.body.acc = x.lapBody.acc ∧ y.body.queues = x.lapBody.queues ∧
      ∀ k h, mfind x.lapBody.heats k = some h → ∃ h', y.heat? k = some h' ∧ SameRegs h h' ∧ h'.stride = h.stride ∧
        h'.gatherList = h.gatherList ∧ ∀ q, q ≠ 2 → h'.queue q = h.queue q) ∧
  ∀ (u : Nat) (s : State) (x : Team) (g : Grid), s.team? u = some x → x.cluster = [u] → x.action = 2 →
    x.replaying = false → s.lapQuiet u x = true → x.checks = none → x.checker = none → x.teamId ∉ g.finished →
    mfind s.grids x.grid = some g → g.finished.length + 1 < g.record.teams →
    ∃ t g', exec (.evTeamRollback u) s = .next t ∧ Stored s t x.undo ∧ t.team? u = none ∧
      (∀ b ∈ t.bindings, b.owner ≠ u) ∧ mfind t.grids x.grid = some g' ∧
      g'.finished = g.finished ++ [x.teamId] ∧ g'.status = if g.status = 0 then 2 else g.status

/-- R198, R256, R262, R264, R267–R273, R276, R407: the engine goes to the word that has been ready longest; a step
accumulates into its tile, or, where an operand is uncorrectable or a result disagrees with its shadow or residue,
freezes the core with class 0x23 or 0x22 and writes nothing; the last step's word leaves; a landing load fills its register or tile; zeroed tiles
are +0; a store or drain writes its next element, or its next row into q7; a tile is restored. -/
def Obligations.MatrixEvents : Prop :=
  (∀ (c r q u : Nat) (o : SeqOp) (s s1 : State), s1 = (s.residents c).foldl State.markReady s →
    (∀ v ∈ s.residents c, ∀ x, s.team? v = some x → ∀ p ∈ x.body.seq.ops, p.granted = false) →
    (r, q, u, o) ∈ s1.waitingMma c →
    (∀ e ∈ s1.waitingMma c, e = (r, q, u, o) ∨ r < e.1 ∨ (r = e.1 ∧ q < e.2.1)) →
    ∃ t y p, exec (.evEngineGrant c) s = .next t ∧ t.device = s.device ∧ t.cores = s.cores ∧ t.team? u = some y ∧
      p ∈ y.body.seq.ops ∧ p.stamp = o.stamp ∧ p.granted = true) ∧
  (∀ (u c ta tile bt bo steps step sigma : Nat) (f : MmaForm) (keep : Bool) (prof : BitVec 32) (desc : W64)
      (o : SeqOp) (s : State) (x : Team) (g : Grid), s.team? u = some x → x.core? = some c →
    s.gridOf x = some g → x.body.seq.nextMma = some o →
    o.kind = .mma f ta keep tile prof bt bo steps step desc sigma true → s.engineRuns u = true →
    s.mmaReady x.body.seq o = true → x.tilesReady o = true → s.stepBad x o = none → s.stepDiverges x o c = none →
    let a := (x.body.seq.aOperand ta steps step).1
    let av := operandVals x (mmaFmt f.afmt) f desc (fld desc.toNat 8 7) sigma (operandRows 64 (readBytes a 0 4096))
    let bv := operandVals x (mmaFmt f.bfmt) f desc (fld desc.toNat 16 7) sigma
      (operandRows f.colBytes (s.spadBytes bt (bo + step * f.bBytes) f.bBytes))
    ∃ t y p, exec (.evMmaStepStart u) s = .next t ∧ SameMem s t ∧ t.team? u = some y ∧
      mget {} y.body.acc tile = (mget {} x.body.acc tile).step prof
        { seed := g.record.seed, teamId := x.teamId, tile := tile } av bv f.k (s.stepFlips c) ∧
      (∀ n, n ≠ tile → mget {} y.body.acc n = mget {} x.body.acc n) ∧ y.body.seq.t = x.body.seq.t ∧
      y.body.seq.latch = (if steps = 1 ∧ keep = true then some (ta, a) else none) ∧
      p ∈ y.body.seq.ops ∧ p.stamp = o.stamp ∧
      p.kind = .mma f ta keep tile prof bt bo steps (step + 1) desc sigma (decide (step + 1 < steps))) ∧
  (∀ (u c info : Nat) (o : SeqOp) (s : State) (x : Team), u < trapBase → s.team? u = some x → x.core? = some c →
    x.checks = none → x.body.seq.nextMma = some o → o.granted = true → s.engineRuns u = true →
    s.mmaReady x.body.seq o = true → x.tilesReady o = true → (s.core c).frozen = none →
    (∀ code, s.stepBad x o = some code → ∃ t y r, exec (.evMmaStepStart u) s = .next t ∧ SameMem s t ∧
      t.team? u = some y ∧ y.body.acc = x.body.acc ∧ (t.core c).frozen = some r ∧ r.cls = 0x23 ∧
      r.info = BitVec.ofNat 64 code) ∧
    (s.stepBad x o = none → s.stepDiverges x o c = some info → ∃ t y r, exec (.evMmaStepStart u) s = .next t ∧
      SameMem s t ∧ t.team? u = some y ∧ y.body.acc = x.body.acc ∧ y.body.seq.t = x.body.seq.t ∧
      y.body.seq.latch = x.body.seq.latch ∧ (t.core c).frozen = some r ∧ r.cls = 0x22 ∧
      r.info = BitVec.ofNat 64 info)) ∧
  (∀ (u : Nat) (o : SeqOp) (s : State) (x : Team), s.team? u = some x →
    x.body.seq.ops.find? (fun p => p.kind.isMma) = some o → o.kind.allStarted = true →
    ∃ t y, exec (.evMmaComplete u) s = .next t ∧ SameMem s t ∧ t.team? u = some y ∧ y.body.acc = x.body.acc ∧
      y.body.seq.ops.map unready = (x.body.seq.ops.filter (fun p => p.stamp != o.stamp)).map unready) ∧
  (∀ (u k tile c : Nat) (o : SeqOp) (s : State) (x : Team), s.team? u = some x → x.core? = some c →
    x.op? k = some o → s.mayLand x o = true → x.loggedTile o = none → s.placesBad o.places = false →
    x.checks = none → x.checker = none →
    let d := s.placesBytes o.places
    (o.kind = .tileLoad tile 0 → d.length = 4096 → ∃ t y, exec (.evTileLoadLands u k) s = .next t ∧ SameMem s t ∧
      t.team? u = some y ∧ (∀ p ∈ y.body.seq.ops, p.stamp ≠ k) ∧ y.body.acc = x.body.acc ∧
      ∀ b, readByte y.body.seq.t b = if 4096 * tile ≤ b ∧ b < 4096 * tile + 4096 then d.getD (b - 4096 * tile) 0#8
        else readByte x.body.seq.t b) ∧
    (o.kind = .accLoad tile → ∃ t y, exec (.evTileLoadLands u k) s = .next t ∧ SameMem s t ∧
      t.team? u = some y ∧ (∀ p ∈ y.body.seq.ops, p.stamp ≠ k) ∧ y.body.seq.t = x.body.seq.t ∧
      (∀ n, n ≠ tile → mget {} y.body.acc n = mget {} x.body.acc n) ∧
      ∀ e, e < 4096 → mget 0#32 (mget ({} : AccTile) y.body.acc tile).elems e =
        BitVec.ofNat 32 (ofBytes ((d.drop (4 * e)).take 4)))) ∧
  (∀ (u k pa n leaf va : Nat) (o : SeqOp) (s : State) (x : Team), s.team? u = some x → x.op? k = some o →
    o.kind.writesOut = true → x.tilesReady o = true → x.badTile o = false → x.checks = none →
    placeAt o.places (drainSize o.kind * o.written) = some (.mem pa n leaf va) →
    s.rangeWaits pa (drainSize o.kind) = false → s.bytesBad pa (drainSize o.kind) = false →
    let g := mget 0#32 (mget ({} : AccTile) x.body.acc (o.kind.tiles.headD 0)).elems o.written
    ∃ t y, exec (.evAccumulatorWritePerforms u k) s = .next t ∧ t.team? u = some y ∧ y.body.acc = x.body.acc ∧
      Stored s t (pairsAt pa (drainValue o.kind g (readNat s.mem pa (drainSize o.kind)))) ∧
      ((∃ p ∈ y.body.seq.ops, p.stamp = k) ↔ o.written + 1 < 4096) ∧
      ∀ p ∈ y.body.seq.ops, p.stamp = k → p.written = o.written + 1) ∧
  (∀ (u k tile g row : Nat) (o : SeqOp) (s : State) (x : Team) (h : Heat), u < trapBase → s.team? u = some x →
    x.op? k = some o → o.kind = .drain tile g row → x.tilesReady o = true → x.core?.isSome = true →
    x.badTile o = false → x.heat? g = some h → h.ended = false → h.born ≤ o.stamp → (h.queue 7).length < Config.queueDepth →
    ∃ t h' e, exec (.evDrainRowPush u k) s = .next t ∧ SameMem s t ∧ t.heat? u g = some h' ∧ SameRegs h h' ∧
      h'.queue 7 = h.queue 7 ++ [e] ∧ e.mask = 0xFFFFFFFF#32 ∧
      ∀ l, l < 32 → mget 0#64 e.vals l =
        mget 0#32 (mget ({} : AccTile) x.body.acc tile).elems (64 * row + 2 * l + 1) ++
          mget 0#32 (mget ({} : AccTile) x.body.acc tile).elems (64 * row + 2 * l)) ∧
  (∀ (u k tile n : Nat) (o : SeqOp) (s : State) (x : Team), s.team? u = some x → x.op? k = some o →
    o.kind = .zacc tile n → x.tilesReady o = true →
    ∃ t y, exec (.evZaccComplete u k) s = .next t ∧ SameMem s t ∧ t.team? u = some y ∧
      (∀ i, mget {} y.body.acc i = if tile ≤ i ∧ i < tile + n then {} else mget {} x.body.acc i) ∧
      ∀ p ∈ y.body.seq.ops, p.stamp ≠ k) ∧
  ∀ (u n : Nat) (s : State) (x : Team), s.team? u = some x → n ∈ x.restoringTiles →
    exec (.evAccumulatorTileRestore u n) s = .next { s with
      teams := mput s.teams u { x with restoringTiles := x.restoringTiles.filter (· != n) }, stamp := s.stamp + 1 }

/-- R192, R243–R246, R437, R458–R460: the engine numbers a command and reads its source, part by part, and tells the
other members; a member's message is stored once, a stranger's is counted; messages not acknowledged go again; a
member that has not joined ends the collective with status 1; with every member's source this member gives its
verdict, and the last verdict decides it; under status 0 the destination takes the combined bytes, sector by sector,
then the result is pushed. The verdicts are the model's protocol (log entry 70). -/
def Obligations.CollectiveEvents : Prop :=
  (∀ (u g : Nat) (s : State) (h : Heat) (e : QEntry) (rest : List QEntry), u < trapBase → s.heat? u g = some h →
    h.queue 4 = e :: rest → (∀ z ∈ rest, z.id ≠ e.id) →
    let w := (List.range 4).map (fun i => mget 0#64 e.vals i)
    let n := ((w.getD 2 0#64).extractLsb' 48 8).toNat
    let k := mget 0 s.collNext n
    (∀ c ∈ s.colls, c.group ≠ n ∨ c.k ≠ k) →
    ∃ t h' c cmd, exec (.evCollAccept u g) s = .next t ∧ SameMem s t ∧ t.heat? u g = some h' ∧ h'.queue 4 = rest ∧
      SameRegs h h' ∧ mget 0 t.collNext n = k + 1 ∧ t.colls = s.colls ++ [c] ∧ c.group = n ∧ c.k = k ∧
      c.accepted = true ∧ c.words = w ∧ c.team = u ∧ c.heat = g ∧ c.id = e.id ∧ c.done = none ∧ c.parts = [] ∧
      c.verdicts = [] ∧ t.engines = s.engines ++ [cmd] ∧ cmd.id = e.id ∧ cmd.opc = 6 ∧ cmd.buf = none ∧
      cmd.src = (s.copyRec u g e.id).src ∧ cmd.dst = (s.copyRec u g e.id).dst) ∧
  (∀ (n k d : Nat) (words : List W64) (data : List Byte) (s : State), let g := mget {} s.groups n
    let named := fun m => g.valid = true ∧ m < g.m ∧ m ≠ g.self ∧ listedDevice s g m = d
    (s.fabricUp = false → exec (.evCollMessageReceipt n k d words data) s = .next s) ∧
    (s.fabricUp = true → (∀ m, ¬ named m) → exec (.evCollMessageReceipt n k d words data) s = .next { s with
      collErrors := mset 0#64 s.collErrors (n % 2) (mget 0#64 s.collErrors (n % 2) + 1#64), stamp := s.stamp + 1 }) ∧
    ∀ m, s.fabricUp = true → named m → (∀ j, named j → m ≤ j) →
    ((∀ c ∈ s.colls, c.group ≠ n ∨ c.k ≠ k) → mget 0 s.collNext n ≤ k →
      words.length ≠ 1 → ∃ t, exec (.evCollMessageReceipt n k d words data) s = .next t ∧ SameMem s t ∧
        t.colls = s.colls ++ [{ group := n, k := k, parts := [(m, words, data)] }]) ∧
    ∀ c, s.colls.find? (fun x => x.group == n && x.k == k) = some c → c.done = none →
      (words.length ≠ 1 → (∀ p ∈ c.parts, p.1 ≠ m) →
        ∃ t, exec (.evCollMessageReceipt n k d words data) s = .next t ∧ SameMem s t ∧
          CollChanges s t c { c with parts := c.parts ++ [(m, words, data)] }) ∧
      (words.length ≠ 1 → (∃ p ∈ c.parts, p.1 = m) → exec (.evCollMessageReceipt n k d words data) s = .next s) ∧
      ∀ v, words = [BitVec.ofNat 64 v] → v < 16 → (∀ x ∈ c.verdicts, x.1 ≠ m) →
        ∃ t c', exec (.evCollMessageReceipt n k d words data) s = .next t ∧ SameMem s t ∧ CollChanges s t c c' ∧
          Judged g c c' m v) ∧
  (∀ (n : Nat) (s : State), s.fabricUp = true → (∃ m ∈ s.collWait, m.group = n) →
    exec (.evCollResend n) s = .next { s with
      collOut := s.collOut ++ s.collWait.filter (fun m => m.group == n), stamp := s.stamp + 1 }) ∧
  (∀ (n : Nat) (s : State) (c : CollCmd), let g := mget {} s.groups n
    s.fabricUp = true → s.colls.find? (fun c => c.group == n && c.accepted && c.done.isNone &&
      !(othersOf g).all (fun m => c.verdicts.any (fun v => v.1 == m) || c.parts.any (fun p => p.1 == m))) = some c →
    ∃ t c' ms, exec (.evCollJoinTimeout n) s = .next t ∧ SameMem s t ∧ CollChanges s t c c' ∧ c'.done = some 1 ∧
      t.collOut = s.collOut ++ ms ∧ t.collWait = s.collWait ++ ms ∧ ToOthers s n c.k [1#64] [] ms) ∧
  (∀ (n : Nat) (s : State) (c : CollCmd) (cmd : EngCmd), let g := mget {} s.groups n
    FirstOf s n c → CollEngine s c cmd → c.done = none → (∀ v ∈ c.verdicts, v.1 ≠ g.self ∧ (v.2 = 0 ∨ v.2 = 15)) →
    ((∀ p ∈ c.parts, p.1 ≠ g.self) →
      (∀ (pos : Nat) (q : Piece) (l : List (Nat × Piece)), cmd.buf = none → cmd.todo = (pos, q) :: l →
        s.pieceWaits cmd q = false → s.collMigrates c cmd.src = false →
        (∃ ps bs, s.collRange (s.collWho c) false c.words s.bindings = .ok ps bs) →
        ∃ t, exec (.evCollComplete n) s = .next t ∧ SameMem s t ∧ t.engines = s.engines.map (fun z =>
          if z.id = cmd.id then { cmd with todo := l, parts := mput cmd.parts pos (s.pieceBytes q)
                                           bads := cmd.bads ++ s.pieceBad pos q } else z)) ∧
      ∀ b, cmd.buf = some b → cmd.bads = [] → s.fabricUp = true →
        ∃ t ms, exec (.evCollComplete n) s = .next t ∧ SameMem s t ∧
          CollChanges s t c { c with parts := (g.self, c.words, b) :: c.parts } ∧ t.collOut = s.collOut ++ ms ∧
          t.collWait = s.collWait ++ ms ∧ ToOthers s n c.k c.words b ms) ∧
    ((∃ p ∈ c.parts, p.1 = g.self) → g.m ≤ c.parts.length → s.fabricUp = true →
      ∀ v, (if ∀ p ∈ c.parts, collAgree c.words p.2.1 = true then
          v = 0 ∧ ∃ ps bs, s.collRange (s.collWho c) true c.words s.bindings = .ok ps bs else v = 2) →
        ∃ t c' ms, exec (.evCollComplete n) s = .next t ∧ SameMem s t ∧ CollChanges s t c c' ∧
          Judged g c c' g.self v ∧ t.collWait = s.collWait ++ ms ∧ ToOthers s n c.k [BitVec.ofNat 64 v] [] ms)) ∧
  (∀ (n k : Nat) (s : State) (c : CollCmd) (cmd : EngCmd), let g := mget {} s.groups n
    let w2 := c.words.getD 2 0#64
    FirstOf s n c → CollEngine s c cmd → 0 < g.m → c.done = some 0 → s.collMigrates c cmd.dst = false → cmd.skips = [] →
    cmd.owned.find? (fun k => !s.sectorWaits cmd k) = some k →
    ∃ t d, exec (.evCollComplete n) s = .next t ∧
      Combined (w2.extractLsb' 36 4).toNat (w2.extractLsb' 32 4).toNat (w2.extractLsb' 0 32).toNat
        ((c.words.getD 3 0#64).extractLsb' 32 10).toNat g.m g.self (partOf c) d ∧
      ((∀ p ∈ cmd.dst, p.1 + p.2.len ≤ d.length) →
        Stored s t ((copyWrites d cmd.dst).filter (fun w => w.1 / 1024 == k))) ∧
      t.engines = s.engines.map (fun z => if z.id = cmd.id then
        { cmd with todo := [], buf := some d, owned := cmd.owned.filter (· != k) } else z)) ∧
  ∀ (n st : Nat) (s : State) (c : CollCmd) (cmd : EngCmd), FirstOf s n c → CollEngine s c cmd → c.done = some st →
    (st ≠ 0 ∨ cmd.owned = []) → let q := ((c.words.getD 3 0#64).extractLsb' 16 4).toNat
    q ≠ 0 → MayReply s { cmd with id := c.id, heat := c.heat, queue := q } →
    ∃ t e, exec (.evCollComplete n) s = .next t ∧ SameMem s t ∧
      t.colls = s.colls.filter (fun x => !(x.group == c.group && x.k == c.k)) ∧
      t.engines = s.engines.filter (fun z => z.id != c.id) ∧
      Uniform e (BitVec.ofNat 64 (st * 2 ^ 20) ||| ((c.words.getD 3 0#64) &&& 0xFFFF#64)) ∧
      entriesOf t c.team c.heat q = entriesOf s c.team c.heat q ++ [e]

/-- R171, R178, R239, R361, R439, R442–R445, R473, R475: while a port is up an arriving read or write performs at once
on the pages its offsets name, page by page, or is refused; an arriving atomic executes once; an answer brings a
load's bytes, an acknowledgement or a part of an engine's command; reason 7 is sent again; a refusal or a timeout
raises the remote-access fault. While every port is down nothing arrives. -/
def Obligations.FabricEvents : Prop :=
  (∀ (src off n op id r : Nat) (w : Bool) (data : List Byte) (x y : W64) (s : State), s.fabricUp = false →
    exec (.evFabricAccessArrival src off n w data) s = .next s ∧ exec (.evUpliAtomicArrival src off op x y) s = .next s ∧
      exec (.evFabricResponse id r data) s = .next s) ∧
  (∀ (src off n r : Nat) (w : Bool) (data : List Byte) (s : State), s.fabricUp = true →
    s.arrival off n (if w then .write else .read) = .refuse r →
    ∃ t, exec (.evFabricAccessArrival src off n w data) s = .next t ∧ SameMem s t ∧
      t.fabricOut = s.fabricOut ++ [(src, off, r, [])]) ∧
  (∀ (src off n a : Nat) (data : List Byte) (s : State) (ps : List (Nat × Nat)), s.fabricUp = true →
    s.arrival off n .read = .ok ps a → (∀ p ∈ ps, s.rangeWaits p.1 p.2 = false ∧ s.bytesBad p.1 p.2 = false) →
    exec (.evFabricAccessArrival src off n false data) s = .next { s with
      fabricOut := s.fabricOut ++ [(src, off, 0, bytesAt s ps)], stamp := s.stamp + 1 }) ∧
  (∀ (src off n a : Nat) (data : List Byte) (s : State) (ps : List (Nat × Nat)), s.fabricUp = true →
    s.arrival off n .write = .ok ps a → data.length = n → (∀ p ∈ ps, s.rangeWaits p.1 p.2 = false) →
    ∃ t, exec (.evFabricAccessArrival src off n true data) s = .next t ∧ Stored s t (piecePairs ps data) ∧
      t.fabricOut = s.fabricOut ++ [(src, off, 0, [])]) ∧
  (∀ (off n : Nat) (k : Access) (s : State),
    ((∀ e ∈ s.exports, e.2.valid = false ∨ off < e.2.offbase ∨ e.2.offbase + e.2.len < off + n) →
      s.arrival off n k = .refuse 1) ∧
    ∀ (i : Nat) (e : ExpEntry),
      s.exports.find? (fun e => e.2.valid && decide (e.2.offbase ≤ off ∧ off + n ≤ e.2.offbase + e.2.len)) = some (i, e) →
      ((∀ c, s.ctx? e.asid = some c → c.removing = true) → s.arrival off n k = .refuse 5) ∧
      ∀ c (pages : List (Nat × Nat)), s.ctx? e.asid = some c → c.removing = false →
        PageCut (e.vabase + (off - e.offbase)) n pages →
        ((∀ p ∈ pages, pageRefusal s e.asid k p.1 = none) →
          s.arrival off n k = .ok (pages.map (fun p => (pagePlace s e.asid p.1, p.2))) e.asid) ∧
        ∀ l v m l' r, pages = l ++ (v, m) :: l' → (∀ p ∈ l, pageRefusal s e.asid k p.1 = none) →
          pageRefusal s e.asid k v = some r → s.arrival off n k = .refuse r) ∧
  (∀ (src off op asid : Nat) (ps : List (Nat × Nat)) (x y : W64) (s : State),
    let n := if 8 ≤ op ∧ op ≤ 10 then 8 else 4
    s.fabricUp = true → op < 12 → off % n = 0 → s.arrival off n .write = .ok ps asid →
    (∀ p ∈ ps, s.rangeWaits p.1 p.2 = false ∧ s.bytesBad p.1 p.2 = false) →
    ∃ t, exec (.evUpliAtomicArrival src off op x y) s = .next t ∧
      Stored s t (piecePairs ps (toBytes n (upli op x y (ofBytes (bytesAt s ps))))) ∧
      t.fabricOut = s.fabricOut ++ [(src, off, 0, toBytes n (ofBytes (bytesAt s ps)))]) ∧
  (∀ (id : Nat) (data : List Byte) (s : State) (q : FabReq) (x : Team) (h : Heat), s.fabricUp = true →
    s.fabSent id = some q → q.engine = false → q.team < trapBase → s.team? q.team = some x → x.checker = none →
    s.heat? q.team q.heat = some h →
    (q.isStore = false → q.lane < 32 → data.length = q.size →
      ∃ t h', exec (.evFabricResponse id 0 data) s = .next t ∧ SameMem s t ∧ t.heat? q.team q.heat = some h' ∧
        t.fabric = s.fabric.filter (fun z => z.id != id) ∧ SameRegs h h' ∧
        h'.slots = h.slots.map (fun z => if z.stamp = q.stamp then
          { z with waiting := z.waiting - 1, vals := mput z.vals q.lane (ofBytes data) } else z)) ∧
    (q.isStore = false → 32 ≤ q.lane → data.length = q.size →
      ∃ t h', exec (.evFabricResponse id 0 data) s = .next t ∧ SameMem s t ∧ t.heat? q.team q.heat = some h' ∧
        t.fabric = s.fabric.filter (fun z => z.id != id) ∧ SameRegs h h' ∧
        h'.slots = h.slots.map (fun z => if z.stamp = q.stamp then { z with
          waiting := z.waiting - 1
          vals := z.vals.map (fun e => (e.1,
            e.2 - e.2 / 256 ^ q.pos % 256 * 256 ^ q.pos + (data.getD e.1 0#8).toNat * 256 ^ q.pos)) } else z)) ∧
    (q.isStore = true →
      ∃ t h', exec (.evFabricResponse id 0 data) s = .next t ∧ SameMem s t ∧ t.heat? q.team q.heat = some h' ∧
        t.fabric = s.fabric.filter (fun z => z.id != id) ∧ SameRegs h h' ∧
        h'.acks = h.acks.map (fun a => if a.stamp = q.stamp then { a with waiting := a.waiting - 1 } else a))) ∧
  (∀ (id : Nat) (data : List Byte) (s : State) (q : FabReq), s.fabricUp = true → s.fabSent id = some q →
    q.engine = true → (q.isStore = true ∨ data.length = q.size) →
    exec (.evFabricResponse id 0 data) s = .next { s with
      fabric := s.fabric.filter (fun z => z.id != id)
      engines := s.engines.map (fun c => if c.id = q.stamp then
        (if q.isStore = true then { c with waiting := c.waiting - 1 }
          else { c with waiting := c.waiting - 1, parts := mput c.parts q.pos data }) else c)
      stamp := s.stamp + 1 }) ∧
  (∀ (id : Nat) (data : List Byte) (s : State) (q : FabReq), s.fabricUp = true → s.fabSent id = some q →
    exec (.evFabricResponse id 7 data) s = .next { s with
      fabric := s.fabric.map (fun r => if r.id = id then { r with retry := true } else r), stamp := s.stamp + 1 }) ∧
  (∀ (id : Nat) (s : State) (q : FabReq), s.fabricUp = true → q ∈ s.fabric → q.id = id → q.retry = true →
    (q.engine = true ∨ ∃ x, s.team? q.team = some x ∧ (x.res ≠ .saved ∨ q.isStore = true)) →
    exec (.evFabricRetryLaterResend id) s = .next { s with
      fabric := s.fabric.map (fun r => if r.id = id then { r with retry := false } else r), stamp := s.stamp + 1 }) ∧
  (∀ (i : Instr) (id reason c : Nat) (data : List Byte) (s : State) (q : FabReq) (x : Team),
    ((i = .evFabricResponse id reason data ∧ 1 ≤ reason ∧ reason ≤ 6 ∧ s.fabricUp = true) ∨
      (i = .evFabricAccessTimeout id ∧ reason = 8)) →
    s.fabSent id = some q → q.engine = false → q.team < trapBase → s.team? q.team = some x → x.checker = none →
    x.checks = none → x.core? = some c → (s.core c).frozen = none →
    ∃ t r, exec i s = .next t ∧ SameMem s t ∧ t.fabric = s.fabric.filter (fun z => z.id != id) ∧
      (t.core c).frozen = some r ∧ r.cls = 0x21 ∧ r.info = BitVec.ofNat 64 (reason + 256 * q.dev) ∧
      r.addr = BitVec.ofNat 72 (2 ^ 71 + q.dev * 2 ^ 61 + q.offset) ∧ r.hdr = q.hdr ∧ r.idx = q.idx ∧ r.word = q.word ∧
      r.heat = q.heat ∧ r.mask = q.mask ∧ r.stride = q.stride ∧ r.asid = x.asid ∧ r.share = x.share) ∧
  ∀ (i : Instr) (id reason : Nat) (data : List Byte) (s : State) (q : FabReq),
    ((i = .evFabricResponse id reason data ∧ 1 ≤ reason ∧ reason ≤ 6 ∧ s.fabricUp = true) ∨
      (i = .evFabricAccessTimeout id ∧ reason = 8)) →
    s.fabSent id = some q → q.engine = true →
    exec i s = .next { s with
      fabric := s.fabric.filter (fun z => z.id != id)
      engines := s.engines.map (fun c => if c.id = q.stamp then
        (if q.isStore = true then { c with waiting := c.waiting - 1, refused := true }
          else { c with waiting := c.waiting - 1, parts := mput c.parts q.pos (List.replicate q.size 0#8)
                        skips := c.skips ++ [(q.pos, q.size)] }) else c)
      stamp := s.stamp + 1 }

/-- R238, R240, R446–R457: the owner executes the request whose serial is next, once, and answers; a repeat gets the
kept answer and changes nothing; acknowledged results go; a close ends the stream; the requester completes its
oldest operation with the answer, IN_DOUBT or TIMEOUT, sends again what has no answer, and a restarted relay loses
what it held. -/
def Obligations.RelayEvents : Prop :=
  (∀ (p : Packet) (s : State) (r : OwnerRec), s.fabricUp = true → PacketOk 1 p → p.oinc = s.incarnation →
    mfind s.owners (1024 * p.srcdev + p.asid) = some r → p.srcinc = r.srcinc → p.cgen = r.cgen → p.ackthr = r.a →
    (∀ ps a, s.arrival p.offset (if p.op = 7 then 128 else remoteSize p.op) (if p.op = 7 then .read else .write) =
      .ok ps a → ∀ e ∈ ps, s.rangeWaits e.1 e.2 = false) →
    (before r.a p.serial = true → p.serial = r.e → r.held = [] → s.cacheCount < 4194304 →
      (∀ ps a, let n := remoteSize p.op
        let old := ofBytes (bytesAt s ps)
        p.op ≠ 7 → s.arrival p.offset n .write = .ok ps a → (∀ e ∈ ps, s.bytesBad e.1 e.2 = false) →
        let v := if p.op ≤ 3 then BitVec.ofNat 64 old else 0#64
        ∃ t, exec (.evRelayRequestReceipt (packetOf p)) s = .next t ∧
          Stored s t (piecePairs ps (toBytes n (remote p.op p.x p.y old))) ∧
          mfind t.owners (1024 * p.srcdev + p.asid) =
            some { r with e := p.serial + 1#32, cache := r.cache ++ [(p.serial, 0, 0, v)] } ∧
          SentPacket s t p.srcdev (Answers s p 0 0 v)) ∧
      (∀ ps a, let rc := parseRecord (bytesAt s ps)
        p.op = 7 → s.arrival p.offset 128 .read = .ok ps a → (∀ e ∈ ps, s.bytesBad e.1 e.2 = false) →
        (rc.code ≠ 0 → ∃ t, exec (.evRelayRequestReceipt (packetOf p)) s = .next t ∧ SameMem s t ∧
          t.grids = s.grids ∧ SentPacket s t p.srcdev (Answers s p 0 0 0xFFFFFFFF#64)) ∧
        (rc.code = 0 → (mget [] s.gridQueues rc.queue).length < Config.gridQueueDepth →
          ∃ t g, exec (.evRelayRequestReceipt (packetOf p)) s = .next t ∧ SameMem s t ∧
            mfind t.grids t.lastGrid.toNat = some g ∧ g.record = rc ∧ g.asid = a ∧
            mget [] t.gridQueues rc.queue = mget [] s.gridQueues rc.queue ++ [t.lastGrid.toNat] ∧
            SentPacket s t p.srcdev (Answers s p 0 0 (t.lastGrid.setWidth 64)))) ∧
      ∀ reason, s.arrival p.offset (if p.op = 7 then 128 else remoteSize p.op) (if p.op = 7 then .read else .write) =
          .refuse reason →
        (reason ≠ 7 → ∃ t, exec (.evRelayRequestReceipt (packetOf p)) s = .next t ∧ SameMem s t ∧
          mfind t.owners (1024 * p.srcdev + p.asid) =
            some { r with e := p.serial + 1#32, cache := r.cache ++ [(p.serial, 3, reason, 0#64)] } ∧
          SentPacket s t p.srcdev (Answers s p 3 reason 0#64)) ∧
        (reason = 7 → ∃ t, exec (.evRelayRequestReceipt (packetOf p)) s = .next t ∧ SameMem s t ∧
          mfind t.owners (1024 * p.srcdev + p.asid) = some r ∧ SentPacket s t p.srcdev (Answers s p 4 7 0#64))) ∧
    (∀ c, before r.a p.serial = true → before p.serial r.e = true →
      r.cache.find? (fun c => c.1 == p.serial) = some c →
      ∃ t, exec (.evRelayRequestReceipt (packetOf p)) s = .next t ∧ t.mem = s.mem ∧
        mfind t.owners (1024 * p.srcdev + p.asid) = some r ∧
        SentPacket s t p.srcdev (Answers s p c.2.1 c.2.2.1 c.2.2.2)) ∧
    (before r.a p.serial = false →
      ∃ t, exec (.evRelayRequestReceipt (packetOf p)) s = .next t ∧ t.mem = s.mem ∧
        SentPacket s t p.srcdev (Answers s p 1 0 0#64))) ∧
  (∀ (p : Packet) (s : State), s.fabricUp = true → PacketOk 1 p → p.oinc ≠ s.incarnation →
    (∀ ps a, s.arrival p.offset (if p.op = 7 then 128 else remoteSize p.op) (if p.op = 7 then .read else .write) =
      .ok ps a → ∀ e ∈ ps, s.rangeWaits e.1 e.2 = false) →
    ∃ t, exec (.evRelayRequestReceipt (packetOf p)) s = .next t ∧ t.mem = s.mem ∧ t.owners = s.owners ∧
      SentPacket s t p.srcdev (Answers s p 2 0 0#64)) ∧
  (∀ (p : Packet) (s : State) (r : OwnerRec), s.fabricUp = true → PacketOk 3 p → mfind s.owners (1024 * p.srcdev + p.asid) = some r →
    p.srcinc = r.srcinc → p.cgen = r.cgen → before r.a p.ackthr = true →
    ∃ t r', exec (.evRelayAcknowledgementReceipt (packetOf p)) s = .next t ∧
      t = { s with owners := t.owners, stamp := s.stamp + 1 } ∧ mfind t.owners (1024 * p.srcdev + p.asid) = some r' ∧
      r'.a = p.ackthr ∧ r'.e = (if before p.ackthr r.e = true then r.e else p.ackthr + 1#32) ∧
      (∀ c ∈ r.cache, c ∈ r'.cache ↔ ¬ (before c.1 p.ackthr = true ∨ c.1 = p.ackthr)) ∧ ∀ c ∈ r'.cache, c ∈ r.cache) ∧
  (∀ (p : Packet) (s : State) (r : OwnerRec), s.fabricUp = true → PacketOk 4 p → mfind s.owners (1024 * p.srcdev + p.asid) = some r →
    p.srcinc = r.srcinc → p.cgen = r.cgen →
    ∃ t, exec (.evRelayCloseReceipt (packetOf p)) s = .next t ∧ t.mem = s.mem ∧
      mfind t.owners (1024 * p.srcdev + p.asid) = none ∧ SentPacket s t p.srcdev (Answers s p 0 0 0#64)) ∧
  (∀ (dev : Nat) (p : Packet) (s : State) (c : Context) (o : RelayOp) (rest : List RelayOp), dev < 1024 →
    s.fabricUp = true → PacketOk 2 p → p.srcinc = s.incarnation → HeadOp s p.asid dev c o rest → p.cgen = c.cgen → p.serial = o.serial → (p.op = 0 ∨ p.op = 3) →
    p.oinc = (mget {} s.domain dev).incarn → p.oinc = (mget {} c.streams dev).oinc →
    ∃ t, exec (.evRelayResponseReceipt (toBytes 2 dev ++ packetOf p)) s = .next t ∧
      Completed s t p.asid dev o rest p.op p.x) ∧
  (∀ (i : Instr) (asid dev : Nat) (s : State) (c : Context) (o : RelayOp) (rest : List RelayOp),
    ((i = .evRelayRetransmission asid dev o.serial ∧ o.retry = false ∧ 16 ≤ o.sends) ∨
      (i = .evRelayRetryLaterTimeout asid dev o.serial ∧ o.retry = true)) →
    HeadOp s asid dev c o rest → ∃ t, exec i s = .next t ∧ Completed s t asid dev o rest 1 0#64) ∧
  (∀ (i : Instr) (asid dev : Nat) (s : State) (c : Context) (o : RelayOp) (rest : List RelayOp),
    ((i = .evRelayRetransmission asid dev o.serial ∧ o.retry = false ∧ o.sends < 16) ∨
      (i = .evRelayRetryLaterResend asid dev o.serial ∧ o.retry = true)) →
    s.fabricUp = true → HeadOp s asid dev c o rest →
    ∃ t c', exec i s = .next t ∧ SameMem s t ∧ t.ctx? asid = some c' ∧
      (mget {} c'.streams dev).ops = { o with
        retry := false, sends := if o.retry = true then o.sends else o.sends + 1 } :: rest ∧
      SentPacket s t dev (fun q => q.kind = 1 ∧ q.op = o.op ∧ q.srcdev = s.self ∧ q.asid = asid ∧ q.cgen = c.cgen ∧
        q.serial = o.serial ∧ q.ackthr = (mget {} c.streams dev).ackt ∧ q.oinc = o.oinc ∧ q.srcinc = s.incarnation ∧
        q.offset = o.offset ∧ q.x = o.x ∧ q.y = o.y ∧ q.retrans = true)) ∧
  (∀ (asid dev n : Nat) (s : State) (c : Context), s.ctx? asid = some c →
    (mget {} c.streams dev).closes = some n →
    (n < 16 → s.fabricUp = true → ∃ t c', exec (.evRelayCloseResend asid dev) s = .next t ∧ SameMem s t ∧ t.ctx? asid = some c' ∧
      (mget {} c'.streams dev).closes = some (n + 1) ∧
      SentPacket s t dev (fun q => q.kind = 4 ∧ q.srcdev = s.self ∧ q.asid = asid ∧ q.cgen = c.cgen ∧
        q.ackthr = (mget {} c.streams dev).next - 1#32)) ∧
    (16 ≤ n → ∃ t, exec (.evRelayCloseResend asid dev) s = .next t ∧ SameMem s t ∧
      ∀ c', t.ctx? asid = some c' → mfind c'.streams dev = none)) ∧
  ∀ (die : Nat) (s : State), ∃ t, exec (.evRelayRestart die) s = .next t ∧
    t = { s with owners := t.owners, stamp := s.stamp + 1 } ∧
    ∀ dev asid, dev < 1024 → asid < 1024 → mfind t.owners (1024 * dev + asid) =
      (mfind s.owners (1024 * dev + asid)).map (fun r =>
        if (dev.xor asid) % 2 = die % 2 then { r with held := [] } else r)

/-- R439, R512, R515–R519, R522–R525, R530–R533, R535–R538: a digest that differs is reported and nothing else
happens; a scheduler samples its charge; the oldest trace record enters the ring; a pacer moves its die between
states; ageing caps or fences a quartet; the scrub poisons what it cannot correct; wavelengths, the link and ports
come and go; unacknowledged frames go again; a bad frame is counted. Times and the layout of reports are the
model's (log entries 4 and 16). -/
def Obligations.ObserveAndLinkEvents : Prop :=
  (∀ (u : Nat) (s : State) (x : Team) (o p : Nat × (W64 × W64)) (os ps : List (Nat × (W64 × W64))),
    s.team? u = some x → x.checks.isSome = true → x.ours = o :: os → x.theirs = p :: ps →
    ∃ t, exec (.evEqualityDigestCompare u o.2.1 o.2.2) s = .next t ∧ t.mem = s.mem ∧ t.cores = s.cores ∧ t.grids = s.grids ∧
      (∀ v, v ≠ u → t.team? v = s.team? v) ∧
      t.team? u = (if x.exited = true ∧ (os = [] ∨ ps = []) then none
        else some { x with ours := os, theirs := ps, mismatch := x.mismatch.filter (· != o.1) }) ∧
      (o.2 = p.2 → o.1 ∉ x.mismatch → t.hostOut = s.hostOut ∧ t.blackBox = s.blackBox) ∧
      (o.2 ≠ p.2 ∨ o.1 ∈ x.mismatch → ∃ b f, SentLast t f ∧ f.type = 12 ∧ t.blackBox.getLast? = some b ∧ b.kind = 7 ∧
        b.asid = x.asid ∧ b.a = p.2.1 ∧ b.b = o.2.1)) ∧
  (∀ (c n : Nat) (s : State), c < 128 → n < 4 → bitAt s.traceKinds 2 = true → s.sampleDue c = true →
    n ∉ (s.core c).sampled → (s.core c).traceLost = 0 → (s.core c).trace.length < 1024 →
    ∃ t r, exec (.evStallSample c n) s = .next t ∧ t = { s with cores := t.cores, stamp := s.stamp + 1 } ∧
      t.core c = { s.core c with sampled := n :: (s.core c).sampled, trace := (s.core c).trace ++ [r] } ∧
      (∀ d, d ≠ c → t.core d = s.core d) ∧
      r.kind = 2 ∧ r.src = c ∧ r.gtc = s.gtc ∧ r.code % 16 = (s.charge c n).1) ∧
  (∀ (src : Nat) (s : State) (r : TraceRec) (rest : List TraceRec), s.traceBuf src = r :: rest → s.ringLen ≠ 0 →
    (s.ringWrite + 64) % s.ringLen ≠ s.ringRead → s.rangeWaits (s.ringBase + s.ringWrite) 64 = false →
    ∃ t, exec (.evTraceDrain src) s = .next t ∧ t.traceBuf src = rest ∧
      Stored s t (pairsAt (s.ringBase + s.ringWrite) r.bytes) ∧ t.ringWrite = (s.ringWrite + 64) % s.ringLen) ∧
  (∀ (die avg1 avg10 temp : Nat) (s : State), die < 2 →
    let p := mget ({} : Pacer) s.pacers die
    ∃ t, exec (.evPacerMeasurement die avg1 avg10 temp) s = .next t ∧ t.mem = s.mem ∧ t.teams = s.teams ∧
      t.grids = s.grids ∧
      vfsAt t (1 - die) = (if 3400 < avg10 then min (vfsAt s (1 - die)) 5 else vfsAt s (1 - die)) ∧ (t.withhold = true ↔ s.powerLimit < avg1) ∧
      (110 ≤ temp → vfsAt t die = 0) ∧
      (temp < 105 → p.hot = none → 3400 < avg10 → vfsAt t die = min (vfsAt s die) 5) ∧
      (temp < 105 → p.hot = none → avg10 ≤ 3400 → s.powerLimit < avg1 →
        (p.above = none ∨ p.above = some 9 → vfsAt t die = vfsAt s die - 1) ∧
        ∀ n, p.above = some n → n < 9 → vfsAt t die = vfsAt s die) ∧
      (temp < 105 → p.hot = none → avg10 ≤ 3400 → avg1 ≤ s.powerLimit →
        vfsAt t die = if 100 * avg1 < 95 * s.powerLimit ∧ 99 ≤ p.below then min 11 (vfsAt s die + 1) else vfsAt s die) ∧
      (105 ≤ temp → temp < 110 → p.hot = none → avg10 ≤ 3400 → avg1 ≤ s.powerLimit → 95 * s.powerLimit ≤ 100 * avg1 →
        vfsAt t die = vfsAt s die - 1)) ∧
  (∀ (die : Nat) (s : State), die ∈ s.vfChanging → exec (.evVfStateChangeDone die) s =
    .next { s with vfChanging := s.vfChanging.filter (· != die), stamp := s.stamp + 1 }) ∧
  (∀ (q d : Nat) (s : State), q < 32 →
    (8 ≤ d → q ∉ s.fenced → ∃ t, exec (.evAgeingCheck q d) s = .next t ∧ t.mem = s.mem ∧ t.teams = s.teams ∧
      t.fenced = s.fenced ++ [q] ∧ t.capped = s.capped) ∧
    (3 ≤ d → d < 8 → q ∉ s.capped → ∃ t, exec (.evAgeingCheck q d) s = .next t ∧ t.mem = s.mem ∧ t.teams = s.teams ∧
      t.capped = s.capped ++ [q] ∧ t.fenced = s.fenced)) ∧
  (∀ (n : Nat) (s : State), inMemory (64 * n) 64 = true →
    (n ∉ s.poison → n / 1024 ∉ s.retired → exec (.evPatrolScrub n 0) s = .next { s with stamp := s.stamp + 1 }) ∧
    (∃ t, exec (.evPatrolScrub n 2) s = .next t ∧ t.mem = s.mem ∧ t.teams = s.teams ∧ n ∈ t.poison ∧
      n / 1024 ∈ t.retireList ∧ ∀ k, k ≠ n → (k ∈ t.poison ↔ k ∈ s.poison)) ∧
    (n ∉ s.poison → n / 1024 ∉ s.retired → ∃ t, exec (.evPatrolScrub n 1) s = .next t ∧ t.mem = s.mem ∧ t.teams = s.teams ∧
      t.poison = s.poison ∧ (n, s.gtc) ∈ t.corrections ∧
      (16 ≤ (t.corrections.filter (fun c => c.1 / 1024 == n / 1024)).length → n / 1024 ∈ t.retireList))) ∧
  (∀ (s : State), s.unacked ≠ [] → s.linkDown = false → 0 < s.wavelengths →
    exec .evFrameResend s = .next { s with
      wire := s.wire ++ (s.unacked.take 256).map (fun e => e.2.bytes e.1 (s.rxSeq - 1#32)), stamp := s.stamp + 1 }) ∧
  (∀ (s : State), (s.wavelengths ≠ 0 → exec .evWavelengthFailure s =
      .next { s with wavelengths := s.wavelengths - 1, stamp := s.stamp + 1 }) ∧
    (s.wavelengths < 2 → exec .evWavelengthRestored s =
      .next { s with wavelengths := s.wavelengths + 1, stamp := s.stamp + 1 }) ∧
    (s.linkDown = false → s.wavelengths = 0 → exec .evLinkDown s =
      .next { s with linkDown := true, stamp := s.stamp + 1 }) ∧
    (s.linkDown = true → s.wavelengths ≠ 0 → ∃ t, exec .evLinkRestored s = .next t ∧
      offLink t = offLink { s with linkDown := false } ∧ Sent s t 12 0#32 (toBytes 2 1))) ∧
  (∀ (port lanes : Nat) (s : State), port < 24 → lanes ≤ 4 → ∃ t, exec (.evUalinkPortTraining port lanes) s = .next t ∧
    t = { s with portsUp := t.portsUp, stamp := s.stamp + 1 } ∧ (port ∈ t.portsUp ↔ lanes = 4) ∧
    ∀ k, k ≠ port → (k ∈ t.portsUp ↔ k ∈ s.portsUp)) ∧
  ∀ (f : List Byte) (s : State), s.linkDown = false → 0 < s.wavelengths →
    (BadFrame s f → exec (.evOpinaFrameDrop f) s =
      .next { s with linkErrors := s.linkErrors + 1#64, stamp := s.stamp + 1 }) ∧
    (¬ BadFrame s f → (ofBytes (f.take 1) = 0 ∨ 12 < ofBytes (f.take 1)) →
      ∃ t, exec (.evOpinaFrameDrop f) s = .next t ∧ t.rxSeq = s.rxSeq + 1#32 ∧
        offLink t = offLink { s with linkErrors := s.linkErrors + 1#64 })

/-- R285, R286, R363, R389, R390, R453, R523–R527, R530, R531, R539–R541: an accepted launch record makes a grid,
another gets its check code; host reads and writes perform whole or are refused; a trap-call reply resumes its
lanes; resets leave what the spec keeps, and a warm one ends every grid with status 1 or an earlier cause; firmware goes to flash, and
an attestation is signed. -/
def Obligations.HostAndBootEvents : Prop :=
  (∀ (i : Instr) (tag ack : W32) (asid ptag wa wv : Nat) (b : List Byte) (s : State) (c : Context), LinkReady s →
    asid < 1024 → ptag < 2 ^ 32 → wa < 2 ^ 64 → wv < 2 ^ 64 → Launches i s tag ack asid ptag wa wv b →
    s.ctx? asid = some c → c.removing = false →
    let r := parseRecord b
    (s.waitOk asid wa = false → s.translate asid wa ≠ .poisoned → Refused i s tag ptag 13) ∧
    (s.waitOk asid wa = false → s.translate asid wa = .poisoned → wa ≠ 0 → ∃ t b, exec i s = .next t ∧
      t.mem = s.mem ∧ t.teams = s.teams ∧ t.grids = s.grids ∧ t.gridQueues = s.gridQueues ∧
      t.blackBox.getLast? = some b ∧ b.kind = 3 ∧ b.asid = asid ∧ b.b = BitVec.ofNat 64 wa ∧
      Sent s t 2 tag (toBytes 4 ptag ++ toBytes 4 0xFFFFFFFF ++ toBytes 4 13)) ∧
    (s.waitOk asid wa = true → r.code ≠ 0 → r.code < 2 ^ 32 → Refused i s tag ptag r.code) ∧
    (s.waitOk asid wa = true → r.code = 0 → Config.gridQueueDepth ≤ (mget [] s.gridQueues r.queue).length →
      Refused i s tag ptag 10) ∧
    (s.waitOk asid wa = true → r.code = 0 → (mget [] s.gridQueues r.queue).length < Config.gridQueueDepth →
      ∃ t g, exec i s = .next t ∧ t.mem = s.mem ∧ t.teams = s.teams ∧ t.lastGrid = s.nextGrid ∧
        mfind t.grids t.lastGrid.toNat = some g ∧ g.record = r ∧ g.asid = asid ∧ g.tag = some (BitVec.ofNat 32 ptag) ∧
        g.waitAddr = wa ∧ g.waitVal = wv ∧ g.code = s.mem ∧ g.nextTeam = 0 ∧ g.status = 0 ∧
        mget [] t.gridQueues r.queue = mget [] s.gridQueues r.queue ++ [t.lastGrid.toNat] ∧
        Sent s t 2 tag (toBytes 4 ptag ++ toBytes 4 t.lastGrid.toNat ++ toBytes 4 0))) ∧
  (∀ (i : Instr) (tag ack : W32) (asid ptag wa wv : Nat) (b : List Byte) (s : State), LinkReady s → asid < 1024 →
    ptag < 2 ^ 32 → Launches i s tag ack asid ptag wa wv b → s.ctx? asid = none → Refused i s tag ptag 12) ∧
  (∀ (tag ack : W32) (asid va n : Nat) (scale : Bool) (s : State), LinkReady s → asid < 1024 → va < 2 ^ 64 → n ≤ 4096 →
    n % 4 = 0 → (scale = true → va % 64 = 0 ∧ n % 64 = 0) →
    (∀ r, s.hostAccess asid .read va n = .refuse r → ∃ t, exec (.evHostRead tag ack scale (hostHead asid va n)) s = .next t ∧
      offLink t = offLink s ∧ Sent s t 5 tag (toBytes 1 r)) ∧
    (∀ ps, s.hostAccess asid .read va n = .ok ps → (∀ p ∈ ps, s.bytesBad p.1 p.2 = false) →
      ∃ t, exec (.evHostRead tag ack scale (hostHead asid va n)) s = .next t ∧ offLink t = offLink s ∧
        Sent s t 5 tag (ps.flatMap (fun p => if scale = true then (List.range (p.2 / 64)).flatMap (fun i =>
            readBytes s.mem (p.1 + 64 * i) 64 ++ toBytes 4 (if s.scaleFrames.any (fun e =>
              e.1 == (p.1 / 64 + i) / 1024) = true then mget 0#32 s.spare (p.1 / 64 + i) else 0#32).toNat)
          else readBytes s.mem p.1 p.2)))) ∧
  (∀ (tag ack : W32) (asid va n : Nat) (data : List Byte) (s : State), LinkReady s → asid < 1024 → va < 2 ^ 64 →
    n ≤ 4096 → n % 4 = 0 → data.length = n →
    (∀ r, s.hostAccess asid .write va n = .refuse r →
      ∃ t, exec (.evHostWrite tag ack false (hostHead asid va n ++ data)) s = .next t ∧
        offLink t = offLink s ∧ Sent s t 7 tag (toBytes 1 r)) ∧
    (∀ ps, s.hostAccess asid .write va n = .ok ps →
      ∃ t, exec (.evHostWrite tag ack false (hostHead asid va n ++ data)) s = .next t ∧
        Stored s t (piecePairs ps data) ∧ Sent s t 7 tag (toBytes 1 0))) ∧
  (∀ (tag ack : W32) (asid va n pa : Nat) (data : List Byte) (s : State), LinkReady s → asid < 1024 → va < 2 ^ 64 →
    n ≤ 4096 → va % 64 = 0 → n % 64 = 0 → data.length = n / 64 * 68 →
    s.hostAccess asid .write va n = .ok [(pa, n)] →
    ∃ t, exec (.evHostWrite tag ack true (hostHead asid va n ++ data)) s = .next t ∧ Sent s t 7 tag (toBytes 1 0) ∧
      Stored s t (pairsAt pa ((List.range (n / 64)).flatMap (fun i => (data.drop (68 * i)).take 64))) ∧
      ∀ k, mget 0#32 t.spare k = if pa / 64 ≤ k ∧ k < pa / 64 + n / 64 ∧ s.scaleFrames.any (fun e => e.1 == k / 1024) = true
        then BitVec.ofNat 32 (ofBytes ((data.drop (68 * (k - pa / 64) + 64)).take 4)) else mget 0#32 s.spare k) ∧
  (∀ (tag ack m : W32) (u g d status : Nat) (words : List Byte) (s : State) (x : Team) (h : Heat), LinkReady s →
    u < trapBase → status < 2 ^ 32 → words.length = 128 → s.team? u = some x → x.heat? g = some h →
    s.callers tag = [(u, g, h)] → x.checker = none → h.arrivals = [] → x.lap ≠ 0#64 →
    (∀ l, l < 32 → ∀ e n k, (h.lane l).live = true → (h.lane l).park = .callh e n k → e = d ∧ n = m ∧ k = tag) →
    ∃ t y h' d', exec (.evTrapCallReply tag ack (toBytes 4 status ++ words)) s = .next t ∧ t.mem = s.mem ∧
      t.team? u = some y ∧ y.heat? g = some h' ∧ y.deliveries = x.deliveries ++ [d'] ∧ d'.heat = g ∧
      d'.what = .call tag status words ∧ d'.lap = x.lap.toNat ∧
      (∀ r l, l < 32 → h'.v r l = if r = d ∧ l ∈ h.callLanes tag ∧ inMask m l = true then
        (if status = 0 then BitVec.ofNat 32 (ofBytes ((words.drop (4 * l)).take 4)) else 0#32) else h.v r l) ∧
      (∀ r l, l < 32 → h'.k r l = if r = 7 ∧ l ∈ h.callLanes tag ∧ inMask m l = true then decide (status ≠ 0)
        else h.k r l) ∧ SameS h h' ∧ SameA h h' ∧
      ∀ l, h'.lane l = if l ∈ h.callLanes tag then (h.lane l).goOn s.stamp else h.lane l) ∧
  (∀ s : State, ∃ t, exec .evColdReset s = .next t ∧ Cleared t ∧ Fuses s t ∧ t.mem = [] ∧ t.poison = [] ∧
    t.gtc = 0#64 ∧ t.blackBox = [] ∧ t.incarnation = 0#32 ∧ t.txSeq = 0#32 ∧ t.rxSeq = 0#32 ∧ t.hostOut = []) ∧
  (∀ (i : Instr) (tag : W32) (s : State),
    (i = .evForcedWarmReset ∨ (i = .evWarmReset tag ∧ s.linkDown = false ∧ 0 < s.wavelengths)) →
    ∃ (t : State) (fs : List Frame), exec i s = .next t ∧ Cleared t ∧ Fuses s t ∧
      (∀ a, readByte t.mem a = if Config.bootZeroes (a / 64) s.stamp = true then 0#8 else readByte s.mem a) ∧
      (∀ u, u ∈ t.poison ↔ u ∈ s.poison ∧ Config.bootZeroes u s.stamp = false) ∧ t.spare = s.spare ∧ t.gtc = s.gtc ∧ t.incarnation = s.incarnation + 1#32 ∧ t.hostOut = s.hostOut ++ fs ∧
      (i = .evWarmReset tag → ∃ f ∈ fs, f.type = 11 ∧ f.tag = tag ∧ f.payload = toBytes 4 0) ∧
      ∀ e ∈ s.grids, ∀ k, e.2.tag = some k →
        ∃ f ∈ fs, f.type = 3 ∧ f.tag = k ∧
          f.payload = toBytes 4 e.1 ++ toBytes 4 (if e.2.status = 0 then 1 else e.2.status)) ∧
  (∀ (tag : W32) (stage : Nat) (image : List Byte) (s : State), s.linkDown = false → 0 < s.wavelengths → stage < 8 →
    image ≠ [] → Managed (.evFirmwareUpdate tag stage image) s tag 0 { s with flash := mput s.flash stage image }) ∧
  ∀ (tag : W32) (nonce : List Byte) (s : State), s.linkDown = false → 0 < s.wavelengths → nonce.length = 32 →
    let r := Config.deviceIdentity ++
      (List.range 8).flatMap (fun i => mget (List.replicate 32 0#8) s.measures i) ++ toBytes 8 s.rollback ++
      toBytes 4 s.incarnation.toNat ++ toBytes 4 s.retired.length ++ nonce
    ∃ t, exec (.evAttest tag nonce) s = .next t ∧ offLink t = offLink s ∧
      Sent s t 11 tag (toBytes 4 0 ++ (r ++ (Config.attestSignature r ++ List.replicate 16224 0#8).take 16224))

/-- R281, R393, R409, R411, R428, R441, R442, R446, R458, R465, R475, R513, R516–R518, R520, R521, R527–R534, R536: a
request of the control node that keeps its rules has its one effect and is answered with status 0; one that breaks
them is answered with status 1, or 2 where the thing is in use, and changes nothing. -/
def Obligations.ManagementEvents : Prop :=
  (∀ (tag : W32) (asid root places save lap lapseg log loglen relayc lspill bspill wdog : Nat) (eqchk : Bool) (s : State),
    LinkReady s → asid < 1024 →
    let i := Instr.evCreateContext tag asid root places save lap lapseg log loglen relayc lspill bspill wdog eqchk
    (s.ctx? asid ≠ none → Managed i s tag 2 s) ∧
    (s.ctx? asid = none → areasOk root places save lap lapseg log loglen relayc lspill bspill = false →
      Managed i s tag 1 s) ∧
    (s.ctx? asid = none → areasOk root places save lap lapseg log loglen relayc lspill bspill = true →
      ∃ t c, exec i s = .next t ∧ Sent s t 11 tag (toBytes 4 0) ∧ t.ctx? asid = some c ∧
        (c.root, c.places, c.save, c.lapArea, c.lapSeg, c.logBase, c.logLen) = (root, places, save, lap, lapseg, log, loglen) ∧
        (c.relayc, c.lspill, c.bspill, c.wdog, c.eqchk) = (relayc, lspill, bspill, wdog, eqchk) ∧
        c.cgen = mget 0#16 s.cgens asid + 1#16 ∧ c.streams = [] ∧ (∀ a, a ≠ asid → t.ctx? a = s.ctx? a) ∧
        Stored s t (if loglen = 0 then [] else pairsAt log (64#8 :: List.replicate 63 0#8)))) ∧
  (∀ (tag : W32) (asid : Nat) (s : State), LinkReady s →
    (s.ctx? asid = none → Managed (.evRemoveContext tag asid) s tag 1 s) ∧
    ∀ c, s.ctx? asid = some c →
      (c.removing = true → Managed (.evRemoveContext tag asid) s tag 2 s) ∧
      (c.removing = false → ∃ (t : State) (fs : List Frame), exec (.evRemoveContext tag asid) s = .next t ∧ SameMem s t ∧
        (∀ e ∈ t.teams, e.2.asid ≠ asid) ∧ (∀ e ∈ t.grids, e.2.asid ≠ asid) ∧ t.hostOut = s.hostOut ++ fs ∧
        (∀ c', t.ctx? asid = some c' → c'.removing = true) ∧
        (∃ f ∈ fs, f.type = 11 ∧ f.tag = tag ∧ f.payload = toBytes 4 0) ∧
        ∀ e ∈ s.grids, e.2.asid = asid → ∀ k, e.2.tag = some k →
          ∃ f ∈ fs, f.type = 3 ∧ f.tag = k ∧
            f.payload = toBytes 4 e.1 ++ toBytes 4 (if e.2.status = 0 then 1 else e.2.status))) ∧
  (∀ (tag : W32) (asid : Nat) (s : State) (c : Context), LinkReady s → s.ctx? asid = some c →
    (∀ k, k < Config.cores → (s.core k).stuck = false) →
    Managed (.evReleaseFrozenContext tag asid) s tag 0 { s with
      teams := s.teams.map (fun e => (e.1, if e.2.asid = asid then { e.2 with halted := false } else e.2))
      contexts := mput s.contexts asid { c with broadcast := false } }) ∧
  (∀ (tag : W32) (asid : Nat) (va : Addr) (s : State), LinkReady s →
    (let s' := { s with
      tlb := s.tlb.filter (fun e => e.asid != asid), tables := s.tables.filter (fun e => e.asid != asid)
      walks := s.walks.filter (fun w => w.asid != asid) }
     let open' := s.outstanding { asid := some asid } || s.deferredOpen { asid := some asid }
     HeadsReadable s' → (open' = false → Managed (.evInvalidateTranslationsAsid tag asid) s tag 0 s') ∧
      (open' = true → exec (.evInvalidateTranslationsAsid tag asid) s = .next s')) ∧
    (let s' := { s with
      tlb := s.tlb.filter (fun e => e.asid != asid || !decide (e.base ≤ va.toNat ∧ va.toNat < e.base + e.size))
      tables := s.tables.filter (fun e => e.asid != asid || e.tag != walkTag va.toNat e.level)
      walks := s.walks.filter (fun w => w.asid != asid || w.page / 2 ^ 14 != va.toNat / 2 ^ 30) }
     let x : TlbiScope := { asid := some asid, va := some va.toNat }
     let open' := s.outstanding x || s.deferredOpen x
     HeadsReadable s' → (open' = false → Managed (.evInvalidateTranslationsVa tag asid va) s tag 0 s') ∧
      (open' = true → exec (.evInvalidateTranslationsVa tag asid va) s = .next s'))) ∧
  (∀ (tag : W32) (dev : Nat) (e : BitVec 128) (s : State), LinkReady s →
    (let n := (e.extractLsb' 64 64).toNat
     if dev < 1024 ∧ e.extractLsb' 1 31 = 0#31 ∧ n % 65536 = 0 ∧ n ≤ 2 ^ 61 - 2 ^ 20 then
      Managed (.evWriteDomainTableEntry tag dev e) s tag 0 { s with
        domain := mset {} s.domain dev { explen := n, incarn := e.extractLsb' 32 32, valid := e.getLsbD 0 } }
     else Managed (.evWriteDomainTableEntry tag dev e) s tag 1 s) ∧
    (let g : GrpEntry := { mlist := (e.extractLsb' 64 64).toNat, limit := (e.extractLsb' 48 16).toNat
                           self := (e.extractLsb' 28 10).toNat, m := (e.extractLsb' 17 11).toNat, valid := e.getLsbD 0 }
     if dev < 256 ∧ e.extractLsb' 38 10 = 0#10 ∧ e.extractLsb' 1 16 = 0#16 ∧
        (g.valid = true → 1 ≤ g.m ∧ g.m ≤ 1024 ∧ 1 ≤ g.limit ∧ g.self < g.m) then
      Managed (.evWriteGroupTableEntry tag dev e) s tag 0 { s with groups := mset {} s.groups dev g }
     else Managed (.evWriteGroupTableEntry tag dev e) s tag 1 s)) ∧
  (∀ (tag : W32) (index : Nat) (w : BitVec 256) (s : State), LinkReady s →
    let e : ExpEntry := { vabase := (w.extractLsb' 192 64).toNat, len := (w.extractLsb' 128 64).toNat
                          offbase := (w.extractLsb' 64 64).toNat, asid := (w.extractLsb' 16 10).toNat, valid := w.getLsbD 0 }
    if index < 1024 ∧ w.extractLsb' 26 38 = 0#38 ∧ w.extractLsb' 1 15 = 0#15 ∧ e.len % 65536 = 0 ∧ e.offbase % 65536 = 0 ∧
        (∀ x ∈ s.exports, x.1 ≠ index → x.2.valid = true → e.valid = true →
          x.2.offbase + x.2.len ≤ e.offbase ∨ e.offbase + e.len ≤ x.2.offbase) then
      Managed (.evWriteExportTableEntry tag index w) s tag 0 { s with exports := mset {} s.exports index e }
    else Managed (.evWriteExportTableEntry tag index w) s tag 1 s) ∧
  (∀ (tag : W32) (l : List Nat) (s : State), LinkReady s → l.length = 32 → (∀ q ∈ l, q < 32 ∧ q ∉ s.fenced) →
    (s.detResident = true → Managed (.evWriteRemapTable tag l) s tag 2 s) ∧
    (s.detResident = false → Managed (.evWriteRemapTable tag l) s tag 0
      { s with remap := (List.range 32).map (fun i => (i, l.getD i i)), detTurn := [] })) ∧
  (∀ (tag : W32) (c : Nat) (v : W64) (s : State), LinkReady s → c < 128 →
    ((s.core c).frozen = none → (s.core c).stuck = false → Managed (.evSetThentry tag c v) s tag 0
      { s with cores := mput s.cores c { s.core c with thentry := v } }) ∧
    ((s.core c).frozen ≠ none → Managed (.evSetThentry tag c v) s tag 2 s)) ∧
  (∀ (tag : W32) (base len read kinds k : Nat) (s : State), LinkReady s →
    if len % 65536 = 0 ∧ (len = 0 ∨ (inMemory base len = true ∧ read < len)) ∧ read % 64 = 0 ∧
        (k = 0 ∨ (10 ≤ k ∧ k ≤ 24)) then
      Managed (.evTraceSetup tag base len read kinds k) s tag 0 { s with
        ringBase := base, ringLen := len, ringRead := read
        ringWrite := if s.ringBase = base ∧ s.ringLen = len then s.ringWrite else 0
        traceKinds := kinds, samplePeriod := k }
    else Managed (.evTraceSetup tag base len read kinds k) s tag 1 s) ∧
  (∀ (tag : W32) (c i src : Nat) (s : State), LinkReady s → c < 128 → i < 16 →
    (src ≤ 0x12 → Managed (.evEventCounterSelect tag c i src) s tag 0
      { s with cores := mput s.cores c { s.core c with evSel := mset 0 (s.core c).evSel i src } }) ∧
    (0x12 < src → Managed (.evEventCounterSelect tag c i src) s tag 1 s) ∧
    Managed (.evEventCounterZero tag c i) s tag 0
      { s with cores := mput s.cores c { s.core c with evCnt := mset 0#64 (s.core c).evCnt i 0#64 } }) ∧
  (∀ (tag : W32) (s : State), LinkReady s → ∃ t, exec (.evReadBlackBox tag) s = .next t ∧ offLink t = offLink s ∧
    Sent s t 11 tag (toBytes 4 0 ++ (toBytes 4 s.blackWrite ++ s.blackBox.flatMap (fun b =>
      toBytes 8 b.gtc.toNat ++ toBytes 2 b.src ++ toBytes 1 b.kind ++ toBytes 1 b.vfs ++ toBytes 2 b.code ++
        toBytes 2 b.asid ++ toBytes 8 b.a.toNat ++ toBytes 8 b.b.toNat)))) ∧
  (∀ (tag : W32) (v : W64) (n : Nat) (s : State), LinkReady s →
    (s.gtcOpen = true → Managed (.evSetGtc tag v) s tag 0 { s with gtc := v, gtcOpen := false }) ∧
    (s.gtcOpen = false → Managed (.evSetGtc tag v) s tag 1 s) ∧
    (1000 ≤ n → n ≤ 3000 → Managed (.evSetPowerLimit tag n) s tag 0 { s with powerLimit := n }) ∧
    (n < 1000 ∨ 3000 < n → Managed (.evSetPowerLimit tag n) s tag 1 s)) ∧
  (∀ (tag : W32) (frame layout : Nat) (s : State), LinkReady s → inMemory (65536 * frame) 65536 = true →
    let others := s.scaleFrames.filter (fun e => e.1 != frame)
    (layout = 0 → Managed (.evSetScaleMetadataMode tag frame layout) s tag 0 { s with
      scaleFrames := others, spare := s.spare.filter (fun e => e.1 / 1024 != frame) }) ∧
    (1 ≤ layout → layout ≤ 3 → Managed (.evSetScaleMetadataMode tag frame layout) s tag 0 { s with
      scaleFrames := others ++ [(frame, layout)] }) ∧
    (4 ≤ layout → Managed (.evSetScaleMetadataMode tag frame layout) s tag 1 s)) ∧
  ∀ (tag : W32) (old new : Nat) (s : State), LinkReady s → inMemory (65536 * old) 65536 = true →
    inMemory (65536 * new) 65536 = true → old ≠ new → s.ownedRange (65536 * old) 65536 = false →
    s.ownedRange (65536 * new) 65536 = false → mrising s.spare = true →
    ∃ t, exec (.evCopyFrame tag old new) s = .next t ∧ old ∈ t.retired ∧
      (∀ a, a / 65536 ≠ new → readByte t.mem a = readByte s.mem a) ∧
      (∀ i, i < 65536 → (∀ u ∈ s.badUnits old, i / 64 ≠ u % 1024) →
        readByte t.mem (65536 * new + i) = readByte s.mem (65536 * old + i)) ∧
      (∀ u, u / 1024 = new → (u ∈ t.poison ↔ ∃ v ∈ s.badUnits old, Config.unitRebuilds v s.stamp = false ∧
        u % 1024 = v % 1024)) ∧
      (∀ u, u / 1024 ≠ new → (u ∈ t.poison ↔ u ∈ s.poison)) ∧
      ∀ i, i < 1024 → mget 0#32 t.spare (1024 * new + i) = mget 0#32 s.spare (1024 * old + i)

/-- R285, R476, R499–R508: a debugger attaches; a request without one is answered with status 1; STOP stops a team
and its cluster and keeps the stop; RUN resumes them; RUNTO aims at a point ahead, rolls back for one behind, and
cannot reach an earlier lap; the point reached stops the team; STEP and QSTEP grant one issue or say that the heat
stands parked; READ and WRITE reach the selected registers; RETURN restores the stop. The form of the answers is the
model's (log entry 10). -/
def Obligations.DebuggerEvents : Prop :=
  (∀ (tag : W32) (asid : Nat) (s : State), LinkReady s →
    (s.ctx? asid = none → Managed (.evDebuggerAttach tag asid) s tag 1 s) ∧
    ∀ c, s.ctx? asid = some c → Managed (.evDebuggerAttach tag asid) s tag 0
      { s with contexts := mput s.contexts asid { c with attached := true } }) ∧
  (∀ (i : Instr) (tag : W32) (u g a b : Nat) (q : BitVec 8) (sel v : W64) (r : BitVec 16) (s : State) (x : Team),
    i ∈ [.evStop tag u, .evRun tag u, .evRunto tag u a g b, .evStep tag u g, .evQstep tag u g q, .evRead tag u sel r,
      .evWrite tag u sel r v, .evReturn tag u] → LinkReady s → s.team? u = some x →
    (∀ c, s.ctx? x.asid = some c → c.attached = false) → Managed i s tag 1 s) ∧
  (∀ (i : Instr) (tag : W32) (u g : Nat) (q : BitVec 8) (sel v : W64) (r : BitVec 16) (s : State) (x : Team),
    i ∈ [.evRun tag u, .evStep tag u g, .evQstep tag u g q, .evRead tag u sel r, .evWrite tag u sel r v] →
    Debugged s u x → x.stopped = false → Managed i s tag 2 s) ∧
  (∀ (tag : W32) (u : Nat) (s : State) (x : Team), Debugged s u x →
    ∃ t, exec (.evStop tag u) s = .next t ∧ t.mem = s.mem ∧ t.cores = s.cores ∧ Replied s t tag 0 [] ∧
      (∀ v, v ∉ x.cluster → t.team? v = s.team? v) ∧
      ∀ v z, v ∈ x.cluster → s.team? v = some z → ∃ y, t.team? v = some y ∧ HasStopped z y) ∧
  (∀ (tag : W32) (u : Nat) (s : State) (x : Team), Debugged s u x → x.stopped = true →
    ∃ t, exec (.evRun tag u) s = .next t ∧ t.mem = s.mem ∧ t.cores = s.cores ∧ Sent s t 11 tag (toBytes 4 0) ∧
      ClusterNow s t x tag (fun _ z => { z with stopped := false, runTo := none, grant := none }) ∧
      ∀ v, v ∉ x.cluster → t.team? v = s.team? v) ∧
  (∀ (tag : W32) (u lap g stride now : Nat) (s : State) (x : Team), Debugged s u x →
    ((g = 255 ∧ now = x.body.seq.count.toNat) ∨ (g ≠ 255 ∧ ∃ h, x.heat? g = some h ∧ now = h.stride.toNat)) →
    let p : Point := { lap := lap, heat := g, stride := stride }
    (lap < x.lap.toNat → ∃ t, exec (.evRunto tag u lap g stride) s = .next t ∧ t.mem = s.mem ∧ Replied s t tag 2 [] ∧
      ClusterNow s t x tag (fun _ z => z)) ∧
    (x.lap.toNat < lap ∨ (lap = x.lap.toNat ∧ now ≤ stride) →
      ∃ t, exec (.evRunto tag u lap g stride) s = .next t ∧ t.mem = s.mem ∧ Sent s t 11 tag (toBytes 4 0) ∧
        ClusterNow s t x tag (fun v z => { z with
          stopped := false, grant := none, runTo := some (if v = u then p else { p with heat := 256 }) })) ∧
    (lap = x.lap.toNat → stride < now →
      ∃ t, exec (.evRunto tag u lap g stride) s = .next t ∧ t.mem = s.mem ∧ Sent s t 11 tag (toBytes 4 0) ∧
        ∀ v z, v ∈ x.cluster → s.team? v = some z → ∃ y, t.team? v = some y ∧ y.action = max z.action 3 ∧
          y.stopped = false ∧ y.runTo = some (if v = u then p else { p with heat := 256 }) ∧ y.stopImage ≠ none)) ∧
  (∀ (u now : Nat) (s : State) (x : Team) (p : Point), s.team? u = some x → u ∈ x.cluster → x.cluster.Nodup →
    x.runTo = some p → x.action = 0 → p.lap = x.lap.toNat → p.stride ≤ now →
    ((p.heat = 255 ∧ now = x.body.seq.count.toNat) ∨
      (p.heat ≠ 255 ∧ ∃ h, x.heat? p.heat = some h ∧ now = h.stride.toNat)) →
    ∃ (t : State) (fs : List Frame), exec (.evRuntoPointReached u) s = .next t ∧ t.mem = s.mem ∧
      t.hostOut = s.hostOut ++ fs ∧ (∀ f ∈ fs, f.type = 12) ∧
      fs.flatMap (fun f => f.payload) = toBytes 2 6 ++ Config.debugReply x.dbgTag 0 [] ∧
      ∀ v z, v ∈ x.cluster → s.team? v = some z → ∃ y, t.team? v = some y ∧ HasStopped z y) ∧
  (∀ (tag : W32) (u g : Nat) (s : State) (x : Team) (h : Heat), Debugged s u x → x.stopped = true → g ≠ 255 →
    x.heat? g = some h → h.ended = false →
    (h.choose = none → ∃ t, exec (.evStep tag u g) s = .next t ∧ t.mem = s.mem ∧ Replied s t tag 4 []) ∧
    (h.choose ≠ none → ∃ t, exec (.evStep tag u g) s = .next t ∧ t.mem = s.mem ∧ Sent s t 11 tag (toBytes 4 0) ∧
      ClusterNow s t x tag (fun v z => if v = u then { z with grant := some (g, 0#8) } else z)) ∧
    ∀ q : BitVec 8,
      (h.live &&& quadMask q = 0#32 → ∃ t, exec (.evQstep tag u g q) s = .next t ∧ t.mem = s.mem ∧
        Replied s t tag 5 []) ∧
      (h.live &&& quadMask q ≠ 0#32 → h.chooseQuads q = none → ∃ t, exec (.evQstep tag u g q) s = .next t ∧
        t.mem = s.mem ∧ Replied s t tag 4 []) ∧
      (h.live &&& quadMask q ≠ 0#32 → h.chooseQuads q ≠ none → ∃ t, exec (.evQstep tag u g q) s = .next t ∧
        t.mem = s.mem ∧ Sent s t 11 tag (toBytes 4 0) ∧
        ClusterNow s t x tag (fun v z => if v = u then { z with grant := some (g, q) } else z))) ∧
  (∀ (tag : W32) (u : Nat) (s : State) (x : Team), Debugged s u x → x.stopped = true → x.body.seq.running = true →
    x.body.seq.park = .none →
    ∃ t, exec (.evStep tag u 255) s = .next t ∧ t.mem = s.mem ∧ Sent s t 11 tag (toBytes 4 0) ∧
      ClusterNow s t x tag (fun v z => if v = u then { z with grant := some (255, 0#8) } else z)) ∧
  (∀ (tag : W32) (u g l : Nat) (n : BitVec 16) (v : W64) (s : State) (x : Team) (h : Heat), Debugged s u x →
    x.stopped = true → g < 256 → l < 32 → x.heat? g = some h → h.ended = false →
    let sel := BitVec.ofNat 64 (256 * g + 65536 * l)
    (dbgNamed n.toNat → ∃ t, exec (.evRead tag u sel n) s = .next t ∧ t.mem = s.mem ∧
      Replied s t tag 7 (toBytes 8 (dbgValue h l n.toNat).toNat) ∧ ClusterNow s t x tag (fun _ z => z)) ∧
    (n.toNat ≠ 0x1025 → (dbgNamed n.toNat ∨ n.toNat = 0x1024) →
      ∃ t h', exec (.evWrite tag u sel n v) s = .next t ∧ t.mem = s.mem ∧ Replied s t tag 6 [] ∧
        t.heat? u g = some h' ∧ DbgWritten h h' l n.toNat v ∧
        ∀ k, k ≠ g → t.heat? u k = s.heat? u k)) ∧
  ∀ (tag : W32) (u : Nat) (s : State) (x : Team) (i : StopImage), Debugged s u x →
    (x.stopImage = none → Managed (.evReturn tag u) s tag 2 s) ∧
    (x.stopImage = some i → (∀ d ∈ x.deliveries.drop i.delivered, d.own ≠ none) →
      ∃ t y, exec (.evReturn tag u) s = .next t ∧ Replied s t tag 0 [] ∧ t.team? u = some y ∧
      y.body.spad = i.body.spad ∧ y.body.acc = i.body.acc ∧ y.body.queues = i.body.queues ∧
      (∀ g h, mfind i.body.heats g = some h → ∃ h', y.heat? g = some h' ∧ SameRegs h h' ∧ h'.stride = h.stride ∧
        h'.queues = h.queues) ∧ y.deferred = i.deferred ∧ (∀ e ∈ y.log, e ∈ i.log) ∧ y.undo = i.undo ∧
      y.stopped = true ∧ y.replaying = i.replaying ∧ y.runTo = none ∧ y.action = 0 ∧
      (x.cluster = [u] → Stored s t (x.undo ++ i.bytes)))

/-- R59, R60, R61, R298, R411, R463, R475, R516, R522, R536, R541, with assumption log entries 1 and 3 for what the
spec leaves open: after reset no team, grid, context or translation exists, memory lists nothing and is in its
canonical form, the die runs at state 11 with a limit of 3,000 W, the pool has its default carve, no core is frozen,
the remap table is the identity, nothing is traced, and both wavelengths are up. -/
def Obligations.ResetState : Prop :=
  State.reset.Inv ∧ Cleared State.reset ∧ (∀ a, readByte State.reset.mem a = 0#8) ∧ State.reset.gtc = 0#64 ∧
    State.reset.incarnation = 0#32 ∧ State.reset.powerLimit = 3000 ∧ State.reset.vfsA = 11 ∧ State.reset.vfsB = 11 ∧
    State.reset.traceKinds = 0 ∧ State.reset.wavelengths = 2 ∧ State.reset.linkDown = false ∧
    State.reset.recovery = false ∧ (∀ q, State.reset.physQuartet q = q) ∧
    ∀ c, (State.reset.core c).frozen = none ∧ (State.reset.core c).thentry = 0#64 ∧
      (State.reset.core c).poolrb = 32#64 ∧ (State.reset.core c).poolsb = 112#64 ∧
      (State.reset.core c).poolcb = 128#64 ∧ (State.reset.core c).cycles = 0#64 ∧ (State.reset.core c).csel = 0#64

/-- R9, R14, R16, R26, R35, R55, R206, R404 (the order of turns is the model's, log entry 2): a step with an issue
pending fetches the clause at the position of the chosen lanes, and when the word there decodes, runs that
instruction, after a commit point where its journal and log entries would not fit (R478), and with what follows an
issue; a fetched word is the four bytes at its address, which the decoder reads; a pending event is run, and a hardware
error (log entry 23) takes effect. -/
def Obligations.StepRunsDecoded : Prop :=
  (∀ (s : State) (l : List Turn) (u g c : Nat) (x : Team) (h : Heat) (m : Mask) (hw : W32) (ws : List W32)
      (i : Instr), s.inputs = .issue (.heat u g) :: l → s.team? u = some x → PlainTeam s c x → u < trapBase →
    x.heat? g = some h → s.runs u = true → h.ended = false → h.sleepUntil = none → s.withholds c = false →
    g % 4 ∉ (s.core c).issued → (s.core c).lastHeat.getD 0 ≤ g → h.choose = some m →
    let p := h.lane (lowLane m)
    let cu : Cur := { who := .heat u g, core := c, active := m, helpers := h.helpers m, hdr := p.hdr, idx := p.idx }
    p.hdr.toNat < 2 ^ 64 → p.hdr.toNat % 4 = 0 → (∀ e ∈ h.loopBuf, e.1 ≠ p.hdr) →
    s.fetchClause (c / 64) x.asid (s.codeOf u) p.hdr = .ok (hw :: ws) → clauseFault false (hw :: ws) = none →
    { s with inputs := l, cur := cu }.waitCause h m hw.toNat p.idx ws (s.core c).cycles.toNat = none →
    decodeWord (ws.getD p.idx 0#32).toNat = .ok i →
    let h1 := h.forLanes m (fun y j => y.setLane j { y.lane j with n := ws.length })
    let s0 := { s with inputs := l, cur := cu }
    let s1 := { s0.putHeat u g { h1 with loopBuf := bufferClause p.hdr (hw :: ws) h.loopBuf, yielded := false } with
      cur := { cu with n := ws.length, word := ws.getD p.idx 0#32 } }
    StepRuns s s1 u i) ∧
  (∀ (s : State) (l : List Turn) (u c : Nat) (x : Team) (hw : W32) (ws : List W32) (i : Instr),
    s.inputs = .issue (.seq u) :: l → s.team? u = some x → PlainTeam s c x → s.runs u = true →
    x.body.seq.running = true → x.body.seq.park = .none → x.body.seq.lastCycle = none →
    x.body.seq.hdr.toNat < 2 ^ 64 → x.body.seq.hdr.toNat % 4 = 0 →
    (∀ e ∈ x.body.seq.loopBuf, e.1 ≠ x.body.seq.hdr) →
    s.fetchClause (c / 64) x.asid (s.codeOf u) x.body.seq.hdr = .ok (hw :: ws) → clauseFault true (hw :: ws) = none →
    x.body.seq.waits hw.toNat x.body.seq.idx (s.core c).cycles.toNat = false →
    decodeWord (ws.getD x.body.seq.idx 0#32).toNat = .ok i →
    let q1 := { x.body.seq with n := ws.length, loopBuf := bufferClause x.body.seq.hdr (hw :: ws) x.body.seq.loopBuf }
    let cu : Cur := { who := .seq u, core := c, hdr := q1.hdr, idx := q1.idx }
    let s0 := { s with inputs := l, cur := cu }
    let s1 := { s0.modSeq u (fun _ => q1) with cur := { cu with n := ws.length, word := ws.getD q1.idx 0#32 } }
    StepRuns s s1 u i) ∧
  (∀ (s : State) (l : List Turn) (c : Nat) (r : TrapRec) (m : Mask) (hw : W32) (ws : List W32) (i : Instr),
    let h := (s.core c).trap
    s.inputs = .issue (.trap c) :: l → (s.core c).frozen = some r → (s.core c).trapOn = true →
    (s.core c).stuck = false → s.changing c = false → h.sleepUntil = none →
    (∀ j, inMask h.live j = true → (h.lane j).lastCycle ≠ some (s.core c).cycles.toNat) → h.choose = some m →
    let p := h.lane (lowLane m)
    let cu : Cur := { who := .trap c, core := c, active := m, helpers := h.helpers m, hdr := p.hdr, idx := p.idx }
    p.hdr.toNat < 2 ^ 64 → p.hdr.toNat % 4 = 0 → (∀ e ∈ h.loopBuf, e.1 ≠ p.hdr) →
    s.fetchClause (c / 64) r.asid s.mem p.hdr = .ok (hw :: ws) → clauseFault false (hw :: ws) = none →
    { s with inputs := l, cur := cu }.waitCause h m hw.toNat p.idx ws (s.core c).cycles.toNat = none →
    decodeWord (ws.getD p.idx 0#32).toNat = .ok i →
    let h1 := h.forLanes m (fun y j => y.setLane j { y.lane j with n := ws.length })
    let s0 := { s with inputs := l, cur := cu }
    let s1 := { s0.putCore c { s.core c with
        trap := { h1 with loopBuf := bufferClause p.hdr (hw :: ws) h.loopBuf, yielded := false } } with
      cur := { cu with n := ws.length, word := ws.getD p.idx 0#32 } }
    step s = match exec i s1 with
      | .next s2 => .next (settled s1 s1 s2)
      | o => o) ∧
  (∀ (s : State) (a : Addr) (die asid b size leaf : Nat) (code : FMap Byte), a.toNat < 2 ^ 64 →
    s.translateOn die asid a.toNat = .page b size leaf → pteMig leaf ≠ 1 → pteX leaf = true →
    let bs := readBytes code (pageAddr leaf size a.toNat) 4
    ∃ w : W32, s.fetchWord die asid code a = .ok [w] ∧ w.toNat = ofBytes bs ∧
      decode bs = some (decodeWord w.toNat, [])) ∧
  (∀ (s : State) (l : List Turn) (i : Instr), s.inputs = .event i :: l →
    step s = match exec i { s with inputs := l } with
      | .next t => .next t.settleJournal
      | o => o) ∧
  ∀ (s : State) (l : List Turn) (u : Upset), s.inputs = .upset u :: l →
    step s = .next ({ s with inputs := l }.upset u).tick.settleJournal

/-- R26–R29 and the encodings that the spec writes out in its examples: one word of each family decodes to the
instruction it stands for, by the decoder of words, of table words and of bytes. A word with an unassigned opcode, with a
reserved field set, or with operands that its description forbids (ASPLIT with D equal to B, R125, and HARR of cluster
hurdle 64, R216) is no instruction. -/
def Obligations.DecodeWords : Prop :=
  (∀ e ∈ ([
      (0x1A820001, .aldiH1 2#4 1#16),
      (0x1C020080, .aldiH4 2#4 0x80#8),
      (0x2A101838, .vaddN64 8#6 6#6 7#6 0#2),
      (0x418A040D, .vfma 10#7 2#7 3#7 1#2),
      (0x53090880, .vcvtE4m3Rn 9#7 4#7 2#2 0#3 0#3),
      (0x88860A01, .vscanAddS32 6#7 5#7 1#2),
      (0x9001020C, .kand 1#3 1#3 3#3 0#2),
      (0xA19430A9, .vldB64 10#6 3#4 5#7 4#4 1#1),
      (0xA68C1201, .vstsB32 12#7 1#4 16#7 1#1),
      (0xB2143FE1, .redAddB64 10#6 3#4 127#7 1#1),
      (0xB8088000, .cpy 1#4 2#4),
      (0xC1294000, .qpopB32 5#4 20#7 0#4 0#1),
      (0xD0A7FFFC, .brc 2#3 0#1 0x7FFFC#19),
      (0xD3000A06, .loop 5#7 6#9),
      (0xDB800102, .harrw 1#1 2#8),
      (0xDD800000, .fenceR),
      (0xE0941081, .launch 20#7 1#4 4#7 0#4 1#1),
      (0xE1800810, .rsmp 4#7 4#6),
      (0xE5125FE1, .rredAddF32 18#7 5#4 127#7 1#1),
      (0xE7288000, .coll 5#4 2#4),
      (0xE9001523, .mmaE4m3E4m3 0#4 0#1 5#8 2#3 4#4 3#3),
      (0xF3050B04, .madd 5#4 5#4 2#2 4#7),
      (0xF8080030, .srd 8#7 0x30#16),
      (0xF8820021, .swrPoolsb 2#6),
      (0xFC140809, .callh 20#7 4#7 2#7 1#2)] : List (Nat × Instr)),
    decodeWord e.1 = .ok e.2 ∧ decodeTableWord 32 e.1 = some e.2 ∧
      decode (toBytes 4 e.1) = some (.ok e.2, [])) ∧
    decodeWord 0 = .error (.unassigned 0) ∧
    decodeWord 0x00800001 = .error (.badField 0x001) ∧
    decodeWord 0x1D020208 = .error (.illFormed 0x03A) ∧
    decodeWord 0xDA000140 = .error (.illFormed 0x1B4)

/-- R26–R28 and every encoding table: each well-formed instruction that has a word is read back from it, with every
operand at every value. -/
def Obligations.RoundTrip : Prop :=
  ∀ (i : Instr) (w : Nat), i.wellFormed = true → encode i = some w →
    w < 2 ^ 32 ∧ decodeWord w = .ok i ∧ decodeTableWord 32 w = some i

/-- R9, R541 and log entry 3: from every state whose memory is in its canonical form, every step leaves a memory in
its canonical form, whatever turn is taken. -/
def Obligations.MemoryKept : Prop :=
  ∀ (s t : State), s.Inv → step s = .next t → t.Inv

/-- R441, R541: no step, a reset among them, changes the fused rollback counter or the device's number. -/
def Obligations.FusesKept : Prop :=
  ∀ (s t : State), step s = .next t → t.rollback = s.rollback ∧ t.self = s.self
end

