-- ==== Sys2Proof/Laws/Map.lean ====
section
/-! SUPPORT. Laws of the sparse maps: what a read after a write gives, and that writes keep the
canonical form. -/

namespace Sys2Proof

variable {α : Type}

/-- A key that no entry lists reads as the default. -/
theorem mget_of_unlisted (d : α) (m : FMap α) (k : Nat) (h : ∀ e ∈ m, e.1 ≠ k) : mget d m k = d := by
  induction m with
  | nil => rfl
  | cons e t ih =>
    obtain ⟨k', v⟩ := e
    have h1 : k' ≠ k := h (k', v) (by simp)
    simp only [mget, if_neg h1]
    exact ih (fun e he => h e (by simp [he]))

theorem mdel_unlisted (m : FMap α) (k : Nat) : ∀ e ∈ mdel m k, e.1 ≠ k := by
  induction m with
  | nil => simp [mdel]
  | cons e t ih =>
    obtain ⟨k', v⟩ := e
    by_cases hk : k' = k
    · simpa [mdel, hk] using ih
    · intro e he
      simp only [mdel, if_neg hk, List.mem_cons] at he
      rcases he with rfl | he
      · exact hk
      · exact ih e he

theorem mem_mdel {m : FMap α} {k : Nat} {e : Nat × α} (h : e ∈ mdel m k) : e ∈ m := by
  induction m with
  | nil => simp [mdel] at h
  | cons x t ih =>
    obtain ⟨k', v⟩ := x
    by_cases hk : k' = k
    · simp only [mdel, if_pos hk] at h
      exact List.mem_cons_of_mem _ (ih h)
    · simp only [mdel, if_neg hk, List.mem_cons] at h
      rcases h with rfl | h
      · simp
      · exact List.mem_cons_of_mem _ (ih h)

theorem mget_mdel_same (d : α) (m : FMap α) (k : Nat) : mget d (mdel m k) k = d :=
  mget_of_unlisted d _ _ (mdel_unlisted m k)

theorem mget_mdel_other (d : α) (m : FMap α) {k j : Nat} (h : k ≠ j) : mget d (mdel m k) j = mget d m j := by
  induction m with
  | nil => rfl
  | cons e t ih =>
    obtain ⟨k', v⟩ := e
    by_cases hk : k' = k
    · subst hk; simp [mdel, mget, h, ih]
    · simp [mdel, mget, hk, ih]

theorem mget_mins (d : α) (m : FMap α) (k : Nat) (v : α) (j : Nat) (h : ∀ e ∈ m, e.1 ≠ k) :
    mget d (mins m k v) j = if k = j then v else mget d m j := by
  induction m with
  | nil => simp [mins, mget]
  | cons e t ih =>
    obtain ⟨k', v'⟩ := e
    have h1 : k' ≠ k := h (k', v') (by simp)
    have ih' := ih (fun e he => h e (by simp [he]))
    by_cases hlt : k < k'
    · simp [mins, hlt, mget]
    · by_cases hj : k' = j
      · subst hj
        simp [mins, hlt, mget, Ne.symm h1]
      · simp [mins, hlt, mget, hj, ih']

/-- A read after a write of one key. -/
@[simp] theorem mget_mput (d : α) (m : FMap α) (k : Nat) (v : α) (j : Nat) :
    mget d (mput m k v) j = if k = j then v else mget d m j := by
  rw [mput, mget_mins d _ k v j (mdel_unlisted m k)]
  by_cases h : k = j
  · simp [h]
  · simp [h, mget_mdel_other d m h]

/-- A read after a write in a map with a default. -/
@[simp] theorem mget_mset [DecidableEq α] (d : α) (m : FMap α) (k : Nat) (v : α) (j : Nat) :
    mget d (mset d m k v) j = if k = j then v else mget d m j := by
  by_cases hv : v = d
  · by_cases h : k = j
    · subst h; simp [mset, hv, mget_mdel_same]
    · simp [mset, hv, h, mget_mdel_other d m h]
  · simp [mset, hv]

theorem mfind_mdel_same (m : FMap α) (k : Nat) : mfind (mdel m k) k = none := by
  induction m with
  | nil => rfl
  | cons e t ih =>
    obtain ⟨k', v⟩ := e
    by_cases hk : k' = k
    · simp [mdel, hk, ih]
    · simp [mdel, mfind, hk, ih]

theorem mfind_mdel_other (m : FMap α) {k j : Nat} (h : k ≠ j) : mfind (mdel m k) j = mfind m j := by
  induction m with
  | nil => rfl
  | cons e t ih =>
    obtain ⟨k', v⟩ := e
    by_cases hk : k' = k
    · subst hk; simp [mdel, mfind, h, ih]
    · simp [mdel, mfind, hk, ih]

theorem mfind_mins (m : FMap α) (k : Nat) (v : α) (j : Nat) (h : ∀ e ∈ m, e.1 ≠ k) :
    mfind (mins m k v) j = if k = j then some v else mfind m j := by
  induction m with
  | nil => simp [mins, mfind]
  | cons e t ih =>
    obtain ⟨k', v'⟩ := e
    have h1 : k' ≠ k := h (k', v') (by simp)
    have ih' := ih (fun e he => h e (by simp [he]))
    by_cases hlt : k < k'
    · simp [mins, hlt, mfind]
    · by_cases hj : k' = j
      · subst hj
        simp [mins, hlt, mfind, Ne.symm h1]
      · simp [mins, hlt, mfind, hj, ih']

/-- A lookup after a write of one key. -/
@[simp] theorem mfind_mput (m : FMap α) (k : Nat) (v : α) (j : Nat) :
    mfind (mput m k v) j = if k = j then some v else mfind m j := by
  rw [mput, mfind_mins _ k v j (mdel_unlisted m k)]
  by_cases h : k = j
  · simp [h]
  · simp [h, mfind_mdel_other m h]

/-- A listed key reads as its value. -/
theorem mget_of_mfind (d : α) {m : FMap α} {k : Nat} {v : α} (h : mfind m k = some v) : mget d m k = v := by
  induction m with
  | nil => simp [mfind] at h
  | cons e t ih =>
    obtain ⟨k', v'⟩ := e
    by_cases hk : k' = k
    · simpa [mfind, mget, hk] using h
    · simp only [mfind, if_neg hk] at h
      simp [mget, hk, ih h]

/-! ### The canonical form -/

/-- Keys strictly rising, as a chain. -/
theorem mrising_iff (m : FMap α) : mrising m = true ↔ m.Pairwise (fun a b => a.1 < b.1) := by
  induction m with
  | nil => simp [mrising]
  | cons e t ih =>
    obtain ⟨k, v⟩ := e
    cases t with
    | nil => simp [mrising]
    | cons e' t' =>
      obtain ⟨k', v'⟩ := e'
      rw [mrising, Bool.and_eq_true, decide_eq_true_eq, ih, List.pairwise_cons (a := (k, v))]
      constructor
      · rintro ⟨h1, h2⟩
        refine ⟨?_, h2⟩
        intro x hx
        rcases List.mem_cons.mp hx with rfl | hx
        · exact h1
        · exact lt_trans h1 ((List.pairwise_cons.mp h2).1 x hx)
      · rintro ⟨h1, h2⟩
        exact ⟨h1 (k', v') (by simp), h2⟩

theorem mem_mins {m : FMap α} {k : Nat} {v : α} {e : Nat × α} (h : e ∈ mins m k v) : e = (k, v) ∨ e ∈ m := by
  induction m with
  | nil => simp [mins] at h; exact .inl h
  | cons x t ih =>
    obtain ⟨k', v'⟩ := x
    by_cases hlt : k < k'
    · simp only [mins, if_pos hlt, List.mem_cons] at h
      rcases h with h | h | h
      · exact .inl h
      · exact .inr (by simp [h])
      · exact .inr (by simp [h])
    · simp only [mins, if_neg hlt, List.mem_cons] at h
      rcases h with h | h
      · exact .inr (by simp [h])
      · rcases ih h with h | h
        · exact .inl h
        · exact .inr (by simp [h])

theorem mdel_pairwise {m : FMap α} (k : Nat) (h : m.Pairwise (fun a b => a.1 < b.1)) :
    (mdel m k).Pairwise (fun a b => a.1 < b.1) := by
  induction m with
  | nil => simp [mdel]
  | cons e t ih =>
    obtain ⟨k', v⟩ := e
    rw [List.pairwise_cons] at h
    by_cases hk : k' = k
    · simpa [mdel, hk] using ih h.2
    · simp only [mdel, if_neg hk, List.pairwise_cons]
      exact ⟨fun x hx => h.1 x (mem_mdel hx), ih h.2⟩

theorem mins_pairwise {m : FMap α} (k : Nat) (v : α) (hk : ∀ e ∈ m, e.1 ≠ k)
    (h : m.Pairwise (fun a b => a.1 < b.1)) : (mins m k v).Pairwise (fun a b => a.1 < b.1) := by
  induction m with
  | nil => simp [mins]
  | cons e t ih =>
    obtain ⟨k', v'⟩ := e
    have h0 := h
    rw [List.pairwise_cons] at h
    by_cases hlt : k < k'
    · simp only [mins, if_pos hlt, List.pairwise_cons]
      refine ⟨?_, ?_, h.2⟩
      · intro x hx
        rcases List.mem_cons.mp hx with rfl | hx
        · exact hlt
        · exact lt_trans hlt (h.1 x hx)
      · exact h.1
    · simp only [mins, if_neg hlt, List.pairwise_cons]
      refine ⟨?_, ih (fun e he => hk e (by simp [he])) h.2⟩
      intro x hx
      rcases mem_mins hx with rfl | hx
      · have := hk (k', v') (by simp)
        simp at this ⊢
        omega
      · exact h.1 x hx

/-- Removing a key keeps the canonical form. -/
theorem mwf_mdel [DecidableEq α] {d : α} {m : FMap α} (k : Nat) (h : mwf d m = true) : mwf d (mdel m k) = true := by
  simp only [mwf, Bool.and_eq_true, List.all_eq_true, mrising_iff] at h ⊢
  exact ⟨mdel_pairwise k h.1, fun e he => h.2 e (mem_mdel he)⟩

/-- A write keeps the canonical form. -/
theorem mwf_mset [DecidableEq α] {d : α} {m : FMap α} (k : Nat) (v : α) (h : mwf d m = true) :
    mwf d (mset d m k v) = true := by
  by_cases hv : v = d
  · simpa [mset, hv] using mwf_mdel k h
  · have h1 := mwf_mdel k h
    simp only [mwf, Bool.and_eq_true, List.all_eq_true, mrising_iff] at h1
    simp only [mset, if_neg hv, mput, mwf, Bool.and_eq_true, List.all_eq_true, mrising_iff]
    refine ⟨mins_pairwise k v (mdel_unlisted m k) h1.1, ?_⟩
    intro e he
    rcases mem_mins he with rfl | he
    · simp [hv]
    · exact h1.2 e he

/-- Two maps in canonical form that read alike are the same list. -/
theorem mwf_ext [DecidableEq α] {d : α} : ∀ {m n : FMap α}, mwf d m = true → mwf d n = true →
    (∀ k, mget d m k = mget d n k) → m = n := by
  intro m
  induction m with
  | nil =>
    intro n _ hn h
    cases n with
    | nil => rfl
    | cons e t =>
      obtain ⟨k, v⟩ := e
      have := h k
      simp [mwf, mget] at this hn
      exact absurd this.symm hn.2.1
  | cons e t ih =>
    intro n hm hn h
    obtain ⟨k, v⟩ := e
    simp only [mwf, Bool.and_eq_true, List.all_eq_true, mrising_iff, List.pairwise_cons] at hm
    cases n with
    | nil =>
      have := h k
      have h2 := hm.2 (k, v) (by simp)
      simp [mget] at this h2
      exact absurd this h2
    | cons e' t' =>
      obtain ⟨k', v'⟩ := e'
      simp only [mwf, Bool.and_eq_true, List.all_eq_true, mrising_iff, List.pairwise_cons] at hn
      have hv : v ≠ d := by simpa using hm.2 (k, v) (by simp)
      have hv' : v' ≠ d := by simpa using hn.2 (k', v') (by simp)
      have low : ∀ j, j ≤ k → mget d t j = d := fun j hj =>
        mget_of_unlisted d t j (fun e he => by have := hm.1.1 e he; omega)
      have low' : ∀ j, j ≤ k' → mget d t' j = d := fun j hj =>
        mget_of_unlisted d t' j (fun e he => by have := hn.1.1 e he; omega)
      have hkk : k = k' := by
        rcases Nat.lt_trichotomy k k' with hlt | heq | hgt
        · have := h k
          simp [mget, Nat.ne_of_gt hlt, low' k (le_of_lt hlt)] at this
          exact absurd this hv
        · exact heq
        · have := h k'
          simp [mget, Nat.ne_of_gt hgt, low k' (le_of_lt hgt)] at this
          exact absurd this.symm hv'
      subst hkk
      have hvv : v = v' := by simpa [mget] using h k
      subst hvv
      have ht : t = t' := by
        apply ih
        · simp only [mwf, Bool.and_eq_true, List.all_eq_true, mrising_iff]
          exact ⟨hm.1.2, fun e he => hm.2 e (by simp [he])⟩
        · simp only [mwf, Bool.and_eq_true, List.all_eq_true, mrising_iff]
          exact ⟨hn.1.2, fun e he => hn.2 e (by simp [he])⟩
        · intro j
          by_cases hj : k = j
          · subst hj; rw [low k le_rfl, low' k le_rfl]
          · simpa [mget, hj] using h j
      rw [ht]

end Sys2Proof
end

