-- ==== Sys2Proof/Laws/Memory.lean ====
section
/-! SUPPORT. Laws of device memory: a read after a write, and the canonical form. -/

namespace Sys2Proof.Machine

/-- A byte read after a byte is written. -/
@[simp] theorem readByte_writeByte (m : FMap Byte) (a : Nat) (b : Byte) (x : Nat) :
    readByte (writeByte m a b) x = if a = x then b else readByte m x := by
  simp [readByte, writeByte]

/-- A byte write keeps the canonical form. -/
theorem wf_writeByte {m : FMap Byte} (a : Nat) (b : Byte) (h : Memory.wf m = true) :
    Memory.wf (writeByte m a b) = true := mwf_mset a b h

/-- Zeroed units read 0, and every other byte as before. -/
theorem readByte_zeroUnits (z : Nat → Bool) (m : FMap Byte) (a : Nat) :
    readByte (zeroUnits z m) a = if z (a / 64) = true then 0#8 else readByte m a := by
  induction m with
  | nil => simp [zeroUnits, readByte, mget]
  | cons e t ih =>
    obtain ⟨k, v⟩ := e
    simp only [zeroUnits, readByte, List.filter_cons, mget] at ih ⊢
    by_cases hk : k = a
    · subst hk
      by_cases hz : z (k / 64) = true
      · simpa [hz] using ih
      · simp [hz, mget]
    · by_cases hz : z (k / 64) = true <;> simp [hz, hk, mget, ih]

/-- Zeroing units keeps the canonical form. -/
theorem wf_zeroUnits (z : Nat → Bool) {m : FMap Byte} (h : Memory.wf m = true) : Memory.wf (zeroUnits z m) = true := by
  rw [Memory.wf, mwf, Bool.and_eq_true, mrising_iff, List.all_eq_true] at h ⊢
  exact ⟨h.1.filter _, fun e he => h.2 e (List.mem_filter.mp he).1⟩

/-- Consecutive writes keep the canonical form. -/
theorem wf_writeBytes (bs : List Byte) : ∀ {m : FMap Byte} (a : Nat), Memory.wf m = true →
    Memory.wf (writeBytes m a bs) = true := by
  induction bs with
  | nil => intro m a h; exact h
  | cons b t ih => intro m a h; exact ih (a + 1) (wf_writeByte a b h)

/-- A little-endian write keeps the canonical form. -/
theorem wf_writeNat {m : FMap Byte} (a n x : Nat) (h : Memory.wf m = true) :
    Memory.wf (writeNat m a n x) = true := wf_writeBytes _ a h

/-- Writes of a list of pairs keep the canonical form. -/
theorem wf_foldl_writeByte (ws : List (Nat × Byte)) : ∀ {m : FMap Byte}, Memory.wf m = true →
    Memory.wf (ws.foldl (fun m w => writeByte m w.1 w.2) m) = true := by
  induction ws with
  | nil => intro m h; exact h
  | cons w t ih => intro m h; exact ih (wf_writeByte w.1 w.2 h)

/-- A byte outside consecutive writes reads as before. -/
theorem readByte_writeBytes_outside (bs : List Byte) : ∀ (m : FMap Byte) (a x : Nat),
    (x < a ∨ a + bs.length ≤ x) → readByte (writeBytes m a bs) x = readByte m x := by
  induction bs with
  | nil => intro m a x _; rfl
  | cons b t ih =>
    intro m a x h
    rw [List.length_cons] at h
    rw [writeBytes, ih _ _ _ (by omega), readByte_writeByte, if_neg (by omega)]

/-- A byte inside consecutive writes reads as written. -/
theorem readByte_writeBytes_inside (bs : List Byte) : ∀ (m : FMap Byte) (a i : Nat), i < bs.length →
    readByte (writeBytes m a bs) (a + i) = bs.getD i 0#8 := by
  induction bs with
  | nil => intro m a i h; simp at h
  | cons b t ih =>
    intro m a i h
    cases i with
    | zero =>
      rw [writeBytes, Nat.add_zero, readByte_writeBytes_outside t _ _ _ (by omega)]
      simp
    | succ i =>
      rw [writeBytes, show a + (i + 1) = (a + 1) + i by omega, ih _ _ _ (by simpa using h)]
      simp

/-- Bytes read back where they were written. -/
theorem readBytes_writeBytes (bs : List Byte) (m : FMap Byte) (a : Nat) :
    readBytes (writeBytes m a bs) a bs.length = bs := by
  suffices h : ∀ (n i : Nat), i + n = bs.length →
      readBytes (writeBytes m a bs) (a + i) n = bs.drop i by
    simpa using h bs.length 0 (by omega)
  intro n
  induction n with
  | zero => intro i hi; simp [readBytes, List.drop_eq_nil_of_le (show bs.length ≤ i by omega)]
  | succ n ih =>
    intro i hi
    have hlt : i < bs.length := by omega
    rw [readBytes, readByte_writeBytes_inside bs m a i hlt, show a + i + 1 = a + (i + 1) by omega,
      ih (i + 1) (by omega), List.drop_eq_getElem_cons hlt]
    simp [List.getD, hlt]

theorem ofBytes_toBytes (n : Nat) : ∀ x, ofBytes (toBytes n x) = x % 256 ^ n := by
  induction n with
  | zero => intro x; simp [toBytes, ofBytes, Nat.mod_one]
  | succ n ih =>
    intro x
    rw [toBytes, ofBytes, ih, pow_succ']
    simp only [BitVec.toNat_ofNat]
    rw [Nat.mod_mul]
    simp

@[simp] theorem length_toBytes (n x : Nat) : (toBytes n x).length = n := by
  induction n generalizing x with
  | zero => rfl
  | succ n ih => simp [toBytes, ih]

/-- A little-endian number reads back modulo its width. -/
theorem readNat_writeNat (m : FMap Byte) (a n x : Nat) : readNat (writeNat m a n x) a n = x % 256 ^ n := by
  have := readBytes_writeBytes (toBytes n x) m a
  rw [length_toBytes] at this
  rw [readNat, writeNat, this, ofBytes_toBytes]

end Sys2Proof.Machine
end

