-- ==== Sys2Proof/Laws/Ops.lean ====
section
/-! SUPPORT. What the shared operations over registers, lanes, teams and cores do; the end of an issue. -/

namespace Sys2Proof.Machine

/-! ### Registers -/

@[simp] theorem Heat.v_setV (h : Heat) (r l : Nat) (x : W32) (r' l' : Nat) :
    (h.setV r l x).v r' l' = if 32 * r + l = 32 * r' + l' then x else h.v r' l' := by
  simp [Heat.v, Heat.setV]

@[simp] theorem Heat.sr_setS (h : Heat) (r : Nat) (x : W64) (r' : Nat) :
    (h.setS r x).sr r' = if r = r' then x else h.sr r' := by simp [Heat.sr, Heat.setS]

@[simp] theorem Heat.ar_setA (h : Heat) (r : Nat) (x : Addr) (r' : Nat) :
    (h.setA r x).ar r' = if r = r' then x else h.ar r' := by simp [Heat.ar, Heat.setA]

/-- A predicate after a write: k0 reads 1 and takes no write (R43). -/
theorem Heat.k_setK (h : Heat) (r l : Nat) (x : Bool) (r' l' : Nat) :
    (h.setK r l x).k r' l' = if r ≠ 0 ∧ r' ≠ 0 ∧ 32 * r + l = 32 * r' + l' then x else h.k r' l' := by
  by_cases hr : r = 0
  · simp [Heat.setK, hr]
  · by_cases hr' : r' = 0
    · simp [Heat.k, hr']
    · simp [Heat.k, Heat.setK, hr, hr']

@[simp] theorem Heat.lane_setLane (h : Heat) (l : Nat) (x : Lane) (l' : Nat) :
    (h.setLane l x).lane l' = if l = l' then x else h.lane l' := by simp [Heat.lane, Heat.setLane]

/-! ### Lanes of a mask -/

theorem inMask_lt {m : Mask} {l : Nat} (h : inMask m l = true) : l < 32 := by
  by_contra hl
  simp [inMask, BitVec.getLsbD_of_ge m l (by omega)] at h

@[simp] theorem mem_lanesOf {m : Mask} {l : Nat} : l ∈ lanesOf m ↔ inMask m l = true := by
  simp only [lanesOf, upto, List.mem_filter, List.mem_range]
  exact ⟨fun h => h.2, fun h => ⟨inMask_lt h, h⟩⟩

theorem nodup_lanesOf (m : Mask) : (lanesOf m).Nodup := List.nodup_range.filter _

theorem foldl_mask_aux (p : Nat → Bool) : ∀ n, n ≤ 32 →
    (List.range n).foldl (fun acc l => if p l then acc + 2 ^ l else acc) 0 < 2 ^ n ∧
    ∀ i, Nat.testBit ((List.range n).foldl (fun acc l => if p l then acc + 2 ^ l else acc) 0) i =
      (decide (i < n) && p i) := by
  intro n
  induction n with
  | zero => intro _; simp
  | succ n ih =>
    intro hn
    obtain ⟨h1, h2⟩ := ih (by omega)
    rw [List.range_succ, List.foldl_append]
    simp only [List.foldl_cons, List.foldl_nil]
    generalize hx : (List.range n).foldl (fun acc l => if p l then acc + 2 ^ l else acc) 0 = x at h1 h2
    by_cases hp : p n
    · simp only [hp, if_true]
      refine ⟨by rw [pow_succ]; omega, ?_⟩
      intro i
      have hor : x + 2 ^ n = 2 ^ n ||| x := by
        have := Nat.two_pow_add_eq_or_of_lt h1 1
        rw [Nat.mul_one] at this
        rw [Nat.add_comm, this]
      rw [hor, Nat.testBit_or, h2 i, Nat.testBit_two_pow]
      by_cases hi : i = n
      · subst hi; simp [hp]
      · have h3 : (i < n) ↔ (i < n + 1) := by omega
        simp [Ne.symm hi, h3]
    · simp only [hp]
      refine ⟨by simp only [Bool.false_eq_true, if_false]; rw [pow_succ]; omega, ?_⟩
      intro i
      simp only [Bool.false_eq_true, if_false, h2 i]
      by_cases hi : i = n
      · subst hi; simp [hp]
      · have : (i < n) ↔ (i < n + 1) := by omega
        simp [this]

/-- A mask made from a predicate over lanes. -/
@[simp] theorem inMask_maskOf (p : Nat → Bool) (l : Nat) : inMask (maskOf p) l = (decide (l < 32) && p l) := by
  obtain ⟨_, h⟩ := foldl_mask_aux p 32 (le_refl 32)
  simp only [inMask, maskOf, upto, BitVec.getLsbD_ofNat, h l]
  by_cases hl : l < 32 <;> simp [hl]

@[simp] theorem inMask_taking (h : Heat) (m : Mask) (p l : Nat) :
    inMask (h.taking m p) l = (inMask m l && h.k p l) := by
  simp only [Heat.taking, inMask_maskOf]
  by_cases hm : inMask m l = true
  · simp [hm, inMask_lt hm]
  · simp [hm]

theorem inMask_or (m n : Mask) (l : Nat) : inMask (m ||| n) l = (inMask m l || inMask n l) := by
  simp [inMask]

/-- A change per lane of a property of the heat that no other lane's change touches. -/
theorem foldl_lanes {β : Type} (f : Heat → Nat → Heat) (g : Heat → Nat → β) (val : Heat → Nat → β) :
    ∀ (ls : List Nat) (h : Heat), ls.Nodup →
      (∀ (y : Heat) (l x : Nat), l ∈ ls → x ≠ l → g (f y l) x = g y x) →
      (∀ (y : Heat) (l : Nat), l ∈ ls → (∀ x, x ∈ l :: [] → g y x = g h x) → g (f y l) l = val h l) →
      ∀ x, g (ls.foldl f h) x = if x ∈ ls then val h x else g h x := by
  intro ls
  induction ls using List.reverseRecOn with
  | nil => intro h _ _ _ x; simp
  | append_singleton ls a ih =>
    intro h hn hother hsame x
    rw [List.nodup_append] at hn
    have hna : a ∉ ls := fun ha => hn.2.2 a ha a (by simp) rfl
    have ih' := ih h hn.1 (fun y l x hl hx => hother y l x (by simp [hl]) hx)
      (fun y l hl hy => hsame y l (by simp [hl]) hy)
    rw [List.foldl_append, List.foldl_cons, List.foldl_nil]
    by_cases hx : x = a
    · subst hx
      rw [hsame _ x (by simp) (fun z hz => ?_)]
      · simp
      · simp at hz; subst hz; rw [ih' z]; simp [hna]
    · rw [hother _ a x (by simp) hx, ih' x]
      simp [hx]

/-- Writing one vector register in the lanes of a mask. -/
theorem Heat.v_forLanes_setV (h : Heat) (m : Mask) (d : Nat) (val : Nat → W32) (r l : Nat) (hl : l < 32) :
    (h.forLanes m (fun y l => y.setV d l (val l))).v r l = if r = d ∧ inMask m l = true then val l else h.v r l := by
  by_cases hr : r = d
  · subst hr
    have := foldl_lanes (fun y l => y.setV r l (val l)) (fun y l => y.v r l) (fun _ l => val l) (lanesOf m) h
      (nodup_lanesOf m) (by intro y l x _ hx; simp; omega) (by intro y l _ _; simp) l
    rw [Heat.forLanes, this]
    simp
  · have hk : ∀ (ls : List Nat) (y : Heat), (∀ x ∈ ls, x < 32) →
        (ls.foldl (fun y l => y.setV d l (val l)) y).v r l = y.v r l := by
      intro ls
      induction ls with
      | nil => intro y _; rfl
      | cons a t ih =>
        intro y ha
        have h1 := ha a (by simp)
        rw [List.foldl_cons, ih _ (fun x hx => ha x (by simp [hx])), Heat.v_setV, if_neg (by omega)]
    rw [Heat.forLanes, hk _ _ (fun x hx => inMask_lt (mem_lanesOf.mp hx))]
    simp [hr]

/-- Writing one predicate in the lanes of a mask. -/
theorem Heat.k_forLanes_setK (h : Heat) (m : Mask) (d : Nat) (val : Nat → Bool) (r l : Nat) (hl : l < 32) :
    (h.forLanes m (fun y l => y.setK d l (val l))).k r l =
      if r ≠ 0 ∧ r = d ∧ inMask m l = true then val l else h.k r l := by
  have hk : ∀ (ls : List Nat) (y : Heat), ls.Nodup → (∀ x ∈ ls, x < 32) →
      (ls.foldl (fun y l => y.setK d l (val l)) y).k r l = if r ≠ 0 ∧ r = d ∧ l ∈ ls then val l else y.k r l := by
    intro ls
    induction ls with
    | nil => intro y _ _; simp
    | cons a t ih =>
      intro y hn ha
      have h1 := ha a (by simp)
      rw [List.nodup_cons] at hn
      rw [List.foldl_cons, ih _ hn.2 (fun x hx => ha x (by simp [hx])), Heat.k_setK]
      by_cases hr : r ≠ 0 ∧ r = d
      · obtain ⟨h2, h3⟩ := hr
        subst h3
        by_cases hla : l = a
        · subst hla
          simp [hn.1, h2]
        · simp [h2, hla, show ¬ a = l from fun e => hla e.symm]
      · rw [if_neg (by tauto), if_neg, if_neg (by tauto)]
        rintro ⟨h4, h5, h6⟩
        exact hr ⟨h5, by omega⟩
  rw [Heat.forLanes, hk _ _ (nodup_lanesOf m) (fun x hx => inMask_lt (mem_lanesOf.mp hx))]
  simp

/-- A property of a heat that each step of a lane loop keeps. -/
theorem Heat.forLanes_keeps {β : Type} (g : Heat → β) (f : Heat → Nat → Heat) (hf : ∀ y l, g (f y l) = g y) (h : Heat)
    (m : Mask) : g (h.forLanes m f) = g h := by
  have : ∀ (ls : List Nat) (y : Heat), g (ls.foldl f y) = g y := by
    intro ls
    induction ls with
    | nil => intro y; rfl
    | cons a t ih => intro y; rw [List.foldl_cons, ih, hf]
  exact this _ h

/-! ### Teams, cores, heats of the state -/

@[simp] theorem State.core_putCore (s : State) (c : Nat) (k : Core) (d : Nat) :
    (s.putCore c k).core d = if c = d then k else s.core d := by simp [State.core, State.putCore]

@[simp] theorem State.team?_putTeam (s : State) (t : Nat) (x : Team) (u : Nat) :
    (s.putTeam t x).team? u = if t = u then some x else s.team? u := by simp [State.team?, State.putTeam]

@[simp] theorem State.team?_putCore (s : State) (c : Nat) (k : Core) (u : Nat) :
    (s.putCore c k).team? u = s.team? u := rfl

@[simp] theorem State.core_putTeam (s : State) (t : Nat) (x : Team) (c : Nat) :
    (s.putTeam t x).core c = s.core c := rfl

@[simp] theorem State.core_tick (s : State) (c : Nat) : s.tick.core c = s.core c := rfl

@[simp] theorem State.team?_tick (s : State) (u : Nat) : s.tick.team? u = s.team? u := rfl

@[simp] theorem Team.heat?_putHeat (x : Team) (h : Nat) (y : Heat) (g : Nat) :
    (x.putHeat h y).heat? g = if h = g then some y else x.heat? g := by simp [Team.heat?, Team.putHeat]

/-- Replacing an existing heat of an existing team. -/
theorem State.putHeat_team {s : State} {t h : Nat} {y z : Heat} (ht : ¬ trapBase ≤ t) (hz : s.heat? t h = some z) :
    ∃ x, s.team? t = some x ∧ s.putHeat t h y = s.putTeam t (x.putHeat h y) := by
  simp only [State.heat?, if_neg ht] at hz
  cases hx : s.team? t with
  | none => simp [hx] at hz
  | some x => exact ⟨x, rfl, by simp [State.putHeat, ht, State.modTeam, hx]⟩

theorem Team.still_putHeat (x : Team) (h : Nat) (y : Heat) : (x.putHeat h y).still = x.still := rfl

/-- Counting events changes nothing but event counts. -/
theorem State.count_spec (s : State) (c src n : Nat) :
    ∃ k, s.count c src n = s.putCore c k ∧ k.trap = (s.core c).trap ∧ k.still = (s.core c).still ∨
      s.count c src n = s := by
  simp only [State.count]
  split
  · exact ⟨{}, .inr rfl⟩
  · exact ⟨_, .inl ⟨rfl, rfl, rfl⟩⟩

/-- The heat and everything else after a heat has been replaced by the issuer. -/
theorem State.putCurHeat_spec {s : State} {h : Heat} (hs : s.curHeat? = some h) (y : Heat) :
    (s.putCurHeat y).curHeat? = some y ∧ (s.putCurHeat y).cur = s.cur ∧
    (s.putCurHeat y).device = s.device ∧
    (∀ u g, ¬ s.issues u g → (s.putCurHeat y).heat? u g = s.heat? u g) ∧
    (∀ u, ((s.putCurHeat y).team? u).map Team.still = (s.team? u).map Team.still) ∧
    (∀ c, ((s.putCurHeat y).core c).still = (s.core c).still) := by
  cases hw : s.cur.who with
  | seq t => simp [State.curHeat?, hw] at hs
  | trap c =>
    simp only [State.putCurHeat, hw]
    refine ⟨?_, rfl, rfl, ?_, ?_, ?_⟩
    · have : (s.putCore c { s.core c with trap := y }).cur.who = .trap c := hw
      simp [State.curHeat?, this]
    · intro u g hu
      simp only [State.issues, hw] at hu
      simp only [State.heat?, State.core_putCore, State.team?_putCore]
      by_cases hb : trapBase ≤ u
      · have : ¬ c = u - trapBase := by omega
        simp [hb, this]
      · simp [hb]
    · intro u; rfl
    · intro d
      by_cases hd : c = d
      · subst hd; simp [Core.still]
      · simp [hd]
  | heat t g =>
    simp only [State.curHeat?, hw] at hs
    simp only [State.putCurHeat, hw]
    by_cases hb : trapBase ≤ t
    · have hput : s.putHeat t g y = s.putCore (t - trapBase) { s.core (t - trapBase) with trap := y } := by
        simp [State.putHeat, hb]
      rw [hput]
      refine ⟨?_, rfl, rfl, ?_, ?_, ?_⟩
      · have : (s.putCore (t - trapBase) { s.core (t - trapBase) with trap := y }).cur.who = .heat t g := hw
        simp [State.curHeat?, this, State.heat?, hb]
      · intro u g' hu
        simp only [State.issues, hw] at hu
        simp only [State.heat?, State.core_putCore, State.team?_putCore]
        by_cases hb' : trapBase ≤ u
        · have : ¬ t - trapBase = u - trapBase := fun e => hu ⟨by omega, .inl hb⟩
          simp [hb', this]
        · simp [hb']
      · intro u; rfl
      · intro d
        by_cases hd : t - trapBase = d
        · subst hd; simp [Core.still]
        · simp [hd]
    · obtain ⟨x, hx, hput⟩ := State.putHeat_team (y := y) hb hs
      rw [hput]
      refine ⟨?_, rfl, rfl, ?_, ?_, ?_⟩
      · have : (s.putTeam t (x.putHeat g y)).cur.who = .heat t g := hw
        simp [State.curHeat?, this, State.heat?, hb]
      · intro u g' hu
        simp only [State.issues, hw] at hu
        simp only [State.heat?, State.core_putTeam, State.team?_putTeam]
        by_cases hb' : trapBase ≤ u
        · simp [hb']
        · by_cases htu : t = u
          · subst htu
            have : ¬ g = g' := fun e => hu ⟨rfl, .inr e.symm⟩
            simp [hb', hx, this]
          · simp [hb', htu]
      · intro u
        by_cases htu : t = u
        · subst htu; simp [hx, Team.still_putHeat]
        · simp [htu]
      · intro d; rfl

theorem State.stamp_putCurHeat (s : State) (y : Heat) : (s.putCurHeat y).stamp = s.stamp := by
  simp only [State.putCurHeat, State.putHeat, State.modTeam, State.putCore, State.putTeam]
  repeat' split
  all_goals rfl

theorem State.stamp_count (s : State) (c src n : Nat) : (s.count c src n).stamp = s.stamp := by
  simp only [State.count]
  split <;> rfl

theorem State.stamp_noteIssue (s : State) : s.noteIssue.stamp = s.stamp := by
  simp only [State.noteIssue]
  split
  · rw [State.stamp_count]; rfl
  · rfl

/-- A change of bookkeeping of a core that leaves its trap heat alone. -/
theorem State.putCore_spec {s : State} {c : Nat} {k : Core} (h1 : k.trap = (s.core c).trap)
    (h2 : k.still = (s.core c).still) :
    (s.putCore c k).curHeat? = s.curHeat? ∧ (s.putCore c k).cur = s.cur ∧
    (s.putCore c k).device = s.device ∧
    (∀ u g, (s.putCore c k).heat? u g = s.heat? u g) ∧
    (∀ u, (s.putCore c k).team? u = s.team? u) ∧
    (∀ d, ((s.putCore c k).core d).still = (s.core d).still) := by
  have hheat : ∀ u g, (s.putCore c k).heat? u g = s.heat? u g := by
    intro u g
    simp only [State.heat?, State.core_putCore, State.team?_putCore]
    by_cases hb : trapBase ≤ u
    · by_cases hc : c = u - trapBase
      · rw [if_pos hb, if_pos hb, if_pos hc, h1, hc]
      · simp [hb, hc]
    · simp [hb]
  have hcur : (s.putCore c k).cur = s.cur := rfl
  refine ⟨?_, rfl, rfl, hheat, fun _ => rfl, ?_⟩
  · simp only [State.curHeat?, hcur]
    cases s.cur.who with
    | heat t h => exact hheat t h
    | seq t => rfl
    | trap d =>
      by_cases hd : c = d
      · subst hd; simp [h1]
      · simp [hd]
  · intro d
    by_cases hd : c = d
    · subst hd; simp [h2]
    · simp [hd]

/-- The bookkeeping of an issue. -/
theorem State.noteIssue_spec (s : State) :
    s.noteIssue.curHeat? = s.curHeat? ∧ s.noteIssue.cur = s.cur ∧
    s.noteIssue.device = s.device ∧
    (∀ u g, s.noteIssue.heat? u g = s.heat? u g) ∧
    (∀ u, s.noteIssue.team? u = s.team? u) ∧
    (∀ d, (s.noteIssue.core d).still = (s.core d).still) := by
  cases hw : s.cur.who with
  | heat t h =>
    simp only [State.noteIssue, hw]
    generalize hk : ({ s.core s.cur.core with
      issued := (h % 4) :: (s.core s.cur.core).issued
      lastHeat := some (max h ((s.core s.cur.core).lastHeat.getD 0)) } : Core) = k
    have h1 := State.putCore_spec (s := s) (c := s.cur.core) (k := k) (by rw [← hk]) (by rw [← hk]; rfl)
    obtain ⟨k', hk'⟩ := State.count_spec (s.putCore s.cur.core k) s.cur.core 2 1
    rcases hk' with ⟨e, e1, e2⟩ | e
    · rw [e]
      have h2 := State.putCore_spec e1 e2
      exact ⟨h2.1.trans h1.1, h2.2.1.trans h1.2.1, rfl, fun u g => (h2.2.2.2.1 u g).trans (h1.2.2.2.1 u g),
        fun u => rfl, fun d => (h2.2.2.2.2.2 d).trans (h1.2.2.2.2.2 d)⟩
    · rw [e]; exact h1
  | seq t =>
    have e : s.noteIssue = s := by simp only [State.noteIssue, hw]
    rw [e]; exact ⟨rfl, rfl, rfl, fun _ _ => rfl, fun _ => rfl, fun _ => rfl⟩
  | trap c =>
    have e : s.noteIssue = s := by simp only [State.noteIssue, hw]
    rw [e]; exact ⟨rfl, rfl, rfl, fun _ _ => rfl, fun _ => rfl, fun _ => rfl⟩

/-- The state after a word that went on: the issuing heat retired, nothing else changed. -/
theorem State.finishBy_spec {s : State} {h : Heat} (hs : s.curHeat? = some h) (h1 : Heat) (f : Nat → Lane → Lane) :
    (s.finishBy h1 f).curHeat? = some (h1.retire s.cur s.stamp (s.core s.cur.core).cycles.toNat f) ∧
      OnlyIssuer s (s.finishBy h1 f) ∧ (s.finishBy h1 f).stamp = s.stamp + 1 := by
  have a := State.putCurHeat_spec hs (h1.retire s.cur s.stamp (s.core s.cur.core).cycles.toNat f)
  have b := State.noteIssue_spec (s.putCurHeat (h1.retire s.cur s.stamp (s.core s.cur.core).cycles.toNat f))
  have hstamp : (s.finishBy h1 f).stamp = s.stamp + 1 := by
    have e1 : (s.putCurHeat (h1.retire s.cur s.stamp (s.core s.cur.core).cycles.toNat f)).stamp = s.stamp :=
      s.stamp_putCurHeat _
    have e2 := (s.putCurHeat (h1.retire s.cur s.stamp (s.core s.cur.core).cycles.toNat f)).stamp_noteIssue
    simp only [State.finishBy, State.tick, e2, e1]
  have hdev : (s.finishBy h1 f).device = s.device := by
    have : (s.finishBy h1 f).device =
      (s.putCurHeat (h1.retire s.cur s.stamp (s.core s.cur.core).cycles.toNat f)).noteIssue.device := rfl
    rw [this, b.2.2.1, a.2.2.1]
  refine ⟨?_, ⟨hdev, ?_, ?_, ?_, ?_⟩, hstamp⟩
  · have : (s.finishBy h1 f).curHeat? =
      (s.putCurHeat (h1.retire s.cur s.stamp (s.core s.cur.core).cycles.toNat f)).noteIssue.curHeat? := rfl
    rw [this, b.1, a.1]
  · intro u g hu
    have : (s.finishBy h1 f).heat? u g =
      (s.putCurHeat (h1.retire s.cur s.stamp (s.core s.cur.core).cycles.toNat f)).noteIssue.heat? u g := rfl
    rw [this, b.2.2.2.1, a.2.2.2.1 u g hu]
  · intro u
    have : (s.finishBy h1 f).team? u =
      (s.putCurHeat (h1.retire s.cur s.stamp (s.core s.cur.core).cycles.toNat f)).noteIssue.team? u := rfl
    rw [this, b.2.2.2.2.1, a.2.2.2.2.1]
  · intro c
    have : (s.finishBy h1 f).core c =
      (s.putCurHeat (h1.retire s.cur s.stamp (s.core s.cur.core).cycles.toNat f)).noteIssue.core c := rfl
    rw [this, b.2.2.2.2.2, a.2.2.2.2.2]
  · intro x
    have : (s.finishBy h1 f).mem = s.mem := by
      change (s.finishBy h1 f).device.mem = s.device.mem
      rw [hdev]
    rw [this]

/-- What `Heat.retire` does to a heat. -/
theorem Heat.retire_spec (h : Heat) (c : Cur) (stamp cyc : Nat) (f : Nat → Lane → Lane) :
    (h.retire c stamp cyc f).rows = h.rows ∧ (h.retire c stamp cyc f).preds = h.preds ∧
    (h.retire c stamp cyc f).s = h.s ∧ (h.retire c stamp cyc f).a = h.a ∧
    (h.retire c stamp cyc f).still = h.still ∧ (h.retire c stamp cyc f).stride = h.stride + 1#64 ∧
    (h.retire c stamp cyc f).slots = h.slots.map (fun x => x.count c.active stamp) ∧
    ∀ l, (h.retire c stamp cyc f).lane l =
      if inMask c.active l = true then { f l (h.lane l) with lastCycle := some cyc } else h.lane l := by
  have hk : ∀ {β : Type} (g : Heat → β), (∀ y l x, g (Heat.setLane y l x) = g y) →
      g (h.forLanes c.active (fun y l => y.setLane l { f l (y.lane l) with lastCycle := some cyc })) = g h :=
    fun g hg => Heat.forLanes_keeps g _ (fun y l => hg y l _) h c.active
  have hl : ∀ l, (h.forLanes c.active (fun y l => y.setLane l { f l (y.lane l) with lastCycle := some cyc })).lane l =
      if l ∈ lanesOf c.active then { f l (h.lane l) with lastCycle := some cyc } else h.lane l :=
    foldl_lanes _ (fun y l => y.lane l) (fun h l => { f l (h.lane l) with lastCycle := some cyc })
      (lanesOf c.active) h (nodup_lanesOf _) (by intro y l x _ hx; simp [Ne.symm hx])
      (by intro y l _ hy; simp [hy l])
  refine ⟨hk Heat.rows (fun _ _ _ => rfl), hk Heat.preds (fun _ _ _ => rfl), hk Heat.s (fun _ _ _ => rfl),
    hk Heat.a (fun _ _ _ => rfl), hk Heat.still (fun _ _ _ => rfl), ?_, ?_, ?_⟩
  · exact congrArg (· + 1#64) (hk Heat.stride (fun _ _ _ => rfl))
  · exact congrArg (List.map (fun x => x.count c.active stamp)) (hk Heat.slots (fun _ _ _ => rfl))
  · intro l
    have := hl l
    simp only [mem_lanesOf] at this
    exact this

/-- The end of the issue of a word, in the terms of the claims: `h1` is the heat with its new registers. -/
theorem finishBy_issued {i : Instr} {s : State} {h : Heat} (hs : s.curHeat? = some h) (h1 : Heat)
    (f : Nat → Lane → Lane) (he : exec i s = .next (s.finishBy h1 f)) :
    ∃ t h', Issued i s t h' ∧ OnlyIssuer s t ∧ Retired s h1 h' f ∧ h'.rows = h1.rows ∧ h'.preds = h1.preds ∧
      h'.s = h1.s ∧ h'.a = h1.a := by
  obtain ⟨a, b, c⟩ := State.finishBy_spec hs h1 f
  obtain ⟨r1, r2, r3, r4, r5, r6, r7, r8⟩ := Heat.retire_spec h1 s.cur s.stamp (s.core s.cur.core).cycles.toNat f
  exact ⟨_, _, ⟨he, a, c⟩, b, ⟨r5, r6, r7, r8⟩, r1, r2, r3, r4⟩

/-! ### The issue checks -/

/-- A word whose operands are within the budget and not pending runs its own part (R31, R32, R42). -/
theorem heatWordIn_ready {s : State} {h : Heat} {m : Mask} {vr sr : List (Nat × Nat)} (hr : s.ready h m vr sr)
    (f : Heat → Out) : heatWordIn s m vr sr f = f h := by
  obtain ⟨h1, h2, h3, h4⟩ := hr
  simp [heatWordIn, heatWordBy, h1, h2, h3, h4]

theorem heatWord_ready {s : State} {h : Heat} {vr sr : List (Nat × Nat)} (hr : s.ready h s.cur.lanes vr sr)
    (f : Heat → Out) : heatWord s vr sr f = f h := heatWordIn_ready hr f

end Sys2Proof.Machine
end

