-- ==== Sys2Proof/Laws/State.lean ====
section
/-! SUPPORT. One lemma per field per update of the state, the team and the heat. -/

namespace Sys2Proof.Machine

/-! ### State.tick -/

@[simp] theorem State.inputs_tick (s : State) : (s.tick).inputs = s.inputs := rfl
@[simp] theorem State.cur_tick (s : State) : (s.tick).cur = s.cur := rfl
@[simp] theorem State.stamp_tick (s : State) : (s.tick).stamp = s.stamp + 1 := rfl
@[simp] theorem State.mem_tick (s : State) : (s.tick).mem = s.mem := rfl
@[simp] theorem State.poison_tick (s : State) : (s.tick).poison = s.poison := rfl
@[simp] theorem State.spare_tick (s : State) : (s.tick).spare = s.spare := rfl
@[simp] theorem State.scaleFrames_tick (s : State) : (s.tick).scaleFrames = s.scaleFrames := rfl
@[simp] theorem State.retireList_tick (s : State) : (s.tick).retireList = s.retireList := rfl
@[simp] theorem State.retired_tick (s : State) : (s.tick).retired = s.retired := rfl
@[simp] theorem State.corrections_tick (s : State) : (s.tick).corrections = s.corrections := rfl
@[simp] theorem State.contexts_tick (s : State) : (s.tick).contexts = s.contexts := rfl
@[simp] theorem State.cgens_tick (s : State) : (s.tick).cgens = s.cgens := rfl
@[simp] theorem State.tlb_tick (s : State) : (s.tick).tlb = s.tlb := rfl
@[simp] theorem State.tables_tick (s : State) : (s.tick).tables = s.tables := rfl
@[simp] theorem State.walks_tick (s : State) : (s.tick).walks = s.walks := rfl
@[simp] theorem State.bindings_tick (s : State) : (s.tick).bindings = s.bindings := rfl
@[simp] theorem State.grids_tick (s : State) : (s.tick).grids = s.grids := rfl
@[simp] theorem State.gridQueues_tick (s : State) : (s.tick).gridQueues = s.gridQueues := rfl
@[simp] theorem State.lastGrid_tick (s : State) : (s.tick).lastGrid = s.lastGrid := rfl
@[simp] theorem State.lastQueue_tick (s : State) : (s.tick).lastQueue = s.lastQueue := rfl
@[simp] theorem State.teams_tick (s : State) : (s.tick).teams = s.teams := rfl
@[simp] theorem State.nextTeam_tick (s : State) : (s.tick).nextTeam = s.nextTeam := rfl
@[simp] theorem State.cores_tick (s : State) : (s.tick).cores = s.cores := rfl
@[simp] theorem State.self_tick (s : State) : (s.tick).self = s.self := rfl
@[simp] theorem State.domain_tick (s : State) : (s.tick).domain = s.domain := rfl
@[simp] theorem State.exports_tick (s : State) : (s.tick).exports = s.exports := rfl
@[simp] theorem State.groups_tick (s : State) : (s.tick).groups = s.groups := rfl
@[simp] theorem State.detTurn_tick (s : State) : (s.tick).detTurn = s.detTurn := rfl
@[simp] theorem State.remap_tick (s : State) : (s.tick).remap = s.remap := rfl
@[simp] theorem State.incarnation_tick (s : State) : (s.tick).incarnation = s.incarnation := rfl
@[simp] theorem State.owners_tick (s : State) : (s.tick).owners = s.owners := rfl
@[simp] theorem State.relayErrors_tick (s : State) : (s.tick).relayErrors = s.relayErrors := rfl
@[simp] theorem State.packets_tick (s : State) : (s.tick).packets = s.packets := rfl
@[simp] theorem State.fabric_tick (s : State) : (s.tick).fabric = s.fabric := rfl
@[simp] theorem State.fabricOut_tick (s : State) : (s.tick).fabricOut = s.fabricOut := rfl
@[simp] theorem State.engines_tick (s : State) : (s.tick).engines = s.engines := rfl
@[simp] theorem State.collNext_tick (s : State) : (s.tick).collNext = s.collNext := rfl
@[simp] theorem State.colls_tick (s : State) : (s.tick).colls = s.colls := rfl
@[simp] theorem State.collOut_tick (s : State) : (s.tick).collOut = s.collOut := rfl
@[simp] theorem State.collWait_tick (s : State) : (s.tick).collWait = s.collWait := rfl
@[simp] theorem State.collErrors_tick (s : State) : (s.tick).collErrors = s.collErrors := rfl
@[simp] theorem State.ordRecs_tick (s : State) : (s.tick).ordRecs = s.ordRecs := rfl
@[simp] theorem State.ordMsgs_tick (s : State) : (s.tick).ordMsgs = s.ordMsgs := rfl
@[simp] theorem State.predictor_tick (s : State) : (s.tick).predictor = s.predictor := rfl
@[simp] theorem State.gtc_tick (s : State) : (s.tick).gtc = s.gtc := rfl
@[simp] theorem State.gtcOpen_tick (s : State) : (s.tick).gtcOpen = s.gtcOpen := rfl
@[simp] theorem State.vfsA_tick (s : State) : (s.tick).vfsA = s.vfsA := rfl
@[simp] theorem State.vfsB_tick (s : State) : (s.tick).vfsB = s.vfsB := rfl
@[simp] theorem State.vfChanging_tick (s : State) : (s.tick).vfChanging = s.vfChanging := rfl
@[simp] theorem State.powerLimit_tick (s : State) : (s.tick).powerLimit = s.powerLimit := rfl
@[simp] theorem State.pacers_tick (s : State) : (s.tick).pacers = s.pacers := rfl
@[simp] theorem State.throttled_tick (s : State) : (s.tick).throttled = s.throttled := rfl
@[simp] theorem State.capped_tick (s : State) : (s.tick).capped = s.capped := rfl
@[simp] theorem State.fenced_tick (s : State) : (s.tick).fenced = s.fenced := rfl
@[simp] theorem State.withhold_tick (s : State) : (s.tick).withhold = s.withhold := rfl
@[simp] theorem State.ringBase_tick (s : State) : (s.tick).ringBase = s.ringBase := rfl
@[simp] theorem State.ringLen_tick (s : State) : (s.tick).ringLen = s.ringLen := rfl
@[simp] theorem State.ringRead_tick (s : State) : (s.tick).ringRead = s.ringRead := rfl
@[simp] theorem State.ringWrite_tick (s : State) : (s.tick).ringWrite = s.ringWrite := rfl
@[simp] theorem State.traceKinds_tick (s : State) : (s.tick).traceKinds = s.traceKinds := rfl
@[simp] theorem State.samplePeriod_tick (s : State) : (s.tick).samplePeriod = s.samplePeriod := rfl
@[simp] theorem State.devTrace_tick (s : State) : (s.tick).devTrace = s.devTrace := rfl
@[simp] theorem State.devLost_tick (s : State) : (s.tick).devLost = s.devLost := rfl
@[simp] theorem State.blackBox_tick (s : State) : (s.tick).blackBox = s.blackBox := rfl
@[simp] theorem State.blackWrite_tick (s : State) : (s.tick).blackWrite = s.blackWrite := rfl
@[simp] theorem State.wavelengths_tick (s : State) : (s.tick).wavelengths = s.wavelengths := rfl
@[simp] theorem State.linkDown_tick (s : State) : (s.tick).linkDown = s.linkDown := rfl
@[simp] theorem State.txSeq_tick (s : State) : (s.tick).txSeq = s.txSeq := rfl
@[simp] theorem State.rxSeq_tick (s : State) : (s.tick).rxSeq = s.rxSeq := rfl
@[simp] theorem State.unacked_tick (s : State) : (s.tick).unacked = s.unacked := rfl
@[simp] theorem State.linkErrors_tick (s : State) : (s.tick).linkErrors = s.linkErrors := rfl
@[simp] theorem State.hostOut_tick (s : State) : (s.tick).hostOut = s.hostOut := rfl
@[simp] theorem State.wire_tick (s : State) : (s.tick).wire = s.wire := rfl
@[simp] theorem State.portsUp_tick (s : State) : (s.tick).portsUp = s.portsUp := rfl
@[simp] theorem State.flash_tick (s : State) : (s.tick).flash = s.flash := rfl
@[simp] theorem State.measures_tick (s : State) : (s.tick).measures = s.measures := rfl
@[simp] theorem State.rollback_tick (s : State) : (s.tick).rollback = s.rollback := rfl
@[simp] theorem State.recovery_tick (s : State) : (s.tick).recovery = s.recovery := rfl

/-! ### State.putCore -/

@[simp] theorem State.inputs_putCore (s : State) (c : Nat) (k : Core) : (s.putCore c k).inputs = s.inputs := rfl
@[simp] theorem State.cur_putCore (s : State) (c : Nat) (k : Core) : (s.putCore c k).cur = s.cur := rfl
@[simp] theorem State.stamp_putCore (s : State) (c : Nat) (k : Core) : (s.putCore c k).stamp = s.stamp := rfl
@[simp] theorem State.mem_putCore (s : State) (c : Nat) (k : Core) : (s.putCore c k).mem = s.mem := rfl
@[simp] theorem State.poison_putCore (s : State) (c : Nat) (k : Core) : (s.putCore c k).poison = s.poison := rfl
@[simp] theorem State.spare_putCore (s : State) (c : Nat) (k : Core) : (s.putCore c k).spare = s.spare := rfl
@[simp] theorem State.scaleFrames_putCore (s : State) (c : Nat) (k : Core) : (s.putCore c k).scaleFrames = s.scaleFrames := rfl
@[simp] theorem State.retireList_putCore (s : State) (c : Nat) (k : Core) : (s.putCore c k).retireList = s.retireList := rfl
@[simp] theorem State.retired_putCore (s : State) (c : Nat) (k : Core) : (s.putCore c k).retired = s.retired := rfl
@[simp] theorem State.corrections_putCore (s : State) (c : Nat) (k : Core) : (s.putCore c k).corrections = s.corrections := rfl
@[simp] theorem State.contexts_putCore (s : State) (c : Nat) (k : Core) : (s.putCore c k).contexts = s.contexts := rfl
@[simp] theorem State.cgens_putCore (s : State) (c : Nat) (k : Core) : (s.putCore c k).cgens = s.cgens := rfl
@[simp] theorem State.tlb_putCore (s : State) (c : Nat) (k : Core) : (s.putCore c k).tlb = s.tlb := rfl
@[simp] theorem State.tables_putCore (s : State) (c : Nat) (k : Core) : (s.putCore c k).tables = s.tables := rfl
@[simp] theorem State.walks_putCore (s : State) (c : Nat) (k : Core) : (s.putCore c k).walks = s.walks := rfl
@[simp] theorem State.bindings_putCore (s : State) (c : Nat) (k : Core) : (s.putCore c k).bindings = s.bindings := rfl
@[simp] theorem State.grids_putCore (s : State) (c : Nat) (k : Core) : (s.putCore c k).grids = s.grids := rfl
@[simp] theorem State.gridQueues_putCore (s : State) (c : Nat) (k : Core) : (s.putCore c k).gridQueues = s.gridQueues := rfl
@[simp] theorem State.lastGrid_putCore (s : State) (c : Nat) (k : Core) : (s.putCore c k).lastGrid = s.lastGrid := rfl
@[simp] theorem State.lastQueue_putCore (s : State) (c : Nat) (k : Core) : (s.putCore c k).lastQueue = s.lastQueue := rfl
@[simp] theorem State.teams_putCore (s : State) (c : Nat) (k : Core) : (s.putCore c k).teams = s.teams := rfl
@[simp] theorem State.nextTeam_putCore (s : State) (c : Nat) (k : Core) : (s.putCore c k).nextTeam = s.nextTeam := rfl
@[simp] theorem State.cores_putCore (s : State) (c : Nat) (k : Core) : (s.putCore c k).cores = mput s.cores c k := rfl
@[simp] theorem State.self_putCore (s : State) (c : Nat) (k : Core) : (s.putCore c k).self = s.self := rfl
@[simp] theorem State.domain_putCore (s : State) (c : Nat) (k : Core) : (s.putCore c k).domain = s.domain := rfl
@[simp] theorem State.exports_putCore (s : State) (c : Nat) (k : Core) : (s.putCore c k).exports = s.exports := rfl
@[simp] theorem State.groups_putCore (s : State) (c : Nat) (k : Core) : (s.putCore c k).groups = s.groups := rfl
@[simp] theorem State.detTurn_putCore (s : State) (c : Nat) (k : Core) : (s.putCore c k).detTurn = s.detTurn := rfl
@[simp] theorem State.remap_putCore (s : State) (c : Nat) (k : Core) : (s.putCore c k).remap = s.remap := rfl
@[simp] theorem State.incarnation_putCore (s : State) (c : Nat) (k : Core) : (s.putCore c k).incarnation = s.incarnation := rfl
@[simp] theorem State.owners_putCore (s : State) (c : Nat) (k : Core) : (s.putCore c k).owners = s.owners := rfl
@[simp] theorem State.relayErrors_putCore (s : State) (c : Nat) (k : Core) : (s.putCore c k).relayErrors = s.relayErrors := rfl
@[simp] theorem State.packets_putCore (s : State) (c : Nat) (k : Core) : (s.putCore c k).packets = s.packets := rfl
@[simp] theorem State.fabric_putCore (s : State) (c : Nat) (k : Core) : (s.putCore c k).fabric = s.fabric := rfl
@[simp] theorem State.fabricOut_putCore (s : State) (c : Nat) (k : Core) : (s.putCore c k).fabricOut = s.fabricOut := rfl
@[simp] theorem State.engines_putCore (s : State) (c : Nat) (k : Core) : (s.putCore c k).engines = s.engines := rfl
@[simp] theorem State.collNext_putCore (s : State) (c : Nat) (k : Core) : (s.putCore c k).collNext = s.collNext := rfl
@[simp] theorem State.colls_putCore (s : State) (c : Nat) (k : Core) : (s.putCore c k).colls = s.colls := rfl
@[simp] theorem State.collOut_putCore (s : State) (c : Nat) (k : Core) : (s.putCore c k).collOut = s.collOut := rfl
@[simp] theorem State.collWait_putCore (s : State) (c : Nat) (k : Core) : (s.putCore c k).collWait = s.collWait := rfl
@[simp] theorem State.collErrors_putCore (s : State) (c : Nat) (k : Core) : (s.putCore c k).collErrors = s.collErrors := rfl
@[simp] theorem State.ordRecs_putCore (s : State) (c : Nat) (k : Core) : (s.putCore c k).ordRecs = s.ordRecs := rfl
@[simp] theorem State.ordMsgs_putCore (s : State) (c : Nat) (k : Core) : (s.putCore c k).ordMsgs = s.ordMsgs := rfl
@[simp] theorem State.predictor_putCore (s : State) (c : Nat) (k : Core) : (s.putCore c k).predictor = s.predictor := rfl
@[simp] theorem State.gtc_putCore (s : State) (c : Nat) (k : Core) : (s.putCore c k).gtc = s.gtc := rfl
@[simp] theorem State.gtcOpen_putCore (s : State) (c : Nat) (k : Core) : (s.putCore c k).gtcOpen = s.gtcOpen := rfl
@[simp] theorem State.vfsA_putCore (s : State) (c : Nat) (k : Core) : (s.putCore c k).vfsA = s.vfsA := rfl
@[simp] theorem State.vfsB_putCore (s : State) (c : Nat) (k : Core) : (s.putCore c k).vfsB = s.vfsB := rfl
@[simp] theorem State.vfChanging_putCore (s : State) (c : Nat) (k : Core) : (s.putCore c k).vfChanging = s.vfChanging := rfl
@[simp] theorem State.powerLimit_putCore (s : State) (c : Nat) (k : Core) : (s.putCore c k).powerLimit = s.powerLimit := rfl
@[simp] theorem State.pacers_putCore (s : State) (c : Nat) (k : Core) : (s.putCore c k).pacers = s.pacers := rfl
@[simp] theorem State.throttled_putCore (s : State) (c : Nat) (k : Core) : (s.putCore c k).throttled = s.throttled := rfl
@[simp] theorem State.capped_putCore (s : State) (c : Nat) (k : Core) : (s.putCore c k).capped = s.capped := rfl
@[simp] theorem State.fenced_putCore (s : State) (c : Nat) (k : Core) : (s.putCore c k).fenced = s.fenced := rfl
@[simp] theorem State.withhold_putCore (s : State) (c : Nat) (k : Core) : (s.putCore c k).withhold = s.withhold := rfl
@[simp] theorem State.ringBase_putCore (s : State) (c : Nat) (k : Core) : (s.putCore c k).ringBase = s.ringBase := rfl
@[simp] theorem State.ringLen_putCore (s : State) (c : Nat) (k : Core) : (s.putCore c k).ringLen = s.ringLen := rfl
@[simp] theorem State.ringRead_putCore (s : State) (c : Nat) (k : Core) : (s.putCore c k).ringRead = s.ringRead := rfl
@[simp] theorem State.ringWrite_putCore (s : State) (c : Nat) (k : Core) : (s.putCore c k).ringWrite = s.ringWrite := rfl
@[simp] theorem State.traceKinds_putCore (s : State) (c : Nat) (k : Core) : (s.putCore c k).traceKinds = s.traceKinds := rfl
@[simp] theorem State.samplePeriod_putCore (s : State) (c : Nat) (k : Core) : (s.putCore c k).samplePeriod = s.samplePeriod := rfl
@[simp] theorem State.devTrace_putCore (s : State) (c : Nat) (k : Core) : (s.putCore c k).devTrace = s.devTrace := rfl
@[simp] theorem State.devLost_putCore (s : State) (c : Nat) (k : Core) : (s.putCore c k).devLost = s.devLost := rfl
@[simp] theorem State.blackBox_putCore (s : State) (c : Nat) (k : Core) : (s.putCore c k).blackBox = s.blackBox := rfl
@[simp] theorem State.blackWrite_putCore (s : State) (c : Nat) (k : Core) : (s.putCore c k).blackWrite = s.blackWrite := rfl
@[simp] theorem State.wavelengths_putCore (s : State) (c : Nat) (k : Core) : (s.putCore c k).wavelengths = s.wavelengths := rfl
@[simp] theorem State.linkDown_putCore (s : State) (c : Nat) (k : Core) : (s.putCore c k).linkDown = s.linkDown := rfl
@[simp] theorem State.txSeq_putCore (s : State) (c : Nat) (k : Core) : (s.putCore c k).txSeq = s.txSeq := rfl
@[simp] theorem State.rxSeq_putCore (s : State) (c : Nat) (k : Core) : (s.putCore c k).rxSeq = s.rxSeq := rfl
@[simp] theorem State.unacked_putCore (s : State) (c : Nat) (k : Core) : (s.putCore c k).unacked = s.unacked := rfl
@[simp] theorem State.linkErrors_putCore (s : State) (c : Nat) (k : Core) : (s.putCore c k).linkErrors = s.linkErrors := rfl
@[simp] theorem State.hostOut_putCore (s : State) (c : Nat) (k : Core) : (s.putCore c k).hostOut = s.hostOut := rfl
@[simp] theorem State.wire_putCore (s : State) (c : Nat) (k : Core) : (s.putCore c k).wire = s.wire := rfl
@[simp] theorem State.portsUp_putCore (s : State) (c : Nat) (k : Core) : (s.putCore c k).portsUp = s.portsUp := rfl
@[simp] theorem State.flash_putCore (s : State) (c : Nat) (k : Core) : (s.putCore c k).flash = s.flash := rfl
@[simp] theorem State.measures_putCore (s : State) (c : Nat) (k : Core) : (s.putCore c k).measures = s.measures := rfl
@[simp] theorem State.rollback_putCore (s : State) (c : Nat) (k : Core) : (s.putCore c k).rollback = s.rollback := rfl
@[simp] theorem State.recovery_putCore (s : State) (c : Nat) (k : Core) : (s.putCore c k).recovery = s.recovery := rfl

/-! ### State.putTeam -/

@[simp] theorem State.inputs_putTeam (s : State) (t : Nat) (x : Team) : (s.putTeam t x).inputs = s.inputs := rfl
@[simp] theorem State.cur_putTeam (s : State) (t : Nat) (x : Team) : (s.putTeam t x).cur = s.cur := rfl
@[simp] theorem State.stamp_putTeam (s : State) (t : Nat) (x : Team) : (s.putTeam t x).stamp = s.stamp := rfl
@[simp] theorem State.mem_putTeam (s : State) (t : Nat) (x : Team) : (s.putTeam t x).mem = s.mem := rfl
@[simp] theorem State.poison_putTeam (s : State) (t : Nat) (x : Team) : (s.putTeam t x).poison = s.poison := rfl
@[simp] theorem State.spare_putTeam (s : State) (t : Nat) (x : Team) : (s.putTeam t x).spare = s.spare := rfl
@[simp] theorem State.scaleFrames_putTeam (s : State) (t : Nat) (x : Team) : (s.putTeam t x).scaleFrames = s.scaleFrames := rfl
@[simp] theorem State.retireList_putTeam (s : State) (t : Nat) (x : Team) : (s.putTeam t x).retireList = s.retireList := rfl
@[simp] theorem State.retired_putTeam (s : State) (t : Nat) (x : Team) : (s.putTeam t x).retired = s.retired := rfl
@[simp] theorem State.corrections_putTeam (s : State) (t : Nat) (x : Team) : (s.putTeam t x).corrections = s.corrections := rfl
@[simp] theorem State.contexts_putTeam (s : State) (t : Nat) (x : Team) : (s.putTeam t x).contexts = s.contexts := rfl
@[simp] theorem State.cgens_putTeam (s : State) (t : Nat) (x : Team) : (s.putTeam t x).cgens = s.cgens := rfl
@[simp] theorem State.tlb_putTeam (s : State) (t : Nat) (x : Team) : (s.putTeam t x).tlb = s.tlb := rfl
@[simp] theorem State.tables_putTeam (s : State) (t : Nat) (x : Team) : (s.putTeam t x).tables = s.tables := rfl
@[simp] theorem State.walks_putTeam (s : State) (t : Nat) (x : Team) : (s.putTeam t x).walks = s.walks := rfl
@[simp] theorem State.bindings_putTeam (s : State) (t : Nat) (x : Team) : (s.putTeam t x).bindings = s.bindings := rfl
@[simp] theorem State.grids_putTeam (s : State) (t : Nat) (x : Team) : (s.putTeam t x).grids = s.grids := rfl
@[simp] theorem State.gridQueues_putTeam (s : State) (t : Nat) (x : Team) : (s.putTeam t x).gridQueues = s.gridQueues := rfl
@[simp] theorem State.lastGrid_putTeam (s : State) (t : Nat) (x : Team) : (s.putTeam t x).lastGrid = s.lastGrid := rfl
@[simp] theorem State.lastQueue_putTeam (s : State) (t : Nat) (x : Team) : (s.putTeam t x).lastQueue = s.lastQueue := rfl
@[simp] theorem State.teams_putTeam (s : State) (t : Nat) (x : Team) : (s.putTeam t x).teams = mput s.teams t x := rfl
@[simp] theorem State.nextTeam_putTeam (s : State) (t : Nat) (x : Team) : (s.putTeam t x).nextTeam = s.nextTeam := rfl
@[simp] theorem State.cores_putTeam (s : State) (t : Nat) (x : Team) : (s.putTeam t x).cores = s.cores := rfl
@[simp] theorem State.self_putTeam (s : State) (t : Nat) (x : Team) : (s.putTeam t x).self = s.self := rfl
@[simp] theorem State.domain_putTeam (s : State) (t : Nat) (x : Team) : (s.putTeam t x).domain = s.domain := rfl
@[simp] theorem State.exports_putTeam (s : State) (t : Nat) (x : Team) : (s.putTeam t x).exports = s.exports := rfl
@[simp] theorem State.groups_putTeam (s : State) (t : Nat) (x : Team) : (s.putTeam t x).groups = s.groups := rfl
@[simp] theorem State.detTurn_putTeam (s : State) (t : Nat) (x : Team) : (s.putTeam t x).detTurn = s.detTurn := rfl
@[simp] theorem State.remap_putTeam (s : State) (t : Nat) (x : Team) : (s.putTeam t x).remap = s.remap := rfl
@[simp] theorem State.incarnation_putTeam (s : State) (t : Nat) (x : Team) : (s.putTeam t x).incarnation = s.incarnation := rfl
@[simp] theorem State.owners_putTeam (s : State) (t : Nat) (x : Team) : (s.putTeam t x).owners = s.owners := rfl
@[simp] theorem State.relayErrors_putTeam (s : State) (t : Nat) (x : Team) : (s.putTeam t x).relayErrors = s.relayErrors := rfl
@[simp] theorem State.packets_putTeam (s : State) (t : Nat) (x : Team) : (s.putTeam t x).packets = s.packets := rfl
@[simp] theorem State.fabric_putTeam (s : State) (t : Nat) (x : Team) : (s.putTeam t x).fabric = s.fabric := rfl
@[simp] theorem State.fabricOut_putTeam (s : State) (t : Nat) (x : Team) : (s.putTeam t x).fabricOut = s.fabricOut := rfl
@[simp] theorem State.engines_putTeam (s : State) (t : Nat) (x : Team) : (s.putTeam t x).engines = s.engines := rfl
@[simp] theorem State.collNext_putTeam (s : State) (t : Nat) (x : Team) : (s.putTeam t x).collNext = s.collNext := rfl
@[simp] theorem State.colls_putTeam (s : State) (t : Nat) (x : Team) : (s.putTeam t x).colls = s.colls := rfl
@[simp] theorem State.collOut_putTeam (s : State) (t : Nat) (x : Team) : (s.putTeam t x).collOut = s.collOut := rfl
@[simp] theorem State.collWait_putTeam (s : State) (t : Nat) (x : Team) : (s.putTeam t x).collWait = s.collWait := rfl
@[simp] theorem State.collErrors_putTeam (s : State) (t : Nat) (x : Team) : (s.putTeam t x).collErrors = s.collErrors := rfl
@[simp] theorem State.ordRecs_putTeam (s : State) (t : Nat) (x : Team) : (s.putTeam t x).ordRecs = s.ordRecs := rfl
@[simp] theorem State.ordMsgs_putTeam (s : State) (t : Nat) (x : Team) : (s.putTeam t x).ordMsgs = s.ordMsgs := rfl
@[simp] theorem State.predictor_putTeam (s : State) (t : Nat) (x : Team) : (s.putTeam t x).predictor = s.predictor := rfl
@[simp] theorem State.gtc_putTeam (s : State) (t : Nat) (x : Team) : (s.putTeam t x).gtc = s.gtc := rfl
@[simp] theorem State.gtcOpen_putTeam (s : State) (t : Nat) (x : Team) : (s.putTeam t x).gtcOpen = s.gtcOpen := rfl
@[simp] theorem State.vfsA_putTeam (s : State) (t : Nat) (x : Team) : (s.putTeam t x).vfsA = s.vfsA := rfl
@[simp] theorem State.vfsB_putTeam (s : State) (t : Nat) (x : Team) : (s.putTeam t x).vfsB = s.vfsB := rfl
@[simp] theorem State.vfChanging_putTeam (s : State) (t : Nat) (x : Team) : (s.putTeam t x).vfChanging = s.vfChanging := rfl
@[simp] theorem State.powerLimit_putTeam (s : State) (t : Nat) (x : Team) : (s.putTeam t x).powerLimit = s.powerLimit := rfl
@[simp] theorem State.pacers_putTeam (s : State) (t : Nat) (x : Team) : (s.putTeam t x).pacers = s.pacers := rfl
@[simp] theorem State.throttled_putTeam (s : State) (t : Nat) (x : Team) : (s.putTeam t x).throttled = s.throttled := rfl
@[simp] theorem State.capped_putTeam (s : State) (t : Nat) (x : Team) : (s.putTeam t x).capped = s.capped := rfl
@[simp] theorem State.fenced_putTeam (s : State) (t : Nat) (x : Team) : (s.putTeam t x).fenced = s.fenced := rfl
@[simp] theorem State.withhold_putTeam (s : State) (t : Nat) (x : Team) : (s.putTeam t x).withhold = s.withhold := rfl
@[simp] theorem State.ringBase_putTeam (s : State) (t : Nat) (x : Team) : (s.putTeam t x).ringBase = s.ringBase := rfl
@[simp] theorem State.ringLen_putTeam (s : State) (t : Nat) (x : Team) : (s.putTeam t x).ringLen = s.ringLen := rfl
@[simp] theorem State.ringRead_putTeam (s : State) (t : Nat) (x : Team) : (s.putTeam t x).ringRead = s.ringRead := rfl
@[simp] theorem State.ringWrite_putTeam (s : State) (t : Nat) (x : Team) : (s.putTeam t x).ringWrite = s.ringWrite := rfl
@[simp] theorem State.traceKinds_putTeam (s : State) (t : Nat) (x : Team) : (s.putTeam t x).traceKinds = s.traceKinds := rfl
@[simp] theorem State.samplePeriod_putTeam (s : State) (t : Nat) (x : Team) : (s.putTeam t x).samplePeriod = s.samplePeriod := rfl
@[simp] theorem State.devTrace_putTeam (s : State) (t : Nat) (x : Team) : (s.putTeam t x).devTrace = s.devTrace := rfl
@[simp] theorem State.devLost_putTeam (s : State) (t : Nat) (x : Team) : (s.putTeam t x).devLost = s.devLost := rfl
@[simp] theorem State.blackBox_putTeam (s : State) (t : Nat) (x : Team) : (s.putTeam t x).blackBox = s.blackBox := rfl
@[simp] theorem State.blackWrite_putTeam (s : State) (t : Nat) (x : Team) : (s.putTeam t x).blackWrite = s.blackWrite := rfl
@[simp] theorem State.wavelengths_putTeam (s : State) (t : Nat) (x : Team) : (s.putTeam t x).wavelengths = s.wavelengths := rfl
@[simp] theorem State.linkDown_putTeam (s : State) (t : Nat) (x : Team) : (s.putTeam t x).linkDown = s.linkDown := rfl
@[simp] theorem State.txSeq_putTeam (s : State) (t : Nat) (x : Team) : (s.putTeam t x).txSeq = s.txSeq := rfl
@[simp] theorem State.rxSeq_putTeam (s : State) (t : Nat) (x : Team) : (s.putTeam t x).rxSeq = s.rxSeq := rfl
@[simp] theorem State.unacked_putTeam (s : State) (t : Nat) (x : Team) : (s.putTeam t x).unacked = s.unacked := rfl
@[simp] theorem State.linkErrors_putTeam (s : State) (t : Nat) (x : Team) : (s.putTeam t x).linkErrors = s.linkErrors := rfl
@[simp] theorem State.hostOut_putTeam (s : State) (t : Nat) (x : Team) : (s.putTeam t x).hostOut = s.hostOut := rfl
@[simp] theorem State.wire_putTeam (s : State) (t : Nat) (x : Team) : (s.putTeam t x).wire = s.wire := rfl
@[simp] theorem State.portsUp_putTeam (s : State) (t : Nat) (x : Team) : (s.putTeam t x).portsUp = s.portsUp := rfl
@[simp] theorem State.flash_putTeam (s : State) (t : Nat) (x : Team) : (s.putTeam t x).flash = s.flash := rfl
@[simp] theorem State.measures_putTeam (s : State) (t : Nat) (x : Team) : (s.putTeam t x).measures = s.measures := rfl
@[simp] theorem State.rollback_putTeam (s : State) (t : Nat) (x : Team) : (s.putTeam t x).rollback = s.rollback := rfl
@[simp] theorem State.recovery_putTeam (s : State) (t : Nat) (x : Team) : (s.putTeam t x).recovery = s.recovery := rfl

/-! ### Team.putHeat -/

@[simp] theorem Team.grid_putHeat (x : Team) (h : Nat) (y : Heat) : (x.putHeat h y).grid = x.grid := rfl
@[simp] theorem Team.asid_putHeat (x : Team) (h : Nat) (y : Heat) : (x.putHeat h y).asid = x.asid := rfl
@[simp] theorem Team.teamId_putHeat (x : Team) (h : Nat) (y : Heat) : (x.putHeat h y).teamId = x.teamId := rfl
@[simp] theorem Team.csize_putHeat (x : Team) (h : Nat) (y : Heat) : (x.putHeat h y).csize = x.csize := rfl
@[simp] theorem Team.rank_putHeat (x : Team) (h : Nat) (y : Heat) : (x.putHeat h y).rank = x.rank := rfl
@[simp] theorem Team.cluster_putHeat (x : Team) (h : Nat) (y : Heat) : (x.putHeat h y).cluster = x.cluster := rfl
@[simp] theorem Team.res_putHeat (x : Team) (h : Nat) (y : Heat) : (x.putHeat h y).res = x.res := rfl
@[simp] theorem Team.lastCore_putHeat (x : Team) (h : Nat) (y : Heat) : (x.putHeat h y).lastCore = x.lastCore := rfl
@[simp] theorem Team.size_putHeat (x : Team) (h : Nat) (y : Heat) : (x.putHeat h y).size = x.size := rfl
@[simp] theorem Team.commitShare_putHeat (x : Team) (h : Nat) (y : Heat) : (x.putHeat h y).commitShare = x.commitShare := rfl
@[simp] theorem Team.accCount_putHeat (x : Team) (h : Nat) (y : Heat) : (x.putHeat h y).accCount = x.accCount := rfl
@[simp] theorem Team.body_putHeat (x : Team) (h : Nat) (y : Heat) : (x.putHeat h y).body = { x.body with heats := mput x.body.heats h y } := rfl
@[simp] theorem Team.lapBody_putHeat (x : Team) (h : Nat) (y : Heat) : (x.putHeat h y).lapBody = x.lapBody := rfl
@[simp] theorem Team.lap_putHeat (x : Team) (h : Nat) (y : Heat) : (x.putHeat h y).lap = x.lap := rfl
@[simp] theorem Team.started_putHeat (x : Team) (h : Nat) (y : Heat) : (x.putHeat h y).started = x.started := rfl
@[simp] theorem Team.deferred_putHeat (x : Team) (h : Nat) (y : Heat) : (x.putHeat h y).deferred = x.deferred := rfl
@[simp] theorem Team.log_putHeat (x : Team) (h : Nat) (y : Heat) : (x.putHeat h y).log = x.log := rfl
@[simp] theorem Team.deliveries_putHeat (x : Team) (h : Nat) (y : Heat) : (x.putHeat h y).deliveries = x.deliveries := rfl
@[simp] theorem Team.due_putHeat (x : Team) (h : Nat) (y : Heat) : (x.putHeat h y).due = x.due := rfl
@[simp] theorem Team.badJournal_putHeat (x : Team) (h : Nat) (y : Heat) : (x.putHeat h y).badJournal = x.badJournal := rfl
@[simp] theorem Team.badLog_putHeat (x : Team) (h : Nat) (y : Heat) : (x.putHeat h y).badLog = x.badLog := rfl
@[simp] theorem Team.badImage_putHeat (x : Team) (h : Nat) (y : Heat) : (x.putHeat h y).badImage = x.badImage := rfl
@[simp] theorem Team.spilled_putHeat (x : Team) (h : Nat) (y : Heat) : (x.putHeat h y).spilled = x.spilled := rfl
@[simp] theorem Team.undo_putHeat (x : Team) (h : Nat) (y : Heat) : (x.putHeat h y).undo = x.undo := rfl
@[simp] theorem Team.undoPoison_putHeat (x : Team) (h : Nat) (y : Heat) : (x.putHeat h y).undoPoison = x.undoPoison := rfl
@[simp] theorem Team.launches_putHeat (x : Team) (h : Nat) (y : Heat) : (x.putHeat h y).launches = x.launches := rfl
@[simp] theorem Team.absent_putHeat (x : Team) (h : Nat) (y : Heat) : (x.putHeat h y).absent = x.absent := rfl
@[simp] theorem Team.restoring_putHeat (x : Team) (h : Nat) (y : Heat) : (x.putHeat h y).restoring = x.restoring := rfl
@[simp] theorem Team.restoringTiles_putHeat (x : Team) (h : Nat) (y : Heat) : (x.putHeat h y).restoringTiles = x.restoringTiles := rfl
@[simp] theorem Team.savedBins_putHeat (x : Team) (h : Nat) (y : Heat) : (x.putHeat h y).savedBins = x.savedBins := rfl
@[simp] theorem Team.lapBins_putHeat (x : Team) (h : Nat) (y : Heat) : (x.putHeat h y).lapBins = x.lapBins := rfl
@[simp] theorem Team.relaunches_putHeat (x : Team) (h : Nat) (y : Heat) : (x.putHeat h y).relaunches = x.relaunches := rfl
@[simp] theorem Team.advances_putHeat (x : Team) (h : Nat) (y : Heat) : (x.putHeat h y).advances = x.advances := rfl
@[simp] theorem Team.action_putHeat (x : Team) (h : Nat) (y : Heat) : (x.putHeat h y).action = x.action := rfl
@[simp] theorem Team.cause_putHeat (x : Team) (h : Nat) (y : Heat) : (x.putHeat h y).cause = x.cause := rfl
@[simp] theorem Team.avoid_putHeat (x : Team) (h : Nat) (y : Heat) : (x.putHeat h y).avoid = x.avoid := rfl
@[simp] theorem Team.grant_putHeat (x : Team) (h : Nat) (y : Heat) : (x.putHeat h y).grant = x.grant := rfl
@[simp] theorem Team.dbgTag_putHeat (x : Team) (h : Nat) (y : Heat) : (x.putHeat h y).dbgTag = x.dbgTag := rfl
@[simp] theorem Team.replaying_putHeat (x : Team) (h : Nat) (y : Heat) : (x.putHeat h y).replaying = x.replaying := rfl
@[simp] theorem Team.stopped_putHeat (x : Team) (h : Nat) (y : Heat) : (x.putHeat h y).stopped = x.stopped := rfl
@[simp] theorem Team.halted_putHeat (x : Team) (h : Nat) (y : Heat) : (x.putHeat h y).halted = x.halted := rfl
@[simp] theorem Team.runTo_putHeat (x : Team) (h : Nat) (y : Heat) : (x.putHeat h y).runTo = x.runTo := rfl
@[simp] theorem Team.stopImage_putHeat (x : Team) (h : Nat) (y : Heat) : (x.putHeat h y).stopImage = x.stopImage := rfl
@[simp] theorem Team.limits_putHeat (x : Team) (h : Nat) (y : Heat) : (x.putHeat h y).limits = x.limits := rfl
@[simp] theorem Team.exited_putHeat (x : Team) (h : Nat) (y : Heat) : (x.putHeat h y).exited = x.exited := rfl
@[simp] theorem Team.late_putHeat (x : Team) (h : Nat) (y : Heat) : (x.putHeat h y).late = x.late := rfl
@[simp] theorem Team.tdbase_putHeat (x : Team) (h : Nat) (y : Heat) : (x.putHeat h y).tdbase = x.tdbase := rfl
@[simp] theorem Team.tdcnt_putHeat (x : Team) (h : Nat) (y : Heat) : (x.putHeat h y).tdcnt = x.tdcnt := rfl
@[simp] theorem Team.overdue_putHeat (x : Team) (h : Nat) (y : Heat) : (x.putHeat h y).overdue = x.overdue := rfl
@[simp] theorem Team.checker_putHeat (x : Team) (h : Nat) (y : Heat) : (x.putHeat h y).checker = x.checker := rfl
@[simp] theorem Team.checks_putHeat (x : Team) (h : Nat) (y : Heat) : (x.putHeat h y).checks = x.checks := rfl
@[simp] theorem Team.launched_putHeat (x : Team) (h : Nat) (y : Heat) : (x.putHeat h y).launched = x.launched := rfl
@[simp] theorem Team.feed_putHeat (x : Team) (h : Nat) (y : Heat) : (x.putHeat h y).feed = x.feed := rfl
@[simp] theorem Team.fed_putHeat (x : Team) (h : Nat) (y : Heat) : (x.putHeat h y).fed = x.fed := rfl
@[simp] theorem Team.mismatch_putHeat (x : Team) (h : Nat) (y : Heat) : (x.putHeat h y).mismatch = x.mismatch := rfl
@[simp] theorem Team.ours_putHeat (x : Team) (h : Nat) (y : Heat) : (x.putHeat h y).ours = x.ours := rfl
@[simp] theorem Team.theirs_putHeat (x : Team) (h : Nat) (y : Heat) : (x.putHeat h y).theirs = x.theirs := rfl
@[simp] theorem Team.sampled_putHeat (x : Team) (h : Nat) (y : Heat) : (x.putHeat h y).sampled = x.sampled := rfl
@[simp] theorem Team.recs_putHeat (x : Team) (h : Nat) (y : Heat) : (x.putHeat h y).recs = x.recs := rfl

/-! ### Heat.setV -/

@[simp] theorem Heat.role_setV (h : Heat) (r l : Nat) (x : W32) : (h.setV r l x).role = h.role := rfl
@[simp] theorem Heat.budget_setV (h : Heat) (r l : Nat) (x : W32) : (h.setV r l x).budget = h.budget := rfl
@[simp] theorem Heat.slot_setV (h : Heat) (r l : Nat) (x : W32) : (h.setV r l x).slot = h.slot := rfl
@[simp] theorem Heat.ended_setV (h : Heat) (r l : Nat) (x : W32) : (h.setV r l x).ended = h.ended := rfl
@[simp] theorem Heat.lanes_setV (h : Heat) (r l : Nat) (x : W32) : (h.setV r l x).lanes = h.lanes := rfl
@[simp] theorem Heat.rows_setV (h : Heat) (r l : Nat) (x : W32) : (h.setV r l x).rows = mset 0#32 h.rows (32 * r + l) x := rfl
@[simp] theorem Heat.preds_setV (h : Heat) (r l : Nat) (x : W32) : (h.setV r l x).preds = h.preds := rfl
@[simp] theorem Heat.s_setV (h : Heat) (r l : Nat) (x : W32) : (h.setV r l x).s = h.s := rfl
@[simp] theorem Heat.a_setV (h : Heat) (r l : Nat) (x : W32) : (h.setV r l x).a = h.a := rfl
@[simp] theorem Heat.queues_setV (h : Heat) (r l : Nat) (x : W32) : (h.setV r l x).queues = h.queues := rfl
@[simp] theorem Heat.slots_setV (h : Heat) (r l : Nat) (x : W32) : (h.setV r l x).slots = h.slots := rfl
@[simp] theorem Heat.acks_setV (h : Heat) (r l : Nat) (x : W32) : (h.setV r l x).acks = h.acks := rfl
@[simp] theorem Heat.copies_setV (h : Heat) (r l : Nat) (x : W32) : (h.setV r l x).copies = h.copies := rfl
@[simp] theorem Heat.arrivals_setV (h : Heat) (r l : Nat) (x : W32) : (h.setV r l x).arrivals = h.arrivals := rfl
@[simp] theorem Heat.stride_setV (h : Heat) (r l : Nat) (x : W32) : (h.setV r l x).stride = h.stride := rfl
@[simp] theorem Heat.hmem_setV (h : Heat) (r l : Nat) (x : W32) : (h.setV r l x).hmem = h.hmem := rfl
@[simp] theorem Heat.refKey_setV (h : Heat) (r l : Nat) (x : W32) : (h.setV r l x).refKey = h.refKey := rfl
@[simp] theorem Heat.turn_setV (h : Heat) (r l : Nat) (x : W32) : (h.setV r l x).turn = h.turn := rfl
@[simp] theorem Heat.lastIssue_setV (h : Heat) (r l : Nat) (x : W32) : (h.setV r l x).lastIssue = h.lastIssue := rfl
@[simp] theorem Heat.yielded_setV (h : Heat) (r l : Nat) (x : W32) : (h.setV r l x).yielded = h.yielded := rfl
@[simp] theorem Heat.sleepUntil_setV (h : Heat) (r l : Nat) (x : W32) : (h.setV r l x).sleepUntil = h.sleepUntil := rfl
@[simp] theorem Heat.hold_setV (h : Heat) (r l : Nat) (x : W32) : (h.setV r l x).hold = h.hold := rfl
@[simp] theorem Heat.blamed_setV (h : Heat) (r l : Nat) (x : W32) : (h.setV r l x).blamed = h.blamed := rfl
@[simp] theorem Heat.blamedIdx_setV (h : Heat) (r l : Nat) (x : W32) : (h.setV r l x).blamedIdx = h.blamedIdx := rfl
@[simp] theorem Heat.loopBuf_setV (h : Heat) (r l : Nat) (x : W32) : (h.setV r l x).loopBuf = h.loopBuf := rfl
@[simp] theorem Heat.waves_setV (h : Heat) (r l : Nat) (x : W32) : (h.setV r l x).waves = h.waves := rfl
@[simp] theorem Heat.resumed_setV (h : Heat) (r l : Nat) (x : W32) : (h.setV r l x).resumed = h.resumed := rfl
@[simp] theorem Heat.gseq_setV (h : Heat) (r l : Nat) (x : W32) : (h.setV r l x).gseq = h.gseq := rfl
@[simp] theorem Heat.journalled_setV (h : Heat) (r l : Nat) (x : W32) : (h.setV r l x).journalled = noteIn h.journalled r := rfl
@[simp] theorem Heat.badRows_setV (h : Heat) (r l : Nat) (x : W32) : (h.setV r l x).badRows = h.badRows := rfl
@[simp] theorem Heat.born_setV (h : Heat) (r l : Nat) (x : W32) : (h.setV r l x).born = h.born := rfl

/-! ### Heat.setS -/

@[simp] theorem Heat.role_setS (h : Heat) (r : Nat) (x : W64) : (h.setS r x).role = h.role := rfl
@[simp] theorem Heat.budget_setS (h : Heat) (r : Nat) (x : W64) : (h.setS r x).budget = h.budget := rfl
@[simp] theorem Heat.slot_setS (h : Heat) (r : Nat) (x : W64) : (h.setS r x).slot = h.slot := rfl
@[simp] theorem Heat.ended_setS (h : Heat) (r : Nat) (x : W64) : (h.setS r x).ended = h.ended := rfl
@[simp] theorem Heat.lanes_setS (h : Heat) (r : Nat) (x : W64) : (h.setS r x).lanes = h.lanes := rfl
@[simp] theorem Heat.rows_setS (h : Heat) (r : Nat) (x : W64) : (h.setS r x).rows = h.rows := rfl
@[simp] theorem Heat.preds_setS (h : Heat) (r : Nat) (x : W64) : (h.setS r x).preds = h.preds := rfl
@[simp] theorem Heat.s_setS (h : Heat) (r : Nat) (x : W64) : (h.setS r x).s = mset 0#64 h.s r x := rfl
@[simp] theorem Heat.a_setS (h : Heat) (r : Nat) (x : W64) : (h.setS r x).a = h.a := rfl
@[simp] theorem Heat.queues_setS (h : Heat) (r : Nat) (x : W64) : (h.setS r x).queues = h.queues := rfl
@[simp] theorem Heat.slots_setS (h : Heat) (r : Nat) (x : W64) : (h.setS r x).slots = h.slots := rfl
@[simp] theorem Heat.acks_setS (h : Heat) (r : Nat) (x : W64) : (h.setS r x).acks = h.acks := rfl
@[simp] theorem Heat.copies_setS (h : Heat) (r : Nat) (x : W64) : (h.setS r x).copies = h.copies := rfl
@[simp] theorem Heat.arrivals_setS (h : Heat) (r : Nat) (x : W64) : (h.setS r x).arrivals = h.arrivals := rfl
@[simp] theorem Heat.stride_setS (h : Heat) (r : Nat) (x : W64) : (h.setS r x).stride = h.stride := rfl
@[simp] theorem Heat.hmem_setS (h : Heat) (r : Nat) (x : W64) : (h.setS r x).hmem = h.hmem := rfl
@[simp] theorem Heat.refKey_setS (h : Heat) (r : Nat) (x : W64) : (h.setS r x).refKey = h.refKey := rfl
@[simp] theorem Heat.turn_setS (h : Heat) (r : Nat) (x : W64) : (h.setS r x).turn = h.turn := rfl
@[simp] theorem Heat.lastIssue_setS (h : Heat) (r : Nat) (x : W64) : (h.setS r x).lastIssue = h.lastIssue := rfl
@[simp] theorem Heat.yielded_setS (h : Heat) (r : Nat) (x : W64) : (h.setS r x).yielded = h.yielded := rfl
@[simp] theorem Heat.sleepUntil_setS (h : Heat) (r : Nat) (x : W64) : (h.setS r x).sleepUntil = h.sleepUntil := rfl
@[simp] theorem Heat.hold_setS (h : Heat) (r : Nat) (x : W64) : (h.setS r x).hold = h.hold := rfl
@[simp] theorem Heat.blamed_setS (h : Heat) (r : Nat) (x : W64) : (h.setS r x).blamed = h.blamed := rfl
@[simp] theorem Heat.blamedIdx_setS (h : Heat) (r : Nat) (x : W64) : (h.setS r x).blamedIdx = h.blamedIdx := rfl
@[simp] theorem Heat.loopBuf_setS (h : Heat) (r : Nat) (x : W64) : (h.setS r x).loopBuf = h.loopBuf := rfl
@[simp] theorem Heat.waves_setS (h : Heat) (r : Nat) (x : W64) : (h.setS r x).waves = h.waves := rfl
@[simp] theorem Heat.resumed_setS (h : Heat) (r : Nat) (x : W64) : (h.setS r x).resumed = h.resumed := rfl
@[simp] theorem Heat.gseq_setS (h : Heat) (r : Nat) (x : W64) : (h.setS r x).gseq = h.gseq := rfl
@[simp] theorem Heat.journalled_setS (h : Heat) (r : Nat) (x : W64) : (h.setS r x).journalled = h.journalled := rfl
@[simp] theorem Heat.badRows_setS (h : Heat) (r : Nat) (x : W64) : (h.setS r x).badRows = h.badRows := rfl
@[simp] theorem Heat.born_setS (h : Heat) (r : Nat) (x : W64) : (h.setS r x).born = h.born := rfl

/-! ### Heat.setA -/

@[simp] theorem Heat.role_setA (h : Heat) (r : Nat) (x : Addr) : (h.setA r x).role = h.role := rfl
@[simp] theorem Heat.budget_setA (h : Heat) (r : Nat) (x : Addr) : (h.setA r x).budget = h.budget := rfl
@[simp] theorem Heat.slot_setA (h : Heat) (r : Nat) (x : Addr) : (h.setA r x).slot = h.slot := rfl
@[simp] theorem Heat.ended_setA (h : Heat) (r : Nat) (x : Addr) : (h.setA r x).ended = h.ended := rfl
@[simp] theorem Heat.lanes_setA (h : Heat) (r : Nat) (x : Addr) : (h.setA r x).lanes = h.lanes := rfl
@[simp] theorem Heat.rows_setA (h : Heat) (r : Nat) (x : Addr) : (h.setA r x).rows = h.rows := rfl
@[simp] theorem Heat.preds_setA (h : Heat) (r : Nat) (x : Addr) : (h.setA r x).preds = h.preds := rfl
@[simp] theorem Heat.s_setA (h : Heat) (r : Nat) (x : Addr) : (h.setA r x).s = h.s := rfl
@[simp] theorem Heat.a_setA (h : Heat) (r : Nat) (x : Addr) : (h.setA r x).a = mset 0#72 h.a r x := rfl
@[simp] theorem Heat.queues_setA (h : Heat) (r : Nat) (x : Addr) : (h.setA r x).queues = h.queues := rfl
@[simp] theorem Heat.slots_setA (h : Heat) (r : Nat) (x : Addr) : (h.setA r x).slots = h.slots := rfl
@[simp] theorem Heat.acks_setA (h : Heat) (r : Nat) (x : Addr) : (h.setA r x).acks = h.acks := rfl
@[simp] theorem Heat.copies_setA (h : Heat) (r : Nat) (x : Addr) : (h.setA r x).copies = h.copies := rfl
@[simp] theorem Heat.arrivals_setA (h : Heat) (r : Nat) (x : Addr) : (h.setA r x).arrivals = h.arrivals := rfl
@[simp] theorem Heat.stride_setA (h : Heat) (r : Nat) (x : Addr) : (h.setA r x).stride = h.stride := rfl
@[simp] theorem Heat.hmem_setA (h : Heat) (r : Nat) (x : Addr) : (h.setA r x).hmem = h.hmem := rfl
@[simp] theorem Heat.refKey_setA (h : Heat) (r : Nat) (x : Addr) : (h.setA r x).refKey = h.refKey := rfl
@[simp] theorem Heat.turn_setA (h : Heat) (r : Nat) (x : Addr) : (h.setA r x).turn = h.turn := rfl
@[simp] theorem Heat.lastIssue_setA (h : Heat) (r : Nat) (x : Addr) : (h.setA r x).lastIssue = h.lastIssue := rfl
@[simp] theorem Heat.yielded_setA (h : Heat) (r : Nat) (x : Addr) : (h.setA r x).yielded = h.yielded := rfl
@[simp] theorem Heat.sleepUntil_setA (h : Heat) (r : Nat) (x : Addr) : (h.setA r x).sleepUntil = h.sleepUntil := rfl
@[simp] theorem Heat.hold_setA (h : Heat) (r : Nat) (x : Addr) : (h.setA r x).hold = h.hold := rfl
@[simp] theorem Heat.blamed_setA (h : Heat) (r : Nat) (x : Addr) : (h.setA r x).blamed = h.blamed := rfl
@[simp] theorem Heat.blamedIdx_setA (h : Heat) (r : Nat) (x : Addr) : (h.setA r x).blamedIdx = h.blamedIdx := rfl
@[simp] theorem Heat.loopBuf_setA (h : Heat) (r : Nat) (x : Addr) : (h.setA r x).loopBuf = h.loopBuf := rfl
@[simp] theorem Heat.waves_setA (h : Heat) (r : Nat) (x : Addr) : (h.setA r x).waves = h.waves := rfl
@[simp] theorem Heat.resumed_setA (h : Heat) (r : Nat) (x : Addr) : (h.setA r x).resumed = h.resumed := rfl
@[simp] theorem Heat.gseq_setA (h : Heat) (r : Nat) (x : Addr) : (h.setA r x).gseq = h.gseq := rfl
@[simp] theorem Heat.journalled_setA (h : Heat) (r : Nat) (x : Addr) : (h.setA r x).journalled = h.journalled := rfl
@[simp] theorem Heat.badRows_setA (h : Heat) (r : Nat) (x : Addr) : (h.setA r x).badRows = h.badRows := rfl
@[simp] theorem Heat.born_setA (h : Heat) (r : Nat) (x : Addr) : (h.setA r x).born = h.born := rfl

/-! ### Heat.setLane -/

@[simp] theorem Heat.role_setLane (h : Heat) (l : Nat) (x : Lane) : (h.setLane l x).role = h.role := rfl
@[simp] theorem Heat.budget_setLane (h : Heat) (l : Nat) (x : Lane) : (h.setLane l x).budget = h.budget := rfl
@[simp] theorem Heat.slot_setLane (h : Heat) (l : Nat) (x : Lane) : (h.setLane l x).slot = h.slot := rfl
@[simp] theorem Heat.ended_setLane (h : Heat) (l : Nat) (x : Lane) : (h.setLane l x).ended = h.ended := rfl
@[simp] theorem Heat.lanes_setLane (h : Heat) (l : Nat) (x : Lane) : (h.setLane l x).lanes = mput h.lanes l x := rfl
@[simp] theorem Heat.rows_setLane (h : Heat) (l : Nat) (x : Lane) : (h.setLane l x).rows = h.rows := rfl
@[simp] theorem Heat.preds_setLane (h : Heat) (l : Nat) (x : Lane) : (h.setLane l x).preds = h.preds := rfl
@[simp] theorem Heat.s_setLane (h : Heat) (l : Nat) (x : Lane) : (h.setLane l x).s = h.s := rfl
@[simp] theorem Heat.a_setLane (h : Heat) (l : Nat) (x : Lane) : (h.setLane l x).a = h.a := rfl
@[simp] theorem Heat.queues_setLane (h : Heat) (l : Nat) (x : Lane) : (h.setLane l x).queues = h.queues := rfl
@[simp] theorem Heat.slots_setLane (h : Heat) (l : Nat) (x : Lane) : (h.setLane l x).slots = h.slots := rfl
@[simp] theorem Heat.acks_setLane (h : Heat) (l : Nat) (x : Lane) : (h.setLane l x).acks = h.acks := rfl
@[simp] theorem Heat.copies_setLane (h : Heat) (l : Nat) (x : Lane) : (h.setLane l x).copies = h.copies := rfl
@[simp] theorem Heat.arrivals_setLane (h : Heat) (l : Nat) (x : Lane) : (h.setLane l x).arrivals = h.arrivals := rfl
@[simp] theorem Heat.stride_setLane (h : Heat) (l : Nat) (x : Lane) : (h.setLane l x).stride = h.stride := rfl
@[simp] theorem Heat.hmem_setLane (h : Heat) (l : Nat) (x : Lane) : (h.setLane l x).hmem = h.hmem := rfl
@[simp] theorem Heat.refKey_setLane (h : Heat) (l : Nat) (x : Lane) : (h.setLane l x).refKey = h.refKey := rfl
@[simp] theorem Heat.turn_setLane (h : Heat) (l : Nat) (x : Lane) : (h.setLane l x).turn = h.turn := rfl
@[simp] theorem Heat.lastIssue_setLane (h : Heat) (l : Nat) (x : Lane) : (h.setLane l x).lastIssue = h.lastIssue := rfl
@[simp] theorem Heat.yielded_setLane (h : Heat) (l : Nat) (x : Lane) : (h.setLane l x).yielded = h.yielded := rfl
@[simp] theorem Heat.sleepUntil_setLane (h : Heat) (l : Nat) (x : Lane) : (h.setLane l x).sleepUntil = h.sleepUntil := rfl
@[simp] theorem Heat.hold_setLane (h : Heat) (l : Nat) (x : Lane) : (h.setLane l x).hold = h.hold := rfl
@[simp] theorem Heat.blamed_setLane (h : Heat) (l : Nat) (x : Lane) : (h.setLane l x).blamed = h.blamed := rfl
@[simp] theorem Heat.blamedIdx_setLane (h : Heat) (l : Nat) (x : Lane) : (h.setLane l x).blamedIdx = h.blamedIdx := rfl
@[simp] theorem Heat.loopBuf_setLane (h : Heat) (l : Nat) (x : Lane) : (h.setLane l x).loopBuf = h.loopBuf := rfl
@[simp] theorem Heat.waves_setLane (h : Heat) (l : Nat) (x : Lane) : (h.setLane l x).waves = h.waves := rfl
@[simp] theorem Heat.resumed_setLane (h : Heat) (l : Nat) (x : Lane) : (h.setLane l x).resumed = h.resumed := rfl
@[simp] theorem Heat.gseq_setLane (h : Heat) (l : Nat) (x : Lane) : (h.setLane l x).gseq = h.gseq := rfl
@[simp] theorem Heat.journalled_setLane (h : Heat) (l : Nat) (x : Lane) : (h.setLane l x).journalled = h.journalled := rfl
@[simp] theorem Heat.badRows_setLane (h : Heat) (l : Nat) (x : Lane) : (h.setLane l x).badRows = h.badRows := rfl
@[simp] theorem Heat.born_setLane (h : Heat) (l : Nat) (x : Lane) : (h.setLane l x).born = h.born := rfl

/-! ### Heat.setQueue -/

@[simp] theorem Heat.role_setQueue (h : Heat) (q : Nat) (x : List QEntry) : (h.setQueue q x).role = h.role := rfl
@[simp] theorem Heat.budget_setQueue (h : Heat) (q : Nat) (x : List QEntry) : (h.setQueue q x).budget = h.budget := rfl
@[simp] theorem Heat.slot_setQueue (h : Heat) (q : Nat) (x : List QEntry) : (h.setQueue q x).slot = h.slot := rfl
@[simp] theorem Heat.ended_setQueue (h : Heat) (q : Nat) (x : List QEntry) : (h.setQueue q x).ended = h.ended := rfl
@[simp] theorem Heat.lanes_setQueue (h : Heat) (q : Nat) (x : List QEntry) : (h.setQueue q x).lanes = h.lanes := rfl
@[simp] theorem Heat.rows_setQueue (h : Heat) (q : Nat) (x : List QEntry) : (h.setQueue q x).rows = h.rows := rfl
@[simp] theorem Heat.preds_setQueue (h : Heat) (q : Nat) (x : List QEntry) : (h.setQueue q x).preds = h.preds := rfl
@[simp] theorem Heat.s_setQueue (h : Heat) (q : Nat) (x : List QEntry) : (h.setQueue q x).s = h.s := rfl
@[simp] theorem Heat.a_setQueue (h : Heat) (q : Nat) (x : List QEntry) : (h.setQueue q x).a = h.a := rfl
@[simp] theorem Heat.queues_setQueue (h : Heat) (q : Nat) (x : List QEntry) : (h.setQueue q x).queues = mset [] h.queues q x := rfl
@[simp] theorem Heat.slots_setQueue (h : Heat) (q : Nat) (x : List QEntry) : (h.setQueue q x).slots = h.slots := rfl
@[simp] theorem Heat.acks_setQueue (h : Heat) (q : Nat) (x : List QEntry) : (h.setQueue q x).acks = h.acks := rfl
@[simp] theorem Heat.copies_setQueue (h : Heat) (q : Nat) (x : List QEntry) : (h.setQueue q x).copies = h.copies := rfl
@[simp] theorem Heat.arrivals_setQueue (h : Heat) (q : Nat) (x : List QEntry) : (h.setQueue q x).arrivals = h.arrivals := rfl
@[simp] theorem Heat.stride_setQueue (h : Heat) (q : Nat) (x : List QEntry) : (h.setQueue q x).stride = h.stride := rfl
@[simp] theorem Heat.hmem_setQueue (h : Heat) (q : Nat) (x : List QEntry) : (h.setQueue q x).hmem = h.hmem := rfl
@[simp] theorem Heat.refKey_setQueue (h : Heat) (q : Nat) (x : List QEntry) : (h.setQueue q x).refKey = h.refKey := rfl
@[simp] theorem Heat.turn_setQueue (h : Heat) (q : Nat) (x : List QEntry) : (h.setQueue q x).turn = h.turn := rfl
@[simp] theorem Heat.lastIssue_setQueue (h : Heat) (q : Nat) (x : List QEntry) : (h.setQueue q x).lastIssue = h.lastIssue := rfl
@[simp] theorem Heat.yielded_setQueue (h : Heat) (q : Nat) (x : List QEntry) : (h.setQueue q x).yielded = h.yielded := rfl
@[simp] theorem Heat.sleepUntil_setQueue (h : Heat) (q : Nat) (x : List QEntry) : (h.setQueue q x).sleepUntil = h.sleepUntil := rfl
@[simp] theorem Heat.hold_setQueue (h : Heat) (q : Nat) (x : List QEntry) : (h.setQueue q x).hold = h.hold := rfl
@[simp] theorem Heat.blamed_setQueue (h : Heat) (q : Nat) (x : List QEntry) : (h.setQueue q x).blamed = h.blamed := rfl
@[simp] theorem Heat.blamedIdx_setQueue (h : Heat) (q : Nat) (x : List QEntry) : (h.setQueue q x).blamedIdx = h.blamedIdx := rfl
@[simp] theorem Heat.loopBuf_setQueue (h : Heat) (q : Nat) (x : List QEntry) : (h.setQueue q x).loopBuf = h.loopBuf := rfl
@[simp] theorem Heat.waves_setQueue (h : Heat) (q : Nat) (x : List QEntry) : (h.setQueue q x).waves = h.waves := rfl
@[simp] theorem Heat.resumed_setQueue (h : Heat) (q : Nat) (x : List QEntry) : (h.setQueue q x).resumed = h.resumed := rfl
@[simp] theorem Heat.gseq_setQueue (h : Heat) (q : Nat) (x : List QEntry) : (h.setQueue q x).gseq = h.gseq := rfl
@[simp] theorem Heat.journalled_setQueue (h : Heat) (q : Nat) (x : List QEntry) : (h.setQueue q x).journalled = h.journalled := rfl
@[simp] theorem Heat.badRows_setQueue (h : Heat) (q : Nat) (x : List QEntry) : (h.setQueue q x).badRows = h.badRows := rfl
@[simp] theorem Heat.born_setQueue (h : Heat) (q : Nat) (x : List QEntry) : (h.setQueue q x).born = h.born := rfl

end Sys2Proof.Machine
end

