-- ==== Sys2Proof/Laws/Words.lean ====
section
/-! SUPPORT. What the shared frames of a word can answer: a statement about a word cites these and does not
unfold the frame. -/

namespace Sys2Proof.Machine

/-- Everything a heat word can do: the register-budget trap, a hold on a pending register, the fault of an
uncorrectable row, or its own part. -/
theorem heatWordIn_next {s t : State} {m : Mask} {vr sr : List (Nat × Nat)} {f : Heat → Out}
    (e : heatWordIn s m vr sr f = .next t) :
    ∃ h, s.curHeat? = some h ∧
      ((∃ r, overBudget h.budget vr = some r ∧ t = s.raise 4 (r % 128)) ∨
        (∃ x k, overBudget h.budget vr = none ∧
          h.blocker s.cur.active [{ lanes := m, vr := vr, sr := sr }] = some (x, k) ∧
          t = s.hold { h with blamed := x.hdr, blamedIdx := x.idx } .none k) ∨
        (h.badRow vr = true ∧ t = s.raiseRec { s.curRecord 0x23 0 with isAsync := true }) ∨
        (s.ready h m vr sr ∧ f h = .next t)) := by
  simp only [heatWordIn, heatWordBy, List.foldl_cons, List.foldl_nil, List.nil_append] at e
  cases hs : s.curHeat? with
  | none => simp [hs] at e
  | some h =>
    refine ⟨h, rfl, ?_⟩
    cases ho : overBudget h.budget vr with
    | some r => exact .inl ⟨r, rfl, by simpa [hs, ho, eq_comm] using e⟩
    | none =>
      cases hb : h.blocker s.cur.active [{ lanes := m, vr := vr, sr := sr }] with
      | some x => exact .inr (.inl ⟨x.1, x.2, rfl, rfl, by simpa [hs, ho, hb, eq_comm] using e⟩)
      | none =>
        cases hw : h.badRow vr with
        | true => exact .inr (.inr (.inl ⟨rfl, by simpa [hs, ho, hb, hw, eq_comm] using e⟩))
        | false => exact .inr (.inr (.inr ⟨⟨hs, ho, hb, hw⟩, by simpa [hs, ho, hb, hw] using e⟩))

/-- A heat word that names a register at or above the budget (R42). -/
theorem heatWordIn_overBudget {s : State} {h : Heat} {m : Mask} {vr sr : List (Nat × Nat)} {r : Nat}
    (hs : s.curHeat? = some h) (hr : overBudget h.budget vr = some r) (f : Heat → Out) :
    heatWordIn s m vr sr f = .next (s.raise 4 (r % 128)) := by
  simp [heatWordIn, heatWordBy, hs, hr]

/-- A heat word that names a pending register (R31, R32). -/
theorem heatWordIn_blocked {s : State} {h : Heat} {m : Mask} {vr sr : List (Nat × Nat)} {x : Slot} {k : Nat}
    (hs : s.curHeat? = some h) (ho : overBudget h.budget vr = none)
    (hb : h.blocker s.cur.active [{ lanes := m, vr := vr, sr := sr }] = some (x, k)) (f : Heat → Out) :
    heatWordIn s m vr sr f = .next (s.hold { h with blamed := x.hdr, blamedIdx := x.idx } .none k) := by
  simp [heatWordIn, heatWordBy, hs, ho, hb]

/-- A privileged word in the trap heat is a heat word (R277). -/
theorem privWord_trap {s : State} {c : Nat} (hw : s.cur.who = .trap c) (vr sr : List (Nat × Nat))
    (f : Nat → Heat → Out) : privWord s vr sr f = heatWord s vr sr (f c) := by simp [privWord, hw]

/-- A privileged word of a team's heat raises the privilege trap (R38, R277). -/
theorem privWord_team {s : State} {h : Heat} {t g : Nat} (hw : s.cur.who = .heat t g)
    (hr : s.ready h s.cur.lanes [] []) (vr sr : List (Nat × Nat)) (f : Nat → Heat → Out) :
    privWord s vr sr f = .next (s.raise 3 0) := by simp [privWord, hw, heatWord_ready hr]

/-- A sequencer word of a team that is there runs its own part. -/
theorem seqWord_team {s : State} {t : Nat} {x : Team} (hw : s.cur.who = .seq t) (hx : s.team? t = some x)
    (f : Nat → Team → Seq → Out) : seqWord s f = f t x x.body.seq := by simp [seqWord, hw, hx]

/-- A commit point whose deferred stores can perform: they perform, then the word goes on (R359). -/
theorem commitPoint_open {s : State} {t : Nat} {h h1 : Heat} (ht : s.curTeam = some t) (hc : s.commitHeld t = false)
    (h1s : (s.flush t).curHeat? = some h1) (k : State → Heat → Out) :
    commitPoint s h k = k (s.flush t) h1 := by simp [commitPoint, ht, hc, h1s]

/-- A commit point whose deferred stores wait for a migration holds the word (R165). -/
theorem commitPoint_held {s : State} {t : Nat} {h : Heat} (ht : s.curTeam = some t) (hc : s.commitHeld t = true)
    (k : State → Heat → Out) : commitPoint s h k = .next (s.hold h .none 8) := by simp [commitPoint, ht, hc]

/-- A management request while the link is up and the device is not in recovery mode (R522, R539). -/
theorem mgmtFrame_up {s : State} (hl : s.linkUp = true) (hr : s.recovery = false) (f : State → Out) :
    mgmtFrame s f = f (s.rx 1) := by simp [mgmtFrame, hl, hr]

/-- A management request that cannot be taken leaves the state as it was. -/
theorem mgmtFrame_down {s : State} (h : s.linkUp = false ∨ s.recovery = true) (f : State → Out) :
    mgmtFrame s f = .next s := by rcases h with h | h <;> simp [mgmtFrame, h]

end Sys2Proof.Machine
end

