-- ==== Sys2Proof/Tests/Slice0.lean ====
section
/-! SUPPORT. Tests: words that the spec writes out, words that are none, the worked examples of the spec, and for
every statement that has hypotheses states that meet them. -/

set_option Elab.async false
set_option maxRecDepth 4000

namespace Sys2Proof.Tests

open Sys2Proof Sys2Proof.Machine Sys2Proof.Claims

/-! ### Small states -/

/-- One running team of one heat and a sequencer; 32 lanes at a clause; the page at 0 is a 1 GiB page of width
DOMAIN. -/
def one : State :=
  { State.reset.load 0 with
    inputs := [], cur := { who := .heat 0 0, active := 0xFFFFFFFF#32, hdr := BitVec.ofNat 72 loadEntry } }

/-- The same with the lanes of m issuing. -/
def lanes (m : Mask) (s : State) : State := { s with cur := { s.cur with active := m } }

/-- Lane 0 alone. -/
def solo : State := lanes 1#32 one

/-- The page at 0 has the leaf e, and so have the TLBs. -/
def leaf (e : Nat) (s : State) : State :=
  { s with
    mem := writeNat s.mem 0x60000 8 e
    tlb := s.tlb.map (fun (x : TlbEntry) => { x with leaf := BitVec.ofNat 64 e }) }

/-- A leaf of width TEAM, the same with D, and a leaf of width CLUSTER. -/
def teamLeaf : Nat := 0x3B
def defLeaf : Nat := 0x13B
def clusterLeaf : Nat := 0x7B

/-- Heat 0 of team 0 changed. -/
def heat (f : Heat → Heat) (s : State) : State := s.modHeat 0 0 f

/-- Team 0 changed. -/
def team (f : Team → Team) (s : State) : State := s.modTeam 0 f

/-- Its grid changed. -/
def grid (f : Grid → Grid) (s : State) : State := s.modGrid 1 f

/-- Core 0 changed. -/
def core (f : Core → Core) (s : State) : State := s.putCore 0 (f (s.core 0))

/-- Context 0 changed. -/
def context (f : Context → Context) (s : State) : State :=
  { s with contexts := s.contexts.map (fun e => (e.1, if e.1 = 0 then f e.2 else e.2)) }

/-- The issuing heat, and team 0. -/
def hot (s : State) : Heat := s.curHeat?.getD {}
def team0 (s : State) : Team := (s.team? 0).getD {}
def grid0 (s : State) : Grid := (mfind s.grids 1).getD {}
def context0 (s : State) : Context := (s.ctx? 0).getD {}

/-- The sequencer of team 0 issues. -/
def seqs (s : State) : State := { s with cur := { s.cur with who := .seq 0 } }

/-- Core 0 is frozen and its trap heat issues. -/
def trapped : State :=
  { State.reset.load 0xF9000000 with
    inputs := [], cur := { who := .trap 0, active := 0xFFFFFFFF#32, hdr := BitVec.ofNat 72 loadEntry } }

/-- Core 0 of `one` is frozen and its trap heat issues. -/
def both : State :=
  let s := core (fun k => { k with frozen := some {}, trapOn := true, trap := { lanes := loadLanes } }) one
  { s with cur := { s.cur with who := .trap 0 } }

/-- What a claim asks of a heat, from its evaluation. -/
theorem isReady {s : State} {h : Heat} {m : Mask} {vr sr : List (Nat × Nat)}
    (e : (decide (s.curHeat? = some h) && decide (overBudget h.budget vr = none) &&
      decide (h.blocker s.cur.active [{ lanes := m, vr := vr, sr := sr }] = none) && !h.badRow vr) = true) :
    s.ready h m vr sr := by
  simp only [Bool.and_eq_true, decide_eq_true_eq, Bool.not_eq_true'] at e
  exact ⟨e.1.1.1, e.1.1.2, e.1.2, e.2⟩

/-- The issuing core has no fault of data waiting. -/
theorem isExact {s : State} (e : (s.core s.cur.core).flips = []) : s.Exact := by
  simp [State.Exact, e]

/-- A team that neither replays nor checks reads what is there. -/
theorem notLogged {s : State} {x : Team} (e : s.curTeam = some 0) (t : s.team? 0 = some x)
    (r : x.replaying = false ∧ x.checks = none) (k st l a : Nat) : s.logged k st l a = none := by
  simp [State.logged, e, t, Team.served, r.1, r.2]

/-- What holds of team 0 holds of the issuing team. -/
theorem onTeam {s : State} {x : Team} {P : Team → Prop} (e : s.curTeam = some 0) (t : s.team? 0 = some x) (p : P x) :
    ∀ u y, s.curTeam = some u → s.team? u = some y → P y := by
  intro u y a b
  rw [e] at a
  obtain rfl := Option.some.inj a
  rw [t] at b
  obtain rfl := Option.some.inj b
  exact p

/-- The issuing team takes no part in a check. -/
theorem isUnchecked {s : State} {x : Team} (e : s.curTeam = some 0) (t : s.team? 0 = some x)
    (c : x.checker = none ∧ x.checks = none) : Unchecked s := onTeam e t c

/-- What holds below 32 holds of the lanes of a mask. -/
theorem onLanes {m : Mask} {P : Nat → Prop} (a : ∀ l, l < 32 → P l) : ∀ l, inMask m l → P l := by
  intro l h
  by_cases b : l < 32
  · exact a l b
  · have c : m.getLsbD l = false := BitVec.getLsbD_of_ge _ _ (by omega)
    simp [inMask, c] at h

/-! ### States that meet the hypotheses of the statements -/

theorem witness_ScalarAndAddressResults :
    (∃ (i : Instr) (f : ScalarForm) (s : State) (h : Heat), scalarForm s.cur i = some f ∧
      s.ready h s.cur.lanes [] (single f.uses)) ∧
    (∃ (i : Instr) (f : AddrForm) (s : State) (h : Heat), addrForm i = some f ∧
      s.ready h s.cur.lanes [] (single f.uses)) ∧
    ∃ (d b : BitVec 6) (s : State) (h : Heat), d ≠ b ∧ s.ready h s.cur.lanes [] (single [d.toNat, b.toNat]) :=
  ⟨⟨.sadd 1 2 63, _, one, hot one, rfl, isReady (by decide +kernel)⟩,
    ⟨.aadd 1 2 3, _, one, hot one, rfl, isReady (by decide +kernel)⟩,
    ⟨0, 63, one, hot one, by decide, isReady (by decide +kernel)⟩⟩

theorem witness_VectorIntegerResults :
    (∃ (i : Instr) (f : VecForm) (s : State) (h : Heat), intForm i = some f ∧ s.ready h s.cur.lanes f.uses f.suses) ∧
    ∃ (i : Instr) (f : PairForm) (s : State) (h : Heat), pairForm i = some f ∧ s.ready h s.cur.lanes f.uses [] :=
  ⟨⟨.vadd 127 0 1 1, _, one, hot one, rfl, isReady (by decide +kernel)⟩,
    ⟨.vaddN64 63 0 1 0, _, one, hot one, rfl, isReady (by decide +kernel)⟩⟩

theorem witness_VectorFloatResults : ∃ (i : Instr) (f : VecForm) (s : State) (h : Heat), floatForm i = some f ∧
    s.ready h s.cur.lanes f.uses f.suses ∧ s.Exact :=
  ⟨.vfma 127 0 1 1, _, one, hot one, rfl, isReady (by decide +kernel), isExact (by decide +kernel)⟩

theorem witness_PredicateResults : ∃ (i : Instr) (f : PredForm) (s : State) (h : Heat), predForm i = some f ∧
    s.ready h s.cur.lanes f.uses [] :=
  ⟨.vcmpEq 0 127 1 1, _, one, hot one, rfl, isReady (by decide +kernel)⟩

theorem witness_CrossLaneResults :
    (∃ (i : Instr) (f : CrossForm) (s : State) (h : Heat), crossForm s.cur i = some f ∧ f.ready s h ∧ s.Exact) ∧
    ∃ (i : Instr) (f : VoteForm) (s : State) (h : Heat), voteForm i = some f ∧ s.ready h s.cur.active f.uses [] :=
  ⟨⟨.qswpD 1 2 1, _, one, hot one, rfl, by unfold CrossForm.ready; decide +kernel, isExact (by decide +kernel)⟩,
    ⟨.vvoteUni 7 2 0, _, one, hot one, rfl, isReady (by decide +kernel)⟩⟩

theorem witness_ConvertResults : ∃ (i : Instr) (f : CvtForm) (s : State) (h : Heat), cvtForm i = some f ∧
    s.ready h s.cur.lanes [(f.dest, 1), (f.src, 1)] [] ∧ s.Exact :=
  ⟨.vcvtE4m3Sr 9 4 3 0 0, _, one, hot one, rfl, isReady (by decide +kernel), isExact (by decide +kernel)⟩

theorem witness_QuantiseRowResults : ∃ (i : Instr) (f : QuantForm) (s : State) (h : Heat), rowForm i = some f ∧
    s.ready h s.cur.lanes [(f.dest, packedRegs f.fmt), (f.src, 32), (f.scale, 1)] [] :=
  ⟨.vqntE4m3E8m0 0 96 8 3, _, one, hot one, rfl, isReady (by decide +kernel)⟩

theorem witness_QuantiseBlockResults :
    (∃ (i : Instr) (f : QuantForm) (s : State) (h : Heat), blockForm i = some f ∧
      s.ready h s.cur.lanes [(f.dest, packedRegs f.fmt), (f.src, 32), (f.scale, 1)] [] ∧
      s.cur.active ≠ 0xFFFFFFFF#32) ∧
    ∃ (i : Instr) (f : QuantForm) (s : State) (h : Heat), blockForm i = some f ∧
      s.ready h s.cur.lanes [(f.dest, packedRegs f.fmt), (f.src, 32), (f.scale, 1)] [] ∧
      s.cur.active = 0xFFFFFFFF#32 ∧ s.cur.helpers = 0#32 ∧ f.p < 32 ∧
      ¬ (f.dest ≤ f.scale ∧ f.scale < f.dest + packedRegs f.fmt) :=
  ⟨⟨.vqntE2m1S32scale 0 96 8 3, _, lanes 0x7FFFFFFF#32 one, hot one, rfl, isReady (by decide +kernel),
      by decide +kernel⟩,
    ⟨.vqntE2m1S32scale 0 96 4 3, _, one, hot one, rfl, isReady (by decide +kernel), rfl, rfl, by decide +kernel⟩⟩

theorem witness_DequantiseResults : ∃ (i : Instr) (f : QuantForm) (e8 : Bool) (s : State) (h : Heat),
    dequantForm i = some (f, e8) ∧
    s.ready h s.cur.lanes [(f.dest, 32), (f.src, packedRegs f.fmt), (f.scale, 1)] [] ∧
    s.ready h (if e8 then s.cur.lanes else BitVec.ofNat 32 (2 ^ f.p)) [(f.scale, 1)] [] ∧ s.Exact :=
  ⟨.vdqntE5m2S32scale 96 0 8 3, _, false, one, hot one, rfl, isReady (by decide +kernel), isReady (by decide +kernel),
    isExact (by decide +kernel)⟩

/-- Team 0 with its scratchpad and one address register each for memory and window. -/
theorem witness_LoadResults : ∃ (i : Instr) (f : LoadForm) (s : State) (h : Heat) (ts hs : List (Nat × Target))
      (bs bs' : List Binding), loadForm i = some f ∧ s.ready h s.cur.lanes f.uses [] ∧
    (lanesOf (h.taking s.cur.active f.pred) ≠ [] ∨ lanesOf (h.taking s.cur.helpers f.pred) ≠ []) ∧
    h.pending.length < Config.slotCount ∧ (f.window = true → s.portBusy = false) ∧ Unchecked s ∧
    checkAll (f.check s h) (f.addr h) (lanesOf (h.taking s.cur.active f.pred)) s.bindings = .ok ts bs ∧
    Clear s f.size ts ∧
    helperTargets (f.check s h) (lanesOf (h.taking s.cur.helpers f.pred)) bs = .ok hs bs' ∧ Clear s f.size hs :=
  ⟨.vldB128 31 0 127 15 0, _, { solo with cur := { solo.cur with helpers := 2#32 } }, hot solo,
    [(0, .mem 0 0xFB)], [(1, .mem 0 0xFB)], [], [], rfl, isReady (by decide +kernel), by decide +kernel,
    by decide +kernel, by decide, isUnchecked (x := team0 solo) (by decide +kernel) (by decide +kernel) ⟨rfl, rfl⟩,
    by decide +kernel, by unfold Clear; decide +kernel, by decide +kernel,
    by unfold Clear; decide +kernel⟩

/-- A load of the cluster window, from the last word of the scratchpad. -/
theorem witness_LoadResults_window : ∃ (i : Instr) (f : LoadForm) (s : State) (h : Heat) (ts : List (Nat × Target)),
    loadForm i = some f ∧ f.window = true ∧ s.ready h s.cur.lanes f.uses [] ∧ s.portBusy = false ∧
    checkAll (f.check s h) (f.addr h) (lanesOf (h.taking s.cur.active f.pred)) s.bindings = .ok ts [] ∧
    Clear s f.size ts :=
  let s := heat (fun h => h.setA 3 0x4FFFFC#72) solo
  ⟨.vldsB32 5 3 127 0 0, _, s, hot s, [(0, .spad 0 0x4FFFFC)], rfl, rfl, isReady (by decide +kernel),
    by decide +kernel, by decide +kernel, by unfold Clear; decide +kernel⟩

theorem witness_ScalarMemoryResults :
    (∃ (d : BitVec 6) (a : BitVec 4) (imm : BitVec 8) (s : State) (h : Heat) (x : Nat × Target) (bs : List Binding),
      let addr : Nat → Addr := fun _ => h.ar a.toNat + 8 * imm.signExtend 72
      s.ready h s.cur.lanes [] (single [d.toNat]) ∧ h.pending.length < Config.slotCount ∧ Unchecked s ∧
      checkAll (fun bs l => s.checkMem bs s.curWho (addr l) 8 .read false) addr [lowLane s.cur.active] s.bindings =
        .ok [x] bs ∧ Clear s 8 [x]) ∧
    ∃ (z : BitVec 6) (a : BitVec 4) (imm : BitVec 8) (s : State) (h : Heat) (x : Nat × Target) (bs : List Binding),
      let addr : Nat → Addr := fun _ => h.ar a.toNat + 8 * imm.signExtend 72
      s.ready h s.cur.lanes [] (single [z.toNat]) ∧ Unchecked s ∧
      checkAll (fun bs l => s.checkMem bs s.curWho (addr l) 8 .write false) addr [lowLane s.cur.active] s.bindings =
        .ok [x] bs ∧ Clear s 8 [x] ∧ closesLap s x.2 = false ∧
      ∀ u y, s.curTeam = some u → s.team? u = some y →
        deferRanges s 8 [x] = [] ∨ y.hasRoom (deferRanges s 8 [x]) = true :=
  ⟨⟨1, 0, 127, one, hot one, (0, .mem 1016 0xFB), [], isReady (by decide +kernel), by decide +kernel,
      isUnchecked (x := team0 one) (by decide +kernel) (by decide +kernel) ⟨rfl, rfl⟩, by decide +kernel, by unfold Clear; decide +kernel⟩,
    let s := leaf teamLeaf one
    ⟨1, 0, 0, s, hot s, (0, .mem 0 0x3B), [{ base := 0, size := 0x40000000, owner := 0 }],
      isReady (by decide +kernel), isUnchecked (x := team0 s) (by decide +kernel) (by decide +kernel) ⟨rfl, rfl⟩,
      by decide +kernel, by unfold Clear; decide +kernel, by decide +kernel, fun _ _ _ _ => .inl (by decide +kernel)⟩⟩

/-- A descriptor table of one descriptor at 0x30000: a tensor of 32 rows of 32 bytes at 0x200000. -/
def tiled : State :=
  team (fun x => { x with tdbase := 0x300#64, tdcnt := 1#64 })
    { solo with mem := writeNat (writeNat (writeNat solo.mem 0x30000 8 0x200000) 0x30010 8 0x2000000020) 0x30018 8 32 }

/-- The descriptor of `tiled`. -/
def tileDesc : Desc := { base := 0x200000, colb := 32, rows := 32, rstride := 32 }

/-- The 64 bytes of the descriptor of `tiled`. -/
def tileBytes : List Byte := readBytes tiled.mem 0x30000 64

/-- The same with the tensor on device 1, whose export is large enough. -/
def tiledFar : State :=
  { tiled with
    mem := writeNat (writeNat tiled.mem 0x30000 8 (2 ^ 61)) 0x30008 8 0x80
    domain := [(1, { explen := 65536, valid := true })] }

/-- The descriptor of `tiledFar`, and its 64 bytes. -/
def farDesc : Desc := { tileDesc with base := 2 ^ 71 + 2 ^ 61 }
def farBytes : List Byte := readBytes tiledFar.mem 0x30000 64

/-- No value of a tile load is served in `tiled` or `tiledFar`. -/
theorem tileUnserved (s : State) (h : s = tiled ∨ s = tiledFar) : Unchecked s ∧ ∀ l st n, s.logged 0 st l n = none := by
  rcases h with rfl | rfl
  · exact ⟨isUnchecked (x := team0 tiled) (by decide +kernel) (by decide +kernel) (by decide +kernel),
      fun l st n => notLogged (x := team0 tiled) (by decide +kernel) (by decide +kernel) (by decide +kernel) 0 st l n⟩
  · exact ⟨isUnchecked (x := team0 tiledFar) (by decide +kernel) (by decide +kernel) (by decide +kernel),
      fun l st n => notLogged (x := team0 tiledFar) (by decide +kernel) (by decide +kernel) (by decide +kernel) 0 st l n⟩

theorem witness_TileLoadResult : ∀ far : Bool, ∃ (d a : BitVec 4) (p : BitVec 1) (s : State) (h : Heat) (desc : Desc)
      (b : List Byte) (ts hs : List (Nat × Target)) (bs0 bs1 bs2 : List Binding), let handle := (h.ar a.toNat).toNat
    let lanes := lanesOf (h.taking s.cur.active p.toNat)
    let column := desc.orient != hFlip handle
    let addr := desc.rowAddr (hRow handle) (hCol handle)
    let s1 := { s with bindings := bs2 }
    s.ready h s.cur.lanes [(8 * d.toNat, 8)] [] ∧ lanes ≠ [] ∧ h.pending.length < Config.slotCount ∧ Unchecked s ∧
    fld handle 65 7 = 0 ∧ s.useDesc s.bindings h.stride.toNat (hDesc handle) = .ok desc b bs0 ∧
    desc.holds (hRow handle) (hCol handle) = true ∧ s.checkTile desc column addr lanes bs0 = .ok ts bs1 ∧
    s.helperTile desc column addr (lanesOf (h.taking s.cur.helpers p.toNat)) bs1 = .ok hs bs2 ∧
    (∀ r, r < 32 → s1.piecesWait (s1.rowPieces (addr r)) = false) ∧ (∀ l st n, s.logged 0 st l n = none) ∧
    bitAt (addr 0) 71 = far := by
  intro far
  cases far
  · exact ⟨15, 0, 0, tiled, hot tiled, tileDesc, tileBytes, [(0, .mem 0x200000 0xFB)], [], [], [], [],
      isReady (by decide +kernel), by decide +kernel, by decide +kernel, (tileUnserved _ (.inl rfl)).1, by decide +kernel,
      by decide +kernel, by decide +kernel, by decide +kernel, by decide +kernel, by decide +kernel,
      (tileUnserved _ (.inl rfl)).2, by decide +kernel⟩
  · exact ⟨15, 0, 0, tiledFar, hot tiledFar, farDesc, farBytes, [], [], [], [], [],
      isReady (by decide +kernel), by decide +kernel, by decide +kernel, (tileUnserved _ (.inr rfl)).1, by decide +kernel,
      by decide +kernel, by decide +kernel, by decide +kernel, by decide +kernel, by decide +kernel,
      (tileUnserved _ (.inr rfl)).2, by decide +kernel⟩

/-- The hypotheses of a store that closes no lap. -/
theorem witness_StoreResults : ∃ (i : Instr) (f : StoreForm) (s : State) (h : Heat) (ts : List (Nat × Target))
      (bs : List Binding), storeForm i = some f ∧ s.ready h s.cur.lanes f.uses [] ∧
    lanesOf (h.taking s.cur.active f.pred) ≠ [] ∧ (f.window = true → s.portBusy = false) ∧
    checkAll (f.check s h) (f.addr h) (lanesOf (h.taking s.cur.active f.pred)) s.bindings = .ok ts bs ∧
    Clear s f.size ts ∧ Unchecked s ∧ (∀ x ∈ ts, closesLap s x.2 = false) ∧
    ∀ u x, s.curTeam = some u → s.team? u = some x →
      deferRanges s f.size ts = [] ∨ x.hasRoom (deferRanges s f.size ts) = true :=
  let s := leaf teamLeaf solo
  ⟨.vstB128 31 0 127 0, _, s, hot s, [(0, .mem 0 0x3B)], [{ base := 0, size := 0x40000000, owner := 0 }], rfl,
    isReady (by decide +kernel), by decide +kernel, by decide, by decide +kernel, by unfold Clear; decide +kernel,
    isUnchecked (x := team0 s) (by decide +kernel) (by decide +kernel) ⟨rfl, rfl⟩, by decide +kernel,
    fun _ _ _ _ => .inl (by decide +kernel)⟩

/-- A store to a deferred page, for which there is room. -/
theorem witness_StoreResults_deferred : ∃ (f : StoreForm) (s : State) (ts : List (Nat × Target)) (bs : List Binding),
    storeForm (.vstB32 5 0 127 0) = some f ∧ s.ready (hot s) s.cur.lanes f.uses [] ∧
    checkAll (f.check s (hot s)) (f.addr (hot s)) (lanesOf ((hot s).taking s.cur.active f.pred)) s.bindings = .ok ts bs ∧
    Clear s f.size ts ∧ (∀ x ∈ ts, closesLap s x.2 = false) ∧ deferRanges s f.size ts ≠ [] ∧
    ∀ u x, s.curTeam = some u → s.team? u = some x → x.hasRoom (deferRanges s f.size ts) = true :=
  let s := leaf defLeaf solo
  ⟨_, s, [(0, .mem 0 0x13B)], [{ base := 0, size := 0x40000000, owner := 0 }], rfl, isReady (by decide +kernel),
    by decide +kernel, by unfold Clear; decide +kernel, by decide +kernel, by decide +kernel, 
    onTeam (x := team0 s) (P := fun x => x.hasRoom (deferRanges s 4 [(0, .mem 0 0x13B)]) = true) (by decide +kernel)
      (by decide +kernel) (by decide +kernel)⟩

/-- A store to a page of width DOMAIN. -/
theorem witness_AccessClosesLap_store : ∃ (i : Instr) (f : StoreForm) (s s1 s2 : State) (h h1 h2 : Heat) (u : Nat)
      (ts : List (Nat × Target)) (bs : List Binding), storeForm i = some f ∧ f.window = false ∧
    s.ready h s.cur.lanes f.uses [] ∧ lanesOf (h.taking s.cur.active f.pred) ≠ [] ∧
    checkAll (f.check s h) (f.addr h) (lanesOf (h.taking s.cur.active f.pred)) s.bindings = .ok ts bs ∧
    Clear s f.size ts ∧ Unchecked s ∧ s.curTeam = some u ∧ s.commitHeld u = false ∧
    s1 = { s with bindings := bs }.flush u ∧ s1.curHeat? = some h1 ∧
    s2 = s1.endLap ∧ s2.curHeat? = some h2 ∧ ts.any (fun x => closesLap s x.2) = true :=
  ⟨.vstB32 5 0 127 0, _, solo, _, _, hot solo, hot (solo.flush 0), hot (solo.flush 0).endLap, 0, [(0, .mem 0 0xFB)], [],
    rfl, rfl, isReady (by decide +kernel), by decide +kernel, by decide +kernel, by unfold Clear; decide +kernel,
    isUnchecked (x := team0 solo) (by decide +kernel) (by decide +kernel) ⟨rfl, rfl⟩, by decide +kernel, by decide +kernel, rfl, by decide +kernel, rfl, by decide +kernel⟩

/-- A deferred store for which there is no room. -/
theorem witness_AccessClosesLap_noRoom : ∃ (i : Instr) (f : StoreForm) (s s1 s2 : State) (h h1 h2 : Heat) (u : Nat)
      (ts : List (Nat × Target)) (bs : List Binding), storeForm i = some f ∧ f.window = false ∧
    s.ready h s.cur.lanes f.uses [] ∧ lanesOf (h.taking s.cur.active f.pred) ≠ [] ∧
    checkAll (f.check s h) (f.addr h) (lanesOf (h.taking s.cur.active f.pred)) s.bindings = .ok ts bs ∧
    Clear s f.size ts ∧ Unchecked s ∧ s.curTeam = some u ∧ s.commitHeld u = false ∧
    s1 = { s with bindings := bs }.flush u ∧ s1.curHeat? = some h1 ∧
    s2 = s1.endLap ∧ s2.curHeat? = some h2 ∧ ts.any (fun x => closesLap s x.2) = false ∧
    ∃ x, s.team? u = some x ∧ deferRanges s f.size ts ≠ [] ∧ x.hasRoom (deferRanges s f.size ts) = false :=
  let s := team (fun x => { x with commitShare := 0 }) (leaf defLeaf solo)
  let s1 := { s with bindings := [{ base := 0, size := 0x40000000, owner := 0 }] }.flush 0
  ⟨.vstB32 5 0 127 0, _, s, s1, _, hot s, hot s1, hot s1.endLap, 0, [(0, .mem 0 0x13B)],
    [{ base := 0, size := 0x40000000, owner := 0 }], rfl, rfl, isReady (by decide +kernel), by decide +kernel,
    by decide +kernel, by unfold Clear; decide +kernel,
    isUnchecked (x := team0 s) (by decide +kernel) (by decide +kernel) ⟨rfl, rfl⟩, by decide +kernel, by decide +kernel,
    rfl, by decide +kernel, rfl, by decide +kernel, by decide +kernel, team0 s, by decide +kernel⟩

/-- An atomic on a page of width DOMAIN. -/
theorem witness_AccessClosesLap_atomic : ∃ (i : Instr) (f : AtomForm) (s s1 : State) (h h1 : Heat) (u : Nat)
      (ts : List (Nat × Target)) (bs : List Binding), atomForm i = some f ∧ f.window = false ∧
    s.ready h s.cur.lanes f.all [] ∧ lanesOf (h.taking s.cur.active f.pred) ≠ [] ∧
    (f.dest.isSome → h.pending.length < Config.slotCount) ∧
    checkAll (f.check s h) (f.addr h) (lanesOf (h.taking s.cur.active f.pred)) s.bindings = .ok ts bs ∧
    Clear s f.size ts ∧ Unchecked s ∧ s.curTeam = some u ∧ s.commitHeld u = false ∧
    (∃ x ∈ ts, closesLap s x.2 = true ∨ deferred s x.2 = true) ∧
    s1 = { s with bindings := bs }.flush u ∧ s1.curHeat? = some h1 ∧ Sound s1 f.size ts ∧ Empty s1 :=
  ⟨.atomCasB32 2 0 127 0 0, _, solo, _, hot solo, hot (solo.flush 0), 0, [(0, .mem 0 0xFB)], [], rfl, rfl,
    isReady (by decide +kernel), by decide +kernel, by decide +kernel, by decide +kernel,
    by unfold Clear; decide +kernel, isUnchecked (x := team0 solo) (by decide +kernel) (by decide +kernel) ⟨rfl, rfl⟩,
    by decide +kernel, by decide +kernel, by decide +kernel, rfl, by decide +kernel,
    by unfold Sound; decide +kernel, 
    onTeam (x := team0 (solo.flush 0)) (P := fun x => x.deferred = []) (by decide +kernel) (by decide +kernel)
      (by decide +kernel)⟩

theorem witness_AtomicResults : ∃ (i : Instr) (f : AtomForm) (s : State) (h : Heat) (ts : List (Nat × Target))
      (bs : List Binding), atomForm i = some f ∧ s.ready h s.cur.lanes f.all [] ∧
    lanesOf (h.taking s.cur.active f.pred) ≠ [] ∧ (f.dest.isSome → h.pending.length < Config.slotCount) ∧
    (f.window = true → s.portBusy = false) ∧
    checkAll (f.check s h) (f.addr h) (lanesOf (h.taking s.cur.active f.pred)) s.bindings = .ok ts bs ∧
    Clear s f.size ts ∧ Unchecked s ∧ Placed s ts ∧ Sound s f.size ts ∧ Empty s ∧
    ∀ x ∈ ts, closesLap s x.2 = false ∧ deferred s x.2 = false :=
  let s := leaf teamLeaf (lanes 3#32 one)
  ⟨.redAddB64 4 0 127 0, _, s, hot s, [(0, .mem 0 0x3B), (1, .mem 0 0x3B)],
    [{ base := 0, size := 0x40000000, owner := 0 }], rfl, isReady (by decide +kernel), by decide +kernel,
    by decide +kernel, by decide +kernel, by decide +kernel, by unfold Clear; decide +kernel,
    isUnchecked (x := team0 s) (by decide +kernel) (by decide +kernel) ⟨rfl, rfl⟩,
    fun x hx u off e => by
      simp only [List.mem_cons, List.not_mem_nil, or_false] at hx
      rcases hx with rfl | rfl <;> simp at e,
    by unfold Sound; decide +kernel,
    onTeam (x := team0 s) (P := fun x => x.deferred = []) (by decide +kernel) (by decide +kernel) (by decide +kernel),
    by decide +kernel⟩

theorem witness_OrderedReduction : ∃ (z : BitVec 6) (a : BitVec 4) (o : BitVec 7) (p : BitVec 1) (s : State) (h : Heat)
      (ts : List (Nat × Target)) (bs : List Binding), let lanes := lanesOf (h.taking s.cur.active p.toNat)
    let addr := fun l => h.laneAddr a o l
    s.ready h s.cur.lanes ((2 * z.toNat, 2) :: ofsUse o) [] ∧ lanes ≠ [] ∧
    checkAll (fun bs l => s.checkMem bs s.curWho (addr l) 4 .write true) addr lanes s.bindings = .ok ts bs ∧
    ∀ x ∈ ts, ∀ pa leaf, x.2 = .mem pa leaf →
      s.ownedRange pa 4 = false ∧ (s.curTeam.isSome → pteSw leaf = 0 ∧ pteD leaf = false) :=
  let s := leaf teamLeaf solo
  ⟨63, 0, 127, 0, s, hot s, [(0, .mem 0 0x3B)], [{ base := 0, size := 0x40000000, owner := 0 }],
    isReady (by decide +kernel), by decide +kernel, by decide +kernel, fun x hx pa l e => by
      simp only [List.mem_cons, List.not_mem_nil, or_false] at hx
      subst hx
      simp only [Target.mem.injEq] at e
      obtain ⟨rfl, rfl⟩ := e
      exact ⟨by decide +kernel, fun _ => by decide +kernel⟩⟩

theorem witness_IdleWords :
    (∃ (i : Instr) (s : State) (h g : Heat),
      s.ready h s.cur.lanes (match i with | .pref _ _ o _ => ofsUse o | _ => []) [] ∧
      (match i with
        | .nop => g = h
        | .pref _ _ _ _ => g = h
        | .yield => g = { h with yielded := true }
        | .sleep n => g = if n = 0#9 then { h with yielded := true }
            else { h with sleepUntil := some ((s.core s.cur.core).cycles.toNat + 16 * n.toNat) }
        | _ => False)) ∧
    ∃ (i : Instr) (s : State) (h : Heat) (uses : List (Nat × Nat)) (p : Nat),
      ((loadForm i).map (fun f => (f.uses, f.pred)) = some (uses, p) ∨
        (storeForm i).map (fun f => (f.uses, f.pred)) = some (uses, p) ∨
        (atomForm i).map (fun f => (f.all, f.pred)) = some (uses, p)) ∧
      s.ready h s.cur.lanes uses [] ∧ lanesOf (h.taking s.cur.active p) = [] ∧
      lanesOf (h.taking s.cur.helpers p) = [] :=
  ⟨⟨.sleep 511, one, hot one, { hot one with sleepUntil := some 8176 }, isReady (by decide +kernel), by decide +kernel⟩,
    ⟨.vldB32 5 0 127 0 1, one, hot one, [(5, 1)], 1, .inl (by decide), isReady (by decide +kernel), by decide +kernel⟩⟩

theorem witness_TransferResults :
    (∃ (i : Instr) (s : State) (f : MoveForm) (h : Heat), moveForm s.cur i = some f ∧
      s.ready h s.cur.lanes f.uses []) ∧
    ∃ (s : State) (h : Heat), 2 ≤ h.budget ∧ s.ready h s.cur.lanes [(h.budget - 2, 2)] [] :=
  ⟨⟨.ret 63 1, one, _, hot one, rfl, isReady (by decide +kernel)⟩,
    ⟨one, hot one, by decide +kernel, isReady (by decide +kernel)⟩⟩

theorem witness_LoopResults :
    (∃ (a : BitVec 7) (s : State) (h : Heat), s.ready h s.cur.lanes [(a.toNat, 1)] [] ∧
      ∀ l, inMask s.cur.active l → (h.lane l).loops.length < 4) ∧
    (∃ (a : BitVec 7) (s : State) (h : Heat) (l : Nat), s.ready h s.cur.lanes [(a.toNat, 1)] [] ∧
      inMask s.cur.active l ∧ 4 ≤ (h.lane l).loops.length) ∧
    (∃ (x : Lane) (e : LoopEntry) (p : Addr), x.loops = [e] ∧ p ≠ e.stop) ∧
    (∃ (x : Lane) (e : LoopEntry) (p : Addr), x.loops = [e] ∧ p = e.stop ∧ e.count ≠ 1#32) ∧
    ∃ (x : Lane) (e : LoopEntry) (p : Addr), x.loops = [e] ∧ p = e.stop ∧ e.count = 1#32 :=
  let deep := heat (fun h => h.setLane 31 { h.lane 31 with loops := List.replicate 4 { count := 2 } }) one
  ⟨⟨5, solo, hot solo, isReady (by decide +kernel), onLanes (by decide +kernel)⟩,
    ⟨5, deep, hot deep, 31, isReady (by decide +kernel), by decide +kernel⟩,
    ⟨{ loops := [{ count := 2, stop := 8 }] }, { count := 2, stop := 8 }, 4, rfl, by decide⟩,
    ⟨{ loops := [{ count := 0, stop := 8 }] }, { count := 0, stop := 8 }, 8, rfl, rfl, by decide⟩,
    ⟨{ loops := [{ count := 1, stop := 8 }] }, { count := 1, stop := 8 }, 8, rfl, rfl, rfl⟩⟩

/-- EXIT of some lanes, of the last lane of a heat with hurdles, and of the last lane of one without. -/
theorem witness_PackAndExit :
    (∃ (a : BitVec 7) (s : State) (h : Heat), s.ready h s.cur.lanes [(a.toNat, 1)] []) ∧
    (∃ (s : State) (h : Heat), s.ready h s.cur.lanes [] [] ∧ s.cur.active ≠ h.live) ∧
    ∃ (s : State) (h : Heat), s.ready h s.cur.lanes [] [] ∧ s.cur.active = h.live ∧ h.hmem = [] :=
  ⟨⟨5, one, hot one, isReady (by decide +kernel)⟩, ⟨solo, hot solo, isReady (by decide +kernel), by decide +kernel⟩,
    ⟨one, hot one, isReady (by decide +kernel), by decide +kernel⟩⟩

theorem witness_LapEnds :
    (∃ (s : State) (u : Nat) (x : Team), s.team? u = some x ∧ x.checks = none ∧ x.deferred ≠ []) ∧
    ∃ (s : State) (u v : Nat) (x : Team), v ∈ s.clusterOf u ∧ (s.clusterOf u).Nodup ∧ s.team? v = some x ∧
      ∀ w ∈ s.clusterOf u, ∀ z, s.team? w = some z → z.checker = none ∧ z.runTo = none :=
  let s := team (fun x => { x with deferred := [{ va := 64, pa := 64, bytes := [7#8] }] }) one
  ⟨⟨s, 0, team0 s, by decide +kernel⟩,
    ⟨one, 0, 0, team0 one, by decide +kernel, by decide +kernel, by decide +kernel, fun w hw z hz => by
      have : one.clusterOf 0 = [0] := by decide +kernel
      rw [this] at hw
      obtain rfl := List.mem_singleton.mp hw
      have e : one.team? 0 = some (team0 one) := by decide +kernel
      rw [e] at hz
      obtain rfl := Option.some.inj hz
      decide +kernel⟩⟩

/-- No lane takes a word under k1. -/
theorem witness_CommitAndFences :
    (∃ (s s1 : State) (h h1 : Heat) (u : Nat), s.ready h s.cur.lanes [] [] ∧ s.curTeam = some u ∧
      s.commitHeld u = false ∧ s1 = s.flush u ∧ s1.curHeat? = some h1) ∧
    (∃ (i : Instr) (uses : List (Nat × Nat)) (p : Nat) (s s1 : State) (h h1 : Heat) (u : Nat),
      (match i with
        | .launch d _ o _ q => uses = (d.toNat, 1) :: ofsUse o ∧ p = q.toNat
        | _ => (relayForm i).map (fun f => (f.uses ++ ofsUse f.ofs, f.pred)) = some (uses, p)) ∧
      s.ready h s.cur.lanes uses [] ∧ lanesOf (h.taking s.cur.active p) = [] ∧ s.curTeam = some u ∧
      s.commitHeld u = false ∧ s1 = s.flush u ∧ s1.curHeat? = some h1) ∧
    (∃ (s : State) (h : Heat), s.ready h s.cur.lanes [] [] ∧
      s.unfinished s.curKey s.curHeatId h s.cur.active .ack (fun _ _ => true) = false) ∧
    (∃ (s : State) (h : Heat), s.ready h s.cur.lanes [] [] ∧
      s.unfinished s.curKey s.curHeatId h s.cur.active .fabAck (fun _ _ => true) = true) ∧
    ∃ (s : State) (h : Heat), s.ready h s.cur.lanes [] [] ∧
      s.unfinished s.curKey s.curHeatId h s.cur.active .relay (fun _ _ => true) = false :=
  let s := heat (fun h => { h with acks := [{ mask := 1#32, isFabric := true, waiting := 1 }] }) one
  ⟨⟨one, _, hot one, hot (one.flush 0), 0, isReady (by decide +kernel), by decide +kernel, by decide +kernel, rfl,
      by decide +kernel⟩,
    ⟨.launch 20 1 127 0 1, [(20, 1)], 1, one, _, hot one, hot (one.flush 0), 0, ⟨rfl, rfl⟩, isReady (by decide +kernel),
      by decide +kernel, by decide +kernel, by decide +kernel, rfl, by decide +kernel⟩,
    ⟨one, hot one, isReady (by decide +kernel), by decide +kernel⟩,
    ⟨s, hot s, isReady (by decide +kernel), by decide +kernel⟩,
    ⟨one, hot one, isReady (by decide +kernel), by decide +kernel⟩⟩

/-- A queue entry of every lane. -/
def full : QEntry := { vals := (upto 32).map (fun l => (l, BitVec.ofNat 64 l)), mask := 0xFFFFFFFF#32 }

/-- The pairs from r on hold a word in each of the lanes 0, 1, …, and the lanes of m issue. -/
def pairWords (m : Mask) (r : Nat) (xs : List W64) (s : State) : State :=
  lanes m (heat (fun h => (upto xs.length).foldl (fun h l => h.setPair r l (xs.getD l 0#64)) h) s)

/-- No lane issues that a predicate lets take. -/
def refused : State := heat (fun h => { h with preds := [] }) one

theorem witness_QueueResults_stops :
    (∃ (i : Instr) (f : PushForm) (s : State) (h : Heat) (u : Nat) (x : Team), pushForm i = some f ∧
      s.ready h s.cur.lanes f.uses [] ∧ s.curTeam = some u ∧ s.team? u = some x ∧ f.queue ∈ [1, 3, 5, 6, 7]) ∧
    (∃ (i : Instr) (f : PushForm) (s : State) (h : Heat) (u : Nat) (x : Team), pushForm i = some f ∧
      s.ready h s.cur.lanes f.uses [] ∧ s.curTeam = some u ∧ s.team? u = some x ∧ f.queue ∉ [1, 3, 5, 6, 7] ∧
      h.taking s.cur.active f.pred = 0#32) ∧
    (∃ (i : Instr) (f : PushForm) (s : State) (h : Heat) (u : Nat) (x : Team), pushForm i = some f ∧
      s.ready h s.cur.lanes f.uses [] ∧ s.curTeam = some u ∧ s.team? u = some x ∧ 8 ≤ f.queue ∧
      h.taking s.cur.active f.pred ≠ 0#32 ∧ Config.queueDepth ≤ (queueOf s h f.queue).length) ∧
    (∃ (i : Instr) (f : TakeForm) (s : State) (h : Heat) (u : Nat) (x : Team), takeForm i = some f ∧
      s.ready h s.cur.lanes [(f.dest, f.regs)] [] ∧ s.curTeam = some u ∧ s.team? u = some x ∧
      ¬ (f.queue ∈ [1, 3, 5, 6] ∨ (f.queue = 7 ∧ h.role = 2) ∨ 8 ≤ f.queue)) ∧
    (∃ (i : Instr) (f : TakeForm) (s : State) (h : Heat) (u : Nat) (x : Team), takeForm i = some f ∧
      s.ready h s.cur.lanes [(f.dest, f.regs)] [] ∧ s.curTeam = some u ∧ s.team? u = some x ∧
      (f.queue ∈ [1, 3, 5, 6] ∨ (f.queue = 7 ∧ h.role = 2) ∨ 8 ≤ f.queue) ∧ h.taking s.cur.active f.pred = 0#32) ∧
    ∃ (i : Instr) (f : TakeForm) (s : State) (h : Heat) (u : Nat) (x : Team), takeForm i = some f ∧
      s.ready h s.cur.lanes [(f.dest, f.regs)] [] ∧ s.curTeam = some u ∧ s.team? u = some x ∧
      (f.queue ∈ [1, 3, 5, 6] ∨ (f.queue = 7 ∧ h.role = 2) ∨ 8 ≤ f.queue) ∧ h.taking s.cur.active f.pred ≠ 0#32 ∧
      h.pending.length < Config.slotCount ∧ queueOf s h f.queue = [] :=
  let s := team (fun x => { x with body := { x.body with queues := [(8, List.replicate 16 full)] } }) one
  ⟨⟨.qpushB32 7 127 0, _, one, hot one, 0, team0 one, rfl, isReady (by decide +kernel), by decide +kernel⟩,
    ⟨.qpushB64 0 63 1, _, refused, hot refused, 0, team0 refused, rfl, isReady (by decide +kernel), by decide +kernel⟩,
    ⟨.qpushB64 8 63 0, _, s, hot s, 0, team0 s, rfl, isReady (by decide +kernel), by decide +kernel⟩,
    ⟨.qpopB32 7 127 0 0, _, one, hot one, 0, team0 one, rfl, isReady (by decide +kernel), by decide +kernel⟩,
    ⟨.qpeekB32 8 0 1 1, _, refused, hot refused, 0, team0 refused, rfl, isReady (by decide +kernel),
      by decide +kernel⟩,
    ⟨.qpeekB64 15 0 1 0, _, one, hot one, 0, team0 one, rfl, isReady (by decide +kernel), by decide +kernel⟩⟩

theorem witness_QueueResults :
    (∃ (i : Instr) (f : PushForm) (s : State) (h : Heat) (u : Nat) (x : Team), pushForm i = some f ∧ 8 ≤ f.queue ∧
      s.ready h s.cur.lanes f.uses [] ∧ s.curTeam = some u ∧ s.team? u = some x ∧
      h.taking s.cur.active f.pred ≠ 0#32 ∧ (queueOf s h f.queue).length < Config.queueDepth ∧
      s.queueTurn h f.queue (16 + f.queue) = false) ∧
    (∃ (i : Instr) (f : TakeForm) (s : State) (h : Heat) (u : Nat) (x : Team) (e : QEntry) (rest : List QEntry),
      takeForm i = some f ∧ (f.queue ∈ [1, 3, 5, 6] ∨ (f.queue = 7 ∧ h.role = 2) ∨ 8 ≤ f.queue) ∧
      s.ready h s.cur.lanes [(f.dest, f.regs)] [] ∧ s.curTeam = some u ∧ s.team? u = some x ∧ x.replaying = false ∧
      Unchecked s ∧ h.taking s.cur.active f.pred ≠ 0#32 ∧ h.pending.length < Config.slotCount ∧
      s.queueTurn h f.queue f.queue = false ∧ queueOf s h f.queue = e :: rest ∧
      ∀ c, s.ctx? s.curAsid = some c → ∀ y ∈ c.relayArea, y.1 ≠ u) ∧
    ∃ (a : BitVec 6) (s : State) (h : Heat) (u : Nat) (x : Team), s.ready h s.cur.lanes [] (single [a.toNat]) ∧
      s.curTeam = some u ∧ s.team? u = some x ∧ x.replaying = false ∧ Unchecked s :=
  let s := team (fun x => { x with body := { x.body with queues := [(15, List.replicate 15 full)] } }) one
  let r := heat (fun h => { h with queues := [(6, [full])] }) one
  ⟨⟨.qpushB64 15 63 0, _, s, hot s, 0, team0 s, rfl, by decide, isReady (by decide +kernel), by decide +kernel⟩,
    ⟨.qpopB64 6 63 15 0, _, r, hot r, 0, team0 r, full, [], rfl, .inl (by decide), isReady (by decide +kernel),
      by decide +kernel, by decide +kernel, by decide +kernel,
      isUnchecked (x := team0 r) (by decide +kernel) (by decide +kernel) (by decide +kernel), by decide +kernel, by decide +kernel, by decide +kernel,
      by decide +kernel, fun c e => by
        have b : (r.ctx? r.curAsid).map Context.relayArea = some [] := by decide +kernel
        rw [e] at b
        rw [Option.some.inj b]
        simp⟩,
    ⟨63, one, hot one, 0, team0 one, isReady (by decide +kernel), by decide +kernel, by decide +kernel,
      by decide +kernel, isUnchecked (x := team0 one) (by decide +kernel) (by decide +kernel) ⟨rfl, rfl⟩⟩⟩

/-- CPY of 256 bytes from memory to the scratchpad. -/
def copies : State :=
  heat (fun h => ((h.setS 8 0x200000#64).setS 10 0x400000100#64).setS 11 0x77#64) one

theorem witness_CopyPush :
    (∃ (i : Instr) (f : PushForm) (s : State) (h : Heat) (u : Nat), pushForm i = some f ∧ f.queue ∈ [0, 4] ∧
      s.ready h s.cur.lanes f.uses [] ∧ s.curTeam = some u ∧ h.taking s.cur.active f.pred ≠ 0#32 ∧
      h.taking s.cur.active f.pred ≠ 0xF#32) ∧
    let all : Instr → Prop := fun i => ∃ (uses suses : List (Nat × Nat)) (w : List W64) (s s1 : State) (h h1 : Heat)
        (u : Nat) (x : Team) (src dst : List (Nat × Piece)) (bs bs' : List Binding), CopyWord i s h uses suses w ∧
      s.ready h s.cur.lanes uses suses ∧ s.curTeam = some u ∧ s.team? u = some x ∧
      let closes := src.any (fun p => p.2.closes false) || dst.any (fun p => p.2.closes true)
      let s0 := { s with bindings := bs' }.noteCopyDesc h.stride.toNat w
      copyFormatBad x.csize w = false ∧ s.copySource h.stride.toNat w s.bindings = .ok src bs ∧
      s.copyDest w bs = .ok dst bs' ∧ (h.queue 0).length < Config.queueDepth ∧
      (closes = true → s0.commitHeld u = false) ∧ s1 = (if closes then s0.flush u else s0) ∧ s1.curHeat? = some h1
    all (.cpy 8 2) ∧ all (.qpushB64 0 63 0) :=
  let s := pairWords 0xF#32 126 (copyBlock (hot copies) 0 8 8) one
  ⟨⟨.qpushB32 4 0 0, _, one, hot one, 0, rfl, by decide, isReady (by decide +kernel), by decide +kernel⟩,
    ⟨[], [(8, 4)], _, copies, _, hot copies, hot copies, 0, team0 copies, [(0, .mem 0x200000 256 0xFB 0x200000)],
      [(0, .spad 0 0 256)], [], [], .inl ⟨0, 8, 8, rfl, rfl, rfl, rfl⟩, isReady (by decide +kernel), by decide +kernel,
      by decide +kernel, by decide +kernel, by decide +kernel, by decide +kernel, by decide +kernel, by decide +kernel,
      rfl, by decide +kernel⟩,
    ⟨_, _, _, s, _, hot s, hot s, 0, team0 s, [(0, .mem 0x200000 256 0xFB 0x200000)], [(0, .spad 0 0 256)], [], [],
      .inr ⟨_, rfl, rfl, rfl, rfl, by decide +kernel, rfl⟩, isReady (by decide +kernel), by decide +kernel,
      by decide +kernel, by decide +kernel, by decide +kernel, by decide +kernel, by decide +kernel, by decide +kernel,
      rfl, by decide +kernel⟩⟩

theorem witness_GatherPush : ∃ (i : Instr) (f : GatherForm) (s s1 : State) (h h1 : Heat) (u : Nat)
      (ts : List (Nat × Target)) (bs : List Binding), gatherForm i = some f ∧ s.ready h s.cur.lanes f.uses [] ∧
    s.curTeam = some u ∧
    let m := h.taking s.cur.active f.pred
    let size := 4 * 2 ^ f.size
    let addr := fun l => (0#8 ++ h.pair f.addr l : Addr)
    let closes := ts.any (fun t => match t.2 with
      | .mem _ leaf => pteD leaf || (f.write && decide (1 ≤ pteSw leaf))
      | _ => false)
    m ≠ 0#32 ∧ partialSeq 20 h.gatherList = [] ∧
    checkAll (fun bs l => s.checkMem bs s.curWho (addr l) size (if f.write then .write else .read) true) addr
      (lanesOf m) s.bindings = .ok ts bs ∧
    (h.queue 2).length + seqLength f.header ≤ Config.queueDepth ∧ (closes = true → s.commitHeld u = false) ∧
    s1 = (if closes then { s with bindings := bs }.flush u else { s with bindings := bs }) ∧ s1.curHeat? = some h1 ∧
    ∀ l, inMask m l → f.values h1 l = f.values h l :=
  ⟨.sctB128 0 63 31 0, _, solo, _, hot solo, hot (solo.flush 0), 0, [(0, .mem 0 0xFB)], [], rfl,
    isReady (by decide +kernel), by decide +kernel, by decide +kernel, by decide +kernel, by decide +kernel,
    by decide +kernel, by decide +kernel, rfl, by decide +kernel, fun l _ => by
      have : hot (solo.flush 0) = hot solo := by decide +kernel
      rw [this]⟩

/-- The header of a gather of 4-byte elements into q3 and of a scatter of them. -/
def gatherHead : W64 := 0xC0#64
def scatterHead : W64 := 1#64

/-- A QPUSH to q2 of one word of lane 0, with entries there already. -/
def pushes (x : W64) (es : List W64) : State :=
  heat (fun h => { h with queues := [(2, es.map (fun e => { vals := [(0, e)], mask := 1#32 }))] })
    (pairWords 1#32 126 [x] one)

theorem witness_GatherPush_push :
    let P := fun (i : Instr) (f : PushForm) (s : State) (h : Heat) (u : Nat) => pushForm i = some f ∧ f.queue = 2 ∧
      s.ready h s.cur.lanes f.uses [] ∧ s.curTeam = some u ∧ h.taking s.cur.active f.pred ≠ 0#32
    let Q := fun (f : PushForm) (s : State) (h : Heat) => let m := h.taking s.cur.active f.pred
      (partialSeq 20 h.gatherList = [] → m = 1#32 ∧ headerBad (f.header h) = false) ∧
      (h.queue 2).length < Config.queueDepth
    let i : Instr := .qpushB64 2 63 0
    (∃ f s h u, P i f s h u ∧ partialSeq 20 h.gatherList = [] ∧ h.taking s.cur.active f.pred ≠ 1#32) ∧
    (∃ f s h u, P i f s h u ∧ partialSeq 20 h.gatherList = [] ∧ headerBad (f.header h) = true) ∧
    (∃ f s h u, P i f s h u ∧ Q f s h ∧ partialSeq 20 h.gatherList = [] ∧ 1 < seqLength (f.header h)) ∧
    (∃ f s h u, P i f s h u ∧ Q f s h ∧ (partialSeq 20 h.gatherList).length = 1 ∧ 2 < seqLength (f.header h)) ∧
    let last : State → Prop := fun s => ∃ (f : PushForm) (s1 : State) (h h1 : Heat) (u : Nat) (ts : List (Nat × Target))
        (bs : List Binding), P i f s h u ∧ Q f s h ∧
      let write := fld (f.header h).toNat 0 4 == 1
      let size := elemSize (fld (f.header h).toNat 4 2)
      let addr := fun l => ((mget 0#64 (f.addresses s h).2 l).setWidth 72 : Addr)
      let closes := ts.any (fun t => match t.2 with
        | .mem _ leaf => pteD leaf || (write && decide (1 ≤ pteSw leaf))
        | _ => false)
      seqLength (f.header h) ≤ (partialSeq 20 h.gatherList).length + 1 ∧
      checkAll (fun bs l => s.checkMem bs s.curWho (addr l) size (if write then .write else .read) true) addr
        (lanesOf (f.addresses s h).1) s.bindings = .ok ts bs ∧ (closes = true → s.commitHeld u = false) ∧
      s1 = (if closes then { s with bindings := bs }.flush u else { s with bindings := bs }) ∧ s1.curHeat? = some h1
    last (pushes 0x200000#64 [gatherHead]) ∧ last (pushes 5#64 [scatterHead, 0x200000#64]) :=
  let bad := pushes 0x4#64 []
  let head := pushes gatherHead []
  let next := pushes 0x200000#64 [scatterHead]
  let get := pushes 0x200000#64 [gatherHead]
  let put := pushes 5#64 [scatterHead, 0x200000#64]
  ⟨⟨_, one, hot one, 0, ⟨rfl, rfl, isReady (by decide +kernel), by decide +kernel, by decide +kernel⟩,
      by decide +kernel, by decide +kernel⟩,
    ⟨_, bad, hot bad, 0, ⟨rfl, rfl, isReady (by decide +kernel), by decide +kernel, by decide +kernel⟩,
      by decide +kernel, by decide +kernel⟩,
    ⟨_, head, hot head, 0, ⟨rfl, rfl, isReady (by decide +kernel), by decide +kernel, by decide +kernel⟩,
      by decide +kernel, by decide +kernel, by decide +kernel⟩,
    ⟨_, next, hot next, 0, ⟨rfl, rfl, isReady (by decide +kernel), by decide +kernel, by decide +kernel⟩,
      by decide +kernel, by decide +kernel, by decide +kernel⟩,
    ⟨_, _, hot get, hot get, 0, [(0, .mem 0x200000 0xFB)], [],
      ⟨rfl, rfl, isReady (by decide +kernel), by decide +kernel, by decide +kernel⟩, by decide +kernel,
      by decide +kernel, by decide +kernel, by decide +kernel, rfl, by decide +kernel⟩,
    ⟨_, _, hot put, hot (put.flush 0), 0, [(0, .mem 0x200000 0xFB)], [],
      ⟨rfl, rfl, isReady (by decide +kernel), by decide +kernel, by decide +kernel⟩, by decide +kernel,
      by decide +kernel, by decide +kernel, by decide +kernel, rfl, by decide +kernel⟩⟩

/-- COLL of one FP32 element in group 0, a group of two. -/
def collects : State :=
  heat (fun h => ((h.setS 8 0x200000#64).setS 9 0x200040#64).setS 10 1#64)
    { one with groups := [(0, { limit := 1, self := 0, m := 2, valid := true })] }

theorem witness_CollPush :
    let all : Instr → Prop := fun i => ∃ (uses suses : List (Nat × Nat)) (w : List W64) (s s1 : State) (h h1 : Heat)
        (u : Nat) (src dst : List (Nat × Piece)) (bs bs' : List Binding), CollWord i s h uses suses w ∧
      s.ready h s.cur.lanes uses suses ∧ s.curTeam = some u ∧ Unchecked s ∧ s.collBad w = false ∧
      s.collRange s.curWho false w s.bindings = .ok src bs ∧ s.collRange s.curWho true w bs = .ok dst bs' ∧
      (h.queue 4).length < Config.queueDepth ∧ s.commitHeld u = false ∧
      s1 = { s with bindings := bs' }.flush u ∧ s1.curHeat? = some h1
    all (.coll 5 2) ∧ all (.qpushB64 4 63 0) :=
  let s := pairWords 0xF#32 126 [0x200000#64, 0x200040#64, 1#64, 0x50000#64] collects
  ⟨⟨_, _, _, collects, _, hot collects, hot (collects.flush 0), 0, [(0, .mem 0x200000 4 0xFB 0x200000)],
      [(0, .mem 0x200040 4 0xFB 0x200040)], [], [], .inl ⟨5, 2, rfl, rfl, rfl, rfl⟩, isReady (by decide +kernel),
      by decide +kernel,
      isUnchecked (x := team0 collects) (by decide +kernel) (by decide +kernel) (by decide +kernel), by decide +kernel,
      by decide +kernel, by decide +kernel, by decide +kernel, by decide +kernel, rfl, by decide +kernel⟩,
    ⟨_, _, _, s, _, hot s, hot (s.flush 0), 0, [(0, .mem 0x200000 4 0xFB 0x200000)],
      [(0, .mem 0x200040 4 0xFB 0x200040)], [], [], .inr ⟨_, rfl, rfl, rfl, rfl, by decide +kernel, rfl⟩,
      isReady (by decide +kernel), by decide +kernel,
      isUnchecked (x := team0 s) (by decide +kernel) (by decide +kernel) (by decide +kernel), by decide +kernel,
      by decide +kernel, by decide +kernel, by decide +kernel, by decide +kernel, rfl, by decide +kernel⟩⟩

theorem witness_SpawnResults : ∃ (a : BitVec 6) (b : BitVec 7) (p : BitVec 2) (s : State) (h : Heat) (u : Nat),
    s.ready h s.cur.lanes [(2 * a.toNat, 2 + b.toNat)] [] ∧ s.curTeam = some u ∧
    (lanesOf (h.taking s.cur.active p.toNat)).length ≤ s.spillRoom s.curAsid ∧
    (s.core s.cur.core).bins.length ≤ 8 ∧ lanesOf (h.taking s.cur.active p.toNat) ≠ [] :=
  ⟨59, 8, 0, one, hot one, 0, isReady (by decide +kernel), by decide +kernel⟩

theorem witness_GridWords_launch : ∃ (d : BitVec 7) (a : BitVec 4) (o : BitVec 7) (p : BitVec 1) (s s1 : State)
      (h h1 : Heat) (u : Nat) (x : Team) (ts : List (Nat × Target)) (bs : List Binding),
    let lanes := lanesOf (h.taking s.cur.active p.toNat)
    s.ready h s.cur.lanes ((d.toNat, 1) :: ofsUse o) [] ∧ s.curTeam = some u ∧ Unchecked s ∧ lanes ≠ [] ∧
    h.pending.length < Config.slotCount ∧
    checkAll (fun bs l => s.checkMem bs s.curWho (h.laneAddr a o l) 128 .read true) (h.laneAddr a o) lanes s.bindings =
      .ok ts bs ∧ Clear s 128 ts ∧ s.commitHeld u = false ∧ s1 = { s with bindings := bs }.flush u ∧
    s1.curHeat? = some h1 ∧ s1.team? u = some x ∧ x.launches.length + ts.length ≤ 4 ∧ Sound s1 128 ts :=
  let s := lanes 0xF#32 one
  ⟨20, 1, 127, 0, s, _, hot s, hot (s.flush 0), 0, team0 (s.flush 0), (upto 4).map (fun l => (l, .mem 0 0xFB)), [],
    isReady (by decide +kernel), by decide +kernel,
    isUnchecked (x := team0 s) (by decide +kernel) (by decide +kernel) (by decide +kernel), by decide +kernel, by decide +kernel, by decide +kernel,
    by unfold Clear; decide +kernel, by decide +kernel, rfl, by decide +kernel, by decide +kernel, by decide +kernel,
    by unfold Sound; decide +kernel⟩

theorem witness_GridWords_waitc : ∃ (z : BitVec 6) (a : BitVec 4) (o : BitVec 7) (p : BitVec 1) (s : State) (h : Heat)
      (u : Nat) (x : Team) (ts : List (Nat × Target)) (bs : List Binding),
    let lanes := lanesOf (h.taking s.cur.active p.toNat)
    s.ready h s.cur.lanes ((2 * z.toNat, 2) :: ofsUse o) [] ∧ s.curTeam = some u ∧ lanes ≠ [] ∧
    checkAll (fun bs l => s.checkMem bs s.curWho (h.laneAddr a o l) 8 .read true) (h.laneAddr a o) lanes s.bindings =
      .ok ts bs ∧ Clear s 8 ts ∧ s.team? u = some x :=
  ⟨11, 5, 127, 0, solo, hot solo, 0, team0 solo, [(0, .mem 0 0xFB)], [], isReady (by decide +kernel),
    by decide +kernel, by decide +kernel, by decide +kernel, by unfold Clear; decide +kernel, by decide +kernel⟩

/-- A population grid, all lanes members, s4 a population size. -/
def people : State :=
  grid (fun g => { g with record := { g.record with pop := true, pval := true } })
    (heat (fun h => { h with
      lanes := h.lanes.map (fun (e : Nat × Lane) => (e.1, { e.2 with member := true })) }.setS 4 0x1000000#64) one)

theorem witness_GridWords_resample : ∃ (i : Instr) (a n : Nat) (draw_ : Option Nat) (sr : List Nat) (s s1 : State)
      (h h1 : Heat) (u : Nat) (x : Team) (g : Grid),
    (match i with
      | .rsmp va sb => a = va.toNat ∧ n = sb.toNat ∧ draw_ = none ∧ sr = [sb.toNat]
      | .rsmpU sd va sb => a = va.toNat ∧ n = sb.toNat ∧ sr = [sb.toNat, sd.toNat] ∧
          draw_ = some ((h1.sr sd.toNat).toNat / 2 ^ 11)
      | _ => False) ∧
    s.ready h s.cur.lanes [(a, 1)] (single sr) ∧ s.curTeam = some u ∧ Unchecked s ∧ s.cur.active = h.live ∧
    h.popPending s.cur.active = none ∧ s.curGrid? = some g ∧ g.record.pop = true ∧ (∀ l, inMask s.cur.active l → (h.lane l).member = true) ∧
    1 ≤ (h.sr n).toNat ∧ (h.sr n).toNat ≤ 2 ^ 24 ∧ (∀ l, inMask s.cur.active l → h.v a l ≠ 0x7F800000#32) ∧
    s.commitHeld u = false ∧ s1 = s.flush u ∧ s1.curHeat? = some h1 ∧ s1.team? u = some x ∧
    mfind s1.grids x.grid = some g :=
  ⟨.rsmpU 5 4 4, 4, 4, some 0, [4, 5], people, _, hot people, hot (people.flush 0), 0, team0 (people.flush 0),
    grid0 people, by decide +kernel, isReady (by decide +kernel), by decide +kernel,
    isUnchecked (x := team0 people) (by decide +kernel) (by decide +kernel) (by decide +kernel), by decide +kernel,
    by decide +kernel, by decide +kernel, by decide +kernel, onLanes (by decide +kernel),
    by decide +kernel, by decide +kernel, onLanes (by decide +kernel),
    by decide +kernel, rfl, by decide +kernel⟩

/-- The gathering of the heat's RSMP failed. -/
def failed : State :=
  heat (fun h => { h with lanes := h.lanes.map (fun (e : Nat × Lane) => (e.1, { e.2 with park := .retryRsmp 6 })) }) people

theorem witness_GridWords_failed : ∃ (a n : Nat) (sr : List Nat) (va : BitVec 7) (sb : BitVec 6) (s : State) (h : Heat)
      (u r : Nat), a = va.toNat ∧ n = sb.toNat ∧ sr = [sb.toNat] ∧ s.ready h s.cur.lanes [(a, 1)] (single sr) ∧
    s.curTeam = some u ∧ Unchecked s ∧ s.cur.active = h.live ∧ h.popPending s.cur.active = some r :=
  ⟨4, 4, [4], 4, 4, failed, hot failed, 0, 6, by decide +kernel, by decide +kernel, by decide +kernel,
    isReady (by decide +kernel), by decide +kernel,
    isUnchecked (x := team0 failed) (by decide +kernel) (by decide +kernel) (by decide +kernel), by decide +kernel⟩

/-- Device 5 exports 64 KiB. -/
def remotes : State :=
  heat (fun h => (h.setA 5 0x80A000000000010000#72).setA 6 0x80A00000000000FFF8#72)
    { solo with domain := [(5, { explen := 0x10000, valid := true })], portsUp := [0] }

theorem witness_RelayWords : (∃ (i : Instr) (f : RelayForm) (s s1 : State) (h h1 : Heat) (u : Nat) (c : Context)
      (ts : List (Nat × Target)) (bs : List Binding), relayForm i = some f ∧
    s.ready h s.cur.lanes (f.uses ++ ofsUse f.ofs) [] ∧ s.curTeam = some u ∧
    lanesOf (h.taking s.cur.active f.pred) ≠ [] ∧ (f.dest.isSome → h.pending.length < Config.slotCount) ∧ Unchecked s ∧
    s.fabricUp = true ∧
    checkAll (fun bs l => s.checkRelay bs (f.addr h l) f.size) (f.addr h) (lanesOf (h.taking s.cur.active f.pred))
      s.bindings = .ok ts bs ∧
    (∀ x ∈ ts, s.ordSent x.1 = false ∧ s.fabOpen x.1 = false) ∧ s.relayFull ts = false ∧ s.commitHeld u = false ∧ s1 = { s with bindings := bs }.flush u ∧
    s1.curHeat? = some h1 ∧ s1.ctx? s1.curAsid = some c) ∧
    ∃ (s : State) (h : Heat) (u : Nat) (c : Context), s.ready h s.cur.lanes [] [] ∧ s.curTeam = some u ∧
      s.ctx? s.curAsid = some c ∧ (c.streams.map Prod.fst).Nodup ∧ Unchecked s ∧ s.fabricUp = true :=
  ⟨⟨.ratomCas 31 6 127 15 0, _, remotes, _, hot remotes, hot (remotes.flush 0), 0, context0 (remotes.flush 0),
      [(0, .fab 5 0xFFF8)], [], rfl, isReady (by decide +kernel), by decide +kernel, by decide +kernel,
      by decide +kernel, isUnchecked (x := team0 remotes) (by decide +kernel) (by decide +kernel) (by decide +kernel),
      by decide +kernel, by decide +kernel, by decide +kernel, by decide +kernel, by decide +kernel, rfl, by decide +kernel⟩,
    ⟨remotes, hot remotes, 0, context0 remotes, isReady (by decide +kernel), by decide +kernel, by decide +kernel,
      by decide +kernel, isUnchecked (x := team0 remotes) (by decide +kernel) (by decide +kernel) (by decide +kernel),
      by decide +kernel⟩⟩

/-- Heat 0 is a member of team hurdle 1 and of cluster hurdle 63, signaller and waiter. -/
def member : State :=
  heat (fun h => { h with hmem := [(1, { mode := .sw }), (319, { mode := .sw })] })
    (team (fun x => { x with cluster := [0] }) one)

theorem witness_HurdleWords :
    (∃ (i : Instr) (c : BitVec 1) (n : BitVec 8) (mode : HMode) (s r : State) (h h1 : Heat) (u : Nat) (x : Team),
      regForm i = some (c, n, mode) ∧ s.ready h s.cur.lanes [] [] ∧ s.curTeam = some u ∧ s.cur.active = h.live ∧
      mayOpen s u c ∧ (s.member u s.curHeatId (hurdleId c n)).pending ≠ some .none ∧ r = opened s u c ∧
      r.curHeat? = some h1 ∧ r.team? u = some x ∧ x.replaying = false ∧ x.checks = none ∧ x.checker = none) ∧
    (∃ (c : BitVec 1) (s r : State) (h h1 : Heat) (u : Nat), s.ready h s.cur.lanes [] [] ∧ s.curTeam = some u ∧
      s.cur.active = h.live ∧ mayOpen s u c ∧ r = opened s u c ∧ r.curHeat? = some h1) ∧
    (∃ (c : BitVec 1) (n : BitVec 8) (s r : State) (h h1 : Heat) (u : Nat),
      s.ready h s.cur.lanes [] [] ∧ s.curTeam = some u ∧ s.cur.active = h.live ∧ mayOpen s u c ∧ r = opened s u c ∧
      r.curHeat? = some h1 ∧ let m := s.member u s.curHeatId (hurdleId c n)
      m.mode.signals = true ∧ m.pending ≠ some .none ∧ m.arrived = false ∧ m.mode.waits = true) ∧
    (∃ (c : BitVec 1) (n : BitVec 8) (s r : State) (h h1 : Heat) (u : Nat) (x : Team),
      s.ready h s.cur.lanes [] [] ∧ s.curTeam = some u ∧ mayOpen s u c ∧ r = opened s u c ∧ r.curHeat? = some h1 ∧
      r.team? u = some x ∧ x.replaying = false ∧ x.checks = none ∧ x.checker = none ∧ s.cur.active = h.live ∧
      (s.member u s.curHeatId (hurdleId c n)).mode.waits = true ∧
      (s.member u s.curHeatId (hurdleId c n)).pending ≠ some .none) ∧
    ∃ (c : BitVec 1) (n : BitVec 8) (s : State) (h : Heat) (u : Nat), s.ready h s.cur.lanes [] [] ∧
      s.curTeam = some u ∧ s.cur.active = h.live ∧ (s.member u s.curHeatId (hurdleId c n)).mode.signals = false ∧
      (s.member u s.curHeatId (hurdleId c n)).mode.waits = false :=
  ⟨⟨.hregSw 1 63, 1, 63, .sw, member, _, hot member, hot (member.flush 0), 0, team0 (member.flush 0), rfl,
      isReady (by decide +kernel), by decide +kernel, by decide +kernel, fun _ => by decide +kernel, by decide +kernel,
      rfl, by decide +kernel⟩,
    ⟨0, member, _, hot member, hot member, 0, isReady (by decide +kernel), by decide +kernel, by decide +kernel,
      fun _ => by decide +kernel, rfl, by decide +kernel⟩,
    ⟨0, 1, member, _, hot member, hot member, 0, isReady (by decide +kernel), by decide +kernel, by decide +kernel,
      fun _ => by decide +kernel, rfl, by decide +kernel⟩,
    ⟨1, 63, member, _, hot member, hot (member.flush 0), 0, team0 (member.flush 0), isReady (by decide +kernel),
      by decide +kernel, fun _ => by decide +kernel, rfl, by decide +kernel⟩,
    ⟨0, 2, member, hot member, 0, isReady (by decide +kernel), by decide +kernel⟩⟩

/-- Hurdle 1 of team 0 with one signaller, and with two. -/
def hurdled (sig : W32) (s : State) : State :=
  let w := s.hurdle 0 { h := 1 }
  s.putHurdle 0 { h := 1 } { w with sig := sig.setWidth 16 }

theorem witness_HurdleArrival :
    (∃ (s : State) (u : Nat) (c : BitVec 1) (n : BitVec 8) (x : Team), u < trapBase ∧ s.team? u = some x ∧
      x.replaying = false ∧ (c = 1#1 → (s.team? (s.clusterKey u)).isSome) ∧
      (s.hurdle u (hurdleId c n)).arr + 1#16 ≠ (s.hurdle u (hurdleId c n)).sig) ∧
    ∃ (s : State) (u : Nat) (c : BitVec 1) (n : BitVec 8) (x : Team), u < trapBase ∧ s.team? u = some x ∧
      x.replaying = false ∧ (c = 1#1 → (s.team? (s.clusterKey u)).isSome) ∧
      (s.hurdle u (hurdleId c n)).sig ≠ 0#16 ∧
      (s.hurdle u (hurdleId c n)).arr + 1#16 = (s.hurdle u (hurdleId c n)).sig :=
  ⟨⟨hurdled 2 member, 0, 0, 1, team0 (hurdled 2 member), by decide +kernel⟩,
    ⟨hurdled 1 member, 0, 0, 1, team0 (hurdled 1 member), by decide +kernel⟩⟩

/-- The sequencer of `one` issues; its registers m0 to m3 hold 0, a stride of 256, and a scale descriptor. -/
def stream : State :=
  seqs (team (fun x => { x with body := { x.body with seq := { x.body.seq with
    m := [(1, 0x10000000000#64), (3, 0x80000000#64)] } } }) one)

theorem witness_SequencerMoves :
    (∃ (i : Instr) (d : Nat) (f : Seq → W64) (s : State) (u : Nat) (x : Team), seqForm i = some (d, f) ∧
      s.cur.who = .seq u ∧ s.team? u = some x) ∧
    (∃ (s : State) (u : Nat) (x : Team), s.cur.who = .seq u ∧ s.team? u = some x) ∧
    (∃ (a : BitVec 4) (s : State) (u : Nat) (x : Team), s.cur.who = .seq u ∧ s.team? u = some x ∧
      let v := x.body.seq.mr a.toNat
      v.toNat < 2 ^ 21 ∧ v.extractLsb' 5 3 ≤ 4#3 ∧ v.extractLsb' 11 3 ≤ 5#3 ∧ v.extractLsb' 17 2 ≠ 3#2) ∧
    (∃ (a : BitVec 4) (s : State) (u : Nat) (x : Team), s.cur.who = .seq u ∧ s.team? u = some x ∧
      ¬ (x.body.seq.mr a.toNat).toNat < 2 ^ 21) ∧
    ∃ (c : BitVec 8) (s : State) (u : Nat) (x : Team), s.cur.who = .seq u ∧ s.team? u = some x ∧
      TilesReady x [c.toNat] ∧ ∀ o ∈ x.body.seq.ops, c.toNat ∉ o.kind.tiles :=
  ⟨⟨.madd 15 15 3 127, _, _, stream, 0, team0 stream, rfl, by decide +kernel⟩,
    ⟨stream, 0, team0 stream, by decide +kernel⟩,
    ⟨0, stream, 0, team0 stream, by decide +kernel⟩,
    ⟨1, stream, 0, team0 stream, by decide +kernel⟩,
    ⟨15, stream, 0, team0 stream, by decide +kernel, by decide +kernel, by unfold TilesReady; decide +kernel,
      by decide +kernel⟩⟩

theorem witness_SequencerWords_range : ∃ (i : Instr) (f : RangeForm) (s s1 : State) (u : Nat) (x : Team)
      (ps : List (Nat × Piece)) (bs : List Binding), rangeForm i = some f ∧ s.cur.who = .seq u ∧
    s.team? u = some x ∧ x.sampled = false ∧ TilesReady x f.tiles ∧ (∀ t w, f.kind = .tileLoad t w → ∀ r ∈ x.body.seq.reads, t ∉ r.2) ∧
    let a := (x.body.seq.mr f.base).toNat
    let k := if f.write then Access.write else Access.read
    a % f.align = 0 ∧ s.spacePos f.window k 0 a f.bytes = .ok ps bs ∧
    (f.write = false → s.placesAbsent ps = false) ∧
    let closes := ps.any (fun p => p.2.closes f.write)
    (closes = true → s.commitHeld u = false) ∧
    s1 = (if closes then { s with bindings := bs }.flush u else { s with bindings := bs }) ∧ (s1.team? u).isSome :=
  ⟨.accst 15 0 0, _, stream, stream.flush 0, 0, team0 stream, [(0, .mem 0 16384 0xFB 0)], [], rfl, by decide +kernel,
    by decide +kernel, by decide +kernel, by unfold TilesReady; decide +kernel, fun t w e => by simp at e, by decide +kernel,
    by decide +kernel, fun e => by simp at e, fun _ => by decide +kernel, by decide +kernel, by decide +kernel⟩

theorem witness_SequencerWords_strided :
    (∃ (i : Instr) (s : State) (u : Nat) (x : Team) (c b size : Nat) (bad : Bool) (kind : SeqOpKind),
      s.cur.who = .seq u ∧ s.team? u = some x ∧ stridedForm x.body.seq i = some (c, b, size, bad, kind) ∧ b ≠ 15 ∧
      x.sampled = false ∧ TilesReady x [c] ∧ ((x.body.seq.mr (b + 1)).extractLsb' 32 32).toNat % size ≠ 0) ∧
    ∃ (i : Instr) (s s1 : State) (u : Nat) (x : Team) (c b size : Nat) (bad : Bool) (kind : SeqOpKind)
      (ps : List (Nat × Piece)) (bs : List Binding), s.cur.who = .seq u ∧ s.team? u = some x ∧
    stridedForm x.body.seq i = some (c, b, size, bad, kind) ∧ b ≠ 15 ∧ x.sampled = false ∧ TilesReady x [c] ∧
    let a := (x.body.seq.mr b).toNat
    let stride := ((x.body.seq.mr (b + 1)).extractLsb' 32 32).toNat
    ¬ (stride % size ≠ 0 ∨ bad = true) ∧ a % size = 0 ∧
    checkPos (fun bs r => s.checkMemPos bs .write r.1 r.2.1 r.2.2)
      ((List.range 64).map (fun r => (64 * size * r, a + r * stride, 64 * size))) s.bindings = .ok ps bs ∧
    let closes := ps.any (fun p => p.2.closes true)
    (closes = true → s.commitHeld u = false) ∧
    s1 = (if closes then { s with bindings := bs }.flush u else { s with bindings := bs }) ∧ (s1.team? u).isSome :=
  let odd := team (fun x => { x with body := { x.body with seq := { x.body.seq with m := [(15, 0x100000000#64)] } } })
    stream
  ⟨⟨.drainRed 0 14, odd, 0, team0 odd, 0, 14, 4, false, .red 0, by decide +kernel, by decide +kernel, by decide +kernel,
      by decide, by decide +kernel, by unfold TilesReady; decide +kernel, by decide +kernel⟩,
    ⟨.drainRed 0 0, stream, stream.flush 0, 0, team0 stream, 0, 0, 4, false, .red 0,
      (upto 64).map (fun r => (256 * r, .mem (256 * r) 256 0xFB (256 * r))), [], by decide +kernel, by decide +kernel,
      by decide +kernel, by decide, by decide +kernel, by unfold TilesReady; decide +kernel, by decide +kernel, by decide +kernel,
      by decide +kernel, fun _ => by decide +kernel, by decide +kernel, by decide +kernel⟩⟩

/-- A grid with one epilogue heat, heat 0 of its team. -/
def epilogue : State :=
  heat (fun h => { h with role := 2 }) (grid (fun g => { g with record := { g.record with hepi := 1 } }) stream)

theorem witness_SequencerWords_tiles :
    (∃ (c : BitVec 8) (m : BitVec 3) (s : State) (u : Nat) (x : Team), s.cur.who = .seq u ∧ s.team? u = some x ∧
      TilesReady x ((List.range (m.toNat + 1)).map (fun n => c.toNat + n))) ∧
    ∃ (c : BitVec 8) (e : BitVec 3) (s : State) (u : Nat) (x : Team) (g : Grid) (y : Heat), s.cur.who = .seq u ∧
      s.team? u = some x ∧ TilesReady x [c.toNat] ∧ s.gridOf x = some g ∧ e.toNat < g.record.hepi ∧
      x.heat? (g.record.firstHeat 2 + e.toNat) = some y ∧ y.ended = false ∧ y.role = 2 :=
  ⟨⟨8, 7, stream, 0, team0 stream, by decide +kernel, by decide +kernel, by unfold TilesReady; decide +kernel⟩,
    ⟨15, 0, epilogue, 0, team0 epilogue, grid0 epilogue, ((team0 epilogue).heat? 0).getD {}, by decide +kernel,
      by decide +kernel, by unfold TilesReady; decide +kernel, by decide +kernel⟩⟩

/-- Eight steps of a plain form, and a scaled form. -/
theorem witness_SequencerWords_mma :
    (∃ (i : Instr) (f : MmaWord) (s : State) (u v off : Nat) (x : Team) (bs : List Binding), mmaForm i = some f ∧
      s.cur.who = .seq u ∧ s.team? u = some x ∧ f.scaled = false ∧ f.ta.toNat + f.steps ≤ 16 ∧
      (f.keep = 0#1 ∨ f.steps = 1) ∧ (x.body.seq.ops.filter (fun o => o.kind.isMma)).length < 2 ∧
      f.k % 2 ^ profLog (x.body.seq.profile f.prof) = 0 ∧ TilesReady x [f.tile] ∧
      let a := (x.body.seq.mr f.base).toNat
      a % 1024 = 0 ∧
      s.checkSpadPos s.bindings 0 a (f.steps * f.bBytes) false = .ok [(0, .spad v off (f.steps * f.bBytes))] bs) ∧
    ∃ (i : Instr) (f : MmaWord) (s : State) (u v off : Nat) (x : Team) (bs : List Binding), mmaForm i = some f ∧
      s.cur.who = .seq u ∧ s.team? u = some x ∧ f.scaled = true ∧ f.base ≠ 15 ∧
      (x.body.seq.ops.filter (fun o => o.kind.isMma)).length < 2 ∧
      f.k % 2 ^ profLog (x.body.seq.profile f.prof) = 0 ∧ TilesReady x [f.tile] ∧
      descBad x f.form (x.body.seq.mr (f.base + 1)) f.sigma = false ∧
      let a := (x.body.seq.mr f.base).toNat
      a % 1024 = 0 ∧
      s.checkSpadPos s.bindings 0 a (f.steps * f.bBytes) false = .ok [(0, .spad v off (f.steps * f.bBytes))] bs :=
  ⟨⟨.mmaE4m3E4m3 8 0 15 7 0 7, _, stream, 0, 0, 0, team0 stream, [], rfl, by decide +kernel, by decide +kernel,
      by decide, by decide, by decide, by decide +kernel, by decide +kernel, by unfold TilesReady; decide +kernel,
      by decide +kernel⟩,
    ⟨.mmasE2m1E2m1 15 1 15 0 2 0, _, stream, 0, 0, 0, team0 stream, [], rfl, by decide +kernel, by decide +kernel,
      by decide, by decide, by decide +kernel, by decide +kernel, by unfold TilesReady; decide +kernel,
      by decide +kernel⟩⟩

/-- The sequencer is a member of hurdle 1 and of cluster hurdle 63. -/
def joined : State :=
  team (fun x => { x with cluster := [0], body := { x.body with seq := { x.body.seq with
    hmem := [(1, { mode := .sw }), (319, { mode := .s })] } } }) (seqs one)

theorem witness_SequencerHurdles :
    ∀ i ∈ ([.mharr 1 63, .mhwait 0 1, .mharrDrop 0 255, .mharrRegister 1 0, .mhwaitRegister 0 1] : List Instr),
    ∃ (c : BitVec 1) (n : BitVec 8) (s r : State) (u : Nat) (x y : Team), seqHurdleForm i = some (c, n) ∧
      s.cur.who = .seq u ∧ s.team? u = some x ∧ (c = 1#1 → n.toNat < 64) ∧ (c = 0#1 → n ≠ 0#8) ∧
      mayOpen s u c ∧ r = opened s u c ∧ r.team? u = some y ∧ y.replaying = false ∧ y.checks = none ∧
      y.checker = none ∧
      let m := s.member u 255 (hurdleId c n)
      m.pending ≠ some .none ∧
      match i with
      | .mharr _ _ => m.mode.signals = true ∧ m.arrived = false
      | .mhwait _ _ => m.mode.waits = true
      | _ => True := by
  intro i hi
  simp only [List.mem_cons, List.not_mem_nil, or_false] at hi
  rcases hi with rfl | rfl | rfl | rfl | rfl
  · exact ⟨1, 63, joined, _, 0, team0 joined, team0 (joined.flush 0), rfl, by decide +kernel, by decide +kernel, by decide,
      by decide, fun _ => by decide +kernel, rfl, by decide +kernel⟩
  · exact ⟨0, 1, joined, _, 0, team0 joined, team0 joined, rfl, by decide +kernel, by decide +kernel, by decide,
      by decide, fun _ => by decide +kernel, rfl, by decide +kernel⟩
  · exact ⟨0, 255, joined, _, 0, team0 joined, team0 joined, rfl, by decide +kernel, by decide +kernel, by decide,
      by decide, fun _ => by decide +kernel, rfl, by decide +kernel, by decide +kernel, by decide +kernel, by decide +kernel, by decide +kernel, trivial⟩
  · exact ⟨1, 0, joined, _, 0, team0 joined, team0 (joined.flush 0), rfl, by decide +kernel, by decide +kernel, by decide,
      by decide, fun _ => by decide +kernel, rfl, by decide +kernel, by decide +kernel, by decide +kernel, by decide +kernel, by decide +kernel, trivial⟩
  · exact ⟨0, 1, joined, _, 0, team0 joined, team0 joined, rfl, by decide +kernel, by decide +kernel, by decide,
      by decide, fun _ => by decide +kernel, rfl, by decide +kernel, by decide +kernel, by decide +kernel, by decide +kernel, by decide +kernel, trivial⟩

theorem witness_SystemReads :
    (∃ (r : BitVec 16) (s : State) (h : Heat), s.ready h s.cur.lanes [] [] ∧ s.privileged = false ∧
      (r = 0x10#16 ∨ r = 0x11#16 ∨ 0x1000#16 ≤ r)) ∧
    (∃ (d : BitVec 7) (s : State) (h : Heat), s.ready h s.cur.lanes [(d.toNat, 1)] []) ∧
    (∃ (d : BitVec 7) (r : BitVec 16) (s : State) (h : Heat), (r = 0x30#16 ∨ r = 0x31#16 ∨ r = 0x32#16) ∧
      s.ready h s.cur.lanes [(d.toNat, 2)] []) ∧
    (∃ (d : BitVec 7) (r : BitVec 16) (s : State) (h : Heat) (u : Nat) (x : Team) (v : W64),
      s.ready h s.cur.lanes [] (single [d.toNat]) ∧ s.curTeam = some u ∧ s.team? u = some x ∧
      teamReg s h x r.toNat = some v) ∧
    (∃ (d : BitVec 7) (s : State) (h : Heat) (u : Nat) (x : Team), s.ready h s.cur.lanes [] (single [d.toNat]) ∧
      s.curTeam = some u ∧ s.team? u = some x ∧ x.replaying = false ∧ Unchecked s ∧ s.curDet = true) ∧
    (∃ (d : BitVec 7) (s : State) (h : Heat) (u : Nat) (x : Team), s.ready h s.cur.lanes [] (single [d.toNat]) ∧
      s.curTeam = some u ∧ s.team? u = some x ∧ x.replaying = false ∧ Unchecked s ∧ s.curDet = false) ∧
    ∃ (d : BitVec 7) (r : BitVec 16) (s : State) (h : Heat) (c : Nat) (rec_ : TrapRec) (v : W64),
      s.ready h s.cur.lanes [] (single [d.toNat]) ∧ s.cur.who = .trap c ∧ s.cur.core = c ∧
      (s.core c).frozen = some rec_ ∧ rec_.cls ≠ 0x40 ∧
      (faultReg (s.core c) rec_ r.toNat = some v ∨ (r = 0x10#16 ∧ v = BitVec.ofNat 64 c) ∨
        (r = 0x11#16 ∧ v = BitVec.ofNat 64 (c / 64))) :=
  let det := grid (fun g => { g with record := { g.record with det := true } }) one
  ⟨⟨0x1000, one, hot one, isReady (by decide +kernel), by decide +kernel, .inr (.inr (by decide))⟩,
    ⟨127, one, hot one, isReady (by decide +kernel)⟩,
    ⟨126, 0x32, one, hot one, .inr (.inr rfl), isReady (by decide +kernel)⟩,
    ⟨63, 0x52, one, hot one, 0, team0 one, 0, isReady (by decide +kernel), by decide +kernel⟩,
    ⟨63, det, hot det, 0, team0 det, isReady (by decide +kernel), by decide +kernel, by decide +kernel,
      by decide +kernel, isUnchecked (x := team0 det) (by decide +kernel) (by decide +kernel) (by decide +kernel), by decide +kernel⟩,
    ⟨63, one, hot one, 0, team0 one, isReady (by decide +kernel), by decide +kernel, by decide +kernel,
      by decide +kernel, isUnchecked (x := team0 one) (by decide +kernel) (by decide +kernel) ⟨rfl, rfl⟩, by decide +kernel⟩,
    ⟨63, 0x1042, both, hot both, 0, {}, 0, isReady (by decide +kernel), by decide +kernel, by decide +kernel,
      by decide +kernel, by decide, .inl (by decide +kernel)⟩⟩

theorem witness_FaultEntry :
    (∃ (i : Instr) (s : State) (h : Heat), privilegedWord i = true ∧ s.ready h s.cur.lanes [] [] ∧
      s.privileged = false) ∧
    (∃ (i : Instr) (f : VecForm) (s : State) (h : Heat) (r n : Nat), intForm i = some f ∧ s.curHeat? = some h ∧
      (r, n) ∈ f.uses ∧ 0 < n ∧ h.budget < r + n) ∧
    (∃ (i : Instr) (f : VecForm) (s : State) (h : Heat) (x : Slot) (cause : Nat), intForm i = some f ∧ s.curHeat? = some h ∧
      overBudget h.budget f.uses = none ∧
      h.blocker s.cur.active [{ lanes := s.cur.lanes, vr := f.uses, sr := f.suses }] = some (x, cause)) ∧
    (∃ (i : Instr) (f : VecForm) (s : State) (h : Heat), intForm i = some f ∧ s.curHeat? = some h ∧
      overBudget h.budget f.uses = none ∧
      h.blocker s.cur.active [{ lanes := s.cur.lanes, vr := f.uses, sr := f.suses }] = none ∧
      ∃ r n k, (r, n) ∈ f.uses ∧ k ∈ h.badRows ∧ r ≤ k ∧ k < r + n) ∧
    (∀ agree : Bool, ∃ (i : Instr) (f : VecForm) (b : Fmt) (s : State) (h : Heat) (x : Flip), floatForm i = some f ∧
      shadowFmt i = some b ∧ s.ready h s.cur.lanes f.uses f.suses ∧ (s.core s.cur.core).flips = [x] ∧ x.reason = 1 ∧
      x.part = 1 ∧ x.part < 32 / b.width ∧ x.index = 31 ∧ inMask s.cur.lanes x.index = true ∧
      h.k f.pred x.index = true ∧
      shadowAgrees b (elemOf b (f.value h x.index) x.part) (elemOf b (wrongResult b (f.value h x.index) x) x.part) = agree) ∧
    (∃ (s : State) (u g c : Nat) (x : Team) (h : Heat), s.cur.who = .heat u g ∧ s.cur.core = c ∧ u < trapBase ∧
      s.team? u = some x ∧ x.heat? g = some h ∧ x.core? = some c ∧ x.checks = none ∧ (s.core c).frozen = none) ∧
    (∃ (s : State) (u g c : Nat) (x : Team) (h : Heat) (r0 : TrapRec), s.cur.who = .heat u g ∧ s.cur.core = c ∧
      u < trapBase ∧ s.team? u = some x ∧ x.heat? g = some h ∧ x.core? = some c ∧ x.checks = none ∧
      (s.core c).frozen = some r0 ∧ (s.core c).freezing = false ∧ (s.core c).queue.length = 63) ∧
    (∀ late : Bool, ∃ (s : State) (u g c cls info : Nat) (x : Team) (h : Heat) (r0 : TrapRec), s.cur.who = .heat u g ∧
      s.cur.core = c ∧ u < trapBase ∧ s.team? u = some x ∧ x.heat? g = some h ∧ x.core? = some c ∧ x.checks = none ∧
      (s.core c).frozen = some r0 ∧ (s.core c).freezing = true ∧
      decide ((s.curRecord cls info).order < r0.order) = !late) ∧
    ∃ (s : State) (c : Nat), s.cur.who = .trap c :=
  let low := heat (fun h => { h with budget := 16 }) one
  let late := heat (fun h => { h with slots := [{ dest := .vec 7 1, vals := [(31, 5)], mask := 0xFFFFFFFF#32 }] }) one
  let spoilt := heat (fun h => { h with badRows := [7] }) one
  let wrong (n : Nat) := core (fun k => { k with flips := [{ index := 31, part := 1, bits := n }] })
    (heat (fun h => h.setV 7 31 0x3F803F80#32) one)
  let freezes := core (fun k => { k with frozen := some { cls := 4, heat := 1 }, frozenAt := some 0 }) one
  let iced := core (fun k => { k with frozen := some {}, queue := List.replicate 63 {} }) one
  ⟨⟨.eret, one, hot one, rfl, isReady (by decide +kernel), by decide +kernel⟩,
    ⟨.vadd 15 16 0 0, _, low, hot low, 16, 1, rfl, by decide +kernel⟩,
    ⟨.vadd 0 7 1 0, _, late, hot late, { dest := .vec 7 1, vals := [(31, 5)], mask := 0xFFFFFFFF#32 }, 10, rfl,
      by decide +kernel⟩,
    ⟨.vadd 0 7 1 0, _, spoilt, hot spoilt, rfl, by decide +kernel, by decide +kernel, by decide +kernel, 7, 1, 7,
      by decide +kernel⟩,
    fun agree => by
      cases agree
      · exact ⟨.vhadd 0 7 7 0, _, .bf16, wrong 4, hot (wrong 4), { index := 31, part := 1, bits := 4 }, rfl, rfl,
          isReady (by decide +kernel), by decide +kernel⟩
      · exact ⟨.vhadd 0 7 7 0, _, .bf16, wrong 1, hot (wrong 1), { index := 31, part := 1, bits := 1 }, rfl, rfl,
          isReady (by decide +kernel), by decide +kernel⟩,
    ⟨one, 0, 0, 0, team0 one, hot one, by decide +kernel⟩,
    ⟨iced, 0, 0, 0, team0 iced, hot iced, {}, by decide +kernel⟩,
    fun late => by
      cases late
      · exact ⟨freezes, 0, 0, 0, 4, 0, team0 freezes, hot freezes, { cls := 4, heat := 1 }, by decide +kernel⟩
      · exact ⟨freezes, 0, 0, 0, 6, 0, team0 freezes, hot freezes, { cls := 4, heat := 1 }, by decide +kernel⟩,
    ⟨both, 0, by decide +kernel⟩⟩

/-- The trap heat of `both` with heat 31 of share 0 selected, or its sequencer. -/
def selects (n : W64) : State := core (fun k => { k with csel := n }) both

theorem witness_SystemWrites :
    (∃ (d : BitVec 7) (s : State) (h : Heat) (c : Nat), s.cur.who = .trap c ∧
      s.ready h s.cur.lanes [(d.toNat, 2)] []) ∧
    (∃ (i : Instr) (d : Nat) (f : Core → W64 → Core) (s : State) (h : Heat) (c : Nat), s.cur.who = .trap c ∧
      s.cur.core = c ∧ s.ready h s.cur.lanes [] (single [d]) ∧ poolWrite i = some (d, f) ∧ s.coreBusy c = false) ∧
    (∃ (i : Instr) (d : Nat) (f : Core → W64 → Core) (s : State) (h : Heat) (c : Nat), s.cur.who = .trap c ∧
      s.ready h s.cur.lanes [] (single [d]) ∧ poolWrite i = some (d, f) ∧ s.coreBusy c = true) ∧
    (∃ (d : BitVec 6) (s : State) (h : Heat) (c : Nat) (x : Context), s.cur.who = .trap c ∧ s.cur.core = c ∧
      s.ready h s.cur.lanes [] (single [d.toNat]) ∧ s.ctx? s.curAsid = some x) ∧
    (∃ (i : Instr) (d : Nat) (f : Heat → Nat → W64 → Heat) (s : State) (h g : Heat) (c u : Nat) (x : Team),
      s.cur.who = .trap c ∧ s.cur.core = c ∧ heatWrite s.stamp i = some (d, f) ∧
      s.ready h s.cur.lanes [] (single [d]) ∧
      let v := (s.core c).csel.toNat
      s.teamAt c (v % 256) = some u ∧ u < trapBase ∧ s.team? u = some x ∧ x.heat? (v / 256 % 256) = some g ∧
      g.ended = false) ∧
    (∃ (d : BitVec 6) (s : State) (h : Heat) (c u : Nat) (x : Team), s.cur.who = .trap c ∧
      s.cur.core = c ∧ s.ready h s.cur.lanes [] (single [d.toNat]) ∧
      s.teamAt c ((s.core c).csel.toNat % 256) = some u ∧ u < trapBase ∧ (s.core c).csel.toNat / 256 % 256 = 255 ∧
      s.team? u = some x ∧ x.heat? 255 = none) ∧
    ∃ (r : BitVec 16) (s : State) (h : Heat), s.ready h s.cur.lanes [] [] ∧ s.privileged = true ∧
      r ≠ 0x32#16 ∧ r ≠ 0x1020#16 ∧ r ≠ 0x1040#16 :=
  ⟨⟨126, both, hot both, 0, by decide +kernel, isReady (by decide +kernel)⟩,
    ⟨.swrPoolcb 63, _, _, trapped, hot trapped, 0, by decide +kernel, by decide +kernel, isReady (by decide +kernel), rfl,
      by decide +kernel⟩,
    ⟨.swrPoolrb 63, _, _, both, hot both, 0, by decide +kernel, isReady (by decide +kernel), rfl, by decide +kernel⟩,
    ⟨63, both, hot both, 0, context0 both, by decide +kernel, by decide +kernel, isReady (by decide +kernel),
      by decide +kernel⟩,
    ⟨.swrXv 63 127, _, _, selects 0x1F0000, hot (selects 0x1F0000), ((team0 both).heat? 0).getD {}, 0, 0,
      team0 (selects 0x1F0000), by decide +kernel, by decide +kernel, rfl, isReady (by decide +kernel),
      by decide +kernel⟩,
    ⟨63, selects 0xFF00, hot (selects 0xFF00), 0, 0, team0 (selects 0xFF00), by decide +kernel, by decide +kernel,
      isReady (by decide +kernel), by decide +kernel⟩,
    ⟨0x1000, both, hot both, isReady (by decide +kernel), by decide +kernel⟩⟩

theorem witness_ReturnFromTrap : ∃ (s : State) (h : Heat) (c : Nat) (r : TrapRec), s.cur.who = .trap c ∧
    s.cur.core = c ∧ s.ready h s.cur.lanes [] [] ∧ h.acks = [] ∧ (s.core c).frozen = some r ∧ (s.core c).queue = [] ∧
    (s.core c).removeAtEret = [] ∧ ∃ (u : Nat) (x : Team), s.residents c = [u] ∧ s.team? u = some x ∧
      x.cluster = [u] ∧ x.share = r.share :=
  let s := core (fun k => { k with frozen := some { cls := 0x20, share := 0, heat := 0 } })
    (team (fun x => { x with cluster := [0] }) both)
  ⟨s, hot s, 0, { cls := 0x20, share := 0, heat := 0 }, by decide +kernel, by decide +kernel, isReady (by decide +kernel),
    by decide +kernel, by decide +kernel, by decide +kernel, by decide +kernel, 0, team0 s, by decide +kernel⟩

theorem witness_TlbiAndHalt :
    (∃ (i : Instr) (sr : List Nat) (asid va : Option Nat) (s : State) (h : Heat) (c : Nat), s.cur.who = .trap c ∧
      tlbiForm h i = some (sr, asid, va) ∧ s.ready h s.cur.lanes [] (single sr) ∧
      (s.invalidate { asid := asid, va := va }).outstanding { asid := asid, va := va } = false ∧
      (s.invalidate { asid := asid, va := va }).deferredOpen { asid := asid, va := va } = false ∧
      ∀ g ∈ s.heads, ∀ x, mfind s.grids g = some x → x.waitAddr = 0) ∧
    ∀ action < 4, ∃ (a : BitVec 6) (s : State) (h : Heat) (c : Nat), s.cur.who = .trap c ∧ s.cur.core = c ∧
      s.ready h s.cur.lanes [] (single [a.toNat]) ∧ let v := h.sr a.toNat
      v.extractLsb' 10 6 = 0#6 ∧ v.extractLsb' 18 46 = 0#46 ∧ (v.extractLsb' 16 2).toNat = action ∧
      ∃ e ∈ s.teams, e.2.asid = (v.extractLsb' 0 10).toNat :=
  let s := { both with tlb := [{ base := 0, size := 0x40000000, leaf := 0xFB }] }
  let halts (n : W64) : State := core (fun k => { k with trap := k.trap.setS 4 n }) both
  ⟨⟨.tlbiVa 0 4, [4], some 0, some 0, s, hot s, 0, by decide +kernel, by decide +kernel, isReady (by decide +kernel),
      by decide +kernel, by decide +kernel, fun g e => by
        have a : s.heads = [] := by decide +kernel
        simp [a] at e⟩, fun action e => by
    rcases (by omega : action = 0 ∨ action = 1 ∨ action = 2 ∨ action = 3) with rfl | rfl | rfl | rfl
    · exact ⟨4, halts 0, hot (halts 0), 0, by decide +kernel, by decide +kernel, isReady (by decide +kernel),
        by decide +kernel⟩
    · exact ⟨4, halts 0x10000, hot (halts 0x10000), 0, by decide +kernel, by decide +kernel, isReady (by decide +kernel),
        by decide +kernel⟩
    · exact ⟨4, halts 0x20000, hot (halts 0x20000), 0, by decide +kernel, by decide +kernel, isReady (by decide +kernel),
        by decide +kernel⟩
    · exact ⟨4, halts 0x30000, hot (halts 0x30000), 0, by decide +kernel, by decide +kernel, isReady (by decide +kernel),
        by decide +kernel⟩⟩

/-- A debugger is attached to context 0. -/
def debugged : State := context (fun c => { c with attached := true }) (team (fun x => { x with cluster := [0] }) one)

theorem witness_ClocksAndCalls :
    (∃ (i : Instr) (d : BitVec 6) (reason : Nat) (v : W64) (s : State) (h : Heat) (u : Nat) (x : Team),
      ((i = .clkrd d ∧ reason = 2 ∧ v = (s.core s.cur.core).cycles) ∨ (∃ n, i = .cntrd d n ∧ reason = 3 ∧
        v = s.counter n.toNat)) ∧ s.ready h s.cur.lanes [] (single [d.toNat]) ∧ s.curTeam = some u ∧
      s.team? u = some x ∧ x.replaying = false ∧ Unchecked s) ∧
    (∃ (d a b : BitVec 7) (p : BitVec 2) (s s1 : State) (h h1 : Heat) (u : Nat) (x : Team),
      s.ready h s.cur.lanes [(a.toNat, b.toNat), (d.toNat, 1)] [] ∧ s.curTeam = some u ∧
      let m := h.taking s.cur.active p.toNat
      m ≠ 0#32 ∧ h.loading m = false ∧ s.unfinished s.curKey s.curHeatId h m .ack (fun _ _ => true) = false ∧
      Unchecked s1 ∧ s.commitHeld u = false ∧ s1 = s.flush u ∧ s1.curHeat? = some h1 ∧ s1.team? u = some x) ∧
    (∃ (s : State) (h : Heat) (u : Nat) (x : Team), s.ready h s.cur.lanes [] [] ∧ s.curTeam = some u ∧
      u < trapBase ∧ s.team? u = some x ∧ x.checks = none ∧ (s.core s.cur.core).frozen = none ∧ s.attached s.curAsid = false) ∧
    (∃ (s : State) (h : Heat) (u : Nat) (x : Team), s.ready h s.cur.lanes [] [] ∧ s.curTeam = some u ∧
      s.team? u = some x ∧ x.checks = none ∧ x.cluster = [u] ∧ s.attached s.curAsid = true) ∧
    ∃ (a : BitVec 6) (s : State) (h : Heat), s.ready h s.cur.lanes [] (single [a.toNat]) ∧
      bitAt s.traceKinds 1 = true ∧ s.mute = false ∧ (s.core s.cur.core).traceLost = 0 ∧ (s.core s.cur.core).trace.length < 1024 :=
  let traced := { one with traceKinds := 2 }
  ⟨⟨.cntrd 63 31, 63, 3, _, one, hot one, 0, team0 one, .inr ⟨31, rfl, rfl, rfl⟩, isReady (by decide +kernel),
      by decide +kernel, by decide +kernel, by decide +kernel,
      isUnchecked (x := team0 one) (by decide +kernel) (by decide +kernel) ⟨rfl, rfl⟩⟩,
    ⟨127, 120, 8, 0, one, _, hot one, hot (one.flush 0), 0, team0 (one.flush 0), isReady (by decide +kernel),
      by decide +kernel, by decide +kernel, by decide +kernel, by decide +kernel,
      isUnchecked (x := team0 (one.flush 0)) (by decide +kernel) (by decide +kernel) (by decide +kernel),
      by decide +kernel, rfl,
      by decide +kernel⟩,
    ⟨one, hot one, 0, team0 one, isReady (by decide +kernel), by decide +kernel⟩,
    ⟨debugged, hot debugged, 0, team0 debugged, isReady (by decide +kernel), by decide +kernel⟩,
    ⟨63, traced, hot traced, isReady (by decide +kernel), by decide +kernel⟩⟩

/-- The word NOP stands in the clause of `one`. -/
def nops : State := grid (fun g => { g with code := loadMem [] 0xD4000000 }) one

/-- Core 0 is frozen with a dump of the hurdle areas to 0x200000. -/
def dumping (begun : Bool) : State :=
  core (fun k => { k with frozen := some { share := 0 }
                          dump := some { fault := { share := 0 }, sect := 2, base := 0x200000, begun := begun } }) one

/-- What holds of every resident team of core 0, where team 0 is the only one. -/
theorem onResident {s : State} {x : Team} {P : Team → Prop} (e : s.residents 0 = [0]) (t : s.team? 0 = some x) (p : P x) :
    ∀ u ∈ s.residents 0, ∀ y, s.team? u = some y → P y := by
  intro u hu y hy
  rw [e, List.mem_singleton] at hu
  rw [hu, t] at hy
  exact Option.some.inj hy ▸ p

theorem witness_FreezeEvents :
    (∃ (c : Nat) (s : State) (r : TrapRec), (s.core c).frozen = some r ∧ (s.core c).trapOn = false ∧
      (s.core c).stuck = false ∧ (s.core c).freezing = false ∧
      (∀ u ∈ s.residents c, ∀ x, s.team? u = some x → x.enginesIdle = true) ∧ (s.core c).thentry ≠ 0#64) ∧
    (∃ (c : Nat) (s : State) (r : TrapRec), (s.core c).frozen = some r ∧ (s.core c).trapOn = false ∧
      (s.core c).stuck = false ∧ (s.core c).freezing = false ∧
      (∀ u ∈ s.residents c, ∀ x, s.team? u = some x → x.enginesIdle = true) ∧ (s.core c).thentry = 0#64) ∧
    (∃ (u c : Nat) (s : State) (x : Team) (k : Context), u < trapBase ∧ s.team? u = some x ∧ x.core? = some c ∧
      s.ctx? x.asid = some k ∧ k.wdog ≠ 0 ∧ s.runs u = true ∧ x.watched = true ∧ x.checks = none) ∧
    (∃ (c : Nat) (s : State) (d : Dump) (ps : List (Nat × Nat)) (bad : Option (Nat × Nat)),
      (s.core c).dump = some d ∧ d.begun = false ∧ s.dumpReady c d.fault.asid = true ∧
      (∀ x ∈ s.dumpTeams c d.fault.asid, x.dumpErrors d.sect = []) ∧
      s.dumpPieces d.fault.asid (d.base + 0x80) 0 ((s.dumpSections c d).flatten.length / 65536 + 2)
        (s.dumpSections c d).flatten.length = .done ps bad) ∧
    (∃ (c : Nat) (s : State) (d : Dump) (ps : List (Nat × Nat)),
      (s.core c).dump = some d ∧ d.begun = true ∧ s.dumpPieces d.fault.asid d.base 0 2 128 = .done ps none) ∧
    ∃ (c : Nat) (s : State) (d : Dump) (ps : List (Nat × Nat)) (bad : Option (Nat × Nat)),
      (s.core c).dump = some d ∧ d.begun = true ∧ bad ≠ none ∧
      s.dumpPieces d.fault.asid d.base 0 2 128 = .done ps bad :=
  let f (v : W64) : State := core (fun k => { k with frozen := some {}, thentry := v }) one
  let w := context (fun c => { c with wdog := 1 }) one
  let far := core (fun k => { k with dump := some { base := 0x40000000, begun := true } }) one
  ⟨⟨0, f 4, {}, by decide +kernel, by decide +kernel, by decide +kernel, by decide +kernel,
      onResident (x := team0 (f 4)) (by decide +kernel) (by decide +kernel) (by decide +kernel), by decide +kernel⟩,
    ⟨0, f 0, {}, by decide +kernel, by decide +kernel, by decide +kernel, by decide +kernel,
      onResident (x := team0 (f 0)) (by decide +kernel) (by decide +kernel) (by decide +kernel), by decide +kernel⟩,
    ⟨0, 0, w, team0 w, context0 w, by decide +kernel⟩,
    ⟨0, dumping false, { fault := { share := 0 }, sect := 2, base := 0x200000 }, [(0x200080, 288)], none,
      by decide +kernel⟩,
    ⟨0, dumping true, { fault := { share := 0 }, sect := 2, base := 0x200000, begun := true }, [(0x200000, 128)],
      by decide +kernel⟩,
    ⟨0, far, { base := 0x40000000, begun := true }, [], some (0, 4), by decide +kernel⟩⟩

/-- The walk of the page of va that core 1 waits for is on its way. -/
def walking (va : Nat) : State :=
  { one with walks := [{ page := va / 65536, begun := one.walk 0 0 va, users := [(1, 0, 0)] }] }

theorem witness_TimeEvents :
    (∃ (u g : Nat) (s : State) (x : Team) (h : Heat) (m : Mask) (ws : List W32), g ≠ 255 ∧ u < trapBase ∧
      s.team? u = some x ∧ s.heat? u g = some h ∧ h.choose = some m ∧
      (∀ e ∈ h.loopBuf, e.1 ≠ (h.lane (lowLane m)).hdr) ∧
      s.fetchClause (s.coreOfKey u / 64) x.asid (s.codeOf u) (h.lane (lowLane m)).hdr = .ok ws) ∧
    (∃ (u : Nat) (s : State) (x : Team) (ws : List W32), s.team? u = some x ∧
      (∀ e ∈ x.body.seq.loopBuf, e.1 ≠ x.body.seq.hdr) ∧
      s.fetchClause (x.core?.getD 0 / 64) x.asid (s.codeOf u) x.body.seq.hdr = .ok ws) ∧
    (∃ (a base size leaf : Nat) (va : BitVec 72) (s : State), va.getLsbD 71 = false ∧
      s.walkResult (s.theWalk a va.toNat) va.toNat = .page base size leaf ∧ (s.theWalk a va.toNat).users ≠ []) ∧
    (∃ (a : Nat) (va : BitVec 72) (s : State), va.getLsbD 71 = false ∧
      s.walkResult (s.theWalk a va.toNat) va.toNat = .invalid) ∧
    (∃ (s : State) (u g : Nat) (h : Heat), u < trapBase ∧ s.heat? u g = some h ∧ (s.core 0).frozen = none ∧
      (s.core 0).stuck = false ∧ s.vfChanging = [] ∧ (s.core 0).readied = [] ∧ 0 ∈ (s.core 0).issued ∧
      1 ∉ (s.core 0).issued ∧ s.schedHeats 0 1 = []) ∧
    ∃ s : State, (s.core 0).frozen = none ∧ (s.core 0).stuck = false ∧ 3 ∈ (s.core 0).readied :=
  let s := core (fun k => { k with issued := [0] }) one
  ⟨⟨0, 0, nops, team0 nops, hot nops, 0xFFFFFFFF#32, [0xA0000031, 0xD4000000], by decide +kernel⟩,
    ⟨0, nops, team0 nops, [0xA0000031, 0xD4000000], by decide +kernel⟩,
    ⟨0, 0, 0x40000000, 0xFB, 0x3FFFFFFF, walking 0x3FFFFFFF, by decide +kernel⟩,
    ⟨0, 0x40000000, walking 0x40000000, by decide +kernel⟩,
    ⟨s, 0, 0, hot s, by decide +kernel⟩,
    ⟨core (fun k => { k with readied := [3] }) one, by decide +kernel⟩⟩

/-- Pending results of heat 0: a row for lane 31, the same with an error, and a scalar. -/
def landing : State :=
  heat (fun h => { h with
    slots := [{ dest := .vec 126 2, vals := [(31, 0x500000003)], stamp := 1 },
      { dest := .vec 5 1, vals := [(0, 3), (1, 4)], stamp := 2, poison := 2#32 },
      { dest := .scalar 63, vals := [(0, 7)], stamp := 3 }]
    acks := [{ stamp := 4 }] }) one

theorem witness_LandingEvents_results :
    (∃ (u g i b n : Nat) (s : State) (h : Heat) (x : Slot), u < trapBase ∧ s.heat? u g = some h ∧
      h.slots[i]? = some x ∧ h.slots.find? (fun z => z.stamp == x.stamp) = some x ∧ x.waiting = 0 ∧
      x.cancelled = false ∧ x.dest = .vec b n ∧ (∀ e ∈ x.vals, e.1 < 32) ∧ mrising x.vals = true ∧
      s.landsLater u g x = false ∧ x.poison = 0#32) ∧
    (∃ (u g i b n : Nat) (s : State) (h : Heat) (x : Slot) (y : Team) (c : Nat), u < trapBase ∧ s.heat? u g = some h ∧
      h.slots[i]? = some x ∧ h.slots.find? (fun z => z.stamp == x.stamp) = some x ∧ x.waiting = 0 ∧
      x.cancelled = false ∧ x.dest = .vec b n ∧ (∀ e ∈ x.vals, e.1 < 32) ∧ mrising x.vals = true ∧
      s.landsLater u g x = false ∧ x.poison ≠ 0#32 ∧ s.team? u = some y ∧ y.checks = none ∧ y.core? = some c ∧ (s.core c).frozen = none) ∧
    (∃ (u g i d : Nat) (v : Nat × Nat) (s : State) (h : Heat) (x : Slot), u < trapBase ∧ s.heat? u g = some h ∧
      h.slots[i]? = some x ∧ h.slots.find? (fun z => z.stamp == x.stamp) = some x ∧ x.waiting = 0 ∧
      x.cancelled = false ∧ x.dest = .scalar d ∧ x.vals = [v] ∧ x.poison = 0#32 ∧ s.landsLater u g x = false) ∧
    ∃ (u g i : Nat) (s : State) (h : Heat) (a : Ack), u < trapBase ∧ s.heat? u g = some h ∧ h.acks[i]? = some a ∧
      a.waiting = 0 ∧ a.fault = none ∧ a.frames = [] :=
  ⟨⟨0, 0, 0, 126, 2, landing, hot landing, { dest := .vec 126 2, vals := [(31, 0x500000003)], stamp := 1 }, by decide,
      by decide +kernel, by decide +kernel, by decide +kernel, rfl, rfl, rfl, by decide, by decide,
      by decide +kernel, rfl⟩,
    ⟨0, 0, 1, 5, 1, landing, hot landing, { dest := .vec 5 1, vals := [(0, 3), (1, 4)], stamp := 2, poison := 2#32 },
      team0 landing, 0, by decide, by decide +kernel, by decide +kernel, by decide +kernel, rfl, rfl, rfl, by decide +kernel⟩,
    ⟨0, 0, 2, 63, (0, 7), landing, hot landing, { dest := .scalar 63, vals := [(0, 7)], stamp := 3 }, by decide,
      by decide +kernel, by decide +kernel, by decide +kernel, rfl, rfl, rfl, rfl, rfl, by decide +kernel⟩,
    ⟨0, 0, 0, landing, hot landing, { stamp := 4 }, by decide, by decide +kernel, by decide +kernel, rfl, rfl,
      rfl⟩⟩

/-- An ordered contribution on its way, with index n; the home expects 2. -/
def ordered (n : Nat) (refused : Bool) : State :=
  { one with ordRecs := [(0x200, { e := 2 })], ordMsgs := [{ pa := 0x200, index := n, refused := refused }] }

/-- Both lanes of quad 0 stand at a BRX.pack; the heat sleeps; a sector is far. -/
def packing : State :=
  heat (fun h => { h with
    lanes := [(0, { live := true, park := .brxPack 0x300 1 }), (31, { live := true, park := .brxPack 0x200 1 })]
    sleepUntil := some 0 }) { one with predictor := [(0, { far := true })], cores := [(0, { cycles := 1024 })] }

theorem witness_LandingEvents_others :
    (∃ (i : Nat) (s : State) (m : OrdMsg) (r : OrdRec), s.ordMsgs[i]? = some m ∧ m.refused = false ∧
      s.ownedRange m.pa 4 = false ∧ (m.team < trapBase → (s.team? m.team).isSome) ∧ mfind s.ordRecs m.pa = some r ∧ m.index = r.e ∧ s.bytesBad m.pa 4 = false ∧
      ∀ w ∈ r.waiting, r.e + 1 < w.index) ∧
    (∃ (i : Nat) (s : State) (m : OrdMsg) (r : OrdRec), s.ordMsgs[i]? = some m ∧ m.refused = false ∧
      s.ownedRange m.pa 4 = false ∧ (m.team < trapBase → (s.team? m.team).isSome) ∧ mfind s.ordRecs m.pa = some r ∧ r.e < m.index ∧
      ∀ z ∈ s.ordRecs, z.2.waiting = []) ∧
    (∃ (i : Nat) (s : State) (m : OrdMsg), s.ordMsgs[i]? = some m ∧ m.refused = true) ∧
    (∃ (k : Nat) (s : State) (e : PredEntry), mfind s.predictor k = some e ∧ e.far = true ∧
      e.transfers.headD 0 + 1024 ≤ s.dieClock (homeDieOf (1024 * k))) ∧
    (∃ (u g c n : Nat) (s : State) (x : Team) (h : Heat), u < trapBase ∧ s.team? u = some x ∧ x.core? = some c ∧
      s.heat? u g = some h ∧ h.sleepUntil = some n ∧ n ≤ (s.core c).cycles.toNat) ∧
    ∃ (u role b : Nat) (s : State) (x : Team), u < trapBase ∧ s.team? u = some x ∧ mrising x.body.heats = true ∧
      let hs := x.body.heats.filter (fun e => e.2.role == role)
      let g := hs.filter (fun e => e.2.packed)
      g ≠ [] ∧ (∀ e ∈ hs, e.2.packReady = true) ∧ ∀ e ∈ g, e.2.slots = [] ∧ e.2.budget = b :=
  ⟨⟨0, ordered 2 false, { pa := 0x200, index := 2 }, { e := 2 }, by decide +kernel, rfl, by decide +kernel,
      by decide +kernel, by decide +kernel, rfl, by decide +kernel⟩,
    ⟨0, ordered 3 false, { pa := 0x200, index := 3 }, { e := 2 }, by decide +kernel, rfl, by decide +kernel⟩,
    ⟨0, ordered 2 true, { pa := 0x200, index := 2, refused := true }, by decide +kernel, rfl⟩,
    ⟨0, packing, { far := true }, by decide +kernel, rfl, by decide +kernel⟩,
    ⟨0, 0, 0, 0, packing, team0 packing, hot packing, by decide +kernel⟩,
    ⟨0, 1, 128, packing, team0 packing, by decide +kernel⟩⟩

/-- A copy command in q0 of heat 0, and a gather in q2. -/
def pushed : State :=
  heat (fun h => { h with queues := [(0, [{ id := 7 }]), (2, [{ id := 8, mask := 1#32 }, { id := 8, mask := 3#32 }])] }) one

/-- A list of one is served in turn. -/
theorem onlyOne (x last : Nat × Nat) (h : ¬ (last.1 < x.1 ∨ (last.1 = x.1 ∧ last.2 < x.2))) : NextInTurn [x] last x := by
  refine ⟨by simp, .inr ⟨?_, ?_⟩⟩
  · intro y hy
    simp only [List.mem_cons, List.not_mem_nil, or_false] at hy
    subst hy
    exact h
  · intro y hy
    simp only [List.mem_cons, List.not_mem_nil, or_false] at hy
    subst hy
    omega

theorem witness_EngineEvents_accept :
    (∃ (c g u : Nat) (s : State) (h : Heat) (e : QEntry) (l : List QEntry),
      NextInTurn (s.engineHeats c (fun h => !(h.queue 0).isEmpty)) (s.core c).copyLast (g, u) ∧
      (∀ z ∈ s.engineHeats c (fun h => !(h.queue 0).isEmpty), z.2 < 2 ^ 64) ∧ (s.core c).copyLast.2 < 2 ^ 64 ∧
      u < trapBase ∧ s.heat? u g = some h ∧ h.queue 0 = e :: l) ∧
    ∃ (c g u : Nat) (s : State) (h : Heat) (es : List QEntry),
      NextInTurn (s.engineHeats c (fun h => !(headSeq h.gatherList).isEmpty)) (s.core c).gatherLast (g, u) ∧
      (∀ z ∈ s.engineHeats c (fun h => !(headSeq h.gatherList).isEmpty), z.2 < 2 ^ 64) ∧
      (s.core c).gatherLast.2 < 2 ^ 64 ∧ u < trapBase ∧ s.heat? u g = some h ∧ es = headSeq h.gatherList ∧ es ≠ [] := by
  have a : pushed.engineHeats 0 (fun h => !(h.queue 0).isEmpty) = [(0, 0)] := by decide +kernel
  have b : pushed.engineHeats 0 (fun h => !(headSeq h.gatherList).isEmpty) = [(0, 0)] := by decide +kernel
  have c : (pushed.core 0).copyLast = (255, 0) ∧ (pushed.core 0).gatherLast = (255, 0) := by decide +kernel
  refine ⟨⟨0, 0, 0, pushed, hot pushed, { id := 7 }, [], ?_, ?_, by decide +kernel⟩,
    ⟨0, 0, 0, pushed, hot pushed, _, ?_, ?_, by decide +kernel, by decide, by decide +kernel, rfl, by decide +kernel⟩⟩
  · rw [a, c.1]
    exact onlyOne _ _ (by decide)
  · rw [a]
    decide
  · rw [b, c.2]
    exact onlyOne _ _ (by decide)
  · rw [b]
    decide

/-- Engine commands: a copy to the scratchpad, commands that read, that have read, that write a sector, and that are
done. -/
def engines : State :=
  let target : List (Nat × Piece) := [(0, .mem 0x200000 1 0xFB 0x200000)]
  { team (fun x => { x with restoring := [1, 2] }) one with
    engines := [
      { id := 1, buf := some [5#8, 6#8], dst := [(0, .spad 0 0 2)], lines := [(0, 0)] },
      { id := 2, todo := target }, { id := 3, parts := [(0, [5#8])] },
      { id := 4, opc := 4, buf := some [5#8], dst := target, owned := [2048] },
      { id := 5, buf := some [5#8], queue := 8, tag := 9, bads := [0] },
      { id := 6, opc := 4, buf := some [5#8], queue := 3 },
      { id := 7, opc := 5, elem := 8, mask := 0x80000000#32, queue := 3, buf := some [5#8] },
      { id := 8, opc := 5, todo := [(0, .mem 0x300000 1 0xFB 0x300000)] }] }

/-- Command n of `engines`. -/
def engine (n : Nat) : EngCmd := engines.engines.getD n {}

/-- No team of `engines` is checked. -/
theorem engineTurn {i : Instr} {n : Nat} (w : (engine n).written = false) (t : (engine n).team = 0)
    (e : (i = .evCopyComplete (engine n).id ∧
        engines.engines.find? (fun z => z.id == (engine n).id && decide (z.opc < 4)) = some (engine n)) ∨
      (i = .evScatterComplete (engine n).id ∧
        engines.engines.find? (fun z => z.id == (engine n).id && z.opc == 4) = some (engine n)) ∨
      (i = .evGatherResult (engine n).id ∧ (engine n).outs = [] ∧
        engines.engines.find? (fun z => z.id == (engine n).id && z.opc == 5) = some (engine n))) :
    EngineTurn i engines (engine n) := by
  refine ⟨w, fun x hx => ?_, e⟩
  have a : engines.team? 0 = some (team0 engines) := by decide +kernel
  rw [t, a] at hx
  obtain rfl := Option.some.inj hx
  decide +kernel

theorem witness_EngineEvents_lines :
    (∃ (u line : Nat) (rest : List Nat) (s : State) (x : Team), s.team? u = some x ∧ x.restoring = line :: rest) ∧
    ∃ (u line p off n : Nat) (s : State) (x : Team) (cmd : EngCmd) (b : List Byte), s.team? u = some x ∧
      line ∉ x.restoring ∧ s.engines.find? (fun z => z.opc != 6 && z.lines.contains (u, line)) = some cmd ∧
      cmd.buf = some b ∧ cmd.todo = [] ∧ cmd.skips = [] ∧ cmd.bads = [] ∧ cmd.dst = [(p, .spad u off n)] ∧
      p + n ≤ b.length ∧ s.lineWriter cmd.id (u, line) = false :=
  ⟨⟨0, 1, [2], engines, team0 engines, by decide +kernel⟩,
    ⟨0, 0, 0, 0, 2, engines, team0 engines, engine 0, [5#8, 6#8], by decide +kernel, by decide +kernel, by decide +kernel,
      rfl, rfl, rfl, rfl, rfl, by decide +kernel⟩⟩

theorem witness_EngineEvents_turns :
    (∀ i ∈ ([.evCopyComplete 2, .evGatherResult 8] : List Instr), ∃ (cmd : EngCmd) (s : State) (pos : Nat) (q : Piece)
      (l : List (Nat × Piece)), EngineTurn i s cmd ∧ cmd.buf = none ∧ cmd.todo = (pos, q) :: l ∧
      s.pieceWaits cmd q = false) ∧
    (∃ (i : Instr) (cmd : EngCmd) (s : State), EngineTurn i s cmd ∧ cmd.buf = none ∧ cmd.todo = [] ∧ cmd.waiting = 0) ∧
    ∃ (i : Instr) (k : Nat) (s : State) (cmd : EngCmd) (b : List Byte), EngineTurn i s cmd ∧ cmd.buf = some b ∧
      cmd.todo = [] ∧ cmd.lines = [] ∧ cmd.skips = [] ∧ (∀ p ∈ cmd.dst, p.1 + p.2.len ≤ b.length) ∧
      cmd.owned.find? (fun k => !s.sectorWaits cmd k) = some k := by
  refine ⟨fun i hi => ?_, ⟨_, engine 2, engines, engineTurn (by decide +kernel) rfl (.inl ⟨rfl, by decide +kernel⟩), rfl,
      rfl, rfl⟩,
    ⟨_, 2048, engines, engine 3, [5#8], engineTurn (by decide +kernel) rfl (.inr (.inl ⟨rfl, by decide +kernel⟩)), rfl, rfl,
      rfl, rfl, by decide +kernel⟩⟩
  simp only [List.mem_cons, List.not_mem_nil, or_false] at hi
  rcases hi with rfl | rfl
  · exact ⟨engine 1, engines, 0, .mem 0x200000 1 0xFB 0x200000, [],
      engineTurn (by decide +kernel) rfl (.inl ⟨rfl, by decide +kernel⟩), rfl, rfl, by decide +kernel⟩
  · exact ⟨engine 7, engines, 0, .mem 0x300000 1 0xFB 0x300000, [],
      engineTurn (by decide +kernel) rfl (.inr (.inr ⟨rfl, rfl, by decide +kernel⟩)), rfl, rfl, by decide +kernel⟩

theorem witness_EngineEvents_complete :
    (∀ i ∈ ([.evCopyComplete 5, .evScatterComplete 6] : List Instr), ∃ (id status : Nat) (s : State) (cmd : EngCmd),
      ((i = .evCopyComplete id ∧ s.engines.find? (fun z => z.id == id && decide (z.opc < 4)) = some cmd ∧
          status = if cmd.bads ≠ [] then 1 else if cmd.refused = true ∨ cmd.skips ≠ [] then 2 else 0) ∨
        (i = .evScatterComplete id ∧ s.engines.find? (fun z => z.id == id && z.opc == 4) = some cmd ∧ status = 0 ∧
          cmd.tag = 0)) ∧
      cmd.written = true ∧ cmd.queue ≠ 0 ∧ MayReply s cmd) ∧
    ∃ (id : Nat) (s : State) (cmd : EngCmd) (b : List Byte),
      s.engines.find? (fun z => z.id == id && z.opc == 5) = some cmd ∧ cmd.outs = [] ∧ cmd.written = true ∧
      cmd.buf = some b ∧ cmd.bads = [] ∧ (cmd.elem = 4 ∨ cmd.elem = 8) ∧ cmd.queue ≠ 0 ∧ MayReply s cmd := by
  have r : ∀ c ∈ [engine 4, engine 5, engine 6], MayReply engines c := by
    intro c hc
    simp only [List.mem_cons, List.not_mem_nil, or_false] at hc
    rcases hc with rfl | rfl | rfl <;>
      exact ⟨by decide +kernel, ⟨hot engines, by decide +kernel, by decide +kernel, by decide +kernel⟩,
        fun _ => by decide +kernel, by decide +kernel⟩
  refine ⟨?_, ⟨7, engines, engine 6, [5#8], by decide +kernel, rfl, by decide +kernel, rfl, rfl, by decide +kernel,
    by decide +kernel, r _ (by simp)⟩⟩
  intro i hi
  simp only [List.mem_cons, List.not_mem_nil, or_false] at hi
  rcases hi with rfl | rfl
  · exact ⟨5, 1, engines, engine 4, .inl ⟨rfl, by decide +kernel, by decide +kernel⟩, by decide +kernel,
      by decide +kernel, r _ (by simp)⟩
  · exact ⟨6, 0, engines, engine 5, .inr ⟨rfl, by decide +kernel, rfl, by decide +kernel⟩, by decide +kernel,
      by decide +kernel, r _ (by simp)⟩

/-- A bin of core 0 that holds n threads of team 0. -/
def binned (n : Nat) : State :=
  core (fun k => { k with bins := [{ key := some (0, 0x100000), threads := List.replicate n { role := 1, idx := 1 } }] }) one

theorem fits_binned (n : Nat) (e : ((binned n).core 0).bin 0 =
      { key := some (0, 0x100000), threads := List.replicate n { role := 1, idx := 1 } }) (b : n ≤ 32)
    (r : (team0 (binned n)).freeHeat = some 1) (w : (binned n).team? 0 = some (team0 (binned n)))
    (c : (team0 (binned n)).core? = some 0)
    (l : lowSlot (((binned n).coreHeats 0).map (fun h => h.slot)) 1 = some 16)
    (m : rowBytesOf ((binned n).coreHeats 0) + 128 * ((((binned n).core 0).bin 0).threads.headD {}).budget ≤
      ((binned n).core 0).bankBytes) : BinFits (binned n) 0 0 0 1 16 0x100000 :=
  ⟨by decide, by rw [e], by rw [e]; simpa using b, ⟨_, w, c, r⟩, l, m⟩

/-- A launch record with entry 0x100000 and one team, and a record of zeros. -/
def goodRecord : List Byte := toBytes 8 0x100000 ++ toBytes 8 0 ++ toBytes 8 1 ++ toBytes 104 0
def zeroRecord : List Byte := toBytes 128 0

/-- Heat 0 has launched a record and waits for its GRIDID. -/
def launched (r : List Byte) : State :=
  team (fun x => { x with launches := [{ record := r, slot := 5 }] })
    (heat (fun h => { h with slots := [{ dest := .vec 4 1, stamp := 5, waiting := 1 }] }) one)

/-- The record heads queue 5, with and without a counter; another grid heads queue 60. -/
def queued (met : Bool) (wait : Nat) : State :=
  { grid (fun g => { g with record := parseRecord goodRecord, waitAddr := wait, met := met }) one with
    gridQueues := [(5, [1]), (60, if wait = 0 then [2] else [])]
    grids := [(1, { record := parseRecord goodRecord, waitAddr := wait, met := met }),
      (2, { record := { parseRecord goodRecord with csize := 1, teams := 4 } })] }

/-- What is asked of the heads of the queues, from its evaluation. -/
theorem readable {s : State}
    (e : (s.heads.all fun k => match mfind s.grids k with
      | none => true
      | some g => g.waitAddr == 0 || g.met || g.nextTeam != 0 || s.waitReadable g.asid g.waitAddr) = true) :
    HeadsReadable s := by
  intro k hk g hg
  have a := List.all_eq_true.mp e k hk
  rw [hg] at a
  simpa [or_assoc] using a

theorem witness_StarterEvents_bins :
    (∃ (c i u g slot : Nat) (entry : Addr) (s : State), BinFits s c i u g slot entry ∧
      ((s.core c).bin i).threads.length = 32) ∧
    ∃ (c i u g slot : Nat) (entry : Addr) (s : State), BinFits s c i u g slot entry ∧
      ((s.core c).bin i).expires ≤ (s.core c).cycles.toNat ∧ s.binDet ((s.core c).bin i) = false :=
  ⟨⟨0, 0, 0, 1, 16, 0x100000, binned 32, fits_binned 32 (by decide +kernel) (by decide) (by decide +kernel)
      (by decide +kernel) (by decide +kernel) (by decide +kernel) (by decide +kernel), by decide +kernel⟩,
    ⟨0, 0, 0, 1, 16, 0x100000, binned 2, fits_binned 2 (by decide +kernel) (by decide) (by decide +kernel)
      (by decide +kernel) (by decide +kernel) (by decide +kernel) (by decide +kernel), by decide +kernel⟩⟩

theorem witness_StarterEvents_records :
    (∀ b ∈ [goodRecord, zeroRecord], ∃ (u : Nat) (s : State) (x : Team) (h : Heat) (z : Slot) (p : PendLaunch)
      (l : List PendLaunch), p.record = b ∧ u < trapBase ∧ s.team? u = some x ∧ x.launches = p :: l ∧
      s.heat? u p.heat = some h ∧ h.slots = [z] ∧ z.stamp = p.slot ∧ z.waiting ≠ 0 ∧
      ((parseRecord p.record).code ≠ 0 ∨ s.queueFull (parseRecord p.record).queue = false)) ∧
    (parseRecord goodRecord).code = 0 ∧ (parseRecord zeroRecord).code = 1 := by
  refine ⟨?_, by decide +kernel⟩
  intro b hb
  simp only [List.mem_cons, List.not_mem_nil, or_false] at hb
  rcases hb with rfl | rfl
  · exact ⟨0, launched goodRecord, team0 (launched goodRecord), hot (launched goodRecord),
      { dest := .vec 4 1, stamp := 5, waiting := 1 }, { record := goodRecord, slot := 5 }, [], rfl, by decide,
      by decide +kernel, by decide +kernel, by decide +kernel, by decide +kernel, rfl, by decide, .inr (by decide +kernel)⟩
  · exact ⟨0, launched zeroRecord, team0 (launched zeroRecord), hot (launched zeroRecord),
      { dest := .vec 4 1, stamp := 5, waiting := 1 }, { record := zeroRecord, slot := 5 }, [], rfl, by decide,
      by decide +kernel, by decide +kernel, by decide +kernel, by decide +kernel, rfl, by decide, .inl (by decide +kernel)⟩

theorem witness_StarterEvents_queues :
    (∃ (q gid : Nat) (s : State) (g : Grid), HeadsReadable s ∧ (mget [] s.gridQueues q).head? = some gid ∧
      mfind s.grids gid = some g ∧ g.waitAddr ≠ 0 ∧ g.met = true) ∧
    (∃ (q gid : Nat) (s : State) (g : Grid), HeadsReadable s ∧ (mget [] s.gridQueues q).head? = some gid ∧
      mfind s.grids gid = some g ∧ g.waitAddr ≠ 0 ∧ CounterReached s g) ∧
    (∃ (s : State) (e z : Nat × Nat) (l : List (Nat × Nat)), s.dispatchOrder = e :: l ∧ z ∈ l) ∧
    ∀ n ∈ [1, 2], ∃ (q gid : Nat) (s : State) (g : Grid) (l : List (Nat × Nat)) (fs : List Fit), g.record.n = n ∧
      HeadsReadable s ∧ s.dispatchOrder = (q, gid) :: l ∧ mfind s.grids gid = some g ∧
      s.hasPlaces g.asid g.record.n = true ∧
      s.chooseUnit g g.nextTeam [] (fun c => s.fit c g.record g.record.freshHeats) = some fs ∧
      (∀ f ∈ fs, s.poolBroken f.core = false) ∧ s.lowestOut.findSome? s.recallUnit = none ∧
      s.sampleUnit g g.nextTeam = false := by
  let a := queued true 0x200000
  let b := queued false 0x200000
  let c := queued false 0
  let d : State := { c with gridQueues := [(5, [1])] }
  let pick (s : State) (g : Grid) : List Fit :=
    (s.chooseUnit g g.nextTeam [] (fun c => s.fit c g.record g.record.freshHeats)).getD []
  refine ⟨⟨5, 1, a, grid0 a, readable (by decide +kernel), by decide +kernel⟩,
    ⟨5, 1, b, grid0 b, readable (by decide +kernel), by decide +kernel, by decide +kernel, by decide +kernel,
      ⟨0, 0x40000000, 0xFB, by decide +kernel⟩⟩,
    ⟨c, (60, 2), (5, 1), [(5, 1)], by decide +kernel⟩, ?_⟩
  intro n hn
  simp only [List.mem_cons, List.not_mem_nil, or_false] at hn
  rcases hn with rfl | rfl
  · exact ⟨5, 1, d, grid0 d, [], pick d (grid0 d), by decide +kernel, readable (by decide +kernel), by decide +kernel⟩
  · let g : Grid := { record := { parseRecord goodRecord with csize := 1, teams := 4 } }
    exact ⟨60, 2, c, g, [(5, 1)], pick c g, by decide +kernel, readable (by decide +kernel), by decide +kernel⟩

/-- Team 0 has nothing more to do; its grid has n teams. -/
def done (n : Nat) : State :=
  grid (fun g => { g with record := { g.record with teams := n, done := 0x200000 }, tag := some 7 })
    (team (fun x => { x with body := { x.body with heats := [], seq := {} } }) one)

/-- Two members of a population stand at an RSMP. -/
def gathering : State :=
  grid (fun g => { g with record := { g.record with pop := true, teams := 1 }, nextTeam := 1, gathering := [
      { lane := 0, weight := 0x3F800000#32, count := 2 }, { lane := 1, count := 2, u := some 3 }] })
    (heat (fun h => { h with lanes := [(0, { live := true, member := true, park := .rsmp }),
      (1, { live := true, member := true, lineage := 1#64, park := .rsmp })] }) one)

theorem witness_StarterEvents_teams :
    (∃ (u c : Nat) (s : State) (x : Team), s.team? u = some x ∧ x.started = false ∧ x.core? = some c ∧
      u ∈ x.cluster) ∧
    (∃ (u : Nat) (s : State) (x : Team) (g : Grid), s.runs u = true ∧ s.team? u = some x ∧ s.teamDone u x = true ∧
      x.cluster = [u] ∧ x.deferred = [] ∧ (∀ e ∈ x.body.seq.hmem, e.1 < 256) ∧ x.checks = none ∧
      x.checker = none ∧ mfind s.grids x.grid = some g ∧
      g.finished.length + 1 < g.record.teams) ∧
    (∃ (u pa : Nat) (s : State) (x : Team) (g : Grid), s.runs u = true ∧ s.team? u = some x ∧ s.teamDone u x = true ∧
      x.cluster = [u] ∧ x.deferred = [] ∧ (∀ e ∈ x.body.seq.hmem, e.1 < 256) ∧ x.checks = none ∧
      x.checker = none ∧ mfind s.grids x.grid = some g ∧
      g.finished.length + 1 = g.record.teams ∧ g.record.done ≠ 0 ∧ g.status = 0 ∧ s.doneAdd g = .at pa ∧
      g.tag = some 7#32) ∧
    ∃ (gid : Nat) (s : State) (g : Grid) (c : Context), mfind s.grids gid = some g ∧ s.gathered gid g = true ∧
      s.ctx? g.asid = some c ∧ c.logLen = 0 ∧
      (∀ m ∈ s.memberList g, m.issue.count = (g.outcome (s.memberList g)).n) ∧
      (g.outcome (s.memberList g)).n -
        ((g.outcome (s.memberList g)).counts.filter (fun e => decide (e.2 ≠ 0))).length ≤ s.cloneRoom gid g ∧
      (g.gathering.map (fun r => (r.team, r.heat, r.lane))).Nodup ∧
      ∀ r ∈ g.gathering, r.team < trapBase ∧ r.lane < 32 ∧ (∀ n, r.u = some n → n < 2 ^ 53) ∧
        ∃ h, s.heat? r.team r.heat = some h ∧ (h.lane r.lane).live = true ∧ (h.lane r.lane).park = .rsmp := by
  let a := team (fun x => { x with started := false }) one
  refine ⟨⟨0, 0, a, team0 a, by decide +kernel⟩,
    ⟨0, done 2, team0 (done 2), grid0 (done 2), by decide +kernel⟩,
    ⟨0, 0x200000, done 1, team0 (done 1), grid0 (done 1), by decide +kernel⟩,
    ⟨1, gathering, grid0 gathering, context0 gathering, by decide +kernel, by decide +kernel, by decide +kernel,
      by decide +kernel, by decide +kernel, by decide +kernel, by decide +kernel, ?_⟩⟩
  have g : (grid0 gathering).gathering = [{ lane := 0, weight := 0x3F800000#32, count := 2 },
    { lane := 1, count := 2, u := some 3 }] := by decide +kernel
  rw [g]
  intro r hr
  simp only [List.mem_cons, List.not_mem_nil, or_false] at hr
  rcases hr with rfl | rfl
  · exact ⟨by decide, by decide, by simp, hot gathering, by decide +kernel⟩
  · refine ⟨by decide, by decide, ?_, hot gathering, by decide +kernel⟩
    intro n hn
    obtain rfl := Option.some.inj hn
    decide

/-- The same two members name different target counts; and one count for which there is no room. -/
def gatheringOf (n m : Nat) : State :=
  grid (fun g => { g with gathering := [
      { lane := 0, weight := 0x3F800000#32, count := n }, { lane := 1, count := m, u := some 3 }] }) gathering

theorem witness_StarterEvents_failed (n : Nat) (m : Nat) (reason : Nat)
    (hc : (n, m, reason) = (2, 3, 4) ∨ (n, m, reason) = (0x200000, 0x200000, 6)) :
    ∃ (gid : Nat) (s : State) (g : Grid), mfind s.grids gid = some g ∧ s.gathered gid g = true ∧
      (let o := g.outcome (s.memberList g)
       ((∃ m ∈ s.memberList g, m.issue.count ≠ o.n) ∧ reason = 4) ∨
        ((∀ m ∈ s.memberList g, m.issue.count = o.n) ∧ reason = 6 ∧
          s.cloneRoom gid g < o.n - (o.counts.filter (fun e => decide (e.2 ≠ 0))).length)) ∧
      (g.gathering.map (fun r => (r.team, r.heat, r.lane))).Nodup ∧
      ∀ r ∈ g.gathering, r.team < trapBase ∧ r.lane < 32 ∧
        ∃ h, s.heat? r.team r.heat = some h ∧ (h.lane r.lane).park = .rsmp := by
  have k : ∀ n m, (grid0 (gatheringOf n m)).gathering = [{ lane := 0, weight := 0x3F800000#32, count := n },
      { lane := 1, count := m, u := some 3 }] := fun _ _ => rfl
  have e : ∀ n m, ∀ r ∈ (grid0 (gatheringOf n m)).gathering, r.team < trapBase ∧ r.lane < 32 ∧
      ∃ h, (gatheringOf n m).heat? r.team r.heat = some h ∧ (h.lane r.lane).park = .rsmp := by
    intro n m r hr
    rw [k] at hr
    simp only [List.mem_cons, List.not_mem_nil, or_false] at hr
    rcases hr with rfl | rfl <;> exact ⟨by simp [trapBase], by simp, hot gathering, rfl, rfl⟩
  rcases hc with hc | hc <;> obtain ⟨rfl, rfl, rfl⟩ := by simpa using hc
  · exact ⟨1, gatheringOf 2 3, grid0 (gatheringOf 2 3), by decide +kernel, by decide +kernel,
      .inl ⟨by decide +kernel, rfl⟩, by decide +kernel, e 2 3⟩
  · exact ⟨1, gatheringOf 0x200000 0x200000, grid0 (gatheringOf 0x200000 0x200000), by decide +kernel, by decide +kernel,
      .inr ⟨by decide +kernel, rfl, by decide +kernel⟩, by decide +kernel, e _ _⟩

/-- Heat 0 waits long for a counter. -/
def waiting : State := heat (fun h => h.setLane 0 { live := true, park := .waitc }) one

/-- Two logical quartets share physical quartet 0, and it is the turn of quartet 1. -/
def sliced (det : Bool) : State :=
  { grid (fun g => { g with record := { g.record with det := det } }) one with
    remap := [(1, 0)], detTurn := [(0, 1)] }

/-- Team 0 is in the shadow bank of core 0, and in its save area. -/
def away : State := core (fun k => { k with shadowBusy := some 0 }) (team (fun x => { x with res := .shadow 0 }) one)
def saved : State := team (fun x => { x with res := .saved }) one

/-- An action is due for team 0, whose lap has stored a byte. -/
def due (n : Nat) : State :=
  grid (fun g => { g with record := { g.record with teams := 2 } })
    (team (fun x => { x with action := n, undo := [(0x300000, 7#8)], lapBody := x.body }) one)

theorem witness_SwapEvents :
    (∃ (u c : Nat) (s : State) (x : Team), s.team? u = some x ∧ x.cluster = [u] ∧ x.core? = some c ∧
      s.unitMayLeave [] u = true ∧ u < trapBase ∧ x.checks = none ∧ x.longPark = true) ∧
    (∃ (u c q : Nat) (l : List Nat) (s : State) (x : Team), s.team? u = some x ∧ x.cluster = [u] ∧ x.core? = some c ∧
      s.unitMayLeave [] u = true ∧ u < trapBase ∧ x.checks = none ∧ s.offTurn q = u :: l) ∧
    (∃ (q : Nat) (s : State), s.offTurn q = [] ∧ s.nextTurn q ≠ s.turnOf q) ∧
    (∃ (c u : Nat) (s : State) (x : Team), (s.core c).shadowBusy = some u ∧ s.team? u = some x ∧
      x.body.badSave = none ∧ ∀ v ∈ s.residents c, ∀ y, s.team? v = some y → y.isOverdue = false) ∧
    (∃ (u c : Nat) (s : State) (x : Team) (g : Grid) (f : Fit), s.team? u = some x ∧ x.cluster = [u] ∧ x.csize = 1 ∧
      x.res = .saved ∧ x.exited = false ∧ x.late = [] ∧ x.restorable = true ∧ x.avoid = none ∧
      mfind s.grids x.grid = some g ∧ g.record.det = false ∧ State.fitBack s s g.record x u c = some f) ∧
    (∃ (u c : Nat) (s : State) (x : Team), s.team? u = some x ∧ x.cluster = [u] ∧ x.core? = some c ∧ x.action = 1 ∧
      x.replaying = false ∧ s.lapQuiet u x = true ∧ x.canRollBack = true ∧ s.mayRelaunch u = true ∧ x.checker = none) ∧
    ∃ (u : Nat) (s : State) (x : Team) (g : Grid), s.team? u = some x ∧ x.cluster = [u] ∧ x.action = 2 ∧
      x.replaying = false ∧ s.lapQuiet u x = true ∧ x.checks = none ∧ x.checker = none ∧ x.teamId ∉ g.finished ∧
      mfind s.grids x.grid = some g ∧ g.finished.length + 1 < g.record.teams := by
  have none0 : away.residents 0 = [] := by decide +kernel
  refine ⟨⟨0, 0, waiting, team0 waiting, by decide +kernel⟩,
    ⟨0, 0, 0, [], sliced true, team0 (sliced true), by decide +kernel⟩,
    ⟨0, sliced false, by decide +kernel⟩,
    ⟨0, 0, away, team0 away, by decide +kernel, by decide +kernel, by decide +kernel, by rw [none0]; simp⟩,
    ⟨0, 1, saved, team0 saved, grid0 saved, (State.fitBack saved saved (grid0 saved).record (team0 saved) 0 1).getD {},
      by decide +kernel⟩,
    ⟨0, 0, due 1, team0 (due 1), by decide +kernel⟩,
    ⟨0, due 2, team0 (due 2), grid0 (due 2), by decide +kernel⟩⟩

/-- A matrix word of two steps on tile 3, at a step. -/
def mma (step : Nat) (granted : Bool) : SeqOpKind := .mma {} 2 false 3 0 0 0 2 step 0 0 granted

/-- The sequencer of team 0 has issued the words of a list. -/
def issued (ops : List SeqOp) : State :=
  team (fun x => { x with body := { x.body with seq := { x.body.seq with ops := ops } } }) one

theorem witness_MatrixEvents_engine :
    (∃ (c r q u : Nat) (o : SeqOp) (s s1 : State), s1 = (s.residents c).foldl State.markReady s ∧
      (∀ v ∈ s.residents c, ∀ x, s.team? v = some x → ∀ p ∈ x.body.seq.ops, p.granted = false) ∧
      (r, q, u, o) ∈ s1.waitingMma c ∧
      ∀ e ∈ s1.waitingMma c, e = (r, q, u, o) ∨ r < e.1 ∨ (r = e.1 ∧ q < e.2.1)) ∧
    (∃ (u c ta tile bt bo steps step sigma : Nat) (f : MmaForm) (keep : Bool) (prof : BitVec 32) (desc : W64)
      (o : SeqOp) (s : State) (x : Team) (g : Grid), s.team? u = some x ∧ x.core? = some c ∧
      s.gridOf x = some g ∧ x.body.seq.nextMma = some o ∧
      o.kind = .mma f ta keep tile prof bt bo steps step desc sigma true ∧ s.engineRuns u = true ∧
      s.mmaReady x.body.seq o = true ∧ x.tilesReady o = true ∧ s.stepBad x o = none ∧ s.stepDiverges x o c = none) ∧
    (∀ n : Bool, ∃ (u c : Nat) (o : SeqOp) (s : State) (x : Team), u < trapBase ∧ s.team? u = some x ∧
      x.core? = some c ∧ x.checks = none ∧ x.body.seq.nextMma = some o ∧ o.granted = true ∧ s.engineRuns u = true ∧
      s.mmaReady x.body.seq o = true ∧ x.tilesReady o = true ∧ (s.core c).frozen = none ∧
      if n then ∃ code, s.stepBad x o = some code
      else s.stepBad x o = none ∧ ∃ info, s.stepDiverges x o c = some info) ∧
    ∃ (u : Nat) (o : SeqOp) (s : State) (x : Team), s.team? u = some x ∧
      x.body.seq.ops.find? (fun p => p.kind.isMma) = some o ∧ o.kind.allStarted = true := by
  let a := issued [{ stamp := 4, kind := mma 0 false }]
  let b := issued [{ stamp := 4, kind := mma 1 true }]
  let poor := team (fun x => { x with body := { x.body with badTiles := [3] } }) b
  let wrong := core (fun k => { k with flips := [{ reason := 4, index := 65, bits := 0x40000000 }] }) b
  let c := issued [{ stamp := 4, kind := mma 2 false }]
  refine ⟨⟨0, 0, 0, 0, { stamp := 4, kind := mma 0 false, readyAt := some 0 }, a, _, rfl, ?_, by decide +kernel⟩,
    ⟨0, 0, 2, 3, 0, 0, 2, 1, 0, {}, false, 0, 0, { stamp := 4, kind := mma 1 true }, b, team0 b, grid0 b, by decide +kernel,
      by decide +kernel, by decide +kernel, by decide +kernel, rfl, by decide +kernel⟩, ?_,
    ⟨0, { stamp := 4, kind := mma 2 false }, c, team0 c, by decide +kernel⟩⟩
  case refine_2 =>
    intro n
    cases n
    · have e : ∃ info, wrong.stepDiverges (team0 wrong) { stamp := 4, kind := mma 1 true } 0 = some info :=
        Option.isSome_iff_exists.mp (by decide +kernel)
      exact ⟨0, 0, { stamp := 4, kind := mma 1 true }, wrong, team0 wrong, by decide, by decide +kernel, by decide +kernel, rfl,
        by decide +kernel, rfl, by decide +kernel, by decide +kernel, by decide +kernel, by decide +kernel, by decide +kernel, e⟩
    · have e : ∃ code, poor.stepBad (team0 poor) { stamp := 4, kind := mma 1 true } = some code := ⟨2, by decide +kernel⟩
      exact ⟨0, 0, { stamp := 4, kind := mma 1 true }, poor, team0 poor, by decide, by decide +kernel, by decide +kernel, rfl,
        by decide +kernel, rfl, by decide +kernel, by decide +kernel, by decide +kernel, by decide +kernel, e⟩
  intro v hv x hx p hp
  have r : a.residents 0 = [0] := by decide +kernel
  rw [r] at hv
  obtain rfl := List.mem_singleton.mp hv
  have t : a.team? 0 = some (team0 a) := by decide +kernel
  rw [t] at hx
  obtain rfl := Option.some.inj hx
  have q : (team0 a).body.seq.ops = [{ stamp := 4, kind := mma 0 false }] := by decide +kernel
  rw [q] at hp
  obtain rfl := List.mem_singleton.mp hp
  rfl

/-- The bytes that a load reads, and an element of an accumulator that a store writes. -/
def tilePlace : List (Nat × Piece) := [(0, .mem 0x200000 4096 0xFB 0x200000)]
def outPlace : List (Nat × Piece) := [(0, .mem 0x200000 16384 0xFB 0x200000)]

theorem witness_MatrixEvents_words :
    (∃ (u k tile c : Nat) (o : SeqOp) (s : State) (x : Team), s.team? u = some x ∧ x.core? = some c ∧
      x.op? k = some o ∧ s.mayLand x o = true ∧ x.loggedTile o = none ∧ s.placesBad o.places = false ∧
      x.checks = none ∧ x.checker = none ∧ o.kind = .tileLoad tile 0 ∧ (s.placesBytes o.places).length = 4096) ∧
    (∃ (u k tile c : Nat) (o : SeqOp) (s : State) (x : Team), s.team? u = some x ∧ x.core? = some c ∧
      x.op? k = some o ∧ s.mayLand x o = true ∧ x.loggedTile o = none ∧ s.placesBad o.places = false ∧
      x.checks = none ∧ x.checker = none ∧ o.kind = .accLoad tile) ∧
    (∀ j ∈ ([.accStore 3, .axpy 3 1#32 true, .axpy 3 1#32 false, .red 3] : List SeqOpKind),
      ∃ (u k pa n leaf va : Nat) (o : SeqOp) (s : State) (x : Team), o.kind = j ∧ s.team? u = some x ∧ x.op? k = some o ∧
        o.kind.writesOut = true ∧ x.tilesReady o = true ∧ x.badTile o = false ∧ x.checks = none ∧
        placeAt o.places (drainSize o.kind * o.written) = some (.mem pa n leaf va) ∧
        s.rangeWaits pa (drainSize o.kind) = false ∧ s.bytesBad pa (drainSize o.kind) = false) ∧
    (∃ (u k tile g row : Nat) (o : SeqOp) (s : State) (x : Team) (h : Heat), u < trapBase ∧ s.team? u = some x ∧
      x.op? k = some o ∧ o.kind = .drain tile g row ∧ x.tilesReady o = true ∧ x.core?.isSome = true ∧
      x.badTile o = false ∧ x.heat? g = some h ∧ h.ended = false ∧ h.born ≤ o.stamp ∧ (h.queue 7).length < Config.queueDepth) ∧
    (∃ (u k tile n : Nat) (o : SeqOp) (s : State) (x : Team), s.team? u = some x ∧ x.op? k = some o ∧
      o.kind = .zacc tile n ∧ x.tilesReady o = true) ∧
    ∃ (u n : Nat) (s : State) (x : Team), s.team? u = some x ∧ n ∈ x.restoringTiles := by
  let a := issued [{ stamp := 4, kind := .tileLoad 15 0, places := tilePlace }]
  let b := issued [{ stamp := 4, kind := .accLoad 3, places := outPlace }]
  let d := issued [{ stamp := 4, kind := .drain 3 0 63 }]
  let z := issued [{ stamp := 4, kind := .zacc 3 2 }]
  let r := team (fun x => { x with restoringTiles := [0, 1] }) one
  refine ⟨⟨0, 4, 15, 0, { stamp := 4, kind := .tileLoad 15 0, places := tilePlace }, a, team0 a, by
      decide +kernel⟩,
    ⟨0, 4, 3, 0, { stamp := 4, kind := .accLoad 3, places := outPlace }, b, team0 b, by
      decide +kernel⟩, ?_,
    ⟨0, 4, 3, 0, 63, { stamp := 4, kind := .drain 3 0 63 }, d, team0 d, hot d, by decide, by decide +kernel,
      by decide +kernel, rfl, by decide +kernel⟩,
    ⟨0, 4, 3, 2, { stamp := 4, kind := .zacc 3 2 }, z, team0 z, by decide +kernel, by decide +kernel, rfl,
      by decide +kernel⟩,
    ⟨0, 1, r, team0 r, by decide +kernel⟩⟩
  intro j hj
  let o : SeqOp := { stamp := 4, kind := j, places := outPlace, written := 4095 }
  refine ⟨0, 4, 0x200000 + drainSize j * 4095, 16384 - drainSize j * 4095, 0xFB, 0x200000 + drainSize j * 4095, o,
    issued [o], team0 (issued [o]), rfl, ?_⟩
  simp only [List.mem_cons, List.not_mem_nil, or_false] at hj
  rcases hj with rfl | rfl | rfl | rfl <;> decide +kernel

/-- The words of an all-reduce of one FP32 element in group 0, and its record. -/
def collWords : List W64 := [0x200000#64, 0x200040#64, 1#64, 0x50000#64]
def collRecord : CopyRec :=
  { id := 7, coll := true, src := [(0, .mem 0x200000 4 0xFB 0x200000)], dst := [(0, .mem 0x200040 4 0xFB 0x200040)] }

/-- Group 0 of two members, devices 3 and 4, this one the first; heat 0 has pushed the command; a port is up;
collectives of the group, and the engine's command. -/
def grouped (cs : List CollCmd) (cmd : EngCmd) : State :=
  let s := heat (fun h => { h with
      copies := [collRecord]
      queues := [(4, [{ id := 7, vals := (List.range 4).map (fun i => (i, collWords.getD i 0#64)) }])] }) one
  { s with
    mem := writeNat s.mem 0x280000 4 0x40003
    groups := [(0, { mlist := 0x280000, limit := 1, self := 0, m := 2, valid := true })]
    portsUp := [2]
    collWait := [{ group := 0 }]
    colls := cs
    engines := [cmd] }

/-- The bytes that both members send. -/
def oneF32 : List Byte := [0#8, 0#8, 0x80#8, 0x3F#8]

/-- The command as accepted, with the sources of a list of members and with verdicts. -/
def accepted (ms : List Nat) (vs : List (Nat × Nat)) (done : Option Nat) : CollCmd :=
  { accepted := true, words := collWords, id := 7, parts := ms.map (fun m => (m, collWords, oneF32)), verdicts := vs
    done := done }

/-- The engine's command: nothing read, its source read, and its destination to write or written. -/
def collNew : EngCmd := { id := 7, opc := 6, todo := collRecord.src, src := collRecord.src, dst := collRecord.dst }
def collRead : EngCmd := { collNew with todo := [], buf := some oneF32 }
def collOwner (owned : List Nat) : EngCmd := { collRead with owned := owned }

/-- The engine's command of the first collective of `grouped`. -/
theorem groupedEngine {cs : List CollCmd} {cmd : EngCmd} {c : CollCmd}
    (e : [cmd].find? (fun e => e.id == c.id && e.opc == 6) = some cmd) (a : cmd.team = c.team ∧ cmd.lines = [])
    (t : c.team = 0) : CollEngine (grouped cs cmd) c cmd := by
  refine ⟨e, a.1, a.2, fun x hx => ?_⟩
  have b : (grouped cs cmd).team? 0 = some (team0 (grouped [] {})) := by
    show (grouped [] {}).team? 0 = _
    decide +kernel
  rw [t, b] at hx
  obtain rfl := Option.some.inj hx
  decide +kernel

/-- The only collective is the first of its group. -/
theorem firstOf {c : CollCmd} {cmd : EngCmd} (g : c.group = 0) (a : c.accepted = true) : FirstOf (grouped [c] cmd) 0 c :=
  ⟨List.mem_singleton.mpr rfl, g, a, fun _ h _ _ => .inl (List.mem_singleton.mp h)⟩

theorem witness_CollectiveEvents_accept :
    ∃ (u g : Nat) (s : State) (h : Heat) (e : QEntry) (rest : List QEntry), u < trapBase ∧ s.heat? u g = some h ∧
      h.queue 4 = e :: rest ∧ (∀ z ∈ rest, z.id ≠ e.id) ∧
      let w := (List.range 4).map (fun i => mget 0#64 e.vals i)
      let n := ((w.getD 2 0#64).extractLsb' 48 8).toNat
      let k := mget 0 s.collNext n
      ∀ c ∈ s.colls, c.group ≠ n ∨ c.k ≠ k :=
  let a := grouped [] {}
  ⟨0, 0, a, hot a, _, [], by decide, by decide +kernel, rfl, by simp, fun _ h => nomatch h⟩

/-- The place of group 0's member list in `grouped` that device 4 stands at. -/
theorem namedOne {cs : List CollCmd} {cmd : EngCmd} (l : listedDevice (grouped cs cmd) (mget {} (grouped cs cmd).groups 0) 1 = 4) :
    let s := grouped cs cmd
    let g := mget {} s.groups 0
    let named := fun m => g.valid = true ∧ m < g.m ∧ m ≠ g.self ∧ listedDevice s g m = 4
    named 1 ∧ ∀ j, named j → 1 ≤ j :=
  ⟨⟨rfl, (by decide : 1 < 2), (by decide : 1 ≠ 0), l⟩, fun _ h => Nat.pos_of_ne_zero h.2.2.1⟩

theorem witness_CollectiveEvents_messages :
    (∃ (n d : Nat) (s : State), let g := mget {} s.groups n
      s.fabricUp = true ∧ ∀ m, ¬ (g.valid = true ∧ m < g.m ∧ m ≠ g.self ∧ listedDevice s g m = d)) ∧
    (∃ (n k d m : Nat) (words : List W64) (s : State), let g := mget {} s.groups n
      let named := fun m => g.valid = true ∧ m < g.m ∧ m ≠ g.self ∧ listedDevice s g m = d
      s.fabricUp = true ∧ (named m ∧ ∀ j, named j → m ≤ j) ∧
      (∀ c ∈ s.colls, c.group ≠ n ∨ c.k ≠ k) ∧ mget 0 s.collNext n ≤ k ∧ words.length ≠ 1) ∧
    (∀ ms ∈ [[0], [0, 1]], ∃ (n k d m : Nat) (words : List W64) (s : State) (c : CollCmd), let g := mget {} s.groups n
      let named := fun m => g.valid = true ∧ m < g.m ∧ m ≠ g.self ∧ listedDevice s g m = d
      s.fabricUp = true ∧ (named m ∧ ∀ j, named j → m ≤ j) ∧
      s.colls.find? (fun x => x.group == n && x.k == k) = some c ∧ c.done = none ∧ words.length ≠ 1 ∧
      c.parts.map (fun p => p.1) = ms) ∧
    (∃ (n k d m v : Nat) (words : List W64) (s : State) (c : CollCmd), let g := mget {} s.groups n
      let named := fun m => g.valid = true ∧ m < g.m ∧ m ≠ g.self ∧ listedDevice s g m = d
      s.fabricUp = true ∧ (named m ∧ ∀ j, named j → m ≤ j) ∧
      s.colls.find? (fun x => x.group == n && x.k == k) = some c ∧ c.done = none ∧ words = [BitVec.ofNat 64 v] ∧ v < 16 ∧
      ∀ x ∈ c.verdicts, x.1 ≠ m) ∧
    (∃ (n : Nat) (s : State), s.fabricUp = true ∧ ∃ m ∈ s.collWait, m.group = n) ∧
    ∃ (n : Nat) (s : State) (c : CollCmd), let g := mget {} s.groups n
      s.fabricUp = true ∧ s.colls.find? (fun c => c.group == n && c.accepted && c.done.isNone &&
        !(othersOf g).all (fun m => c.verdicts.any (fun v => v.1 == m) || c.parts.any (fun p => p.1 == m))) = some c :=
  let a := grouped [] {}
  let b := grouped [accepted [0] [] none] collRead
  let d := grouped [accepted [0, 1] [(0, 0)] none] collRead
  ⟨⟨0, 5, a, by decide +kernel, fun m h =>
      (show ∀ m < 2, listedDevice a (mget {} a.groups 0) m ≠ 5 by decide +kernel) m h.2.1 h.2.2.2⟩,
    ⟨0, 0, 4, 1, [], a, by decide +kernel, namedOne (by decide +kernel), by decide +kernel⟩,
    fun ms hm => by
      simp only [List.mem_cons, List.not_mem_nil, or_false] at hm
      rcases hm with rfl | rfl
      · exact ⟨0, 0, 4, 1, [], b, accepted [0] [] none, by decide +kernel, namedOne (by decide +kernel), by decide +kernel,
          rfl, by decide, rfl⟩
      · exact ⟨0, 0, 4, 1, [], d, accepted [0, 1] [(0, 0)] none, by decide +kernel, namedOne (by decide +kernel),
          by decide +kernel, rfl, by decide, rfl⟩,
    ⟨0, 0, 4, 1, 3, _, d, accepted [0, 1] [(0, 0)] none, by decide +kernel, namedOne (by decide +kernel),
      by decide +kernel, rfl, rfl, by decide +kernel⟩,
    ⟨0, a, by decide +kernel⟩, ⟨0, b, accepted [0] [] none, by decide +kernel⟩⟩

theorem witness_CollectiveEvents_join :
    (∃ (n : Nat) (s : State) (c : CollCmd) (cmd : EngCmd) (pos : Nat) (q : Piece) (l : List (Nat × Piece)),
      let g := mget {} s.groups n
      FirstOf s n c ∧ CollEngine s c cmd ∧ c.done = none ∧ (∀ v ∈ c.verdicts, v.1 ≠ g.self ∧ (v.2 = 0 ∨ v.2 = 15)) ∧
      (∀ p ∈ c.parts, p.1 ≠ g.self) ∧ cmd.buf = none ∧ cmd.todo = (pos, q) :: l ∧ s.pieceWaits cmd q = false ∧
      s.collMigrates c cmd.src = false ∧ ∃ ps bs, s.collRange (s.collWho c) false c.words s.bindings = .ok ps bs) ∧
    (∃ (n : Nat) (s : State) (c : CollCmd) (cmd : EngCmd) (b : List Byte), let g := mget {} s.groups n
      FirstOf s n c ∧ CollEngine s c cmd ∧ c.done = none ∧ (∀ v ∈ c.verdicts, v.1 ≠ g.self ∧ (v.2 = 0 ∨ v.2 = 15)) ∧
      (∀ p ∈ c.parts, p.1 ≠ g.self) ∧ cmd.buf = some b ∧ cmd.bads = [] ∧ s.fabricUp = true) ∧
    ∃ (n : Nat) (s : State) (c : CollCmd) (cmd : EngCmd), let g := mget {} s.groups n
      FirstOf s n c ∧ CollEngine s c cmd ∧ c.done = none ∧ (∀ v ∈ c.verdicts, v.1 ≠ g.self ∧ (v.2 = 0 ∨ v.2 = 15)) ∧
      (∃ p ∈ c.parts, p.1 = g.self) ∧ g.m ≤ c.parts.length ∧ s.fabricUp = true ∧
      (∀ p ∈ c.parts, collAgree c.words p.2.1 = true) ∧
      ∃ ps bs, s.collRange (s.collWho c) true c.words s.bindings = .ok ps bs := by
  let a := accepted [1] [] none
  let b := accepted [0, 1] [(1, 0)] none
  exact ⟨⟨0, grouped [a] collNew, a, collNew, 0, .mem 0x200000 4 0xFB 0x200000, [], firstOf rfl rfl,
      groupedEngine rfl ⟨rfl, rfl⟩ rfl, rfl, by decide +kernel, by decide +kernel, rfl, rfl, by decide +kernel,
      by decide +kernel, [(0, .mem 0x200000 4 0xFB 0x200000)], [], by decide +kernel⟩,
    ⟨0, grouped [a] collRead, a, collRead, oneF32, firstOf rfl rfl, groupedEngine rfl ⟨rfl, rfl⟩ rfl, rfl, by decide +kernel,
      by decide +kernel, rfl, rfl, by decide +kernel⟩,
    ⟨0, grouped [b] collRead, b, collRead, firstOf rfl rfl, groupedEngine rfl ⟨rfl, rfl⟩ rfl, rfl, by decide +kernel,
      by decide +kernel, by decide +kernel, by decide +kernel, by decide +kernel, [(0, .mem 0x200040 4 0xFB 0x200040)], [],
      by decide +kernel⟩⟩

theorem witness_CollectiveEvents_end :
    (∃ (n k : Nat) (s : State) (c : CollCmd) (cmd : EngCmd), FirstOf s n c ∧ CollEngine s c cmd ∧
      0 < (mget {} s.groups n).m ∧ c.done = some 0 ∧ s.collMigrates c cmd.dst = false ∧ cmd.skips = [] ∧
      cmd.owned.find? (fun k => !s.sectorWaits cmd k) = some k) ∧
    ∀ st ∈ [0, 4], ∃ (n : Nat) (s : State) (c : CollCmd) (cmd : EngCmd), FirstOf s n c ∧ CollEngine s c cmd ∧
      c.done = some st ∧ (st ≠ 0 ∨ cmd.owned = []) ∧
      let q := ((c.words.getD 3 0#64).extractLsb' 16 4).toNat
      q ≠ 0 ∧ MayReply s { cmd with id := c.id, heat := c.heat, queue := q } := by
  let a := accepted [0, 1] [(1, 0), (0, 0)] (some 0)
  let r (st : Nat) (owned : List Nat) : State := grouped [accepted [0, 1] [(1, 0), (0, 0)] (some st)] (collOwner owned)
  refine ⟨⟨0, 2048, r 0 [2048], a, collOwner [2048], firstOf rfl rfl, groupedEngine rfl ⟨rfl, rfl⟩ rfl, by decide +kernel,
    rfl, by decide +kernel, rfl, by decide +kernel⟩, fun st hs => ?_⟩
  simp only [List.mem_cons, List.not_mem_nil, or_false] at hs
  rcases hs with rfl | rfl
  · exact ⟨0, r 0 [], a, collOwner [], firstOf rfl rfl, groupedEngine rfl ⟨rfl, rfl⟩ rfl, rfl, .inr rfl, by decide +kernel,
      by decide, ⟨hot (r 0 []), by decide +kernel, by decide +kernel, by decide +kernel⟩, fun _ => by decide +kernel,
      by decide +kernel⟩
  · exact ⟨0, r 4 [2048], accepted [0, 1] [(1, 0), (0, 0)] (some 4), collOwner [2048], firstOf rfl rfl,
      groupedEngine rfl ⟨rfl, rfl⟩ rfl, rfl, .inl (by decide), by decide +kernel, by decide,
      ⟨hot (r 4 [2048]), by decide +kernel, by decide +kernel, by decide +kernel⟩, fun _ => by decide +kernel,
      by decide +kernel⟩

/-- The page at 0x200000 is exported at offset 0, a range over the end of a page at 2^20, and one over the end of the
mapped addresses at 2^21; a port is up; requests of heat 0 and of an engine are out. -/
def exporting : State :=
  { one with
    portsUp := [2]
    exports := [(3, { vabase := 0x200000, len := 0x10000, valid := true }),
      (4, { offbase := 0x100000, vabase := 0x20FFFE, len := 0x10000, valid := true }),
      (5, { offbase := 0x200000, vabase := 0x3FFFFFFE, len := 0x10000, valid := true })]
    fabric := [
      { id := 1, dev := 5, size := 4, lane := 31 }, { id := 2, dev := 5, size := 32, lane := 32, pos := 3 },
      { id := 3, dev := 5, size := 4, isStore := true, data := some [1#8, 2#8, 3#8, 4#8] },
      { id := 4, dev := 5, size := 2, engine := true, stamp := 40 },
      { id := 5, dev := 5, size := 4, engine := true, isStore := true, stamp := 40 },
      { id := 6, dev := 5, size := 4, engine := true, retry := true }, { id := 7, dev := 5, size := 4, retry := true }]
    engines := [{ id := 40, waiting := 2 }] }

theorem witness_FabricEvents_arrivals :
    (∃ s : State, s.fabricUp = false) ∧
    (∀ w ∈ [false, true], ∃ (off n r : Nat) (s : State), s.fabricUp = true ∧
      s.arrival off n (if w then .write else .read) = .refuse r) ∧
    (∃ (off n a : Nat) (s : State) (ps : List (Nat × Nat)), s.fabricUp = true ∧ s.arrival off n .read = .ok ps a ∧
      ∀ p ∈ ps, s.rangeWaits p.1 p.2 = false ∧ s.bytesBad p.1 p.2 = false) ∧
    (∃ (off n a : Nat) (data : List Byte) (s : State) (ps : List (Nat × Nat)), s.fabricUp = true ∧
      s.arrival off n .write = .ok ps a ∧ data.length = n ∧ ∀ p ∈ ps, s.rangeWaits p.1 p.2 = false) ∧
    ∀ op ∈ List.range 12, ∃ (off asid : Nat) (ps : List (Nat × Nat)) (s : State),
      let n := if 8 ≤ op ∧ op ≤ 10 then 8 else 4
      s.fabricUp = true ∧ op < 12 ∧ off % n = 0 ∧ s.arrival off n .write = .ok ps asid ∧
      ∀ p ∈ ps, s.rangeWaits p.1 p.2 = false ∧ s.bytesBad p.1 p.2 = false := by
  refine ⟨⟨one, by decide +kernel⟩, ?_,
    ⟨0x100000, 4, 0, exporting, [(0x20FFFE, 2), (0x210000, 2)], by decide +kernel⟩,
    ⟨0, 2, 0, [1#8, 2#8], exporting, [(0x200000, 2)], by decide +kernel⟩, ?_⟩
  · intro w _
    exact ⟨0xFFFE, 4, 1, exporting, by decide +kernel, by cases w <;> decide +kernel⟩
  · intro op h
    refine ⟨0x40, 0, if 8 ≤ op ∧ op ≤ 10 then [(0x200040, 8)] else [(0x200040, 4)], exporting, ?_⟩
    revert op
    decide +kernel

theorem witness_FabricEvents_pages :
    (∃ (off n : Nat) (s : State), ∀ e ∈ s.exports, e.2.valid = false ∨ off < e.2.offbase ∨
      e.2.offbase + e.2.len < off + n) ∧
    (∃ (off n i : Nat) (s : State) (e : ExpEntry),
      s.exports.find? (fun e => e.2.valid && decide (e.2.offbase ≤ off ∧ off + n ≤ e.2.offbase + e.2.len)) = some (i, e) ∧
      ∀ c, s.ctx? e.asid = some c → c.removing = true) ∧
    (∃ (off n i : Nat) (s : State) (e : ExpEntry) (c : Context) (pages : List (Nat × Nat)),
      s.exports.find? (fun e => e.2.valid && decide (e.2.offbase ≤ off ∧ off + n ≤ e.2.offbase + e.2.len)) = some (i, e) ∧
      s.ctx? e.asid = some c ∧ c.removing = false ∧ PageCut (e.vabase + (off - e.offbase)) n pages ∧
      ∀ p ∈ pages, pageRefusal s e.asid .read p.1 = none) ∧
    ∃ (off n i v m r : Nat) (s : State) (e : ExpEntry) (c : Context) (l l' : List (Nat × Nat)),
      s.exports.find? (fun e => e.2.valid && decide (e.2.offbase ≤ off ∧ off + n ≤ e.2.offbase + e.2.len)) = some (i, e) ∧
      s.ctx? e.asid = some c ∧ c.removing = false ∧ PageCut (e.vabase + (off - e.offbase)) n (l ++ (v, m) :: l') ∧
      (∀ p ∈ l, pageRefusal s e.asid .read p.1 = none) ∧ pageRefusal s e.asid .read v = some r :=
  ⟨⟨0xFFFE, 4, exporting, by decide +kernel⟩,
    ⟨0, 4, 3, { exporting with contexts := [] }, { vabase := 0x200000, len := 0x10000, valid := true }, by decide +kernel,
      fun c h => by simp [State.ctx?, mfind] at h⟩,
    ⟨0x100000, 4, 4, exporting, { offbase := 0x100000, vabase := 0x20FFFE, len := 0x10000, valid := true },
      context0 exporting, [(0x20FFFE, 2), (0x210000, 2)], by decide +kernel, by decide +kernel, by decide +kernel,
      .cons _ 2 2 _ (by decide) (by decide) (.cons _ 2 0 _ (by decide) (by decide) (.nil _)), by decide +kernel⟩,
    ⟨0x200000, 4, 5, 0x40000000, 2, 2, exporting, { offbase := 0x200000, vabase := 0x3FFFFFFE, len := 0x10000, valid := true },
      context0 exporting, [(0x3FFFFFFE, 2)], [], by decide +kernel, by decide +kernel, by decide +kernel,
      .cons _ 2 2 _ (by decide) (by decide) (.cons _ 2 0 _ (by decide) (by decide) (.nil _)), by decide +kernel⟩⟩

theorem witness_FabricEvents_answers :
    (∀ id ∈ [1, 2, 3], ∃ (data : List Byte) (s : State) (q : FabReq) (x : Team) (h : Heat), s.fabricUp = true ∧
      s.fabSent id = some q ∧ q.engine = false ∧ q.team < trapBase ∧ s.team? q.team = some x ∧ x.checker = none ∧
      s.heat? q.team q.heat = some h ∧
      (if id = 1 then q.isStore = false ∧ q.lane < 32 ∧ data.length = q.size
        else if id = 2 then q.isStore = false ∧ 32 ≤ q.lane ∧ data.length = q.size else q.isStore = true)) ∧
    (∀ id ∈ [4, 5], ∃ (data : List Byte) (s : State) (q : FabReq), s.fabricUp = true ∧ s.fabSent id = some q ∧
      q.engine = true ∧ (q.isStore = true ∨ data.length = q.size)) ∧
    (∀ id ∈ [6, 7], ∃ (s : State) (q : FabReq), s.fabricUp = true ∧ q ∈ s.fabric ∧ q.id = id ∧ q.retry = true ∧
      (q.engine = true ∨ ∃ x, s.team? q.team = some x ∧ (x.res ≠ .saved ∨ q.isStore = true))) ∧
    (∀ i ∈ ([.evFabricResponse 1 6 [], .evFabricAccessTimeout 1] : List Instr),
      ∃ (id reason c : Nat) (data : List Byte) (s : State) (q : FabReq) (x : Team),
      ((i = .evFabricResponse id reason data ∧ 1 ≤ reason ∧ reason ≤ 6 ∧ s.fabricUp = true) ∨
        (i = .evFabricAccessTimeout id ∧ reason = 8)) ∧
      s.fabSent id = some q ∧ q.engine = false ∧ q.team < trapBase ∧ s.team? q.team = some x ∧ x.checker = none ∧
      x.checks = none ∧ x.core? = some c ∧ (s.core c).frozen = none) ∧
    ∀ i ∈ ([.evFabricResponse 4 1 [], .evFabricAccessTimeout 5] : List Instr),
      ∃ (id reason : Nat) (data : List Byte) (s : State) (q : FabReq),
      ((i = .evFabricResponse id reason data ∧ 1 ≤ reason ∧ reason ≤ 6 ∧ s.fabricUp = true) ∨
        (i = .evFabricAccessTimeout id ∧ reason = 8)) ∧ s.fabSent id = some q ∧ q.engine = true := by
  let q (n : Nat) : FabReq := exporting.fabric.getD n {}
  refine ⟨?_, ?_, ?_, ?_, ?_⟩ <;> intro i h <;> simp only [List.mem_cons, List.not_mem_nil, or_false] at h
  · rcases h with rfl | rfl | rfl
    · exact ⟨List.replicate 4 0#8, exporting, q 0, team0 exporting, hot exporting, by decide +kernel⟩
    · exact ⟨List.replicate 32 0#8, exporting, q 1, team0 exporting, hot exporting, by decide +kernel⟩
    · exact ⟨[], exporting, q 2, team0 exporting, hot exporting, by decide +kernel⟩
  · rcases h with rfl | rfl
    · exact ⟨[1#8, 2#8], exporting, q 3, by decide +kernel⟩
    · exact ⟨[], exporting, q 4, by decide +kernel⟩
  · rcases h with rfl | rfl
    · exact ⟨exporting, q 5, by decide +kernel, by decide +kernel, by decide +kernel, by decide +kernel,
        .inl (by decide +kernel)⟩
    · exact ⟨exporting, q 6, by decide +kernel, by decide +kernel, by decide +kernel, by decide +kernel,
        .inr ⟨team0 exporting, by decide +kernel, .inl (by decide +kernel)⟩⟩
  · rcases h with rfl | rfl
    · exact ⟨1, 6, 0, [], exporting, q 0, team0 exporting, .inl ⟨rfl, by decide +kernel⟩,
        by decide +kernel⟩
    · exact ⟨1, 8, 0, [], exporting, q 0, team0 exporting, .inr ⟨rfl, rfl⟩, by decide +kernel⟩
  · rcases h with rfl | rfl
    · exact ⟨4, 1, [], exporting, q 3, .inl ⟨rfl, by decide +kernel⟩, by decide +kernel⟩
    · exact ⟨5, 8, [], exporting, q 4, .inr ⟨rfl, rfl⟩, by decide +kernel⟩

/-- The owner has a stream of requester (7, 0): serial 1 is kept, 2 is next; grid queue 0 has room, and a good launch
record stands at 0x200100. -/
def owner : State :=
  { one with
    portsUp := [2]
    exports := [(3, { vabase := 0x200000, len := 0x10000, valid := true })]
    owners := [(7168, { e := 2, cache := [(1, 0, 0, 5)] })]
    mem := writeBytes one.mem 0x200100 (toBytes 8 0x100000 ++ toBytes 8 0 ++ toBytes 8 1) }

/-- A request of that stream. -/
def request (op : Nat) (serial : W32) (off : Nat) : Packet := { op := op, srcdev := 7, serial := serial, offset := off, x := 9 }

/-- An access that is well translated is not waited for when nothing waits. -/
theorem noWait {s : State} {off n : Nat} {k : Access} {r : Arrival} (e : s.arrival off n k = r)
    (w : (match r with
      | .ok ps _ => ps.any (fun p => s.rangeWaits p.1 p.2)
      | _ => false) = false) :
    ∀ ps a, s.arrival off n k = .ok ps a → ∀ p ∈ ps, s.rangeWaits p.1 p.2 = false := by
  intro ps a h p hp
  rw [e] at h
  subst h
  exact Bool.eq_false_iff.mpr (List.any_eq_false.mp w p hp)

theorem witness_RelayEvents_owner :
    (∀ op ∈ List.range 8, ∃ (p : Packet) (s : State) (r : OwnerRec) (ps : List (Nat × Nat)) (a : Nat), p.op = op ∧ s.fabricUp = true ∧ PacketOk 1 p ∧
      p.oinc = s.incarnation ∧ mfind s.owners (1024 * p.srcdev + p.asid) = some r ∧ p.srcinc = r.srcinc ∧ p.cgen = r.cgen ∧
      p.ackthr = r.a ∧ before r.a p.serial = true ∧ p.serial = r.e ∧ r.held = [] ∧ s.cacheCount < 4194304 ∧
      s.arrival p.offset (if p.op = 7 then 128 else remoteSize p.op) (if p.op = 7 then .read else .write) = .ok ps a ∧
      ∀ e ∈ ps, s.rangeWaits e.1 e.2 = false ∧ s.bytesBad e.1 e.2 = false) ∧
    (∀ off ∈ [0x100, 0x200], (parseRecord (readBytes owner.mem (0x200000 + off) 128)).code = if off = 0x100 then 0 else 1) ∧
    (∃ (p : Packet) (s : State) (r : OwnerRec), s.fabricUp = true ∧ PacketOk 1 p ∧ p.oinc = s.incarnation ∧
      mfind s.owners (1024 * p.srcdev + p.asid) = some r ∧ p.srcinc = r.srcinc ∧ p.cgen = r.cgen ∧ p.ackthr = r.a ∧
      before r.a p.serial = true ∧ p.serial = r.e ∧ r.held = [] ∧ s.cacheCount < 4194304 ∧
      s.arrival p.offset (if p.op = 7 then 128 else remoteSize p.op) (if p.op = 7 then .read else .write) = .refuse 1) ∧
    (∃ (p : Packet) (s : State) (r : OwnerRec) (c : W32 × Nat × Nat × W64), s.fabricUp = true ∧ PacketOk 1 p ∧ p.oinc = s.incarnation ∧
      mfind s.owners (1024 * p.srcdev + p.asid) = some r ∧ p.srcinc = r.srcinc ∧ p.cgen = r.cgen ∧ p.ackthr = r.a ∧
      (∀ ps a, s.arrival p.offset (if p.op = 7 then 128 else remoteSize p.op) (if p.op = 7 then .read else .write) =
        .ok ps a → ∀ e ∈ ps, s.rangeWaits e.1 e.2 = false) ∧
      before r.a p.serial = true ∧ before p.serial r.e = true ∧ r.cache.find? (fun c => c.1 == p.serial) = some c) ∧
    (∃ (p : Packet) (s : State) (r : OwnerRec), s.fabricUp = true ∧ PacketOk 1 p ∧ p.oinc = s.incarnation ∧
      mfind s.owners (1024 * p.srcdev + p.asid) = some r ∧ p.srcinc = r.srcinc ∧ p.cgen = r.cgen ∧ p.ackthr = r.a ∧
      (∀ ps a, s.arrival p.offset (if p.op = 7 then 128 else remoteSize p.op) (if p.op = 7 then .read else .write) =
        .ok ps a → ∀ e ∈ ps, s.rangeWaits e.1 e.2 = false) ∧
      before r.a p.serial = false) ∧
    (∃ (p : Packet) (s : State), s.fabricUp = true ∧ PacketOk 1 p ∧ p.oinc ≠ s.incarnation ∧
      ∀ ps a, s.arrival p.offset (if p.op = 7 then 128 else remoteSize p.op) (if p.op = 7 then .read else .write) =
        .ok ps a → ∀ e ∈ ps, s.rangeWaits e.1 e.2 = false) ∧
    (∃ (p : Packet) (s : State) (r : OwnerRec), s.fabricUp = true ∧ PacketOk 3 p ∧ mfind s.owners (1024 * p.srcdev + p.asid) = some r ∧
      p.srcinc = r.srcinc ∧ p.cgen = r.cgen ∧ before r.a p.ackthr = true) ∧
    ∃ (p : Packet) (s : State) (r : OwnerRec), s.fabricUp = true ∧ PacketOk 4 p ∧ mfind s.owners (1024 * p.srcdev + p.asid) = some r ∧
      p.srcinc = r.srcinc ∧ p.cgen = r.cgen := by
  let o : OwnerRec := { e := 2, cache := [(1, 0, 0, 5)] }
  have t (s : W32) : ∀ ps a, owner.arrival (request 0 s 0x40).offset
      (if (request 0 s 0x40).op = 7 then 128 else remoteSize (request 0 s 0x40).op)
      (if (request 0 s 0x40).op = 7 then .read else .write) = .ok ps a → ∀ e ∈ ps, owner.rangeWaits e.1 e.2 = false :=
    noWait (r := .ok [(0x200040, 8)] 0) (show owner.arrival 0x40 8 .write = .ok [(0x200040, 8)] 0 by decide +kernel)
      (show [(0x200040, 8)].any (fun p : Nat × Nat => owner.rangeWaits p.1 p.2) = false by decide +kernel)
  refine ⟨?_, by decide +kernel,
    ⟨request 0 2 0xFFFFC, owner, o, by decide +kernel, by unfold PacketOk; decide +kernel, by decide +kernel, by decide +kernel,
      by decide +kernel, by decide +kernel, by decide +kernel, by decide +kernel, by decide +kernel, rfl, by decide +kernel⟩,
    ⟨request 0 1 0x40, owner, o, (1, 0, 0, 5), by decide +kernel, by unfold PacketOk; decide +kernel, by decide +kernel, by decide +kernel,
      by decide +kernel, by decide +kernel, by decide +kernel, t 1, by decide +kernel⟩,
    ⟨request 0 0 0x40, owner, o, by decide +kernel, by unfold PacketOk; decide +kernel, by decide +kernel, by decide +kernel, by decide +kernel,
      by decide +kernel, by decide +kernel, t 0, by decide +kernel⟩,
    ⟨{ request 0 2 0x40 with oinc := 1 }, owner, by decide +kernel, by unfold PacketOk; decide +kernel, by decide +kernel, t 2⟩,
    ⟨{ kind := 3, srcdev := 7, ackthr := 1 }, owner, o, by decide +kernel, by unfold PacketOk; decide +kernel, by decide +kernel⟩,
    ⟨{ kind := 4, srcdev := 7 }, owner, o, by decide +kernel, by unfold PacketOk; decide +kernel, by decide +kernel⟩⟩
  intro op h
  let off : Nat := if op = 7 then 0x100 else 0x40
  refine ⟨{ request op 2 off with x := 9 }, owner, o,
    [(0x200000 + off, if op = 7 then 128 else remoteSize op)], 0, rfl, ?_⟩
  revert op
  unfold PacketOk
  decide +kernel

/-- Heat 0 has an operation out to device 5, another behind it, and a close to device 6. -/
def relayOp (retry : Bool) (sends : Nat) : RelayOp := { serial := 1, offset := 64, retry := retry, sends := sends }
def laterOp : RelayOp := { serial := 2, offset := 64, lane := 31 }
def requester (retry : Bool) (sends closes : Nat) : State :=
  context (fun c => { c with streams := [(5, { used := true, next := 3, ops := [relayOp retry sends, laterOp] }),
    (6, { used := true, closes := some closes })] }) { one with portsUp := [2] }

theorem isHead (retry : Bool) (sends closes : Nat) : HeadOp (requester retry sends closes) 0 5
    (context0 (requester retry sends closes)) (relayOp retry sends) [laterOp] := by
  have a (s : State) (x : Team) (h : Heat) (e : (decide (s.team? 0 = some x) && decide (x.asid = 0) &&
      decide (x.core?.isSome = true) && decide (x.checker = none) && decide (x.owesQ6 0 = false) &&
      decide (x.heat? 0 = some h) && decide (h.ended = false) && decide (h.born ≤ 0) && decide ((h.queue 6).length < Config.queueDepth)) = true) :
      ∃ x h, s.team? 0 = some x ∧ x.asid = 0 ∧ x.core?.isSome = true ∧ x.checker = none ∧ x.owesQ6 0 = false ∧
        x.heat? 0 = some h ∧ h.ended = false ∧ h.born ≤ 0 ∧ (h.queue 6).length < Config.queueDepth := by
    simp only [Bool.and_eq_true, decide_eq_true_eq, and_assoc] at e
    exact ⟨x, h, e⟩
  have c : (requester retry sends closes).ctx? 0 = some (context0 (requester retry sends closes)) ∧
      (context0 (requester retry sends closes)).removing = false ∧
      (context0 (requester retry sends closes)).relayArea = [] ∧
      (context0 (requester retry sends closes)).streams =
        [(5, { used := true, next := 3, ops := [relayOp retry sends, laterOp] }), (6, { used := true, closes := some closes })] ∧
      (requester retry sends closes).teams = one.teams := ⟨rfl, rfl, rfl, rfl, rfl⟩
  refine ⟨c.1, c.2.1, ?_, ?_, ?_, rfl, ?_, ?_, show 0 < trapBase by decide, ?_⟩
  · rw [c.2.2.2.1]; rfl
  · rw [c.2.2.2.1]; rfl
  · rw [c.2.2.2.1]; rfl
  · intro r hr
    obtain rfl := List.mem_singleton.mp hr
    exact ⟨rfl, by simp [laterOp, relayOp]⟩
  · rw [c.2.2.1]
    intro z hz
    cases hz
  · have t (k : Nat) : (requester retry sends closes).team? k = one.team? k := rfl
    obtain ⟨x, h, e⟩ := a one (team0 one) (hot one) (by decide +kernel)
    exact ⟨x, h, by rw [show (relayOp retry sends).team = 0 from rfl, t]; exact e⟩

theorem witness_RelayEvents_requester :
    (∀ st ∈ [0, 3], ∃ (dev : Nat) (p : Packet) (s : State) (c : Context) (o : RelayOp) (rest : List RelayOp), p.op = st ∧
      dev < 1024 ∧ s.fabricUp = true ∧ PacketOk 2 p ∧ p.srcinc = s.incarnation ∧ HeadOp s p.asid dev c o rest ∧ p.cgen = c.cgen ∧ p.serial = o.serial ∧
      (p.op = 0 ∨ p.op = 3) ∧ p.oinc = (mget {} s.domain dev).incarn ∧ p.oinc = (mget {} c.streams dev).oinc) ∧
    (∀ i ∈ ([.evRelayRetransmission 0 5 1, .evRelayRetryLaterTimeout 0 5 1] : List Instr),
      ∃ (asid dev : Nat) (s : State) (c : Context) (o : RelayOp) (rest : List RelayOp),
      ((i = .evRelayRetransmission asid dev o.serial ∧ o.retry = false ∧ 16 ≤ o.sends) ∨
        (i = .evRelayRetryLaterTimeout asid dev o.serial ∧ o.retry = true)) ∧ HeadOp s asid dev c o rest) ∧
    (∀ i ∈ ([.evRelayRetransmission 0 5 1, .evRelayRetryLaterResend 0 5 1] : List Instr),
      ∃ (asid dev : Nat) (s : State) (c : Context) (o : RelayOp) (rest : List RelayOp),
      ((i = .evRelayRetransmission asid dev o.serial ∧ o.retry = false ∧ o.sends < 16) ∨
        (i = .evRelayRetryLaterResend asid dev o.serial ∧ o.retry = true)) ∧ s.fabricUp = true ∧ HeadOp s asid dev c o rest) ∧
    ∀ n ∈ [15, 16], ∃ (asid dev : Nat) (s : State) (c : Context), s.ctx? asid = some c ∧
      (mget {} c.streams dev).closes = some n ∧ s.fabricUp = true := by
  refine ⟨?_, ?_, ?_, ?_⟩
  · intro st h
    simp only [List.mem_cons, List.not_mem_nil, or_false] at h
    rcases h with rfl | rfl
    · exact ⟨5, { kind := 2, op := 0, cgen := 1, serial := 1 }, requester false 0 0, _, _, _, rfl, by decide,
        by decide +kernel, by unfold PacketOk; decide +kernel, by decide +kernel, isHead false 0 0, by decide +kernel, rfl, by decide +kernel⟩
    · exact ⟨5, { kind := 2, op := 3, cgen := 1, serial := 1 }, requester false 0 0, _, _, _, rfl, by decide,
        by decide +kernel, by unfold PacketOk; decide +kernel, by decide +kernel, isHead false 0 0, by decide +kernel, rfl, by decide +kernel⟩
  · intro i h
    simp only [List.mem_cons, List.not_mem_nil, or_false] at h
    rcases h with rfl | rfl
    · exact ⟨0, 5, requester false 16 0, _, _, _, .inl ⟨rfl, rfl, by decide⟩, isHead false 16 0⟩
    · exact ⟨0, 5, requester true 3 0, _, _, _, .inr ⟨rfl, rfl⟩, isHead true 3 0⟩
  · intro i h
    simp only [List.mem_cons, List.not_mem_nil, or_false] at h
    rcases h with rfl | rfl
    · exact ⟨0, 5, requester false 15 0, _, _, _, .inl ⟨rfl, rfl, by decide⟩, by decide +kernel, isHead false 15 0⟩
    · exact ⟨0, 5, requester true 3 0, _, _, _, .inr ⟨rfl, rfl⟩, by decide +kernel, isHead true 3 0⟩
  · intro n h
    simp only [List.mem_cons, List.not_mem_nil, or_false] at h
    rcases h with rfl | rfl
    · exact ⟨0, 6, requester false 0 15, context0 (requester false 0 15), by decide +kernel⟩
    · exact ⟨0, 6, requester false 0 16, context0 (requester false 0 16), by decide +kernel⟩

/-- Team 0 checks another team; each has closed a lap. -/
def checking (other : W64) : State :=
  team (fun x => { x with checks := some 1, ours := [(1, 2, 3)], theirs := [(1, 2, other)] }) one

/-- Core 127 samples; its buffer holds a record, and the ring takes 1024 of them. -/
def traced : State :=
  { one with
    cores := [(127, { trace := [{ src := 127, kind := 2 }] })]
    traceKinds := 4, samplePeriod := 10, ringBase := 0x200000, ringLen := 65536, ringRead := 0, ringWrite := 65536 - 128 }

/-- A good frame of an unlisted type. -/
def strayFrame : List Byte :=
  let b := toBytes 1 13 ++ toBytes 1 0 ++ toBytes 2 0 ++ toBytes 4 0 ++ toBytes 8 0
  b ++ toBytes 4 (crc32 b).toNat

theorem witness_ObserveAndLinkEvents_reports :
    (∀ d ∈ [3#64, 4#64], ∃ (u : Nat) (s : State) (x : Team) (o p : Nat × (W64 × W64)) (os ps : List (Nat × (W64 × W64))),
      s.team? u = some x ∧ x.checks.isSome = true ∧ x.ours = o :: os ∧ x.theirs = p :: ps ∧
      (o.2 = p.2 ∧ o.1 ∉ x.mismatch ↔ d = 3#64)) ∧
    (∃ (c n : Nat) (s : State), c < 128 ∧ n < 4 ∧ bitAt s.traceKinds 2 = true ∧ s.sampleDue c = true ∧
      n ∉ (s.core c).sampled ∧ (s.core c).traceLost = 0 ∧ (s.core c).trace.length < 1024) ∧
    (∃ (src : Nat) (s : State) (r : TraceRec) (rest : List TraceRec), s.traceBuf src = r :: rest ∧ s.ringLen ≠ 0 ∧
      (s.ringWrite + 64) % s.ringLen ≠ s.ringRead ∧ s.rangeWaits (s.ringBase + s.ringWrite) 64 = false) ∧
    (∃ (die : Nat) (s : State), die ∈ s.vfChanging) ∧
    (∃ (q d : Nat) (s : State), q < 32 ∧ 8 ≤ d ∧ q ∉ s.fenced) ∧
    (∃ (q d : Nat) (s : State), q < 32 ∧ 3 ≤ d ∧ d < 8 ∧ q ∉ s.capped) ∧
    (∃ (n : Nat) (s : State), inMemory (64 * n) 64 = true ∧ n ∉ s.poison ∧ n / 1024 ∉ s.retired) ∧
    (∃ s : State, s.unacked ≠ [] ∧ s.linkDown = false ∧ 0 < s.wavelengths) ∧
    (∃ s : State, s.linkDown = false ∧ s.wavelengths = 0) ∧ (∃ s : State, s.linkDown = true ∧ s.wavelengths ≠ 0) ∧
    (∃ f s, ¬ BadFrame s f ∧ (ofBytes (f.take 1) = 0 ∨ 12 < ofBytes (f.take 1)) ∧ s.linkDown = false ∧
      0 < s.wavelengths) ∧
    ∃ (f : List Byte) (s : State), BadFrame s f ∧ s.linkDown = false ∧ 0 < s.wavelengths := by
  refine ⟨?_, ⟨127, 3, traced, by decide +kernel⟩,
    ⟨127, traced, { src := 127, kind := 2 }, [], by decide +kernel⟩,
    ⟨1, { one with vfChanging := [1] }, by decide⟩, ⟨31, 8, one, by decide +kernel⟩,
    ⟨31, 7, one, by decide +kernel⟩,
    ⟨0x20000, one, by decide +kernel⟩, ⟨{ one with unacked := [(1, {})] }, by decide +kernel⟩,
    ⟨{ one with wavelengths := 0 }, by decide, rfl⟩, ⟨{ one with linkDown := true }, rfl, by decide⟩,
    ⟨strayFrame, one, ?_, .inr (by decide +kernel), by decide +kernel⟩, ⟨[], one, .inl (by decide), by decide +kernel⟩⟩
  · intro d h
    refine ⟨0, checking d, team0 (checking d), (1, 2, 3), (1, 2, d), [], [], ?_⟩
    simp only [List.mem_cons, List.not_mem_nil, or_false] at h
    rcases h with rfl | rfl <;> decide +kernel
  · unfold BadFrame
    decide +kernel

/-- Measurements of a pacer for each case of its limits. -/
theorem witness_ObserveAndLinkEvents_pacer :
    (∃ (avg10 temp : Nat) (p : Pacer), temp < 105 ∧ p.hot = none ∧ 3400 < avg10) ∧
    (∃ (avg1 avg10 temp : Nat) (s : State), let p := mget ({} : Pacer) s.pacers 1
      temp < 105 ∧ p.hot = none ∧ avg10 ≤ 3400 ∧ s.powerLimit < avg1 ∧ p.above = some 9) ∧
    (∃ (avg1 avg10 temp n : Nat) (s : State), let p := mget ({} : Pacer) s.pacers 1
      temp < 105 ∧ p.hot = none ∧ avg10 ≤ 3400 ∧ s.powerLimit < avg1 ∧ p.above = some n ∧ n < 9) ∧
    (∃ (avg1 avg10 temp : Nat) (s : State), let p := mget ({} : Pacer) s.pacers 1
      temp < 105 ∧ p.hot = none ∧ avg10 ≤ 3400 ∧ avg1 ≤ s.powerLimit ∧ 100 * avg1 < 95 * s.powerLimit ∧ 99 ≤ p.below) ∧
    ∃ (avg1 avg10 temp : Nat) (s : State), let p := mget ({} : Pacer) s.pacers 0
      105 ≤ temp ∧ temp < 110 ∧ p.hot = none ∧ avg10 ≤ 3400 ∧ avg1 ≤ s.powerLimit ∧ 95 * s.powerLimit ≤ 100 * avg1 :=
  ⟨⟨3401, 104, {}, by decide, rfl, by decide⟩,
    ⟨3001, 3400, 104, { one with pacers := [(1, { above := some 9 })] }, by decide +kernel⟩,
    ⟨3001, 3400, 104, 8, { one with pacers := [(1, { above := some 8 })] }, by decide +kernel⟩,
    ⟨2849, 3400, 104, { one with pacers := [(1, { below := 99 })] }, by decide +kernel⟩,
    ⟨3000, 3400, 109, one, by decide +kernel⟩⟩

/-- Frames reach the device, from its evaluation. -/
theorem linkReady (s : State) (e : (decide (s.linkDown = false) && decide (0 < s.wavelengths) &&
    decide (s.recovery = false)) = true) : LinkReady s := by
  simp only [Bool.and_eq_true, decide_eq_true_eq] at e
  exact ⟨e.1.1, e.1.2, e.2⟩

/-- The good launch record stands at 0x200100; queue 0 is full. -/
def recorded : State := { one with mem := writeBytes one.mem 0x200100 goodRecord }
/-- Its context's root entry for the low addresses is lost. -/
def rootLost : State := { one with poison := [(context0 one).root / 64] }
def fullQueue : State := { recorded with gridQueues := [(0, List.replicate Config.gridQueueDepth 2)] }

/-- Heat 0 has two lanes at a CALLH under tag 7. -/
def calling : State :=
  team (fun x => { x with lap := 2 }) (heat (fun h => { h with lanes := [(0, { live := true, park := .callh 5 1#32 7 }),
    (31, { live := true, park := .callh 5 1#32 7 })] }) one)

/-- Frame 32 is in scale-metadata mode. -/
def scaled : State := { one with scaleFrames := [(32, 1)] }

theorem witness_HostAndBootEvents_launch :
    (∀ i ∈ ([.evLaunchFrameInline 9 0 (launchHead 1 0 4 0 0 ++ goodRecord),
        .evLaunchFramePointer 9 0 (launchHead 2 0 4 0 0 ++ toBytes 8 0x200100)] : List Instr),
      ∃ (tag ack : W32) (asid ptag wa wv : Nat) (b : List Byte) (s : State) (c : Context), LinkReady s ∧ asid < 1024 ∧
        ptag < 2 ^ 32 ∧ wa < 2 ^ 64 ∧ wv < 2 ^ 64 ∧ Launches i s tag ack asid ptag wa wv b ∧ s.ctx? asid = some c ∧
        c.removing = false ∧ s.waitOk asid wa = true ∧ (parseRecord b).code = 0 ∧
        (mget [] s.gridQueues (parseRecord b).queue).length < Config.gridQueueDepth) ∧
    (∃ (i : Instr) (tag ack : W32) (asid ptag wa wv : Nat) (b : List Byte) (s : State) (c : Context), LinkReady s ∧
      asid < 1024 ∧ ptag < 2 ^ 32 ∧ wa < 2 ^ 64 ∧ wv < 2 ^ 64 ∧ Launches i s tag ack asid ptag wa wv b ∧
      s.ctx? asid = some c ∧ c.removing = false ∧ s.waitOk asid wa = false ∧ s.translate asid wa ≠ .poisoned) ∧
    (∃ (i : Instr) (tag ack : W32) (asid ptag wa wv : Nat) (b : List Byte) (s : State) (c : Context), LinkReady s ∧
      asid < 1024 ∧ ptag < 2 ^ 32 ∧ wa < 2 ^ 64 ∧ wv < 2 ^ 64 ∧ Launches i s tag ack asid ptag wa wv b ∧
      s.ctx? asid = some c ∧ c.removing = false ∧ s.waitOk asid wa = false ∧ s.translate asid wa = .poisoned ∧ wa ≠ 0) ∧
    (∃ (i : Instr) (tag ack : W32) (asid ptag wa wv : Nat) (b : List Byte) (s : State) (c : Context), LinkReady s ∧
      asid < 1024 ∧ ptag < 2 ^ 32 ∧ wa < 2 ^ 64 ∧ wv < 2 ^ 64 ∧ Launches i s tag ack asid ptag wa wv b ∧
      s.ctx? asid = some c ∧ c.removing = false ∧ s.waitOk asid wa = true ∧ (parseRecord b).code ≠ 0 ∧
      (parseRecord b).code < 2 ^ 32) ∧
    (∃ (i : Instr) (tag ack : W32) (asid ptag wa wv : Nat) (b : List Byte) (s : State) (c : Context), LinkReady s ∧
      asid < 1024 ∧ ptag < 2 ^ 32 ∧ wa < 2 ^ 64 ∧ wv < 2 ^ 64 ∧ Launches i s tag ack asid ptag wa wv b ∧
      s.ctx? asid = some c ∧ c.removing = false ∧ s.waitOk asid wa = true ∧ (parseRecord b).code = 0 ∧
      Config.gridQueueDepth ≤ (mget [] s.gridQueues (parseRecord b).queue).length) ∧
    ∃ (i : Instr) (tag ack : W32) (asid ptag wa wv : Nat) (b : List Byte) (s : State), LinkReady s ∧ asid < 1024 ∧
      ptag < 2 ^ 32 ∧ Launches i s tag ack asid ptag wa wv b ∧ s.ctx? asid = none := by
  have p (s : State) (asid wa : Nat) (r : List Byte) (l : r.length = 128) :
      Launches (.evLaunchFrameInline 9 0 (launchHead 1 asid 4 wa 0 ++ r)) s 9 0 asid 4 wa 0 r := .inl ⟨rfl, l⟩
  refine ⟨?_, ⟨_, 9, 0, 0, 4, 0x40000000, 0, goodRecord, one, context0 one, linkReady _ (by decide), by decide, by decide,
      by decide, by decide, p _ _ _ _ (by decide), by decide +kernel⟩,
    ⟨_, 9, 0, 0, 4, 0x200000, 0, goodRecord, rootLost, context0 rootLost, linkReady _ (by decide), by decide, by decide,
      by decide, by decide, p _ _ _ _ (by decide), by decide +kernel⟩,
    ⟨_, 9, 0, 0, 4, 0, 0, zeroRecord, one, context0 one, linkReady _ (by decide), by decide, by decide,
      by decide, by decide, p _ _ _ _ (by decide), by decide +kernel⟩,
    ⟨_, 9, 0, 0, 4, 0, 0, goodRecord, fullQueue, context0 fullQueue, linkReady _ (by decide), by decide, by decide,
      by decide, by decide, p _ _ _ _ (by decide), by decide +kernel⟩,
    ⟨_, 9, 0, 1023, 4, 0, 0, goodRecord, one, linkReady _ (by decide), by decide, by decide, p _ _ _ _ (by decide),
      by decide +kernel⟩⟩
  intro i h
  simp only [List.mem_cons, List.not_mem_nil, or_false] at h
  rcases h with rfl | rfl
  · exact ⟨9, 0, 0, 4, 0, 0, goodRecord, recorded, context0 recorded, linkReady _ (by decide +kernel), by decide, by decide,
      by decide, by decide, p _ _ _ _ (by decide), by decide +kernel⟩
  · exact ⟨9, 0, 0, 4, 0, 0, goodRecord, recorded, context0 recorded, linkReady _ (by decide +kernel), by decide, by decide,
      by decide, by decide, .inr ⟨0x200100, 0, 0x40000000, 0xFB, rfl, by decide +kernel⟩,
      by decide +kernel⟩

theorem witness_HostAndBootEvents_access :
    (∃ (asid va n r : Nat) (s : State), LinkReady s ∧ asid < 1024 ∧ va < 2 ^ 64 ∧ n ≤ 4096 ∧ n % 4 = 0 ∧
      s.hostAccess asid .read va n = .refuse r) ∧
    (∃ (asid va n : Nat) (ps : List (Nat × Nat)) (s : State), LinkReady s ∧ asid < 1024 ∧ va < 2 ^ 64 ∧ n ≤ 4096 ∧
      n % 4 = 0 ∧ va % 64 = 0 ∧ n % 64 = 0 ∧ s.hostAccess asid .read va n = .ok ps ∧
      ∀ p ∈ ps, s.bytesBad p.1 p.2 = false) ∧
    (∃ (asid va n r : Nat) (data : List Byte) (s : State), LinkReady s ∧ asid < 1024 ∧ va < 2 ^ 64 ∧ n ≤ 4096 ∧
      n % 4 = 0 ∧ data.length = n ∧ s.hostAccess asid .write va n = .refuse r) ∧
    (∃ (asid va n : Nat) (ps : List (Nat × Nat)) (data : List Byte) (s : State), LinkReady s ∧ asid < 1024 ∧ va < 2 ^ 64 ∧
      n ≤ 4096 ∧ n % 4 = 0 ∧ data.length = n ∧ s.hostAccess asid .write va n = .ok ps) ∧
    (∃ (asid va n pa : Nat) (data : List Byte) (s : State), LinkReady s ∧ asid < 1024 ∧ va < 2 ^ 64 ∧ n ≤ 4096 ∧
      va % 64 = 0 ∧ n % 64 = 0 ∧ data.length = n / 64 * 68 ∧ s.hostAccess asid .write va n = .ok [(pa, n)]) ∧
    (∃ (tag m : W32) (u g d status : Nat) (words : List Byte) (s : State) (x : Team) (h : Heat), LinkReady s ∧
      u < trapBase ∧ status < 2 ^ 32 ∧ words.length = 128 ∧ s.team? u = some x ∧ x.heat? g = some h ∧
      s.callers tag = [(u, g, h)] ∧ x.checker = none ∧ h.arrivals = [] ∧ x.lap ≠ 0#64 ∧
      ∀ l, l < 32 → ∀ e n k, (h.lane l).live = true → (h.lane l).park = .callh e n k → e = d ∧ n = m ∧ k = tag) ∧
    (∃ (stage : Nat) (image : List Byte) (s : State), s.linkDown = false ∧ 0 < s.wavelengths ∧ stage < 8 ∧ image ≠ []) ∧
    ∃ (nonce : List Byte) (s : State), s.linkDown = false ∧ 0 < s.wavelengths ∧ nonce.length = 32 := by
  refine ⟨⟨0, 0x40000000, 4, 2, one, linkReady _ (by decide), by decide +kernel⟩,
    ⟨0, 0x200000, 64, [(0x200000, 64)], one, linkReady _ (by decide), by decide +kernel⟩,
    ⟨7, 0, 0, 5, [], one, linkReady _ (by decide), by decide, by decide, by decide, by decide, rfl, by decide +kernel⟩,
    ⟨0, 0x20FFFC, 8, [(0x20FFFC, 4), (0x210000, 4)], List.replicate 8 1#8, one, linkReady _ (by decide), by decide +kernel⟩,
    ⟨0, 0x200000, 64, 0x200000, List.replicate 68 1#8, scaled, linkReady _ (by decide), by decide +kernel⟩,
    ⟨7, 1, 0, 0, 5, 0, List.replicate 128 1#8, calling, team0 calling, hot calling, linkReady _ (by decide), by decide,
      by decide, by decide, by decide +kernel, by decide +kernel, by decide +kernel, by decide +kernel, by decide +kernel,
      by decide +kernel, ?_⟩,
    ⟨7, [1#8], one, by decide +kernel⟩,
    ⟨List.replicate 32 0#8, one, by decide +kernel⟩⟩
  intro l hl e n k a b
  have v : ∀ l < 32, ((hot calling).lane l).live = true → ((hot calling).lane l).park = .callh 5 1#32 7 := by decide +kernel
  have q := (v l hl a).symm.trans b
  injection q with q1 q2 q3
  exact ⟨q1.symm, q2.symm, q3.symm⟩

/-- A store of team 0 to 0x200040 has not performed. -/
def storing : State :=
  team (fun x => { x with deferred := [{ va := 0x200040, pa := 0x200040, leaf := 0xFB, bytes := [7#8] }] }) one

/-- Context 0 is being removed; core 0 is frozen; the grid of team 0 runs in deterministic mode. -/
def leaving : State := context (fun c => { c with removing := true }) one
def frozen0 : State := core (fun k => { k with frozen := some {} }) one
def det : State := grid (fun g => { g with record := { g.record with det := true } }) one

/-- Frame 32 has a poisoned unit and a spare word. -/
def spoiled : State := { one with poison := [32800], spare := [(32768, 5#32)] }

theorem witness_ManagementEvents_contexts :
    (∃ (asid : Nat) (s : State), LinkReady s ∧ asid < 1024 ∧ s.ctx? asid ≠ none) ∧
    (∃ (asid root places save lap lapseg log loglen relayc lspill bspill : Nat) (s : State), LinkReady s ∧ asid < 1024 ∧
      s.ctx? asid = none ∧ areasOk root places save lap lapseg log loglen relayc lspill bspill = false) ∧
    (∀ loglen ∈ [0, 0x10000], ∃ (asid root places save lap lapseg log relayc lspill bspill : Nat) (s : State), LinkReady s ∧
      asid < 1024 ∧ s.ctx? asid = none ∧ areasOk root places save lap lapseg log loglen relayc lspill bspill = true) ∧
    (∃ (asid : Nat) (s : State), LinkReady s ∧ s.ctx? asid = none) ∧
    (∃ (asid : Nat) (s : State) (c : Context), LinkReady s ∧ s.ctx? asid = some c ∧ c.removing = true) ∧
    (∃ (asid : Nat) (s : State) (c : Context), LinkReady s ∧ s.ctx? asid = some c ∧ c.removing = false ∧
      ∃ e ∈ s.grids, e.2.asid = asid ∧ e.2.tag = some 7#32) ∧
    (∃ (asid : Nat) (s : State) (c : Context), LinkReady s ∧ s.ctx? asid = some c ∧
      ∀ k, k < Config.cores → (s.core k).stuck = false) ∧
    (∀ b : Bool, ∃ (asid : Nat) (s : State), LinkReady s ∧
      (s.outstanding { asid := some asid } || s.deferredOpen { asid := some asid }) = b ∧
      HeadsReadable { s with
        tlb := s.tlb.filter (fun e => e.asid != asid), tables := s.tables.filter (fun e => e.asid != asid)
        walks := s.walks.filter (fun w => w.asid != asid) }) ∧
    ∀ b : Bool, ∃ (asid : Nat) (va : Addr) (s : State), LinkReady s ∧
      (s.outstanding { asid := some asid, va := some va.toNat } ||
        s.deferredOpen { asid := some asid, va := some va.toNat }) = b ∧
      HeadsReadable { s with
        tlb := s.tlb.filter (fun e => e.asid != asid || !decide (e.base ≤ va.toNat ∧ va.toNat < e.base + e.size))
        tables := s.tables.filter (fun e => e.asid != asid || e.tag != walkTag va.toNat e.level)
        walks := s.walks.filter (fun w => w.asid != asid || w.page / 2 ^ 14 != va.toNat / 2 ^ 30) } := by
  have l : LinkReady one := linkReady _ (by decide)
  refine ⟨⟨0, one, l, by decide +kernel⟩, ⟨7, 1, 1, 0, 0, 0x400000, 0, 0, 0, 0, 0, one, l, by decide +kernel⟩, ?_, ⟨7, one, l, by decide +kernel⟩,
    ⟨0, leaving, context0 leaving, linkReady _ (by decide), by decide +kernel⟩,
    ⟨0, done 1, context0 (done 1), linkReady _ (by decide), by decide +kernel⟩,
    ⟨0, one, context0 one, l, by decide +kernel⟩,
    fun b => ?_, fun b => ?_⟩
  rotate_left
  · cases b
    · exact ⟨0, one, l, by decide +kernel, readable (by decide +kernel)⟩
    · exact ⟨0, storing, linkReady _ (by decide +kernel), by decide +kernel, readable (by decide +kernel)⟩
  · cases b
    · exact ⟨0, 0x200000, one, l, by decide +kernel, readable (by decide +kernel)⟩
    · exact ⟨0, 0x200040, storing, linkReady _ (by decide +kernel), by decide +kernel, readable (by decide +kernel)⟩
  intro n h
  refine ⟨7, 0x20000, 1, 0x10000, 0, 0x400000, 0x10000, 0, 0, 0, one, l, by decide, by decide +kernel, ?_⟩
  simp only [List.mem_cons, List.not_mem_nil, or_false] at h
  rcases h with rfl | rfl <;> decide +kernel

theorem witness_ManagementEvents_tables :
    (∃ (dev : Nat) (e : BitVec 128), dev < 1024 ∧ e.extractLsb' 1 31 = 0#31 ∧ (e.extractLsb' 64 64).toNat % 65536 = 0 ∧
      (e.extractLsb' 64 64).toNat = 2 ^ 61 - 2 ^ 20) ∧
    (∃ (dev : Nat) (e : BitVec 128), dev < 256 ∧ e.extractLsb' 38 10 = 0#10 ∧ e.extractLsb' 1 16 = 0#16 ∧
      e.getLsbD 0 = true ∧ (e.extractLsb' 17 11).toNat = 1024 ∧ 1 ≤ (e.extractLsb' 48 16).toNat ∧
      (e.extractLsb' 28 10).toNat = 1023) ∧
    (∃ (index : Nat) (w : BitVec 256) (s : State), index < 1024 ∧ w.extractLsb' 26 38 = 0#38 ∧ w.extractLsb' 1 15 = 0#15 ∧
      (w.extractLsb' 128 64).toNat % 65536 = 0 ∧ (w.extractLsb' 64 64).toNat = 65536 ∧ w.getLsbD 0 = true ∧
      ∀ x ∈ s.exports, x.1 ≠ index → x.2.valid = true → x.2.offbase + x.2.len ≤ (w.extractLsb' 64 64).toNat ∨
        (w.extractLsb' 64 64).toNat + (w.extractLsb' 128 64).toNat ≤ x.2.offbase) ∧
    (∃ (l : List Nat) (s : State), LinkReady s ∧ l.length = 32 ∧ (∀ q ∈ l, q < 32 ∧ q ∉ s.fenced) ∧ s.detResident = true) ∧
    (∃ (l : List Nat) (s : State), LinkReady s ∧ l.length = 32 ∧ (∀ q ∈ l, q < 32 ∧ q ∉ s.fenced) ∧
      s.detResident = false) ∧
    (∃ (c : Nat) (s : State), LinkReady s ∧ c < 128 ∧ (s.core c).frozen = none ∧ (s.core c).stuck = false) ∧
    (∃ (c : Nat) (s : State), LinkReady s ∧ c < 128 ∧ (s.core c).frozen ≠ none) ∧
    (∃ (base len read k : Nat), len % 65536 = 0 ∧ inMemory base len = true ∧ read < len ∧ read % 64 = 0 ∧ k = 24) ∧
    (∃ s : State, LinkReady s ∧ s.gtcOpen = true) ∧ (∃ s : State, LinkReady s ∧ s.gtcOpen = false) ∧
    (∃ (frame : Nat) (s : State), LinkReady s ∧ inMemory (65536 * frame) 65536 = true) ∧
    ∃ (old new : Nat) (s : State), LinkReady s ∧ inMemory (65536 * old) 65536 = true ∧
      inMemory (65536 * new) 65536 = true ∧ old ≠ new ∧ s.ownedRange (65536 * old) 65536 = false ∧
      s.ownedRange (65536 * new) 65536 = false ∧ mrising s.spare = true ∧ s.badUnits old ≠ [] := by
  have l : LinkReady one := linkReady _ (by decide)
  have q (s : State) (e : s.fenced = []) : ∀ q ∈ List.replicate 32 31, q < 32 ∧ q ∉ s.fenced := by
    intro q h
    rw [(List.mem_replicate.mp h).2, e]
    decide
  exact ⟨⟨1023, (2 ^ 61 - 2 ^ 20) * 2 ^ 64 + 1, by decide +kernel⟩,
    ⟨255, 1 + 1024 * 2 ^ 17 + 1023 * 2 ^ 28 + 2 ^ 48, by decide +kernel⟩,
    ⟨1023, 1 + 65536 * 2 ^ 64 + 65536 * 2 ^ 128, exporting, by decide +kernel⟩,
    ⟨List.replicate 32 31, det, linkReady _ (by decide), rfl, q _ rfl, by decide +kernel⟩,
    ⟨List.replicate 32 31, one, l, rfl, q _ rfl, by decide +kernel⟩,
    ⟨127, one, l, by decide +kernel⟩,
    ⟨0, frozen0, linkReady _ (by decide), by decide +kernel⟩,
    ⟨0x200000, 65536, 65472, 24, by decide, by decide +kernel, by decide, by decide, rfl⟩,
    ⟨one, l, by decide⟩, ⟨{ one with gtcOpen := false }, linkReady _ (by decide), rfl⟩,
    ⟨32, one, l, by decide +kernel⟩,
    ⟨32, 33, spoiled, linkReady _ (by decide), by decide +kernel⟩⟩

/-- A debugger is attached to context 0 and has stopped team 0, changed by a function. -/
def stopped (f : Team → Team) : State :=
  context (fun c => { c with attached := true }) (team (fun x => f { x with stopped := true, lap := 3 }) one)

theorem isDebugged (s : State) (e : (decide (s.linkDown = false) && decide (0 < s.wavelengths) &&
      decide (s.recovery = false) && decide (s.team? 0 = some (team0 s)) && decide (0 ∈ (team0 s).cluster) &&
      decide (team0 s).cluster.Nodup && decide (s.ctx? (team0 s).asid = some (context0 s)) &&
      decide ((context0 s).attached = true)) = true) : Debugged s 0 (team0 s) := by
  simp only [Bool.and_eq_true, decide_eq_true_eq] at e
  obtain ⟨⟨⟨⟨⟨⟨⟨a, b⟩, c⟩, d⟩, f⟩, g⟩, h⟩, i⟩ := e
  exact ⟨⟨a, b, c⟩, by decide, d, f, g, _, h, i⟩

/-- Heat 0 of a stopped team. -/
def stoppedHeat (f : Heat → Heat) : State := stopped (fun x => { x with body := { x.body with
  heats := x.body.heats.map (fun (e : Nat × Heat) => (e.1, f e.2)) } })

theorem witness_DebuggerEvents :
    (∃ (asid : Nat) (s : State), LinkReady s ∧ s.ctx? asid = none) ∧
    (∃ (s : State) (u : Nat) (x : Team), LinkReady s ∧ s.team? u = some x ∧
      ∀ c, s.ctx? x.asid = some c → c.attached = false) ∧
    (∃ (u : Nat) (s : State) (x : Team), Debugged s u x ∧ x.stopped = false) ∧
    (∃ (u : Nat) (s : State) (x : Team) (h : Heat), Debugged s u x ∧ x.stopped = true ∧ x.lap = 3#64 ∧ x.heat? 0 = some h ∧
      h.stride = 5#64) ∧
    (∃ (u : Nat) (s : State) (x : Team), Debugged s u x ∧ x.body.seq.count = 0#64) ∧
    (∀ g ∈ [0, 255], ∃ (u now : Nat) (s : State) (x : Team) (p : Point), p.heat = g ∧ s.team? u = some x ∧ u ∈ x.cluster ∧
      x.cluster.Nodup ∧ x.runTo = some p ∧ x.action = 0 ∧ p.lap = x.lap.toNat ∧ p.stride ≤ now ∧
      ((p.heat = 255 ∧ now = x.body.seq.count.toNat) ∨
        (p.heat ≠ 255 ∧ ∃ h, x.heat? p.heat = some h ∧ now = h.stride.toNat))) ∧
    (∃ (u g : Nat) (s : State) (x : Team) (h : Heat) (q : BitVec 8), Debugged s u x ∧ x.stopped = true ∧ g ≠ 255 ∧
      x.heat? g = some h ∧ h.ended = false ∧ h.choose = none ∧ h.live &&& quadMask q ≠ 0#32 ∧ h.chooseQuads q = none) ∧
    (∃ (u g : Nat) (s : State) (x : Team) (h : Heat) (q : BitVec 8), Debugged s u x ∧ x.stopped = true ∧ g ≠ 255 ∧
      x.heat? g = some h ∧ h.ended = false ∧ h.choose ≠ none ∧ h.live &&& quadMask q ≠ 0#32 ∧ h.chooseQuads q ≠ none) ∧
    (∃ (u g : Nat) (s : State) (x : Team) (h : Heat) (q : BitVec 8), Debugged s u x ∧ x.stopped = true ∧ g ≠ 255 ∧
      x.heat? g = some h ∧ h.ended = false ∧ h.live &&& quadMask q = 0#32) ∧
    (∃ (u : Nat) (s : State) (x : Team), Debugged s u x ∧ x.stopped = true ∧ x.body.seq.running = true ∧
      x.body.seq.park = .none) ∧
    (∃ (u : Nat) (s : State) (x : Team), Debugged s u x ∧ x.stopImage = none) ∧
    (∃ (u : Nat) (s : State) (x : Team) (i : StopImage), Debugged s u x ∧ x.stopImage = some i ∧
      (∀ d ∈ x.deliveries.drop i.delivered, d.own ≠ none) ∧ x.cluster = [u]) ∧
    dbgNamed 0x11DF ∧ dbgNamed 0x1100 := by
  let a := stoppedHeat (fun h => { h with stride := 5 })
  let b := stoppedHeat (fun h => { h with lanes := h.lanes.map (fun e => (e.1, { e.2 with park := .waitc })) })
  let c := stoppedHeat (fun h => { h with lanes := [(0, { live := true })] })
  let d := stopped (fun x => { x with stopImage := some { body := x.body } })
  let r (g : Nat) : State := stopped (fun x => { x with stopped := false, runTo := some { lap := 3, heat := g } })
  have e : ∀ s ∈ [debugged, a, b, c, d], Debugged s 0 (team0 s) := by
    intro s h
    simp only [List.mem_cons, List.not_mem_nil, or_false] at h
    rcases h with rfl | rfl | rfl | rfl | rfl <;> exact isDebugged _ (by decide +kernel)
  have n : one.ctx? (team0 one).asid = some (context0 one) ∧ (context0 one).attached = false := by decide +kernel
  refine ⟨⟨7, one, linkReady _ (by decide), by decide +kernel⟩,
    ⟨one, 0, team0 one, linkReady _ (by decide), by decide +kernel, ?_⟩,
    ⟨0, debugged, team0 debugged, e _ (by simp), by decide +kernel⟩,
    ⟨0, a, team0 a, hot a, e _ (by simp), by decide +kernel⟩,
    ⟨0, a, team0 a, e _ (by simp), by decide +kernel⟩, ?_,
    ⟨0, 0, b, team0 b, hot b, 0x80, e _ (by simp), by decide +kernel⟩,
    ⟨0, 0, a, team0 a, hot a, 0x80, e _ (by simp), by decide +kernel⟩,
    ⟨0, 0, c, team0 c, hot c, 0x80, e _ (by simp), by decide +kernel⟩,
    ⟨0, a, team0 a, e _ (by simp), by decide +kernel⟩,
    ⟨0, a, team0 a, e _ (by simp), by decide +kernel⟩,
    ⟨0, d, team0 d, (team0 d).stopImage.getD {}, e _ (by simp), by decide +kernel⟩,
    by unfold dbgNamed; decide, by unfold dbgNamed; decide⟩
  · intro z h
    rw [n.1] at h
    obtain rfl := Option.some.inj h
    exact n.2
  · intro g h
    simp only [List.mem_cons, List.not_mem_nil, or_false] at h
    rcases h with rfl | rfl
    · exact ⟨0, 0, r 0, team0 (r 0), { lap := 3, heat := 0 }, rfl, by decide +kernel, by decide +kernel, by decide +kernel,
        by decide +kernel, by decide +kernel, by decide +kernel, by decide, .inr ⟨by decide, hot (r 0), by decide +kernel⟩⟩
    · exact ⟨0, 0, r 255, team0 (r 255), { lap := 3, heat := 255 }, rfl, by decide +kernel, by decide +kernel,
        by decide +kernel, by decide +kernel, by decide +kernel, by decide +kernel, by decide, .inl ⟨rfl, by decide +kernel⟩⟩

/-- The state `nops` with an issue pending, for the heat and, with MEND in the clause, for the sequencer. -/
def nopNext : State := { nops with inputs := [.issue (.heat 0 0)] }

theorem witness_StepRunsDecoded_heat : ∃ (s : State) (l : List Turn) (u g c : Nat) (x : Team) (h : Heat) (m : Mask) (hw : W32)
      (ws : List W32) (i : Instr), s.inputs = .issue (.heat u g) :: l ∧ s.team? u = some x ∧ PlainTeam s c x ∧ u < trapBase ∧
    x.heat? g = some h ∧ s.runs u = true ∧ h.ended = false ∧ h.sleepUntil = none ∧ s.withholds c = false ∧
    g % 4 ∉ (s.core c).issued ∧ (s.core c).lastHeat.getD 0 ≤ g ∧ h.choose = some m ∧
    let p := h.lane (lowLane m)
    let cu : Cur := { who := .heat u g, core := c, active := m, helpers := h.helpers m, hdr := p.hdr, idx := p.idx }
    p.hdr.toNat < 2 ^ 64 ∧ p.hdr.toNat % 4 = 0 ∧ (∀ e ∈ h.loopBuf, e.1 ≠ p.hdr) ∧
    s.fetchClause (c / 64) x.asid (s.codeOf u) p.hdr = .ok (hw :: ws) ∧ clauseFault false (hw :: ws) = none ∧
    { s with inputs := l, cur := cu }.waitCause h m hw.toNat p.idx ws (s.core c).cycles.toNat = none ∧
    decodeWord (ws.getD p.idx 0#32).toNat = .ok i := by
  refine ⟨nopNext, [], 0, 0, 0, team0 nopNext, hot nopNext, 0xFFFFFFFF#32, 0xA0000031, [0xD4000000], .nop, rfl, ?_⟩
  unfold PlainTeam
  and_intros <;> first | rfl | decide +kernel

/-- A loaded word: the sequencer's MEND, and the trap heat's ERET. -/
def mendNext : State := State.reset.load 0xF5800000
def eretNext : State := State.reset.load 0xF9000000

theorem witness_StepRunsDecoded_seq : ∃ (s : State) (l : List Turn) (u c : Nat) (x : Team) (hw : W32) (ws : List W32)
      (i : Instr), s.inputs = .issue (.seq u) :: l ∧ s.team? u = some x ∧ PlainTeam s c x ∧ s.runs u = true ∧
    x.body.seq.running = true ∧ x.body.seq.park = .none ∧ x.body.seq.lastCycle = none ∧
    x.body.seq.hdr.toNat < 2 ^ 64 ∧ x.body.seq.hdr.toNat % 4 = 0 ∧
    (∀ e ∈ x.body.seq.loopBuf, e.1 ≠ x.body.seq.hdr) ∧
    s.fetchClause (c / 64) x.asid (s.codeOf u) x.body.seq.hdr = .ok (hw :: ws) ∧ clauseFault true (hw :: ws) = none ∧
    x.body.seq.waits hw.toNat x.body.seq.idx (s.core c).cycles.toNat = false ∧
    decodeWord (ws.getD x.body.seq.idx 0#32).toNat = .ok i := by
  refine ⟨mendNext, [], 0, 0, team0 mendNext, 0xA0000041, [0xF5800000], .mend, rfl, ?_⟩
  unfold PlainTeam
  and_intros <;> first | rfl | decide +kernel

theorem witness_StepRunsDecoded_trap : ∃ (s : State) (l : List Turn) (c : Nat) (r : TrapRec) (m : Mask) (hw : W32)
      (ws : List W32) (i : Instr), let h := (s.core c).trap
    s.inputs = .issue (.trap c) :: l ∧ (s.core c).frozen = some r ∧ (s.core c).trapOn = true ∧
    (s.core c).stuck = false ∧ s.changing c = false ∧ h.sleepUntil = none ∧
    (∀ j, inMask h.live j = true → (h.lane j).lastCycle ≠ some (s.core c).cycles.toNat) ∧ h.choose = some m ∧
    let p := h.lane (lowLane m)
    let cu : Cur := { who := .trap c, core := c, active := m, helpers := h.helpers m, hdr := p.hdr, idx := p.idx }
    p.hdr.toNat < 2 ^ 64 ∧ p.hdr.toNat % 4 = 0 ∧ (∀ e ∈ h.loopBuf, e.1 ≠ p.hdr) ∧
    s.fetchClause (c / 64) r.asid s.mem p.hdr = .ok (hw :: ws) ∧ clauseFault false (hw :: ws) = none ∧
    { s with inputs := l, cur := cu }.waitCause h m hw.toNat p.idx ws (s.core c).cycles.toNat = none ∧
    decodeWord (ws.getD p.idx 0#32).toNat = .ok i := by
  refine ⟨eretNext, [], 0, {}, 0xFFFFFFFF#32, 0xA0000051, [0xF9000000], .eret, rfl, ?_⟩
  and_intros <;> first | rfl | exact onLanes (by decide +kernel) | decide +kernel

theorem witness_StepRunsDecoded_fetch :
    (∃ (s : State) (a : Addr) (die asid b size leaf : Nat), a.toNat < 2 ^ 64 ∧
      s.translateOn die asid a.toNat = .page b size leaf ∧ pteMig leaf ≠ 1 ∧ pteX leaf = true) ∧
    (∃ (s : State) (l : List Turn) (i : Instr), s.inputs = .event i :: l) ∧
    ∃ (s : State) (l : List Turn) (u : Upset), s.inputs = .upset u :: l :=
  ⟨⟨nopNext, 0x100000, 0, 0, 0, 0x40000000, 0xFB, by decide +kernel⟩,
    ⟨{ one with inputs := [.event .evGtcTick] }, [], .evGtcTick, rfl⟩,
    ⟨{ one with inputs := [.upset (.line 0 5)] }, [], .line 0 5, rfl⟩⟩

theorem witness_RoundTrip : ∃ (i : Instr) (w : Nat), i.wellFormed = true ∧ encode i = some w :=
  ⟨.vaddN64 8 6 7 0, 0x2A101838, rfl, by decide +kernel⟩

/-- The next state, of an outcome that has one. -/
def hasNext (o : Host.Outcome State Fault Refusal) : Bool :=
  match o with
  | .next _ => true
  | _ => false

theorem next_of {o : Host.Outcome State Fault Refusal} (e : hasNext o = true) : ∃ t, o = .next t := by
  cases o with
  | next t => exact ⟨t, rfl⟩
  | fault _ => cases e
  | refused _ => cases e

theorem witness_MemoryKept : ∃ (s t : State), s.Inv ∧ step s = .next t := by
  obtain ⟨t, h⟩ := next_of (o := step (State.reset.load 0xD4000000)) (by decide +kernel)
  exact ⟨_, t, by unfold State.Inv; decide +kernel, h⟩

/-! ### Words of the spec -/

/-- Each word of a list decodes to its instruction, which has that word. -/
def Reads (l : List (Nat × Instr)) : Prop :=
  l.all (fun e => (match decodeWord e.1 with
    | .ok i => decide (i = e.2)
    | .error _ => false) && decide (encode e.2 = some e.1)) = true

/-- The listing of the address example (file 05), the encodings of files 11, 17 and 19. -/
theorem test_words_alu : Reads [
    (0x1A020000, .aldiH0 2 0), (0x1A820001, .aldiH1 2 1), (0x1B82A000, .aldiH3 2 0xA000), (0x1C020080, .aldiH4 2 0x80),
    (0x1886021C, .aaddImm 6 1 28), (0x0E03020C, .scmpEq 3 1 3), (0x2A101838, .vaddN64 8 6 7 0),
    (0x32810010, .vshrImm 1 0 16), (0x2F0F163E, .vsel 15 11 15 2), (0x370A8000, .vmoviHi 10 0x8000),
    (0x38822855, .vcmpNe 2 20 21 1), (0x3A010038, .vcmpLtN32 1 0 14 0)] := by
  unfold Reads
  decide +kernel

/-- Files 06, 11, 15, 17, 19 and 21. -/
theorem test_words_float_lane : Reads [
    (0x418A040D, .vfma 10 2 3 1), (0x50112205, .vcvtF32Rn 17 17 0 5), (0x49112200, .vfexp2 17 17 0),
    (0x84111E01, .vredAddS32 17 15 1), (0x88860A01, .vscanAddS32 6 5 1), (0x8B160401, .vballot 22 2 1),
    (0x9001020C, .kand 1 1 3 0), (0x92810200, .kmovV2k 1 1 0), (0x93120E00, .kmovK2v 18 7 0)] := by
  unfold Reads
  decide +kernel

/-- Files 07, 11, 15, 17 and 19. -/
theorem test_words_memory : Reads [
    (0xA1040060, .vldB32 4 0 3 0 0), (0xA19430A9, .vldB64 10 3 5 4 1), (0xA2080041, .vldB128 2 0 2 0 1),
    (0xA3852081, .vstB32 5 2 4 1), (0xA40C1200, .vstB64 6 1 16 0), (0xA4881061, .vstB128 2 1 3 1),
    (0xA5000FE0, .vldsB32 0 0 127 0 0), (0xA6040020, .vldsB128 1 0 1 0 0), (0xA68C1201, .vstsB32 12 1 16 1),
    (0xB2143FE1, .redAddB64 10 3 127 1), (0xB8088000, .cpy 1 2), (0xB800C000, .cpy 0 3),
    (0xC1294000, .qpopB32 5 20 0 0)] := by
  unfold Reads
  decide +kernel

/-- Files 08, 11, 15, 17, 19, 21 and 23. -/
theorem test_words_control : Reads [
    (0xD0900016, .brc 1 0 22), (0xD097FFF9, .brc 1 0 (-7)), (0xD09FFFFA, .brc 1 1 (-6)), (0xD3000A06, .loop 5 6),
    (0xD3800002, .exit 2), (0xD50001FF, .sleep 511), (0xD8000001, .hregS 0 1), (0xD8800001, .hregW 0 1),
    (0xD9000100, .hregSw 1 0), (0xDA800001, .harrCp 0 1), (0xDB000001, .hwait 0 1), (0xDB800102, .harrw 1 2),
    (0xDD800000, .fenceR), (0xE0941081, .launch 20 1 4 0 1), (0xE1163FE1, .waitc 11 3 127 1), (0xE1800810, .rsmp 4 4),
    (0xE5125FE1, .rredAddF32 18 5 127 1), (0xE728C000, .coll 5 3)] := by
  unfold Reads
  decide +kernel

/-- Files 09, 10, 15, 17, 19 and 23. -/
theorem test_words_matrix_system : Reads [
    (0xF4031450, .mmovI 3 0x1450), (0xF3030791, .madd 3 3 3 17), (0xF1020600, .setsp 2 3), (0xF5010001, .mhwaitRegister 0 1), (0xF4810002, .mharrRegister 0 2),
    (0xE8080029, .tld 1 5 1), (0xE9001523, .mmaE4m3E4m3 0 0 5 2 4 3), (0xE9000120, .mmaE4m3E4m3 0 0 0 2 4 0),
    (0xEE000000, .zacc 0 0), (0xF1860000, .swrd 6 0), (0xEF000010, .accst 0 2 0), (0xF5800000, .mend),
    (0xF8000031, .srd 0 0x31), (0xF8011000, .srd 1 0x1000), (0xF8820021, .swrPoolsb 2), (0xF8851040, .swr 5 0x1040),
    (0xF8861041, .swrDumpc 6), (0xF9000000, .eret), (0xF9800000, .tlbiAll), (0xFB000800, .halt 4),
    (0xFC140809, .callh 20 4 2 1)] := by
  unfold Reads
  decide +kernel

/-! ### Terms that are no instruction -/

/-- No term of a list is well formed, and none is read from the word that would encode it. -/
def IllFormed (l : List Instr) : Prop := l.all (fun i => !i.wellFormed && (match encode i with
  | none => true
  | some w => match decodeWord w with
    | .ok j => decide (j ≠ i)
    | .error _ => true)) = true

/-- R125, R141, R151, R155: a pair split onto its source, a source format 7, an element beyond the packing, ranges that
pass v127 or meet the scale register. -/
theorem test_ill_formed_vector : IllFormed [
    .asplit 1 0 1, .vcvtF32Rn 0 0 0 7, .vcvtF32Rn 0 0 7 0, .vcvtF32Rz 0 0 0 7, .vcvtF32Rz 0 0 7 0,
    .vcvtF32Sr 0 0 0 7, .vcvtF32Sr 0 0 7 0, .vcvtBf16Rn 0 0 0 0 7, .vcvtBf16Rn 0 0 0 7 0, .vcvtBf16Rz 0 0 0 0 7,
    .vcvtBf16Rz 0 0 0 7 0, .vcvtBf16Sr 0 0 0 0 7, .vcvtBf16Sr 0 0 0 7 0, .vcvtE4m3Rn 0 0 0 0 7,
    .vcvtE4m3Rn 0 0 0 7 0, .vcvtE4m3Rz 0 0 0 0 7, .vcvtE4m3Rz 0 0 0 7 0, .vcvtE4m3Sr 0 0 0 0 7,
    .vcvtE4m3Sr 0 0 0 7 0, .vcvtE5m2Rn 0 0 0 0 7, .vcvtE5m2Rn 0 0 0 7 0, .vcvtE5m2Rz 0 0 0 0 7,
    .vcvtE5m2Rz 0 0 0 7 0, .vcvtE5m2Sr 0 0 0 0 7, .vcvtE5m2Sr 0 0 0 7 0, .vcvtE2m1Rn 0 0 0 0 7,
    .vcvtE2m1Rn 0 0 0 7 0, .vcvtE2m1Rz 0 0 0 0 7, .vcvtE2m1Rz 0 0 0 7 0, .vcvtE2m1Sr 0 0 0 0 7,
    .vcvtE2m1Sr 0 0 0 7 0, .vcvtS32Rn 0 0 0 7, .vcvtS32Rn 0 0 7 0, .vcvtS32Rz 0 0 0 7, .vcvtS32Rz 0 0 7 0,
    .vcvtS32Sr 0 0 0 7, .vcvtS32Sr 0 0 7 0, .vcvtN32Rn 0 0 0 7, .vcvtN32Rn 0 0 7 0, .vcvtN32Rz 0 0 0 7,
    .vcvtN32Rz 0 0 7 0, .vcvtN32Sr 0 0 0 7, .vcvtN32Sr 0 0 7 0, .vqntE4m3E8m0 0 97 96 0, .vqntE4m3E8m0 0 64 65 0,
    .vqntE4m3S32scale 0 97 96 0, .vqntE4m3S32scale 0 64 65 0, .vqntE5m2E8m0 0 97 96 0, .vqntE5m2E8m0 0 64 65 0,
    .vqntE5m2S32scale 0 97 96 0, .vqntE5m2S32scale 0 64 65 0, .vqntE2m1E8m0 0 97 96 0, .vqntE2m1E8m0 0 64 65 0,
    .vqntE2m1S32scale 0 97 96 0, .vqntE2m1S32scale 0 64 65 0, .vdqntE4m3E8m0 97 64 60 0, .vdqntE4m3E8m0 0 64 3 0,
    .vdqntE4m3S32scale 97 64 60 0, .vdqntE4m3S32scale 0 64 3 0, .vdqntE5m2E8m0 97 64 60 0, .vdqntE5m2E8m0 0 64 3 0,
    .vdqntE5m2S32scale 97 64 60 0, .vdqntE5m2S32scale 0 64 3 0, .vdqntE2m1E8m0 97 64 60 0, .vdqntE2m1E8m0 0 64 3 0,
    .vdqntE2m1S32scale 97 64 60 0, .vdqntE2m1S32scale 0 64 3 0] := by
  unfold IllFormed
  decide +kernel

/-- R186–R188, R195, R209, R216, R224, R229, R243: queues that are none, hurdles beyond 63, h0, an empty loop body, nine
arguments. -/
theorem test_ill_formed_memory_control : IllFormed [
    .pref 3 0 0 0, .cpy 2 0, .cpy 7 0, .cpytRow 2 0, .cpytRow 7 0, .cpytCol 2 0, .cpytCol 7 0, .cpym 2 0, .cpym 7 0,
    .gthB32 2 0 0, .gthB32 7 0 0, .gthB64 2 0 0, .gthB64 7 0 0, .gthB128 2 0 0, .gthB128 7 0 0, .sctB32 1 0 0 0,
    .sctB32 7 0 0 0, .sctB64 1 0 0 0, .sctB64 7 0 0 0, .sctB128 1 0 0 0, .sctB128 7 0 0 0, .loop 5 0, .hregS 1 64,
    .hregS 0 0, .hregW 1 64, .hregW 0 0, .hregSw 1 64, .hregSw 0 0, .hdrop 1 64, .hdrop 0 0, .harr 1 64,
    .harrCp 1 64, .hwait 1 64, .harrw 1 64, .htest 0 1 64, .spawn 0 0 9 0, .coll 4 0, .coll 7 0] := by
  unfold IllFormed
  decide +kernel

/-- R57, R253, R257, R262, R264, R269, R270, R279, R285: tiles beyond t15, KEEP with steps, a pair at m15, registers that
are none or of the other class, CALLH ranges. -/
theorem test_ill_formed_matrix_system : IllFormed [
    .tldt 0 0 6, .mmaE4m3E4m3 15 0 0 0 0 1, .mmaE4m3E4m3 0 1 0 0 0 1, .mmaE4m3E5m2 15 0 0 0 0 1,
    .mmaE4m3E5m2 0 1 0 0 0 1, .mmaE5m2E4m3 15 0 0 0 0 1, .mmaE5m2E4m3 0 1 0 0 0 1, .mmaE5m2E5m2 15 0 0 0 0 1,
    .mmaE5m2E5m2 0 1 0 0 0 1, .mmaE2m1E2m1 15 0 0 0 0 1, .mmaE2m1E2m1 0 1 0 0 0 1, .mmaE4m3E2m1 15 0 0 0 0 1,
    .mmaE4m3E2m1 0 1 0 0 0 1, .mmaBf16Bf16 15 0 0 0 0 1, .mmaBf16Bf16 0 1 0 0 0 1, .mmasE4m3E4m3 0 0 0 0 15 0,
    .mmasE5m2E5m2 0 0 0 0 15 0, .mmasE2m1E2m1 0 0 0 0 15 0, .drainAxpy 0 15 0, .drainRed 0 15, .mharr 1 64,
    .mharr 0 0, .mharrRegister 1 64, .mharrRegister 0 0, .mharrDrop 1 64, .mharrDrop 0 0, .mhwait 1 64, .mhwait 0 0,
    .mhwaitRegister 1 64, .mhwaitRegister 0 0, .srd 0 8, .srd 64 0x1000, .srd 1 0x30, .swr 0 8, .swr 64 0x1000,
    .swr 0 0x1030, .callh 0 0 0 0, .callh 0 0 9 0, .callh 0 121 8 0] := by
  unfold IllFormed
  decide +kernel

/-! ### Worked examples of the spec -/

/-- Lane 0 of `one` runs alone; v1 to v3 and v0 hold words. -/
def words (a b c d : Nat) : State :=
  heat (fun h => (((h.setV 1 0 (BitVec.ofNat 32 a)).setV 2 0 (BitVec.ofNat 32 b)).setV 3 0 (BitVec.ofNat 32 c)).setV 0 0
    (BitVec.ofNat 32 d)) solo

/-- Register v n of lane l of the issuing heat after an instruction. -/
def vOf (o : Host.Outcome State Fault Refusal) (n l : Nat) : Option Nat :=
  match o with
  | .next t => t.curHeat?.map (fun h => (h.v n l).toNat)
  | _ => none

/-- The table "Results at the edges" of file 05. -/
theorem test_edges_arithmetic :
    vOf (exec (.vadd 0 1 2 0) (words 0x7FFFFFFF 1 0 0)) 0 0 = some 0x80000000 ∧
    vOf (exec (.vaddSatS32 0 1 2 0) (words 0x7FFFFFFF 1 0 0)) 0 0 = some 0x7FFFFFFF ∧
    vOf (exec (.vsubSatN32 0 1 2 0) (words 3 5 0 0)) 0 0 = some 0 ∧
    vOf (exec (.vmul 0 1 2 0) (words 0x10000 0x10000 0 0)) 0 0 = some 0 ∧
    vOf (exec (.vmulhN32 0 1 2 0) (words 0x10000 0x10000 0 0)) 0 0 = some 1 ∧
    vOf (exec (.vmulhS32 0 1 2 0) (words 0x80000000 0x80000000 0 0)) 0 0 = some 0x40000000 ∧
    vOf (exec (.vdp4S8 0 1 2 0) (words 0x80808080 0x7F7F7F7F 0 0)) 0 0 = some 0xFFFF0200 := by decide +kernel

theorem test_edges_bits :
    vOf (exec (.vshl 0 1 2 0) (words 1 0x28 0 0)) 0 0 = some 0 ∧
    vOf (exec (.vsra 0 1 2 0) (words 0x80000000 0x28 0 0)) 0 0 = some 0xFFFFFFFF ∧
    vOf (exec (.vabsS32 0 1 0) (words 0x80000000 0 0 0)) 0 0 = some 0x7FFFFFFF ∧
    vOf (exec (.vclz 0 1 0) (words 0 0 0 0)) 0 0 = some 0x20 ∧
    vOf (exec (.vbfeS32 0 1 2 0) (words 0xF000 0x40C 0 0)) 0 0 = some 0xFFFFFFFF ∧
    vOf (exec (.vbfeN32 0 1 2 0) (words 0xF000 0x40C 0 0)) 0 0 = some 0xF ∧
    vOf (exec (.vbfeN32 0 1 2 0) (words 0xF0000000 0x81C 0 0)) 0 0 = some 0xF ∧
    vOf (exec (.vbfi 0 1 2 0) (words 5 0x308 0 0xFFFFFFFF)) 0 0 = some 0xFFFFFDFF := by decide +kernel

/-- Scalar register n of the issuing heat after an instruction. -/
def sOf (o : Host.Outcome State Fault Refusal) (n : Nat) : Option Nat :=
  match o with
  | .next t => t.curHeat?.map (fun h => (h.sr n).toNat)
  | _ => none

theorem test_edges_scalar :
    let s := heat (fun h => h.setS 1 0xFFFFFFFFFFFFFFFF#64) one
    sOf (exec (.smulhN64 2 1 1) s) 2 = some 0xFFFFFFFFFFFFFFFE ∧ sOf (exec (.smulhS64 2 1 1) s) 2 = some 0 ∧
      sOf (exec (.sclz 2 3) s) 2 = some 0x40 := by decide +kernel

/-- The test vectors of DRAW (file 04). -/
theorem test_draw : mix64 0 = 0 ∧ draw 0 0 0 = 0xE220A8397B1DCDAF ∧ draw 0 0 1 = 0x6E789E6AA1B965F4 := by decide +kernel

/-- 300.0 into byte 2 of v9 (file 06): the word vcvt.e4m3.rn v9, v4, f32, 0, 2. -/
theorem test_vcvt_300 :
    vOf (exec (.vcvtE4m3Rn 9 4 2 0 0) (heat (fun h => (h.setV 4 0 0x43960000#32).setV 9 0 0x11223344#32) solo)) 9 0 =
      some 0x11793344 := by decide +kernel

/-- Two elements of 7 × 2^−12 forced to stochastic rounding (file 04): codes 0x00 and 0x01, CVCNT 2. -/
theorem test_vcvt_forced :
    let s := words 0x3AE00000 0 0 0
    let t := match exec (.vcvtE4m3Rn 0 1 0 0 0) s with
      | .next t => t
      | _ => s
    vOf (.next t) 0 0 = some 0 ∧ ((hot t).lane 0).cvcnt = 1#64 ∧
      vOf (exec (.vcvtE4m3Rn 0 1 1 0 0) (heat (fun h => h.setLane 0 { h.lane 0 with hdr := 0x100000, idx := 0 }) t)) 0 0 =
        some 0x100 := by decide +kernel

/-- The block of 1.0, 0.3, −5.0 and zeros (file 06): codes 0x68, 0x5A, 0xFA under scale 0x79. -/
theorem test_vqnt_block :
    let o := exec (.vqntE4m3E8m0 32 0 40 1) (heat (fun h => ((h.setV 0 0 0x3F800000#32).setV 1 0 0x3E99999A#32).setV 2 0
      0xC0A00000#32) solo)
    vOf o 32 0 = some 0x00FA5A68 ∧ vOf o 33 0 = some 0 ∧ vOf o 39 0 = some 0 ∧ vOf o 40 0 = some 0x7900 := by
  decide +kernel

/-- 2^24, 1, 1 and 1 in lanes 0 to 3 (file 06). -/
theorem test_scan_network :
    let s := lanes 15#32 (heat (fun h => (((h.setV 1 0 0x4B800000#32).setV 1 1 0x3F800000#32).setV 1 2 0x3F800000#32).setV 1 3
      0x3F800000#32) one)
    let o := exec (.vscanAddF32 0 1 0) s
    vOf o 0 0 = some 0x4B800000 ∧ vOf o 0 1 = some 0x4B800000 ∧ vOf o 0 2 = some 0x4B800001 ∧
      vOf o 0 3 = some 0x4B800001 ∧ vOf (exec (.vredAddF32 0 1 0) s) 0 0 = some 0x4B800001 := by decide +kernel

/-- The load with two faults (file 07): lane 2's page is not mapped, as its walk has answered, and lane 3 does not
take part. -/
theorem test_load_two_faults :
    let h := fun h => (((((h.setA 3 0x3FFF0000#72).setV 5 0 0x100#32).setV 5 1 0x108#32).setV 5 2 0x10000#32).setV 5 3 3#32)
    let s := lanes 15#32 (heat (fun y : Heat => (upto 3).foldl (fun z l => z.setK 1 l true) (h y)) one)
    (match exec (.vldB64 10 3 5 4 1) { s with
        walks := [{ page := 0x4000, users := [(0, 0, 0)], result := some .invalid }] } with
      | .next t => (t.core 0).frozen.map (fun r => (r.cls, r.codes.toNat, r.addr.toNat))
      | _ => none) = some (0x14, 0x400, 0x40000000) := by decide +kernel

/-- The counts of four threads of weights 1, 0, 2.5 and 0.5 with u = 0.5 (file 08). -/
theorem test_copy_counts :
    copyCounts 4 (weightOf 0x3F800000 + weightOf 0x40200000 + weightOf 0x3F000000) (2 ^ 52) 0
      (([0x3F800000, 0, 0x40200000, 0x3F000000] : List W32).map weightOf) = [1, 0, 3, 0] := by decide +kernel

/-- Element (0, 0) of the FP8 dot product (file 15): 0x47800017, 15 lost bits, 3 swamped terms. -/
theorem test_fp8_dot :
    let a := (List.range 64).map (fun k => valOf .e4m3 (if k = 0 then 0x78 else if k % 16 = 0 then 0x01 else 0x1D))
    let b := (List.range 64).map (fun k => valOf .e4m3 (if k = 0 then 0x78 else if k % 16 = 0 then 0x01 else 0x10))
    accum 0x00111450 {} 0 0 (products a b) = (0x47800017, 15, 3) := by decide +kernel

/-- Where an access to 0x4_0002_1234 goes when the level-2 entry of its walk is a word: the physical address. -/
def goesTo (l2 : Nat) : Option Nat :=
  match ({ one with mem := writeNat one.mem 0x60080 8 l2 } : State).translate 0 0x400021234 with
  | .page _ size leaf => some (pageAddr leaf size 0x400021234)
  | _ => none

/-- The table of file 25: the leaf as given and its permissions, bit 11 set, a 1 GiB leaf, and one whose PA bits 29:16
are not zero. -/
theorem test_walk :
    leafAt 0x400021234 3 0x84A30009B = .page 0x400020000 0x10000 0x84A30009B ∧
      pageAddr 0x84A30009B 0x10000 0x400021234 = 0x84A301234 ∧ pteReserved 0x84A30009B = false ∧
      pteReserved 0x84A30089B = true ∧ pteX 0x84A30009B = false ∧ pteW 0x84A30009B = true ∧ pteD 0x84A30019B = true ∧
      goesTo 0xC0000009B = some 0xC00021234 ∧ goesTo 0xC0001009B = none := by decide +kernel

end Sys2Proof.Tests
end

/-! SUPPORT. What every step keeps: memory in its canonical form (R9, R541, log entry 3), the fused rollback
counter and the device's number (R441, R541). `Keeps σ s` says so of two states; for each operation of the model
that gives a state there is one lemma that carries `Keeps σ` over it, so that a proof about a composition reads
like the composition: `h.noteFault.tick.freezeOn`. The lemmas stand in the order of the model's files. -/

namespace Sys2Proof.Machine

section

/-- What stands between two states of a step: memory in its canonical form stays so, and the fuses keep their
values. -/
structure Keeps (σ s : State) : Prop where
  mem : σ.Inv → s.Inv
  rollback : s.rollback = σ.rollback
  self : s.self = σ.self

/-- `Keeps` of the next state of an outcome, where it has one. -/
def KeepsOut (σ : State) (o : Out) : Prop := ∀ s, o = .next s → Keeps σ s

/-- `Keeps` of a state that may not be there. -/
def KeepsOpt (σ : State) (o : Option State) : Prop := ∀ s, o = some s → Keeps σ s

/-- `Keeps` of what the preparation of an issue leaves. -/
def KeepsPrep (σ : State) : Prep → Prop
  | .stay s => Keeps σ s
  | .run s _ => Keeps σ s

variable {σ s : State} {α β : Type}

theorem Keeps.refl (s : State) : Keeps s s := ⟨id, rfl, rfl⟩

/-- A change of any other fields. They are variables of the statement, so that unification reads them off the state
that a chain `h.update.tick` is to prove something of. -/
theorem Keeps.update
    {inputs : List Turn} {cur : Cur}
    {stamp lastQueue nextTeam vfsA vfsB powerLimit ringBase ringLen ringRead ringWrite traceKinds samplePeriod
      blackWrite wavelengths : Nat}
    {poison retireList retired vfChanging capped fenced portsUp : List Nat} {spare : FMap W32}
    {scaleFrames throttled : List (Nat × Nat)} {corrections : List (Nat × W64)} {contexts : FMap Context}
    {cgens : FMap (BitVec 16)} {tlb : List TlbEntry} {tables : List TableEntry} {walks : List OpenWalk}
    {bindings : List Binding} {grids : FMap Grid} {gridQueues : FMap (List Nat)}
    {lastGrid incarnation txSeq rxSeq : W32} {teams : FMap Team} {cores : FMap Core} {domain : FMap DomEntry}
    {exports : FMap ExpEntry} {groups : FMap GrpEntry} {detTurn remap collNext devLost : FMap Nat}
    {owners : FMap OwnerRec} {relayErrors collErrors : FMap W64} {packets flash : List (Nat × List Byte)}
    {fabric : List FabReq} {fabricOut : List (Nat × Nat × Nat × List Byte)} {engines : List EngCmd}
    {colls : List CollCmd} {collOut collWait : List CollMsg} {ordRecs : FMap OrdRec} {ordMsgs : List OrdMsg}
    {predictor : FMap PredEntry} {gtc linkErrors : W64} {gtcOpen withhold linkDown recovery : Bool}
    {pacers : FMap Pacer} {devTrace : FMap (List TraceRec)} {blackBox : List BlackBox}
    {unacked : List (W32 × Frame)} {hostOut : List Frame} {wire : List (List Byte)}
    {measures : FMap (List Byte)}
    (h : Keeps σ s) :
    Keeps σ ⟨inputs, cur, stamp, s.mem, poison, spare, scaleFrames, retireList, retired, corrections, contexts, cgens,
      tlb, tables, walks, bindings, grids, gridQueues, lastGrid, lastQueue, teams, nextTeam, cores, s.self,
      domain, exports, groups, detTurn, remap, incarnation, owners, relayErrors, packets, fabric, fabricOut,
      engines, collNext, colls, collOut, collWait, collErrors, ordRecs, ordMsgs, predictor, gtc, gtcOpen, vfsA,
      vfsB, vfChanging, powerLimit, pacers, throttled, capped, fenced, withhold, ringBase, ringLen, ringRead,
      ringWrite, traceKinds, samplePeriod, devTrace, devLost, blackBox, blackWrite, wavelengths, linkDown,
      txSeq, rxSeq, unacked, linkErrors, hostOut, wire, portsUp, flash, measures, s.rollback, recovery⟩ :=
  ⟨h.mem, h.rollback, h.self⟩

/-- A write to memory that keeps the canonical form. -/
theorem Keeps.withMem {m : FMap Byte} (h : Keeps σ s) (hm : Memory.wf s.mem = true → Memory.wf m = true) :
    Keeps σ { s with mem := m } :=
  ⟨fun hi => hm (h.mem hi), h.rollback, h.self⟩

theorem Keeps.foldl {f : State → α → State} {l : List α} (h : Keeps σ s)
    (hf : ∀ u x, Keeps σ u → Keeps σ (f u x)) : Keeps σ (l.foldl f s) := by
  induction l generalizing s with
  | nil => exact h
  | cons x l ih => exact ih (hf s x h)

theorem Keeps.ite {c : Prop} [Decidable c] {u : State} (hs : Keeps σ s) (hu : Keeps σ u) :
    Keeps σ (if c then s else u) := by
  split
  · exact hs
  · exact hu

theorem Keeps.getD {o : Option State} (h : Keeps σ s) (ho : KeepsOpt σ o) : Keeps σ (o.getD s) := by
  cases o with
  | none => exact h
  | some u => exact ho u rfl

theorem Keeps.elim {o : Option α} {f : α → State} (h : Keeps σ s) (hf : ∀ x, Keeps σ (f x)) :
    Keeps σ (o.elim s f) := by
  cases o with
  | none => exact h
  | some x => exact hf x

theorem Keeps.of_some {o : Option State} (ho : KeepsOpt σ o) (e : o = some s) : Keeps σ s := ho s e

theorem Keeps.of_next {o : Out} (ho : KeepsOut σ o) (e : o = .next s) : Keeps σ s := ho s e

theorem Keeps.of_stay {p : Prep} (hp : KeepsPrep σ p) (e : p = .stay s) : Keeps σ s := by
  rw [e] at hp
  exact hp

theorem Keeps.of_run {p : Prep} {i : Instr} (hp : KeepsPrep σ p) (e : p = .run s i) : Keeps σ s := by
  rw [e] at hp
  exact hp

theorem Keeps.toNext (h : Keeps σ s) : KeepsOut σ (.next s) := fun _ e => by
  cases e
  exact h

theorem KeepsOut.fault {r : Fault} : KeepsOut σ (.fault r) := fun _ e => nomatch e

theorem KeepsOut.refused {r : Refusal} : KeepsOut σ (.refused r) := fun _ e => nomatch e

theorem KeepsOut.ite {c : Prop} [Decidable c] {o p : Out} (ho : KeepsOut σ o) (hp : KeepsOut σ p) :
    KeepsOut σ (if c then o else p) := by
  split
  · exact ho
  · exact hp

theorem Keeps.toSome (h : Keeps σ s) : KeepsOpt σ (some s) := fun _ e => by
  cases e
  exact h

theorem KeepsOpt.none : KeepsOpt σ none := fun _ e => nomatch e

theorem Keeps.toStay (h : Keeps σ s) : KeepsPrep σ (.stay s) := h

theorem Keeps.toRun {i : Instr} (h : Keeps σ s) : KeepsPrep σ (.run s i) := h

theorem KeepsOpt.map {o : Option α} {f : α → State} (hf : ∀ x, Keeps σ (f x)) : KeepsOpt σ (o.map f) := by
  cases o with
  | none => exact .none
  | some x => exact (hf x).toSome

theorem KeepsOpt.findSome? {l : List α} {f : α → Option State} (hf : ∀ x, KeepsOpt σ (f x)) :
    KeepsOpt σ (l.findSome? f) := by
  intro u hu
  obtain ⟨x, -, hx⟩ := List.exists_of_findSome?_eq_some hu
  exact hf x u hx

theorem Keeps.foldlFst {f : State × β → α → State × β} {l : List α} {p : State × β} (h : Keeps σ p.1)
    (hf : ∀ q x, Keeps σ q.1 → Keeps σ (f q x).1) : Keeps σ (l.foldl f p).1 := by
  induction l generalizing p with
  | nil => exact h
  | cons x l ih => exact ih (hf p x h)

/-! ### `Machine/Ops` -/

theorem Keeps.putCore {c : Nat} {k : Core} (h : Keeps σ s) : Keeps σ (s.putCore c k) := h.update

theorem Keeps.putTeam {t : Nat} {x : Team} (h : Keeps σ s) : Keeps σ (s.putTeam t x) := h.update

theorem Keeps.modTeam {t : Nat} {f : Team → Team} (h : Keeps σ s) : Keeps σ (s.modTeam t f) := by
  unfold State.modTeam
  split
  · exact h
  · exact h.putTeam

theorem Keeps.putHeat {t z : Nat} {y : Heat} (h : Keeps σ s) : Keeps σ (s.putHeat t z y) := by
  unfold State.putHeat
  split
  · exact h.putCore
  · exact h.modTeam

theorem Keeps.modHeat {t y : Nat} {f : Heat → Heat} (h : Keeps σ s) : Keeps σ (s.modHeat t y f) := by
  unfold State.modHeat
  split
  · exact h
  · exact h.putHeat

theorem Keeps.modSeq {t : Nat} {f : Seq → Seq} (h : Keeps σ s) : Keeps σ (s.modSeq t f) := h.modTeam

theorem Keeps.modCtx {a : Nat} {f : Context → Context} (h : Keeps σ s) : Keeps σ (s.modCtx a f) := by
  unfold State.modCtx
  split
  · exact h
  · exact h.update

theorem Keeps.modGrid {g : Nat} {f : Grid → Grid} (h : Keeps σ s) : Keeps σ (s.modGrid g f) := by
  unfold State.modGrid
  split
  · exact h
  · exact h.update

theorem Keeps.tick (h : Keeps σ s) : Keeps σ s.tick := h.update

theorem Keeps.putCurHeat {y : Heat} (h : Keeps σ s) : Keeps σ (s.putCurHeat y) := by
  unfold State.putCurHeat
  split
  · exact h.putHeat
  · exact h.putCore
  · exact h

theorem Keeps.putCurSeq {q : Seq} (h : Keeps σ s) : Keeps σ (s.putCurSeq q) := by
  unfold State.putCurSeq
  split
  · exact h.modSeq
  · exact h

theorem Keeps.count {c src n : Nat} (h : Keeps σ s) : Keeps σ (s.count c src n) := by
  unfold State.count
  dsimp only
  split
  · exact h
  · exact h.putCore

theorem Keeps.noteIssue (h : Keeps σ s) : Keeps σ s.noteIssue := by
  unfold State.noteIssue
  split
  · exact h.putCore.count
  · exact h

theorem Keeps.finishBy {y : Heat} {f : Nat → Lane → Lane} (h : Keeps σ s) :
    Keeps σ (s.finishBy y f) := h.putCurHeat.noteIssue.tick

theorem Keeps.finish {y : Heat} (h : Keeps σ s) : Keeps σ (s.finish y) := h.finishBy

theorem Keeps.finishPark {y : Heat} {p : Park} (h : Keeps σ s) : Keeps σ (s.finishPark y p) := h.finishBy

theorem Keeps.hold {y : Heat} {p : Park} {cause : Nat} (h : Keeps σ s) : Keeps σ (s.hold y p cause) := h.putCurHeat

theorem Keeps.finishSeq {q : Seq} (h : Keeps σ s) : Keeps σ (s.finishSeq q) := h.putCurSeq.count.tick

theorem Keeps.finishSeqAt {q : Seq} {p : Addr} (h : Keeps σ s) :
    Keeps σ (s.finishSeqAt q p) := h.putCurSeq.count.tick

theorem Keeps.holdSeq {q : Seq} {p : Park} (h : Keeps σ s) : Keeps σ (s.holdSeq q p) := h.putCurSeq

theorem Keeps.traceCore {c : Nat} {r : TraceRec} (h : Keeps σ s) : Keeps σ (s.traceCore c r) := by
  unfold State.traceCore
  split
  · dsimp only
    split
    · exact h.putCore.count
    · exact h.putCore
  · exact h

theorem Keeps.traceDev {src : Nat} {r : TraceRec} (h : Keeps σ s) : Keeps σ (s.traceDev src r) := by
  unfold State.traceDev
  split
  · exact h.update
  · exact h

theorem Keeps.blackBoxAdd {b : BlackBox} (h : Keeps σ s) : Keeps σ (s.blackBoxAdd b) := h.update

theorem Keeps.sendOne {f : Frame} (h : Keeps σ s) : Keeps σ (s.sendOne f) := h.update

theorem Keeps.sendChunks {type n : Nat} {tag : W32} {p : List Byte} (h : Keeps σ s) :
    Keeps σ (s.sendChunks type tag n p) := by
  induction n generalizing s p with
  | zero => exact h.sendOne
  | succ n ih =>
    unfold State.sendChunks
    split
    · exact h.sendOne
    · exact ih h.sendOne

theorem Keeps.sendFrame {type : Nat} {tag : W32} {payload : List Byte} (h : Keeps σ s) :
    Keeps σ (s.sendFrame type tag payload) := h.sendChunks

theorem Keeps.mgmtEvent {code : Nat} {data : List Byte} (h : Keeps σ s) :
    Keeps σ (s.mgmtEvent code data) := h.sendFrame

theorem Keeps.candidate {frame : Nat} (h : Keeps σ s) : Keeps σ (s.candidate frame) := by
  unfold State.candidate
  split
  · exact h
  · exact h.update.mgmtEvent

theorem Keeps.candidates {frames : List Nat} (h : Keeps σ s) :
    Keeps σ (s.candidates frames) := h.foldl (fun _ _ h1 => h1.candidate)

theorem Keeps.mgmtReply {tag : W32} {status : Nat} {data : List Byte} (h : Keeps σ s) :
    Keeps σ (s.mgmtReply tag status data) := h.sendFrame

theorem Keeps.gridComplete {gid : Nat} {g : Grid} {status : Nat} (h : Keeps σ s) :
    Keeps σ (s.gridComplete gid g status) := by
  unfold State.gridComplete
  split
  · exact h.sendFrame
  · exact h

theorem Keeps.sendPacket {dev : Nat} {p : Packet} (h : Keeps σ s) : Keeps σ (s.sendPacket dev p) := by
  unfold State.sendPacket
  split
  · exact h
  · exact h.update

theorem Keeps.modStream {asid dev : Nat} {f : Stream → Stream} (h : Keeps σ s) :
    Keeps σ (s.modStream asid dev f) := h.modCtx

theorem Keeps.sendClose {asid dev : Nat} (h : Keeps σ s) : Keeps σ (s.sendClose asid dev) := by
  unfold State.sendClose
  split
  · exact h
  · exact h.sendPacket

theorem Keeps.closeIdle {asid : Nat} (h : Keeps σ s) : Keeps σ (s.closeIdle asid) := by
  unfold State.closeIdle
  split
  · exact h
  · split
    · exact h
    · split
      · exact h.update
      · exact h.foldl (fun _ _ h1 => h1.modStream.sendClose.ite h1)

theorem Keeps.collSend {group k : Nat} {words : List W64} {data : List Byte} (h : Keeps σ s) :
    Keeps σ (s.collSend group k words data) := h.update

theorem Keeps.putColl {c : CollCmd} (h : Keeps σ s) : Keeps σ (s.putColl c) := h.update

theorem Keeps.collVerdict {c : CollCmd} {v : Nat} (h : Keeps σ s) : Keeps σ (s.collVerdict c v) := by
  unfold State.collVerdict
  dsimp only
  split
  · exact h
  · exact h.putColl.collSend

theorem Keeps.collNumber {t heat : Nat} {e : QEntry} {words : List W64} {group : Nat} (h : Keeps σ s) :
    Keeps σ (s.collNumber t heat e words group).1 := h.update.putColl

theorem Keeps.takeAll {t : Nat} (h : Keeps σ s) : Keeps σ (s.takeAll t) := by
  unfold State.takeAll
  split
  · exact h
  · exact ((h.foldl (fun _ _ h1 => h1.update)).foldl (fun _ _ h1 => h1.foldl (fun _ _ h2 => h2.collNumber))).foldl
      (fun _ _ h1 => h1.collVerdict)

theorem Keeps.endCheck {t : Nat} (h : Keeps σ s) : Keeps σ (s.endCheck t) := by
  unfold State.endCheck
  split
  · exact h
  · split
    · exact h
    · exact (h.foldl (fun _ _ h1 => h1.modTeam)).count.update

theorem Keeps.endChecks {ts : List Nat} (h : Keeps σ s) : Keeps σ (s.endChecks ts) := by
  unfold State.endChecks
  refine h.foldl (fun _ _ h1 => ?_)
  split
  · exact h1
  · split <;> exact h1.endCheck

theorem Keeps.dropTeams {gone : List Nat} (h : Keeps σ s) :
    Keeps σ (s.dropTeams gone) := (h.endChecks.foldl (fun _ _ h1 => h1.takeAll)).update

theorem Keeps.removeContext {asid : Nat} (h : Keeps σ s) : Keeps σ (s.removeContext asid) := by
  unfold State.removeContext
  split
  · exact h
  · exact (h.foldl (fun _ _ h1 => h1.gridComplete)).modCtx.dropTeams.update.closeIdle.blackBoxAdd

theorem Keeps.noteFault {c : Nat} {r : TrapRec} (h : Keeps σ s) :
    Keeps σ (s.noteFault c r) := h.blackBoxAdd.traceCore

theorem Keeps.unpackTeam {t : Nat} (h : Keeps σ s) : Keeps σ (s.unpackTeam t) := h.modTeam

theorem Keeps.unpackCore {c : Nat} (h : Keeps σ s) :
    Keeps σ (s.unpackCore c) := h.foldl (fun _ _ h1 => h1.unpackTeam)

theorem Keeps.freezeOn {c : Nat} {r : TrapRec} (h : Keeps σ s) : Keeps σ (s.freezeOn c r) := h.putCore

theorem Keeps.queueFault {c : Nat} {r : TrapRec} (h : Keeps σ s) : Keeps σ (s.queueFault c r) := by
  unfold State.queueFault
  dsimp only
  split
  · exact h.putCore
  · exact h.removeContext

theorem Keeps.raiseOn {c : Nat} {r : TrapRec} (h : Keeps σ s) : Keeps σ (s.raiseOn c r) := by
  unfold State.raiseOn
  dsimp only
  split
  · exact h.noteFault.tick.freezeOn.unpackCore
  · split
    · split
      · exact h.noteFault.tick.freezeOn.queueFault
      · exact h.noteFault.tick.freezeOn
    · split
      · exact h
      · exact h.noteFault.tick.queueFault

theorem Keeps.trapHeatFault {c cls : Nat} (h : Keeps σ s) :
    Keeps σ (s.trapHeatFault c cls) := h.putCore.tick.blackBoxAdd.mgmtEvent

theorem Keeps.raiseRec {r : TrapRec} (h : Keeps σ s) : Keeps σ (s.raiseRec r) := by
  unfold State.raiseRec
  split
  · exact h.trapHeatFault
  · split
    · exact h.endCheck.tick
    · exact h.raiseOn
  · split
    · exact h.endCheck.tick
    · exact h.raiseOn

theorem Keeps.raise {cls info : Nat} (h : Keeps σ s) : Keeps σ (s.raise cls info) := h.raiseRec

theorem Keeps.raiseAddr {bad : List (Nat × Nat × Addr)} (h : Keeps σ s) : Keeps σ (s.raiseAddr bad) := h.raiseRec

theorem Keeps.raiseAsync {t : Nat} {r : TrapRec} (h : Keeps σ s) : Keeps σ (s.raiseAsync t r) := by
  unfold State.raiseAsync
  split
  · exact h.trapHeatFault
  · split
    · exact h
    · split
      · exact h.putTeam
      · split
        · exact h.endCheck
        · exact h.raiseOn

theorem Keeps.raiseOp {t c : Nat} {r : TrapRec} (h : Keeps σ s) : Keeps σ (s.raiseOp t c r) := by
  unfold State.raiseOp
  split
  · exact h.endCheck
  · exact h.raiseOn

theorem Keeps.startTrapHeat {c : Nat} (h : Keeps σ s) : Keeps σ (s.startTrapHeat c) := by
  unfold State.startTrapHeat
  dsimp only
  split
  · exact h.putCore.tick.mgmtEvent
  · exact h.putCore.tick

theorem Keeps.setAction {t a cls : Nat} (h : Keeps σ s) : Keeps σ (s.setAction t a cls) := by
  unfold State.setAction
  split
  · exact h
  · split
    · exact h
    · exact h.foldl (fun _ _ h1 => h1.modTeam)

theorem Keeps.nextQueued {c : Nat} (h : Keeps σ s) : Keeps σ (s.nextQueued c) := by
  unfold State.nextQueued
  dsimp only
  split
  · exact h
  · exact h.putCore

theorem Keeps.eret {c : Nat} (h : Keeps σ s) : Keeps σ (s.eret c) := by
  unfold State.eret
  dsimp only
  split
  · exact h
  · refine Keeps.nextQueued
      (Keeps.putCore (Keeps.foldl (h.foldl (fun _ _ h1 => ?_)) (fun _ _ h1 => h1.removeContext)))
    split
    · exact h1
    · exact h1.setAction

/-! ### `Machine/Operands` -/

theorem Keeps.heatWordBy {us : List Uses} {f : Heat → Out} (h : Keeps σ s) (hf : ∀ x1, KeepsOut σ (f x1)) :
    KeepsOut σ (heatWordBy s us f) := by
  unfold Machine.heatWordBy
  split
  · exact KeepsOut.fault
  · split
    · exact h.raise.toNext
    · split
      · exact h.hold.toNext
      · split
        · exact h.raiseRec.toNext
        · exact hf _

theorem Keeps.heatWordIn {lanes : Mask} {vr sr : List (Nat × Nat)} {f : Heat → Out} (h : Keeps σ s)
    (hf : ∀ x1, KeepsOut σ (f x1)) : KeepsOut σ (heatWordIn s lanes vr sr f) := h.heatWordBy (fun _ => hf _)

theorem Keeps.heatWord {vr sr : List (Nat × Nat)} {f : Heat → Out} (h : Keeps σ s) (hf : ∀ x1, KeepsOut σ (f x1)) :
    KeepsOut σ (heatWord s vr sr f) := h.heatWordIn (fun _ => hf _)

theorem Keeps.vecWord {vr sr : List (Nat × Nat)} {p d : Nat} {g : Heat → Nat → W32} (h : Keeps σ s) :
    KeepsOut σ (vecWord s vr sr p d g) := h.heatWord (fun _ => h.finish.toNext)

theorem Keeps.pairWord {vr : List (Nat × Nat)} {p d : Nat} {g : Heat → Nat → W64} (h : Keeps σ s) :
    KeepsOut σ (pairWord s vr p d g) := h.heatWord (fun _ => h.finish.toNext)

theorem Keeps.predWord {vr : List (Nat × Nat)} {p d : Nat} {g : Heat → Nat → Bool} (h : Keeps σ s) :
    KeepsOut σ (predWord s vr p d g) := h.heatWord (fun _ => h.finish.toNext)

theorem Keeps.scaWord {sr : List (Nat × Nat)} {d : Nat} {g : Heat → W64} (h : Keeps σ s) :
    KeepsOut σ (scaWord s sr d g) := h.heatWord (fun _ => h.finish.toNext)

theorem Keeps.addrWord {sr : List (Nat × Nat)} {d : Nat} {g : Heat → Addr} (h : Keeps σ s) :
    KeepsOut σ (addrWord s sr d g) := h.heatWord (fun _ => h.finish.toNext)

/-! ### `Machine/Translate` -/

theorem Keeps.openWalk {w : Who} {va : Nat} (h : Keeps σ s) : Keeps σ (s.openWalk w va) := by
  unfold State.openWalk
  split
  · exact h
  · dsimp only
    split
    · exact h
    · exact h.update.count.tick

theorem Keeps.endWalks {core key heat : Nat} (h : Keeps σ s) : Keeps σ (s.endWalks core key heat) := h.update

theorem Keeps.noteWalk {src asid va : Nat} {w : Walk} (h : Keeps σ s) : Keeps σ (s.noteWalk src asid va w) := by
  unfold State.noteWalk
  split
  · exact h.blackBoxAdd
  · exact h

theorem Keeps.noteTranslate {asid va : Nat} (h : Keeps σ s) : Keeps σ (s.noteTranslate asid va) := h.noteWalk

theorem Keeps.holdCheck {y : Heat} {miss : Option Nat} (h : Keeps σ s) : Keeps σ (s.holdCheck y miss) := by
  unfold State.holdCheck
  refine Keeps.hold ?_
  split
  · exact h.openWalk
  · exact h

theorem Keeps.wantRange {t off n : Nat} (h : Keeps σ s) : Keeps σ (s.wantRange t off n) := h.modTeam

theorem Keeps.wantTargets {n : Nat} {ts : List (Nat × Target)} (h : Keeps σ s) : Keeps σ (s.wantTargets n ts) := by
  unfold State.wantTargets
  refine h.foldl (fun _ _ h1 => ?_)
  split
  · exact h1.wantRange
  · exact h1

theorem Keeps.accessWith {busy : Bool} {y : Heat} {lanes : List Nat} {n : Nat} {addr : Nat → Addr}
    {f : List Binding → Nat → Chk} {k : State → List (Nat × Target) → Out} (h : Keeps σ s)
      (hk : ∀ u1 x2, Keeps σ u1 → KeepsOut σ (k u1 x2)) : KeepsOut σ (accessWith busy s y lanes n addr f k) := by
  unfold Machine.accessWith
  split
  · exact h.holdCheck.toNext
  · exact h.raiseAddr.toNext
  · split
    · exact h.hold.toNext
    · split
      · exact h.hold.toNext
      · split
        · exact h.wantTargets.hold.count.toNext
        · split
          · exact h.hold.toNext
          · exact hk _ _ h.update

theorem Keeps.accessLanes {y : Heat} {lanes : List Nat} {n : Nat} {addr : Nat → Addr} {f : List Binding → Nat → Chk}
    {k : State → List (Nat × Target) → Out} (h : Keeps σ s) (hk : ∀ u1 x2, Keeps σ u1 → KeepsOut σ (k u1 x2)) :
    KeepsOut σ (accessLanes s y lanes n addr f k) := h.accessWith (fun _ _ h1 => hk _ _ h1)

/-! ### `Machine/Memory` -/

theorem Keeps.noteTeam {t : Nat} (h : Keeps σ s) : Keeps σ (s.noteTeam t) := h.modTeam

theorem Keeps.retestTeam {t : Nat} (h : Keeps σ s) : Keeps σ (s.retestTeam t) := by
  unfold State.retestTeam
  split
  · exact h
  · dsimp only
    split
    · exact h
    · exact h.putTeam

theorem Keeps.retestGrids (h : Keeps σ s) : Keeps σ s.retestGrids := h.foldl (fun _ _ h1 => h1.modGrid)

theorem Keeps.noteMet (h : Keeps σ s) : Keeps σ s.noteMet := h.retestGrids.foldl (fun _ _ h1 => h1.noteTeam)

theorem Keeps.retest (h : Keeps σ s) : Keeps σ s.retest := h.noteMet.foldl (fun _ _ h1 => h1.retestTeam)

theorem Keeps.writeMem {ws : List (Nat × Byte)} (h : Keeps σ s) : Keeps σ (s.writeMem ws) := by
  unfold State.writeMem
  split
  · exact h
  · exact (h.withMem (wf_foldl_writeByte ws)).update.noteMet

theorem Keeps.perform {ws : List (Nat × Byte)} (h : Keeps σ s) : Keeps σ (s.perform ws) := h.writeMem.retest

theorem Keeps.writeSpad {t : Nat} {ws : List (Nat × Byte)} (h : Keeps σ s) : Keeps σ (s.writeSpad t ws) := by
  unfold State.writeSpad
  split
  · exact h
  · exact h.modTeam

theorem Keeps.noteUndo {t : Nat} {pas : List Nat} (h : Keeps σ s) : Keeps σ (s.noteUndo t pas) := h.modTeam

theorem Keeps.noteDigest {t heat kind addr size data : Nat} (h : Keeps σ s) :
    Keeps σ (s.noteDigest t heat kind addr size data) := h.modTeam

theorem Keeps.flushTeam {t : Nat} (h : Keeps σ s) : Keeps σ (s.flushTeam t) := by
  unfold State.flushTeam
  split
  · exact h
  · dsimp only
    split
    · exact h.putTeam
    · exact (h.putTeam.foldl (fun _ _ h1 => h1.writeMem)).retest

theorem Keeps.flush {t : Nat} (h : Keeps σ s) : Keeps σ (s.flush t) := h.foldl (fun _ _ h1 => h1.flushTeam)

theorem Keeps.dbgReply {tag : W32} {reply : Nat} {data : List Byte} (h : Keeps σ s) :
    Keeps σ (s.dbgReply tag reply data) := h.mgmtEvent

theorem Keeps.runtoPassed {t : Nat} (h : Keeps σ s) : Keeps σ (s.runtoPassed t) := by
  unfold State.runtoPassed
  split
  · exact h
  · split
    · exact h
    · split
      · exact h
      · exact (h.foldl (fun _ _ h1 => h1.unpackTeam.modTeam)).dbgReply

theorem Keeps.newLap {t : Nat} (h : Keeps σ s) : Keeps σ (s.newLap t) := by
  unfold State.newLap
  refine Keeps.foldl (h.foldl (fun u x hu => ?_)) (fun _ _ h1 => h1.runtoPassed)
  extract_lets bins s1 s2
  have h1 : Keeps σ s1 := by
    dsimp only [s1]
    split
    · split
      · exact hu.count
      · exact hu
    · exact hu
  clear_value s1
  have h2 : Keeps σ s2 := by
    dsimp only [s2]
    split
    · split
      · exact h1.elim (fun _ => h1.endCheck.ite h1.putTeam)
      · exact h1
    · exact h1
  exact h2.modTeam

theorem Keeps.endLap (h : Keeps σ s) : Keeps σ s.endLap := by
  unfold State.endLap
  split
  · exact h
  · exact h.newLap

theorem Keeps.commitPoint {y : Heat} {k : State → Heat → Out} (h : Keeps σ s)
    (hk : ∀ u1 x2, Keeps σ u1 → KeepsOut σ (k u1 x2)) : KeepsOut σ (commitPoint s y k) := by
  unfold Machine.commitPoint
  split
  · exact hk _ _ h
  · split
    · exact h.hold.toNext
    · dsimp only
      split
      · exact KeepsOut.fault
      · exact hk _ _ h.flush

theorem Keeps.commitOnly {y : Heat} (h : Keeps σ s) :
    KeepsOut σ (commitOnly s y) := h.commitPoint (fun _ _ h1 => h1.finish.endLap.toNext)

theorem Keeps.forwardIn {t lap : Nat} {e : LogEntry} {bytes : Nat} (h : Keeps σ s) :
    Keeps σ (s.forwardIn t lap e bytes) := by
  unfold State.forwardIn
  split
  · exact h
  · split
    · exact h
    · dsimp only
      split
      · exact h.endCheck
      · exact h.putTeam

theorem Keeps.forward {t : Nat} {e : LogEntry} {bytes : Nat} (h : Keeps σ s) : Keeps σ (s.forward t e bytes) := by
  unfold State.forward
  split
  · exact h
  · exact h.forwardIn

theorem Keeps.noteTaken {kind stride lane addr : Nat} (h : Keeps σ s) :
    Keeps σ (s.noteTaken kind stride lane addr) := by
  unfold State.noteTaken
  split
  · exact h
  · exact h.modTeam

theorem Keeps.noteRead {kind stride lane addr bytes value : Nat} (h : Keeps σ s) :
    Keeps σ (s.noteRead kind stride lane addr bytes value) := by
  unfold State.noteRead
  split
  · exact h
  · exact h.forward

theorem Keeps.noteLog {kind stride lane addr value : Nat} (h : Keeps σ s) :
    Keeps σ (s.noteLog kind stride lane addr value) := by
  unfold State.noteLog
  split
  · exact h
  · split
    · exact h.noteTaken
    · exact h.modTeam

theorem Keeps.noteReplay {kind stride addr value : Nat} (h : Keeps σ s) :
    Keeps σ (s.noteReplay kind stride addr value) := h.noteLog.noteRead

theorem Keeps.modHeatBoth {t y : Nat} {f : Heat → Heat} (h : Keeps σ s) : Keeps σ (s.modHeatBoth t y f) := by
  unfold State.modHeatBoth
  split
  · exact h.modHeat
  · exact h.modTeam

/-! ### `Machine/Tensor` -/

theorem Keeps.cacheDesc {stride d : Nat} {b : List Byte} (h : Keeps σ s) :
    Keeps σ (s.cacheDesc stride d b) := h.putCore.noteRead

/-! ### `Machine/LoadStore` -/

theorem Keeps.needSlot {y : Heat} {k : Out} (h : Keeps σ s) (hk : KeepsOut σ k) : KeepsOut σ (needSlot s y k) := by
  unfold Machine.needSlot
  split
  · exact h.hold.toNext
  · exact hk

theorem Keeps.noteLoad {stride lane addr n value : Nat} {t : Target} (h : Keeps σ s) :
    Keeps σ (s.noteLoad stride lane addr n value t) := by
  unfold State.noteLoad
  dsimp only
  split
  · split
    · exact h.noteLog
    · exact h
  · exact (h.noteLog.ite h).noteRead

theorem Keeps.gatheredLane {g : Gathered} {stride n : Nat} {addr : Nat → Addr} {x : Nat × Target}
    (h : Keeps σ g.s) : Keeps σ (g.lane stride n addr x).s := by
  unfold Gathered.lane
  dsimp only
  split
  · exact h.noteTaken
  · split
    · exact h.update
    · exact h.noteLoad

theorem Keeps.gatheredLanes {g : Gathered} {stride n : Nat} {addr : Nat → Addr} {ts : List (Nat × Target)}
    (h : Keeps σ g.s) : Keeps σ (g.lanes stride n addr ts).s := by
  induction ts generalizing g with
  | nil => exact h
  | cons t ts ih => exact ih h.gatheredLane

theorem Keeps.loadWord {n w d : Nat} {o : BitVec 7} {la p : Nat} {win : Bool} {addr : Heat → Nat → Addr}
    {chk : State → List Binding → Addr → Chk} (h : Keeps σ s) :
    KeepsOut σ (loadWord n w d o la p win addr chk s) := by
  unfold Machine.loadWord
  refine h.heatWord (fun _ => ?_)
  dsimp only
  split
  · exact h.finish.toNext
  · refine h.needSlot (h.accessWith (fun _ _ h1 => ?_))
    split
    · exact h1.holdCheck.toNext
    · exact h1.raiseAddr.toNext
    · split
      · exact h1.hold.toNext
      · split
        · exact h1.wantTargets.hold.toNext
        · exact h1.update.gatheredLanes.gatheredLanes.count.finish.toNext

theorem Keeps.vld {n w d : Nat} {a : BitVec 4} {o : BitVec 7} {la : BitVec 4} {p : BitVec 1} (h : Keeps σ s) :
    KeepsOut σ (vld n w d a o la p s) := h.loadWord

theorem Keeps.vlds {n w d : Nat} {a : BitVec 4} {o : BitVec 7} {la : BitVec 4} {p : BitVec 1} (h : Keeps σ s) :
    KeepsOut σ (vlds n w d a o la p s) := h.loadWord

theorem Keeps.storesLane {g : Stores} {stride : W64} {n : Nat} {defer : Bool} {data : Nat → Nat}
    {addr : Nat → Addr} {x : Nat × Target} (h : Keeps σ g.s) :
    Keeps σ (g.lane stride n defer data addr x).s := by
  unfold Stores.lane
  extract_lets bs a g'
  have hg : Keeps σ g'.s := by
    show Keeps σ (match g.s.curTeam with | none => g.s | some t => _)
    split
    · exact h
    · split
      · exact h
      · exact h.noteDigest
  clear_value g'
  split
  · split
    · exact hg
    · split <;> exact hg
  · exact hg.writeSpad
  · split
    · exact hg
    · exact hg.update

theorem Keeps.storesLanes {g : Stores} {stride : W64} {n : Nat} {defer : Bool} {data : Nat → Nat}
    {addr : Nat → Addr} {ts : List (Nat × Target)} (h : Keeps σ g.s) :
    Keeps σ (g.lanes stride n defer data addr ts).s := by
  induction ts generalizing g with
  | nil => exact h
  | cons t ts ih => exact ih h.storesLane

theorem Keeps.storeLanes {y : Heat} {n waves : Nat} {defer full : Bool} {ts : List (Nat × Target)}
    {data : Nat → Nat} {addr : Nat → Addr} (h : Keeps σ s) :
    Keeps σ (storeLanes s y n waves defer full ts data addr) := by
  unfold Machine.storeLanes
  refine Keeps.retest (Keeps.finish (Keeps.foldl ?_ (fun _ _ h1 => h1.writeMem)))
  split
  · exact h.storesLanes
  · exact h.storesLanes.noteUndo.modTeam

theorem Keeps.storeChecked {y : Heat} {n waves : Nat} {full : Bool} {ts : List (Nat × Target)} {data : Nat → Nat}
    {addr : Nat → Addr} (h : Keeps σ s) : KeepsOut σ (storeChecked s y n waves full ts data addr) := by
  unfold Machine.storeChecked
  extract_lets defers closes room
  split
  · exact h.commitPoint (fun _ _ h1 => h1.storeLanes.endLap.toNext)
  · split
    · exact h.storeLanes.toNext
    · refine h.commitPoint (fun _ _ h1 => ?_)
      dsimp only
      split
      · exact KeepsOut.fault
      · exact h1.endLap.storeLanes.toNext

theorem Keeps.storeWord {n w r : Nat} {o : BitVec 7} {p : Nat} {win : Bool} {addr : Heat → Nat → Addr}
    {chk : State → List Binding → Addr → Chk} (h : Keeps σ s) :
    KeepsOut σ (storeWord n w r o p win addr chk s) := by
  unfold Machine.storeWord
  refine h.heatWord (fun _ => ?_)
  dsimp only
  split
  · exact h.finish.toNext
  · exact h.accessWith (fun _ _ h1 => h1.count.storeChecked)

theorem Keeps.vst {n w r : Nat} {a : BitVec 4} {o : BitVec 7} {p : BitVec 1} (h : Keeps σ s) :
    KeepsOut σ (vst n w r a o p s) := h.storeWord

theorem Keeps.vsts {n w r : Nat} {a : BitVec 4} {o : BitVec 7} {p : BitVec 1} (h : Keeps σ s) :
    KeepsOut σ (vsts n w r a o p s) := h.storeWord

theorem Keeps.tileRead {y : Heat} {d la : Nat} {column : Bool} {addr : Nat → Nat} {lanes helpers zero : List Nat}
    {handle : Addr} (h : Keeps σ s) :
    KeepsOut σ (tileRead s y d la column addr lanes helpers zero handle) :=
      (h.foldl (fun _ _ h1 => h1.noteTaken.ite (h1.ite (h1.noteLog.ite h1).noteRead))).update.finish.toNext

theorem Keeps.tileZero {y : Heat} {d la : Nat} {helpers : List Nat} (h : Keeps σ s) :
    KeepsOut σ (tileZero s y d la helpers) := h.finish.toNext

theorem Keeps.execTldg {d a l : BitVec 4} {p : BitVec 1} (h : Keeps σ s) : KeepsOut σ (execTldg d a l p s) := by
  unfold Machine.execTldg
  refine h.heatWord (fun _ => ?_)
  dsimp only
  split
  · exact h.finish.toNext
  · refine h.needSlot ?_
    split
    · split
      · exact h.tileZero
      · exact h.raiseAddr.toNext
    · split
      · exact h.holdCheck.toNext
      · split
        · exact h.tileZero
        · exact h.raiseAddr.toNext
      · split
        · split
          · exact h.tileZero
          · exact h.raiseAddr.toNext
        · split
          · exact h.holdCheck.toNext
          · exact h.raiseAddr.toNext
          · split
            · exact h.holdCheck.toNext
            · exact h.raiseAddr.toNext
            · split
              · exact h.hold.toNext
              · exact h.update.cacheDesc.tileRead

/-! ### `Machine/Scalar` -/

theorem Keeps.sca2 {d a b : BitVec 6} {f : W64 → W64 → W64} (h : Keeps σ s) :
    KeepsOut σ (sca2 d a b s f) := h.scaWord

theorem Keeps.scaI {d a : BitVec 6} {f : W64 → W64} (h : Keeps σ s) : KeepsOut σ (scaI d a s f) := h.scaWord

/-! ### `Machine/Atomic` -/

theorem Keeps.predict {c pa : Nat} (h : Keeps σ s) : Keeps σ (s.predict c pa) := by
  unfold State.predict
  dsimp only
  split
  · exact h.update
  · split
    · exact h.update.count
    · split <;> exact h.update

theorem Keeps.rmwLane {g : Rmw} {stride n : Nat} {atom : Bool} {f : Nat → Nat → Nat} {addr : Nat → Addr}
    {x : Nat × Target} (h : Keeps σ g.s) : Keeps σ (g.lane stride n atom f addr x).s := by
  have hp {s : State} {c pa : Nat} (hs : Keeps σ s) : Keeps σ (if atom then s.predict c pa else s) := by
    split
    · exact hs.predict
    · exact hs
  unfold Rmw.lane
  dsimp only
  split
  · exact h
  · dsimp only
    split
    · split
      · exact (hp h).writeMem
      · split
        · exact h.noteDigest.noteTaken
        · refine (hp ?_).writeMem
          split
          · exact h.noteDigest.noteRead.noteUndo
          · exact h.noteDigest.noteRead
    · exact h.writeSpad
    · exact h

theorem Keeps.rmwLanes {g : Rmw} {stride n : Nat} {atom : Bool} {f : Nat → Nat → Nat} {addr : Nat → Addr}
    {ts : List (Nat × Target)} (h : Keeps σ g.s) : Keeps σ (g.lanes stride n atom f addr ts).s := by
  induction ts generalizing g with
  | nil => exact h
  | cons t ts ih => exact ih h.rmwLane

theorem Keeps.rmwDone {y : Heat} {n waves : Nat} {dest : Option (Nat × Nat × Nat)} {win : Bool}
    {f : Nat → Nat → Nat} {addr : Nat → Addr} {ts : List (Nat × Target)} (h : Keeps σ s) :
    Keeps σ (rmwDone s y n waves dest win f addr ts) := h.rmwLanes.finish.retest

theorem Keeps.rmwChecked {y : Heat} {n waves : Nat} {dest : Option (Nat × Nat × Nat)} {win : Bool}
    {f : Nat → Nat → Nat} {addr : Nat → Addr} {ts : List (Nat × Target)} (h : Keeps σ s) :
    KeepsOut σ (rmwChecked s y n waves dest win f addr ts) := by
  unfold Machine.rmwChecked
  split
  · exact h.commitPoint (fun _ _ h1 => h1.rmwDone.endLap.toNext)
  · exact h.rmwDone.toNext

theorem Keeps.rmwWord {n : Nat} {uses : List (Nat × Nat)} {dest : Option (Nat × Nat × Nat)} {a : BitVec 4}
    {o : BitVec 7} {p : Nat} {win : Bool} {f : Heat → Nat → Nat → Nat} (h : Keeps σ s) :
    KeepsOut σ (rmwWord n uses dest a o p win f s) := by
  unfold Machine.rmwWord
  refine h.heatWord (fun _ => ?_)
  dsimp only
  split
  · exact h.finish.toNext
  · split
    · exact h.needSlot (h.accessWith (fun _ _ h1 => h1.count.rmwChecked))
    · exact h.accessWith (fun _ _ h1 => h1.count.rmwChecked)

theorem Keeps.atom4 {d : BitVec 7} {la : Option (BitVec 4)} {a : BitVec 4} {o : BitVec 7} {p : BitVec 1}
    {win : Bool} {f : Nat → Nat → Nat} (h : Keeps σ s) : KeepsOut σ (atom4 d la a o p win f s) := h.rmwWord

theorem Keeps.cas4 {d : BitVec 6} {la : Option (BitVec 4)} {a : BitVec 4} {o : BitVec 7} {p : BitVec 1} {win : Bool}
    (h : Keeps σ s) : KeepsOut σ (cas4 d la a o p win s) := h.rmwWord

theorem Keeps.atom8 {d : BitVec 6} {la a : BitVec 4} {o : BitVec 7} {p : BitVec 1} {f : Nat → Nat → Nat}
    (h : Keeps σ s) : KeepsOut σ (atom8 d la a o p f s) := h.rmwWord

theorem Keeps.red4 {n : Nat} {r : BitVec 7} {a : BitVec 4} {o : BitVec 7} {p : BitVec 1} {f : Nat → Nat → Nat}
    (h : Keeps σ s) : KeepsOut σ (red4 n r a o p f s) := h.rmwWord

theorem Keeps.addOrdered {m : OrdMsg} (h : Keeps σ s) : Keeps σ (s.addOrdered m) := by
  unfold State.addOrdered
  split
  · exact h.candidates.raiseAsync
  · exact (h.noteUndo.ite h).writeMem.update

theorem Keeps.drainOrdered {pa n : Nat} (h : Keeps σ s) : Keeps σ (s.drainOrdered pa n) := by
  induction n generalizing s with
  | zero => exact h
  | succ n ih =>
    unfold State.drainOrdered
    split
    · exact h
    · split
      · exact h
      · exact ih h.addOrdered.update

theorem Keeps.arriveOrdered {m : OrdMsg} (h : Keeps σ s) : Keeps σ (s.arriveOrdered m).1 := by
  unfold State.arriveOrdered
  dsimp only
  split
  · split
    · exact h
    · split
      · exact h.addOrdered.update
      · split
        · exact h
        · exact h.update
  · split
    · exact h.addOrdered
    · split
      · exact h.addOrdered.update.drainOrdered
      · split
        · exact h
        · exact h.update

theorem Keeps.ordSend {y : Heat} {addr : Nat → Addr} {vals : Nat → W32 × Nat} {ts : List (Nat × Target)}
    (h : Keeps σ s) : Keeps σ (ordSend s y addr vals ts) := by
  unfold Machine.ordSend
  dsimp only
  split
  · split
    · exact h.finish
    · exact h.update.finish
  · split
    · exact (h.foldl (fun _ _ h1 => h1.noteDigest)).finish
    · exact (h.foldl (fun _ _ h1 => h1.noteDigest)).update.finish

theorem Keeps.execRedstOrdF32 {src : BitVec 6} {a : BitVec 4} {o : BitVec 7} {p : BitVec 1} (h : Keeps σ s) :
    KeepsOut σ (execRedstOrdF32 src a o p s) := by
  unfold Machine.execRedstOrdF32
  refine h.heatWord (fun _ => ?_)
  dsimp only
  split
  · exact h.finish.toNext
  · split
    · exact h.holdCheck.toNext
    · exact h.raiseAddr.toNext
    · split
      · exact h.update.hold.toNext
      · split
        · exact h.update.commitPoint (fun _ _ h1 => h1.ordSend.endLap.toNext)
        · exact h.update.ordSend.toNext

/-! ### `Machine/Hurdle` -/

theorem Keeps.putHurdle {t : Nat} {i : HId} {w : HWord} (h : Keeps σ s) : Keeps σ (s.putHurdle t i w) := h.writeSpad

theorem Keeps.putMember {t heat : Nat} {i : HId} {m : HMember} (h : Keeps σ s) :
    Keeps σ (s.putMember t heat i m) := by
  unfold State.putMember
  split
  · exact h.modSeq
  · exact h.modHeat

theorem Keeps.releaseUnit {i : HId} {phase : W32} {m : HMember} {u : Nat × Nat} (h : Keeps σ s) :
    Keeps σ (s.releaseUnit i phase m u) := by
  unfold State.releaseUnit
  dsimp only
  split
  · split
    · exact h
    · split
      · exact h
      · split
        · exact h.modSeq.putMember
        · exact h.modSeq
  · split
    · exact h
    · split
      · exact h
      · split
        · exact h.putHeat.putMember
        · exact h.putHeat

theorem Keeps.advanceUnit {i : HId} {phase : W32} {u : Nat × Nat} (h : Keeps σ s) :
    Keeps σ (s.advanceUnit i phase u) := h.putMember.releaseUnit

theorem Keeps.noteAdvance {t : Nat} {i : HId} (h : Keeps σ s) : Keeps σ (s.noteAdvance t i) := by
  unfold State.noteAdvance
  split
  · exact h
  · exact h.modTeam

theorem Keeps.advance {t : Nat} {i : HId} (h : Keeps σ s) : Keeps σ (s.advance t i) := by
  unfold State.advance
  dsimp only
  split
  · exact h
  · exact h.putHurdle.noteAdvance.foldl (fun _ _ h1 => h1.advanceUnit)

theorem Keeps.advanceWaiting {t n : Nat} (h : Keeps σ s) : Keeps σ (s.advanceWaiting t n) := by
  induction n generalizing s with
  | zero => exact h
  | succ n ih =>
    unfold State.advanceWaiting
    split
    · exact h
    · split
      · exact h
      · split
        · exact h
        · exact ih h.advance

theorem Keeps.raiseArr {t : Nat} {i : HId} (h : Keeps σ s) :
    Keeps σ (s.raiseArr t i) := h.putHurdle.advance.advanceWaiting

theorem Keeps.settle {t heat n : Nat} (h : Keeps σ s) : Keeps σ (s.settle t heat n) := by
  induction n generalizing s with
  | zero => exact h
  | succ n ih =>
    unfold State.settle
    split
    · exact h
    · split
      · exact h
      · exact ih h.putHeat.raiseArr

theorem Keeps.settleHeat {t heat : Nat} (h : Keeps σ s) : Keeps σ (s.settleHeat t heat) := by
  unfold State.settleHeat
  split
  · exact h
  · exact h.settle

theorem Keeps.shareWith {t heat : Nat} {what : Delivered} (h : Keeps σ s) : Keeps σ (s.shareWith t heat what) := by
  unfold State.shareWith
  split
  · exact h
  · split
    · exact h
    · exact h.modTeam

theorem Keeps.receive {t heat lap : Nat} {what : Delivered} {own : Option (Nat × Nat)} {shared : Bool}
    (h : Keeps σ s) : Keeps σ (s.receive t heat lap what own shared) := by
  unfold State.receive
  split
  · exact h
  · exact (h.shareWith.ite h).putTeam.settleHeat

theorem Keeps.arrive {t heat : Nat} {i : HId} {rise : Bool} (h : Keeps σ s) : Keeps σ (s.arrive t heat i rise) := by
  unfold State.arrive
  dsimp only
  split
  · exact h.putMember.raiseArr
  · exact h.putMember

theorem Keeps.dropUnit {t heat : Nat} {i : HId} (h : Keeps σ s) : Keeps σ (s.dropUnit t heat i) := by
  unfold State.dropUnit
  dsimp only
  split
  · exact h
  · split
    · exact h.putHurdle.putMember.raiseArr
    · exact h.putHurdle.putMember

theorem Keeps.register {t heat : Nat} {i : HId} {mode : HMode} {atOnce : Bool} {phase : W32} (h : Keeps σ s) :
    Keeps σ (s.register t heat i mode atOnce phase) := by
  unfold State.register
  dsimp only
  split <;> exact h.putHurdle.putMember

theorem Keeps.teamOnly {k : Nat → Out} (h : Keeps σ s) (hk : ∀ x1, KeepsOut σ (k x1)) :
    KeepsOut σ (teamOnly s k) := by
  unfold Machine.teamOnly
  split
  · exact h.trapHeatFault.toNext
  · exact hk _

theorem Keeps.hurdleWord {i : HId} {whole : Bool} {k : Nat → State → Heat → Out} (h : Keeps σ s)
    (hk : ∀ x1 u2 x3, Keeps σ u2 → KeepsOut σ (k x1 u2 x3)) : KeepsOut σ (hurdleWord s i whole k) := by
  unfold Machine.hurdleWord
  refine h.heatWord (fun _ => h.teamOnly (fun _ => ?_))
  split
  · exact h.raise.toNext
  · split
    · exact h.commitPoint (fun _ _ h1 => hk _ _ _ h1)
    · exact hk _ _ _ h

theorem Keeps.hurdleDone {i : HId} {p : Park} (h : Keeps σ s) : KeepsOut σ (hurdleDone s i p) := by
  unfold Machine.hurdleDone
  split
  · exact KeepsOut.fault
  · exact ((h.finish.ite h.finishPark).endLap.ite (h.finish.ite h.finishPark)).toNext

theorem Keeps.memberTrap {i : HId} (h : Keeps σ s) : KeepsOut σ (memberTrap s i) := h.raise.toNext

theorem Keeps.hreg {c : BitVec 1} {n : BitVec 8} {mode : HMode} (h : Keeps σ s) : KeepsOut σ (hreg c n mode s) := by
  unfold Machine.hreg
  dsimp only
  split
  · split
    · refine h.heatWord (fun _ => ?_)
      split
      · exact h.raise.toNext
      · exact h.hold.toNext
    · exact h.hurdleWord (fun _ _ _ h1 => h1.noteReplay.register.hurdleDone)
  · exact h.hurdleWord (fun _ _ _ h1 => h1.toNext)

theorem Keeps.harr {c : BitVec 1} {n : BitVec 8} {cp wt : Bool} (h : Keeps σ s) :
    KeepsOut σ (harr c n cp wt s) := by
  unfold Machine.harr
  refine h.heatWord (fun _ => h.teamOnly (fun _ => ?_))
  dsimp only
  split
  · exact h.raise.toNext
  · split
    · exact h.memberTrap
    · split
      · exact h.hold.toNext
      · refine h.hurdleWord (fun _ _ _ h1 => ?_)
        split
        · exact h1.arrive.modHeat.hurdleDone
        · split <;> exact h1.arrive.hurdleDone

theorem Keeps.execHwait {c : BitVec 1} {y : BitVec 8} (h : Keeps σ s) : KeepsOut σ (execHwait c y s) := by
  unfold Machine.execHwait
  refine h.heatWord (fun _ => h.teamOnly (fun _ => ?_))
  dsimp only
  split
  · exact h.raise.toNext
  · split
    · exact h.memberTrap
    · refine h.hurdleWord (fun _ _ _ h1 => ?_)
      split
      · exact (h1.noteReplay.putMember.ite h1.noteReplay).hurdleDone
      · exact h1.noteReplay.hurdleDone

theorem Keeps.execFence (h : Keeps σ s) : KeepsOut σ (execFence s) := by
  unfold Machine.execFence
  refine h.heatWord (fun _ => ?_)
  split
  · exact h.hold.toNext
  · exact h.finish.toNext

theorem Keeps.execFenceR (h : Keeps σ s) : KeepsOut σ (execFenceR s) := by
  unfold Machine.execFenceR
  refine h.heatWord (fun _ => ?_)
  split
  · exact h.hold.toNext
  · exact h.finish.toNext

/-! ### `Machine/Control` -/

theorem Keeps.transfer {y : Heat} {taking : Mask} {target : Nat → Addr} (h : Keeps σ s) :
    Keeps σ (s.transfer y taking target) := h.finishBy

theorem Keeps.execLoop {a : BitVec 7} {i : BitVec 9} (h : Keeps σ s) : KeepsOut σ (execLoop a i s) := by
  unfold Machine.execLoop
  refine h.heatWord (fun _ => ?_)
  split
  · exact h.raise.toNext
  · exact h.finishBy.toNext

theorem Keeps.endHeat {t heat : Nat} (h : Keeps σ s) : Keeps σ (s.endHeat t heat) := by
  unfold State.endHeat
  split
  · exact h
  · exact h.putHeat.foldl (fun _ _ h1 => h1.dropUnit)

theorem Keeps.endIfEmpty {t heat : Nat} (h : Keeps σ s) : Keeps σ (s.endIfEmpty t heat) := by
  unfold State.endIfEmpty
  split
  · exact h
  · split
    · exact h.endHeat
    · exact h

theorem Keeps.execSleep {i : BitVec 9} (h : Keeps σ s) : KeepsOut σ (execSleep i s) := by
  unfold Machine.execSleep
  refine h.heatWord (fun _ => ?_)
  split <;> exact h.finish.toNext

theorem Keeps.execEvGatheringClose {team role : Nat} (h : Keeps σ s) :
    KeepsOut σ (execEvGatheringClose team role s) := by
  unfold Machine.execEvGatheringClose
  dsimp only
  split
  · exact (h.foldl (fun _ _ h1 => h1.putHeat)).count.tick.toNext
  · exact h.toNext

/-! ### `Machine/Landing` -/

theorem Keeps.land {team heat : Nat} {x : Slot} (h : Keeps σ s) : Keeps σ (s.land team heat x) := by
  unfold State.land
  split
  · exact h.modHeat
  · exact h.receive

theorem Keeps.execEvLoadLands {team heat slot : Nat} (h : Keeps σ s) :
    KeepsOut σ (execEvLoadLands team heat slot s) := by
  unfold Machine.execEvLoadLands
  split
  · exact h.toNext
  · split
    · exact h.toNext
    · dsimp only
      split
      · exact h.toNext
      · exact (h.land.candidates.raiseAsync.tick.ite h.land.candidates.tick).toNext

theorem Keeps.execEvStoreAcknowledged {team heat i : Nat} (h : Keeps σ s) :
    KeepsOut σ (execEvStoreAcknowledged team heat i s) := by
  unfold Machine.execEvStoreAcknowledged
  split
  · exact h.toNext
  · split
    · exact h.toNext
    · split
      · exact h.toNext
      · refine Keeps.toNext ?_
        split
        · exact h.modHeatBoth.candidates.raiseAsync.tick
        · exact h.modHeatBoth.candidates.tick

theorem Keeps.execEvRedstOrdArrival {i : Nat} (h : Keeps σ s) : KeepsOut σ (execEvRedstOrdArrival i s) := by
  unfold Machine.execEvRedstOrdArrival
  split
  · exact h.toNext
  · dsimp only
    split
    · exact h.toNext
    · split
      · exact h.update.tick.toNext
      · split
        · exact h.arriveOrdered.update.modHeatBoth.retest.tick.toNext
        · exact h.update.tick.toNext

theorem Keeps.execEvRedstOrdResend {i : Nat} (h : Keeps σ s) : KeepsOut σ (execEvRedstOrdResend i s) := by
  unfold Machine.execEvRedstOrdResend
  split
  · exact h.toNext
  · split
    · exact h.update.tick.toNext
    · exact h.toNext

theorem Keeps.execEvPredictorNearReturn {sector : Nat} (h : Keeps σ s) :
    KeepsOut σ (execEvPredictorNearReturn sector s) := by
  unfold Machine.execEvPredictorNearReturn
  split
  · exact h.toNext
  · split
    · exact h.update.tick.toNext
    · exact h.toNext

theorem Keeps.execEvSleepExpiry {team heat : Nat} (h : Keeps σ s) : KeepsOut σ (execEvSleepExpiry team heat s) := by
  unfold Machine.execEvSleepExpiry
  split
  · exact h.toNext
  · split
    · exact h.toNext
    · split
      · exact h.putHeat.tick.toNext
      · exact h.toNext

/-! ### `Machine/Shadow` -/

theorem Keeps.finishShadow {y : Heat} {f : Fmt} {m : Mask} {d : Nat} {parts : Nat → Bool} (h : Keeps σ s) :
    Keeps σ (s.finishShadow y f m d parts) := by
  unfold State.finishShadow
  dsimp only
  split
  · exact h.finish
  · split
    · exact h.putCore.finish
    · exact h.putCore.raise

theorem Keeps.fpWord {f : Fmt} {vr : List (Nat × Nat)} {p d : Nat} {g : Heat → Nat → W32} (h : Keeps σ s) :
    KeepsOut σ (fpWord f s vr p d g) := h.heatWord (fun _ => h.finishShadow.toNext)

/-! ### `Machine/Engine` -/

theorem Keeps.putCmd {c : EngCmd} (h : Keeps σ s) : Keeps σ (s.putCmd c) := h.update

theorem Keeps.sourceDone {c : EngCmd} (h : Keeps σ s) : Keeps σ (s.sourceDone c) := (h.forward.ite h).update.putCmd

theorem Keeps.readStep {c : EngCmd} (h : Keeps σ s) : KeepsOpt σ (s.readStep c) := by
  unfold State.readStep
  dsimp only
  split
  · exact KeepsOpt.none
  · exact h.sourceDone.toSome
  · split
    · split
      · exact KeepsOpt.none
      · exact h.candidates.putCmd.toSome
    · split
      · exact KeepsOpt.none
      · exact h.sourceDone.toSome

theorem Keeps.engineSpad {c : EngCmd} {t : Nat} {f : TeamBody → TeamBody} (h : Keeps σ s) :
    Keeps σ (s.engineSpad c t f) := h.modTeam

theorem Keeps.writeLine {c : EngCmd} {l : Nat × Nat} (h : Keeps σ s) :
    Keeps σ (s.writeLine c l) := h.engineSpad.modTeam.putCmd

theorem Keeps.writeSector {c : EngCmd} {k : Nat} (h : Keeps σ s) : Keeps σ (s.writeSector c k) := by
  unfold State.writeSector
  dsimp only
  split
  · exact h.putCmd
  · split
    · exact (h.putCmd.noteUndo.ite h.putCmd).perform.update
    · exact (h.putCmd.noteUndo.ite h.putCmd).perform

theorem Keeps.stepCmd {c : EngCmd} (h : Keeps σ s) : KeepsOpt σ (s.stepCmd c) := by
  unfold State.stepCmd
  split
  · exact h.readStep
  · split
    · exact h.writeLine.toSome
    · exact KeepsOpt.map (fun _ => h.writeSector)

theorem Keeps.engineReply {t heat lap id stride q : Nat} {e : QEntry} {shared : Bool} (h : Keeps σ s) :
    Keeps σ (s.engineReply t heat lap id stride q e shared) := by
  unfold State.engineReply
  split
  · exact h
  · split
    · exact h.modTeam.settleHeat
    · exact h.receive

theorem Keeps.completeCmd {c : EngCmd} (h : Keeps σ s) : Keeps σ (s.completeCmd c) := h.update.receive.count.tick

theorem Keeps.replyCmd {c : EngCmd} (h : Keeps σ s) : Keeps σ (s.replyCmd c) := by
  unfold State.replyCmd
  split
  · exact h.completeCmd
  · split
    · exact h.putCmd
    · dsimp only
      split
      · exact h.engineReply.tick.completeCmd
      · split
        · exact h.engineReply.tick.putCmd
        · split
          · exact h.engineReply.tick.engineReply.tick.completeCmd
          · exact h.engineReply.tick.engineReply.tick.putCmd

theorem Keeps.accept {q : Nat} {ids : List Nat} {c : EngCmd} (h : Keeps σ s) :
    Keeps σ (s.accept q ids c) := h.engineSpad.update

theorem Keeps.pushEngine {y : Heat} {q : Nat} {es : List QEntry} {r : CopyRec} (h : Keeps σ s) :
    Keeps σ (s.pushEngine y q es r) := (h.foldl (fun _ _ h1 => h1.modTeam)).finish

theorem Keeps.noteCommand {r : CopyRec} {es : List QEntry} (h : Keeps σ s) : Keeps σ (s.noteCommand r es) := by
  unfold State.noteCommand
  split
  · exact h
  · refine h.foldl (fun _ _ h1 => ?_)
    split
    · exact h1.noteDigest
    · exact h1.noteDigest
    · exact h1

theorem Keeps.pushCommand {y : Heat} {q : Nat} {closes : Bool} {es : Heat → State → List QEntry}
    {r : State → CopyRec} (h : Keeps σ s) : KeepsOut σ (pushCommand s y q closes es r) := by
  unfold Machine.pushCommand
  dsimp only
  split
  · exact h.commitPoint (fun _ _ h1 => h1.noteCommand.pushEngine.endLap.toNext)
  · exact h.noteCommand.pushEngine.toNext

/-! ### `Machine/Record` -/

theorem Keeps.createGrid {r : Record} {asid : Nat} {tag : Option W32} {wa wv : Nat} (h : Keeps σ s) :
    Keeps σ (s.createGrid r asid tag wa wv) := h.update

theorem Keeps.dropUnreadable (h : Keeps σ s) : Keeps σ s.dropUnreadable := by
  unfold State.dropUnreadable
  refine h.foldl (fun _ _ h1 => ?_)
  split
  · exact h1
  · split
    · exact h1
    · exact h1.update.gridComplete

theorem Keeps.deliver {t heat stamp lane v : Nat} (h : Keeps σ s) :
    Keeps σ (s.deliver t heat stamp lane v) := h.modHeatBoth

/-! ### `Machine/Matrix` -/

theorem Keeps.markReady {t : Nat} (h : Keeps σ s) : Keeps σ (s.markReady t) := h.modSeq

theorem KeepsOut.seqWord {f : Nat → Team → Seq → Out} (hf : ∀ x1 x2 x3, KeepsOut σ (f x1 x2 x3)) :
    KeepsOut σ (seqWord s f) := by
  unfold Machine.seqWord
  split
  · split
    · exact hf _ _ _
    · exact KeepsOut.fault
  · exact KeepsOut.fault

theorem Keeps.seqMove {d : Nat} {g : Seq → W64} (h : Keeps σ s) :
    KeepsOut σ (seqMove s d g) := KeepsOut.seqWord (fun _ _ _ => h.finishSeq.toNext)

theorem Keeps.seqCommit {t : Nat} {q : Seq} {closes : Bool} {k : State → Seq → Out} (h : Keeps σ s)
    (hk : ∀ u1 x2, Keeps σ u1 → KeepsOut σ (k u1 x2)) : KeepsOut σ (seqCommit s t q closes k) := by
  unfold Machine.seqCommit
  split
  · exact hk _ _ h
  · split
    · exact h.holdSeq.toNext
    · dsimp only
      split
      · exact KeepsOut.fault
      · split
        · exact (Keeps.of_next (hk _ _ h.flush) ‹_›).endLap.toNext
        · exact hk _ _ h.flush

theorem Keeps.issueOp {t : Nat} {q : Seq} {kind : SeqOpKind} {places : List (Nat × Piece)} {addr : Nat}
    (h : Keeps σ s) : Keeps σ (s.issueOp t q kind places addr) := h.finishSeq.markReady

theorem Keeps.tileWord {x : Team} {q : Seq} {tiles : List Nat} {k : Out} (h : Keeps σ s) (hk : KeepsOut σ k) :
    KeepsOut σ (tileWord s x q tiles k) := by
  unfold Machine.tileWord
  split
  · exact h.raise.toNext
  · split
    · exact h.holdSeq.toNext
    · exact hk

theorem Keeps.holdSeqCheck {q : Seq} {miss : Option Nat} (h : Keeps σ s) : Keeps σ (s.holdSeqCheck q miss) := by
  unfold State.holdSeqCheck
  refine Keeps.holdSeq ?_
  split
  · exact h.openWalk
  · exact h

theorem Keeps.seqCheck {q : Seq} {a size : Nat} {chk : PosChk} {k : State → List (Nat × Piece) → Out}
    (h : Keeps σ s) (hk : ∀ u1 x2, Keeps σ u1 → KeepsOut σ (k u1 x2)) : KeepsOut σ (seqCheck s q a size chk k) := by
  unfold Machine.seqCheck
  split
  · exact h.raiseAddr.toNext
  · split
    · exact h.holdSeqCheck.toNext
    · exact h.raiseAddr.toNext
    · exact hk _ _ h.update

theorem Keeps.parkPresence {q : Seq} {ps : List (Nat × Piece)} (h : Keeps σ s) : Keeps σ (s.parkPresence q ps) := by
  unfold State.parkPresence
  refine Keeps.count (Keeps.holdSeq (h.foldl (fun _ _ h1 => ?_)))
  split
  · exact h1.wantRange
  · exact h1

theorem Keeps.seqLoad {t : Nat} {q : Seq} {win : Bool} {a n size : Nat} {kind : SeqOpKind} (h : Keeps σ s) :
    KeepsOut σ (seqLoad s t q win a n size kind) := by
  unfold Machine.seqLoad
  refine h.seqCheck (fun _ _ h1 => ?_)
  split
  · exact h1.parkPresence.toNext
  · exact h1.seqCommit (fun _ _ h2 => h2.issueOp.toNext)

theorem Keeps.seqStore {t : Nat} {q : Seq} {a size : Nat} {chk : PosChk} {kind : SeqOpKind} (h : Keeps σ s) :
    KeepsOut σ (seqStore s t q a size chk kind) :=
      h.seqCheck (fun _ _ h1 => h1.seqCommit (fun _ _ h2 => (h2.ite h2.noteDigest).issueOp.toNext))

theorem Keeps.tileLoad {ta b : BitVec 4} {win : Bool} {w : Nat} (h : Keeps σ s) :
    KeepsOut σ (tileLoad ta b win w s) := by
  unfold Machine.tileLoad
  refine KeepsOut.seqWord (fun _ _ _ => ?_)
  split
  · exact h.holdSeq.toNext
  · exact h.seqLoad

theorem Keeps.execTldt {t b : BitVec 4} {m : BitVec 3} (h : Keeps σ s) : KeepsOut σ (execTldt t b m s) := by
  unfold Machine.execTldt
  split
  · exact h.tileLoad
  · exact h.tileLoad
  · exact h.tileLoad
  · exact KeepsOut.seqWord (fun _ _ _ => h.raise.toNext)

theorem Keeps.mmaWord {f : MmaForm} {ta : BitVec 4} {k : BitVec 1} {c : BitVec 8} {r : BitVec 3} {b : BitVec 4}
    {steps sigma : Nat} (h : Keeps σ s) : KeepsOut σ (mmaWord f ta k c r b steps sigma s) := by
  unfold Machine.mmaWord
  refine KeepsOut.seqWord (fun _ _ _ => ?_)
  extract_lets prof desc base
  split
  · exact h.holdSeq.toNext
  · split
    · exact h.raise.toNext
    · refine h.tileWord ?_
      split
      · exact h.raise.toNext
      · refine h.seqCheck (fun _ _ h1 => ?_)
        split
        · exact h1.issueOp.toNext
        · exact h1.holdSeq.toNext

theorem Keeps.mma {af bf : Nat} {ta : BitVec 4} {k : BitVec 1} {c : BitVec 8} {r : BitVec 3} {b : BitVec 4}
    {m : BitVec 3} (h : Keeps σ s) : KeepsOut σ (mma af bf ta k c r b m s) := by
  unfold Machine.mma
  split
  · exact h.mmaWord
  · exact KeepsOut.seqWord (fun _ _ _ => h.raise.toNext)

theorem Keeps.mmas {af : Nat} {ta : BitVec 4} {k : BitVec 1} {c : BitVec 8} {r : BitVec 3} {b : BitVec 4}
    {sg : BitVec 3} (h : Keeps σ s) : KeepsOut σ (mmas af ta k c r b sg s) := by
  unfold Machine.mmas
  split
  · exact KeepsOut.seqWord (fun _ _ _ => h.raise.toNext)
  · exact h.mmaWord

theorem Keeps.execDrain {c : BitVec 8} {e : BitVec 3} (h : Keeps σ s) : KeepsOut σ (execDrain c e s) := by
  unfold Machine.execDrain
  refine KeepsOut.seqWord (fun _ _ _ => h.tileWord ?_)
  split
  · exact h.raise.toNext
  · exact h.issueOp.toNext

theorem Keeps.drainWord {c : BitVec 8} {b : BitVec 4} {size : Nat} {bad : W64 → Bool} {kind : W64 → SeqOpKind}
    (h : Keeps σ s) : KeepsOut σ (drainWord c b size bad kind s) := by
  unfold Machine.drainWord
  split
  · exact KeepsOut.seqWord (fun _ _ _ => h.raise.toNext)
  · refine KeepsOut.seqWord (fun _ _ _ => h.tileWord ?_)
    dsimp only
    split
    · exact h.raise.toNext
    · exact h.seqStore

theorem Keeps.execSetsp {p : BitVec 3} {a : BitVec 4} (h : Keeps σ s) : KeepsOut σ (execSetsp p a s) := by
  unfold Machine.execSetsp
  refine KeepsOut.seqWord (fun _ _ _ => ?_)
  dsimp only
  split
  · exact h.finishSeq.toNext
  · exact h.raise.toNext

theorem Keeps.execSwrd {d : BitVec 4} {c : BitVec 8} (h : Keeps σ s) : KeepsOut σ (execSwrd d c s) := by
  unfold Machine.execSwrd
  refine KeepsOut.seqWord (fun _ _ _ => h.tileWord ?_)
  split
  · exact h.holdSeq.toNext
  · exact h.modTeam.finishSeq.toNext

theorem Keeps.execMloop {k : BitVec 3} {f : BitVec 19} (h : Keeps σ s) : KeepsOut σ (execMloop k f s) := by
  unfold Machine.execMloop
  refine KeepsOut.seqWord (fun _ _ _ => ?_)
  dsimp only
  split <;> exact h.finishSeqAt.toNext

theorem Keeps.seqHurdle {c : BitVec 1} {n : BitVec 8} {bad wait : HMember → Bool}
    {k : HId → Nat → State → Seq → Out} (h : Keeps σ s)
      (hk : ∀ x1 x2 u3 x4, Keeps σ u3 → KeepsOut σ (k x1 x2 u3 x4)) : KeepsOut σ (seqHurdle c n s bad wait k) := by
  unfold Machine.seqHurdle
  refine KeepsOut.seqWord (fun _ _ _ => ?_)
  dsimp only
  split
  · exact h.raise.toNext
  · split
    · exact h.memberTrap
    · split
      · exact h.holdSeq.toNext
      · exact h.seqCommit (fun _ _ h1 => hk _ _ _ _ h1)

theorem Keeps.seqHurdleDone {p : Park} (h : Keeps σ s) : KeepsOut σ (seqHurdleDone s p) := by
  unfold Machine.seqHurdleDone
  split
  · exact KeepsOut.fault
  · split
    · exact h.finishSeq.toNext
    · exact h.putCurSeq.count.tick.toNext

theorem Keeps.execMharr {c : BitVec 1} {y : BitVec 8} (h : Keeps σ s) : KeepsOut σ (execMharr c y s) := by
  unfold Machine.execMharr
  refine h.seqHurdle (fun _ _ _ _ h1 => ?_)
  dsimp only
  split
  · exact h1.arrive.seqHurdleDone
  · exact h1.modSeq.arrive.seqHurdleDone

theorem Keeps.seqRegister {c : BitVec 1} {y : BitVec 8} {mode : HMode} (h : Keeps σ s) :
    KeepsOut σ (seqRegister c y mode s) := h.seqHurdle (fun _ _ _ _ h1 => h1.noteReplay.register.seqHurdleDone)

theorem Keeps.execMhwait {c : BitVec 1} {y : BitVec 8} (h : Keeps σ s) : KeepsOut σ (execMhwait c y s) := by
  unfold Machine.execMhwait
  refine h.seqHurdle (fun _ _ _ _ h1 => ?_)
  dsimp only
  split
  · exact (h1.noteReplay.putMember.ite h1.noteReplay).seqHurdleDone
  · exact h1.noteReplay.seqHurdleDone

/-! ### `Machine/MatrixEvents` -/

theorem Keeps.settleSeq {t n : Nat} (h : Keeps σ s) : Keeps σ (s.settleSeq t n) := by
  induction n generalizing s with
  | zero => exact h
  | succ n ih =>
    unfold State.settleSeq
    split
    · exact h
    · split
      · exact h
      · exact ih h.modSeq.raiseArr

theorem Keeps.seqDone {t : Nat} (h : Keeps σ s) : Keeps σ (s.seqDone t) := by
  unfold State.seqDone
  split
  · exact h.tick
  · exact h.settleSeq.markReady.tick

theorem Keeps.opBoth {t op : Nat} {f : TeamBody → TeamBody} (h : Keeps σ s) : Keeps σ (s.opBoth t op f) := h.modTeam

theorem Keeps.execEvTileLoadLands {team op : Nat} (h : Keeps σ s) : KeepsOut σ (execEvTileLoadLands team op s) := by
  unfold Machine.execEvTileLoadLands
  split
  · exact h.toNext
  · split
    · split
      · exact h.toNext
      · extract_lets old
        exact h.modSeq.raiseOp.seqDone.toNext.ite (h.forward.ite h).modTeam.seqDone.toNext
    · exact h.toNext

theorem Keeps.stepReply {t : Nat} (h : Keeps σ s) : Keeps σ (s.stepReply t) := by
  unfold State.stepReply
  split
  · exact h
  · split
    · exact h.putTeam.dbgReply
    · exact h

theorem Keeps.execEvEngineGrant {core : Nat} (h : Keeps σ s) : KeepsOut σ (execEvEngineGrant core s) := by
  unfold Machine.execEvEngineGrant
  dsimp only
  split
  · exact h.toNext
  · split
    · exact h.toNext
    · exact (h.foldl (fun _ _ h1 => h1.markReady)).modSeq.tick.toNext

theorem Keeps.execEvMmaStepStart {team : Nat} (h : Keeps σ s) : KeepsOut σ (execEvMmaStepStart team s) := by
  unfold Machine.execEvMmaStepStart
  split
  · exact h.toNext
  · split
    · split
      · exact h.toNext
      · split
        · exact h.raiseOp.tick.toNext
        · dsimp only
          split
          · exact h.putCore.raiseOp.tick.toNext
          · exact h.putCore.putTeam.count.seqDone.toNext
    · exact h.toNext

theorem Keeps.execEvMmaComplete {team : Nat} (h : Keeps σ s) : KeepsOut σ (execEvMmaComplete team s) := by
  unfold Machine.execEvMmaComplete
  split
  · exact h.toNext
  · split
    · exact h.toNext
    · split
      · exact h.modSeq.stepReply.seqDone.toNext
      · exact h.toNext

theorem Keeps.execEvZaccComplete {team op : Nat} (h : Keeps σ s) : KeepsOut σ (execEvZaccComplete team op s) := by
  unfold Machine.execEvZaccComplete
  split
  · exact h.toNext
  · split
    · exact h.toNext
    · split
      · split
        · exact h.toNext
        · exact h.modTeam.seqDone.toNext
      · exact h.toNext

theorem Keeps.writeElem {t : Nat} {x : Team} {o : SeqOp} {p : Piece} (h : Keeps σ s) :
    Keeps σ (s.writeElem t x o p) := by
  unfold State.writeElem
  extract_lets size acc g
  split
  · extract_lets bad v s1
    have h1 : Keeps σ s1 := h.noteUndo.ite h
    exact h1.ite h1.perform
  · exact h.modTeam
  · exact h

theorem Keeps.tileFault {t : Nat} {x : Team} {o : SeqOp} (h : Keeps σ s) :
    Keeps σ (s.tileFault t x o) := h.modSeq.raiseAsync.seqDone

theorem Keeps.execEvAccumulatorWritePerforms {team op : Nat} (h : Keeps σ s) :
    KeepsOut σ (execEvAccumulatorWritePerforms team op s) := by
  unfold Machine.execEvAccumulatorWritePerforms
  split
  · exact h.toNext
  · split
    · exact h.toNext
    · split
      · exact h.toNext
      · split
        · exact h.tileFault.toNext
        · split
          · exact h.toNext
          · exact h.toNext.ite h.writeElem.opBoth.seqDone.toNext

theorem Keeps.execEvDrainRowPush {team op : Nat} (h : Keeps σ s) : KeepsOut σ (execEvDrainRowPush team op s) := by
  unfold Machine.execEvDrainRowPush
  split
  · exact h.toNext
  · split
    · exact h.toNext
    · split
      · split
        · exact h.toNext
        · split
          · exact h.tileFault.toNext
          · split
            · exact h.modSeq.seqDone.toNext
            · split
              · exact h.modSeq.seqDone.toNext
              · split
                · exact h.toNext
                · exact h.putHeat.modSeq.seqDone.toNext
      · exact h.toNext

theorem Keeps.execEvAccumulatorTileRestore {team tile : Nat} (h : Keeps σ s) :
    KeepsOut σ (execEvAccumulatorTileRestore team tile s) := by
  unfold Machine.execEvAccumulatorTileRestore
  split
  · exact h.toNext
  · split
    · exact h.putTeam.tick.toNext
    · exact h.toNext

/-! ### `Machine/Coll` -/

theorem Keeps.collCommand {y : Heat} {w : List W64} (h : Keeps σ s) : KeepsOut σ (collCommand s y w) := by
  unfold Machine.collCommand
  split
  · exact h.raise.toNext
  · dsimp only
    split
    · exact h.holdCheck.toNext
    · split
      · exact h.holdCheck.toNext
      · exact h.raiseAddr.toNext
      · exact h.raiseAddr.toNext
    · split
      · exact h.holdCheck.toNext
      · exact h.raiseAddr.toNext
      · split
        · exact h.update.hold.toNext
        · exact h.update.commitPoint
            (fun _ _ h1 => (h1.noteCommand.finish.ite h1.noteCommand.pushEngine).endLap.toNext)

theorem Keeps.execEvCollAccept {team heat : Nat} (h : Keeps σ s) : KeepsOut σ (execEvCollAccept team heat s) := by
  unfold Machine.execEvCollAccept
  split
  · exact h.toNext
  · split
    · exact h.toNext
    · exact h.collNumber.accept.tick.toNext

theorem Keeps.execEvCollMessageReceipt {group k device : Nat} {words : List (BitVec 64)} {data : List (BitVec 8)}
    (h : Keeps σ s) : KeepsOut σ (execEvCollMessageReceipt group k device words data s) := by
  unfold Machine.execEvCollMessageReceipt
  dsimp only
  split
  · exact h.toNext
  · split
    · exact h.update.tick.toNext
    · split
      · exact h.toNext
      · split
        · exact h.toNext
        · split
          · exact h.putColl.tick.toNext
          · split
            · exact h.toNext
            · exact h.putColl.tick.toNext

theorem Keeps.execEvCollResend {group : Nat} (h : Keeps σ s) : KeepsOut σ (execEvCollResend group s) := by
  unfold Machine.execEvCollResend
  dsimp only
  split
  · exact h.toNext
  · exact h.update.tick.toNext

theorem Keeps.execEvCollJoinTimeout {group : Nat} (h : Keeps σ s) : KeepsOut σ (execEvCollJoinTimeout group s) := by
  unfold Machine.execEvCollJoinTimeout
  dsimp only
  split
  · exact h.toNext
  · exact h.collVerdict.tick.toNext

theorem Keeps.collReply {c : CollCmd} {cmd : EngCmd} {status : Nat} (h : Keeps σ s) :
    KeepsOpt σ (s.collReply c cmd status) := by
  unfold State.collReply
  dsimp only
  split
  · exact KeepsOpt.none
  · exact h.engineReply.update.receive.toSome

theorem Keeps.collJoin {c : CollCmd} {cmd : EngCmd} (h : Keeps σ s) : KeepsOpt σ (s.collJoin c cmd) := by
  unfold State.collJoin
  dsimp only
  split
  · exact KeepsOpt.none
  · split
    · exact h.collVerdict.toSome
    · split
      · split
        · split
          · exact h.collVerdict.toSome
          · exact h.putColl.collSend.toSome
        · split
          · exact KeepsOpt.none
          · split
            · exact KeepsOpt.none
            · exact h.collVerdict.toSome
            · exact h.readStep
      · split
        · exact KeepsOpt.none
        · split
          · exact h.collVerdict.toSome
          · split
            · exact KeepsOpt.none
            · exact h.collVerdict.toSome
            · exact h.collVerdict.toSome

theorem Keeps.collEnd {c : CollCmd} {cmd : EngCmd} {status : Nat} (h : Keeps σ s) :
    KeepsOpt σ (s.collEnd c cmd status) := by
  unfold State.collEnd
  dsimp only
  split
  · exact h.collReply
  · split
    · exact KeepsOpt.none
    · exact h.stepCmd

theorem Keeps.collStep {c : CollCmd} (h : Keeps σ s) : KeepsOpt σ (s.collStep c) := by
  unfold State.collStep
  dsimp only
  split
  · exact h.collEnd
  · exact h.collJoin

theorem Keeps.execEvCollComplete {group : Nat} (h : Keeps σ s) : KeepsOut σ (execEvCollComplete group s) := by
  unfold Machine.execEvCollComplete
  dsimp only
  split
  · exact (Keeps.of_some (KeepsOpt.findSome? (fun _ => h.collStep)) ‹_›).tick.toNext
  · exact h.toNext

/-! ### `Machine/Copy` -/

theorem Keeps.twoRanges {y : Heat} {src dst : List Binding → PosChk}
    {k : State → List (Nat × Piece) → List (Nat × Piece) → Out} (h : Keeps σ s)
      (hk : ∀ u1 x2 x3, Keeps σ u1 → KeepsOut σ (k u1 x2 x3)) : KeepsOut σ (twoRanges s y src dst k) := by
  unfold Machine.twoRanges
  dsimp only
  split
  · exact h.holdCheck.toNext
  · split
    · exact h.holdCheck.toNext
    · exact h.raiseAddr.toNext
    · exact h.raiseAddr.toNext
  · split
    · exact h.holdCheck.toNext
    · exact h.raiseAddr.toNext
    · exact hk _ _ _ h.update

theorem Keeps.noteCopyDesc {stride : Nat} {w : List W64} (h : Keeps σ s) : Keeps σ (s.noteCopyDesc stride w) := by
  unfold State.noteCopyDesc
  dsimp only
  split
  · split
    · exact h.cacheDesc
    · exact h
  · exact h

theorem Keeps.copyCommand {y : Heat} {t : Nat} {w : List W64} (h : Keeps σ s) :
    KeepsOut σ (copyCommand s y t w) := by
  unfold Machine.copyCommand
  extract_lets csize
  split
  · exact h.raise.toNext
  · refine h.twoRanges (fun _ _ _ h1 => ?_)
    split
    · exact h1.hold.toNext
    · exact h1.noteCopyDesc.pushCommand

theorem Keeps.copyWord {opc : Nat} {q a : BitVec 4} (h : Keeps σ s) :
    KeepsOut σ (copyWord opc q a s) := h.heatWord (fun _ => h.teamOnly (fun _ => h.copyCommand))

theorem Keeps.gatherRange {y : Heat} {mask : Mask} {addrs : FMap W64} {size : Nat} {write : Bool}
    {k : State → List (Nat × Piece) → Out} (h : Keeps σ s) (hk : ∀ u1 x2, Keeps σ u1 → KeepsOut σ (k u1 x2)) :
    KeepsOut σ (gatherRange s y mask addrs size write k) := by
  unfold Machine.gatherRange
  dsimp only
  split
  · exact h.holdCheck.toNext
  · exact h.raiseAddr.toNext
  · exact hk _ _ h.update

theorem Keeps.gatherCommand {y : Heat} {header : W64} {mask : Mask} {addrs : FMap W64}
    {es : Heat → State → List QEntry} (h : Keeps σ s) : KeepsOut σ (gatherCommand s y header mask addrs es) := by
  unfold Machine.gatherCommand
  dsimp only
  split
  · exact h.raise.toNext
  · refine h.gatherRange (fun _ _ h1 => ?_)
    split
    · exact h1.hold.toNext
    · exact h1.pushCommand

theorem Keeps.gth {size : Nat} {q : BitVec 4} {a : BitVec 6} {p : BitVec 1} (h : Keeps σ s) :
    KeepsOut σ (gth size q a p s) := by
  unfold Machine.gth
  refine h.heatWord (fun _ => h.teamOnly (fun _ => ?_))
  dsimp only
  split
  · exact h.finish.toNext
  · exact h.gatherCommand

theorem Keeps.sct {size n b : Nat} {q : BitVec 4} {a : BitVec 6} {p : BitVec 1} (h : Keeps σ s) :
    KeepsOut σ (sct size n b q a p s) := by
  unfold Machine.sct
  refine h.heatWord (fun _ => h.teamOnly (fun _ => ?_))
  dsimp only
  split
  · exact h.finish.toNext
  · exact h.gatherCommand

theorem Keeps.execEvCopyEngineAccept {core : Nat} (h : Keeps σ s) : KeepsOut σ (execEvCopyEngineAccept core s) := by
  unfold Machine.execEvCopyEngineAccept
  split
  · exact h.toNext
  · split
    · exact h.toNext
    · split
      · exact h.toNext
      · exact h.putCore.accept.tick.toNext

theorem Keeps.markCluster {t : Nat} (h : Keeps σ s) :
    Keeps σ (s.markCluster t) := h.foldl (fun _ _ h1 => h1.markReady)

theorem Keeps.execEvScratchpadLineWritten {team line : Nat} (h : Keeps σ s) :
    KeepsOut σ (execEvScratchpadLineWritten team line s) := by
  unfold Machine.execEvScratchpadLineWritten
  split
  · exact h.toNext
  · split
    · split
      · exact h.putTeam.markCluster.tick.toNext
      · exact h.toNext
    · split
      · exact h.toNext
      · split
        · exact h.writeLine.markCluster.tick.toNext
        · exact h.toNext

theorem Keeps.engineStep {c : EngCmd} (h : Keeps σ s) : Keeps σ (s.engineStep c) := by
  unfold State.engineStep
  split
  · exact (Keeps.of_some h.stepCmd ‹_›).markCluster.tick
  · exact h

theorem Keeps.execEvCopyComplete {id : Nat} (h : Keeps σ s) : KeepsOut σ (execEvCopyComplete id s) := by
  unfold Machine.execEvCopyComplete
  split
  · exact h.toNext
  · split
    · exact h.engineStep.toNext
    · exact h.replyCmd.toNext

theorem Keeps.execEvGatherEngineAccept {core : Nat} (h : Keeps σ s) :
    KeepsOut σ (execEvGatherEngineAccept core s) := by
  unfold Machine.execEvGatherEngineAccept
  split
  · exact h.toNext
  · split
    · exact h.toNext
    · exact h.putCore.accept.tick.toNext

theorem Keeps.execEvGatherResult {id : Nat} (h : Keeps σ s) : KeepsOut σ (execEvGatherResult id s) := by
  unfold Machine.execEvGatherResult
  split
  · exact h.toNext
  · split
    · exact h.replyCmd.toNext
    · split
      · exact h.engineStep.toNext
      · exact (h.putCmd.replyCmd.tick.ite h.putCmd.replyCmd.raiseAsync.tick).toNext

theorem Keeps.execEvScatterComplete {id : Nat} (h : Keeps σ s) : KeepsOut σ (execEvScatterComplete id s) := by
  unfold Machine.execEvScatterComplete
  split
  · exact h.toNext
  · split
    · exact h.engineStep.toNext
    · exact h.replyCmd.toNext

/-! ### `Machine/Relay` -/

theorem Keeps.sendOp {asid dev : Nat} {o : RelayOp} (h : Keeps σ s) :
    Keeps σ (s.sendOp asid dev o) := h.modStream.sendPacket

theorem Keeps.sendOps {y : Heat} {t op n : Nat} {addr : Nat → Addr} {xy : Heat → Nat → W64 × W64}
    {ts : List (Nat × Target)} (h : Keeps σ s) : Keeps σ (s.sendOps y t op n addr xy ts) := by
  unfold State.sendOps
  split
  · dsimp only
    split
    · exact h.foldl (fun _ _ h1 => h1.noteDigest)
    · exact (h.foldl (fun _ _ h1 => h1.noteDigest)).foldl (fun _ _ h1 => h1.sendOp)
  · exact h.foldl (fun _ _ h1 => h1.sendOp)

theorem Keeps.relayWord {op n : Nat} {uses : List (Nat × Nat)} {dest : Option (Nat × Nat × Nat)} {a : BitVec 4}
    {o : BitVec 7} {p : BitVec 1} {xy : Heat → Nat → W64 × W64} (h : Keeps σ s) :
    KeepsOut σ (relayWord op n uses dest a o p xy s) := by
  unfold Machine.relayWord
  refine h.heatWord (fun _ => h.teamOnly (fun _ => ?_))
  dsimp only
  split
  · exact h.commitOnly
  · split
    · refine h.needSlot (h.accessLanes (fun _ _ h1 => ?_))
      split
      · exact h1.hold.toNext
      · split
        · exact h1.hold.toNext
        · exact h1.commitPoint (fun _ _ h2 => h2.sendOps.count.finish.endLap.toNext)
    · refine h.accessLanes (fun _ _ h1 => ?_)
      split
      · exact h1.hold.toNext
      · split
        · exact h1.hold.toNext
        · exact h1.commitPoint (fun _ _ h2 => h2.sendOps.count.finish.endLap.toNext)

theorem Keeps.ratom {op : Nat} {d : BitVec 6} {a : BitVec 4} {o : BitVec 7} {l : BitVec 4} {p : BitVec 1}
    (h : Keeps σ s) : KeepsOut σ (ratom op d a o l p s) := h.relayWord

theorem Keeps.sendAcks {asid : Nat} (h : Keeps σ s) : Keeps σ (s.sendAcks asid) := by
  unfold State.sendAcks
  split
  · exact h
  · exact h.foldl (fun _ _ h1 => h1.modStream.sendPacket.ite h1)

theorem Keeps.dropPacket {b : List Byte} (h : Keeps σ s) : Keeps σ (s.dropPacket b) := h.update.tick

theorem Keeps.noteArrival {offset : Nat} (h : Keeps σ s) : Keeps σ (s.noteArrival offset) := by
  unfold State.noteArrival
  split
  · exact h
  · exact h.noteTranslate

theorem Keeps.runRelay {p : Packet} (h : Keeps σ s) : Keeps σ (s.runRelay p).1 := by
  unfold State.runRelay
  dsimp only
  split
  · exact h
  · exact h
  · split
    · exact h
    · split
      · split
        · exact h
        · split
          · exact h
          · exact h.createGrid
      · exact h.perform

theorem Keeps.respond {p : Packet} {status reason : Nat} {result : W64} (h : Keeps σ s) :
    Keeps σ (s.respond p status reason result) := h.sendPacket

theorem Keeps.execute {p : Packet} (h : Keeps σ s) : Keeps σ (s.execute p).1 := by
  unfold State.execute
  dsimp only
  split
  · exact h.respond
  · split
    · exact h.runRelay.respond
    · exact h.runRelay.update.respond

theorem Keeps.executeHeld {key n : Nat} (h : Keeps σ s) : Keeps σ (s.executeHeld key n) := by
  induction n generalizing s with
  | zero => exact h
  | succ n ih =>
    unfold State.executeHeld
    dsimp only
    split
    · exact h
    · split
      · exact h
      · split
        · exact ih h.execute
        · exact h.execute

theorem Keeps.ownerRequest {p : Packet} (h : Keeps σ s) : Keeps σ (s.ownerRequest p) := by
  unfold State.ownerRequest
  extract_lets key old older same fresh r s1 x
  split
  · exact h.respond
  · split
    · exact h.respond
    · split
      · exact h.respond
      · have h1 : Keeps σ s1 := h.update
        split
        · exact h1.respond
        · split
          · split
            · exact h1.respond
            · exact h1
          · split
            · split
              · exact h1
              · exact h1.update
            · split
              · exact h1.execute.executeHeld
              · exact h1.execute

theorem Keeps.execEvRelayRequestReceipt {packet : List (BitVec 8)} (h : Keeps σ s) :
    KeepsOut σ (execEvRelayRequestReceipt packet s) := by
  unfold Machine.execEvRelayRequestReceipt
  split
  · exact h.toNext
  · split
    · exact h.dropPacket.toNext
    · split
      · exact h.toNext
      · split
        · exact h.toNext
        · exact h.noteArrival.ownerRequest.tick.toNext

theorem Keeps.execEvRelayAcknowledgementReceipt {packet : List (BitVec 8)} (h : Keeps σ s) :
    KeepsOut σ (execEvRelayAcknowledgementReceipt packet s) := by
  unfold Machine.execEvRelayAcknowledgementReceipt
  split
  · exact h.toNext
  · split
    · exact h.dropPacket.toNext
    · split
      · exact h.toNext
      · split
        · exact h.tick.toNext
        · split
          · exact h.update.tick.toNext
          · exact h.tick.toNext

theorem Keeps.execEvRelayCloseReceipt {packet : List (BitVec 8)} (h : Keeps σ s) :
    KeepsOut σ (execEvRelayCloseReceipt packet s) := by
  unfold Machine.execEvRelayCloseReceipt
  split
  · exact h.toNext
  · split
    · exact h.dropPacket.toNext
    · split
      · exact h.toNext
      · exact (h.update.ite h).respond.tick.toNext

theorem Keeps.putArea {asid : Nat} {l : List (Nat × Nat × QEntry)} (h : Keeps σ s) :
    Keeps σ (s.putArea asid l) := by
  unfold State.putArea
  split
  · exact h
  · exact h.modCtx.perform

theorem Keeps.relayReply {asid : Nat} {o : RelayOp} {status : Nat} (h : Keeps σ s) :
    Keeps σ (s.relayReply asid o status) := by
  unfold State.relayReply
  dsimp only
  split
  · split
    · exact h
    · split
      · exact h.receive
      · exact h.putArea.shareWith
  · exact h

theorem Keeps.refillQ6 {t asid n : Nat} (h : Keeps σ s) : Keeps σ (s.refillQ6 t asid n) := by
  induction n generalizing s with
  | zero => exact h
  | succ n ih =>
    unfold State.refillQ6
    split
    · split
      · exact h
      · exact ih h.putArea.modTeam
    · exact h

theorem Keeps.refill {t : Nat} (h : Keeps σ s) : Keeps σ (s.refill t) := by
  unfold State.refill
  split
  · exact h
  · split
    · exact h
    · split
      · exact h
      · exact h.refillQ6

theorem Keeps.relayDrain {asid dev n : Nat} (h : Keeps σ s) : Keeps σ (s.relayDrain asid dev n) := by
  induction n generalizing s with
  | zero => exact h.closeIdle
  | succ n ih =>
    unfold State.relayDrain
    dsimp only
    split
    · exact h
    · split
      · exact h.closeIdle
      · split
        · exact h
        · refine ih (Keeps.tick (Keeps.relayReply ?_))
          split
          · exact h.modStream.deliver
          · exact h.modStream

theorem Keeps.learnIncarnation {dev : Nat} {inc : W32} (h : Keeps σ s) : Keeps σ (s.learnIncarnation dev inc) := by
  unfold State.learnIncarnation
  refine h.update.foldl (fun _ _ h1 => ?_)
  dsimp only
  split
  · exact h1
  · exact h1.modStream.relayDrain

theorem Keeps.relayAnswer {p : Packet} {dev : Nat} (h : Keeps σ s) : Keeps σ (s.relayAnswer p dev) := by
  unfold State.relayAnswer
  split
  · exact h
  · dsimp only
    split
    · exact h
    · split
      · split
        · exact h.modCtx.closeIdle
        · exact h
      · split
        · exact h
        · exact h.modStream
        · exact h.modStream.relayDrain

theorem Keeps.execEvRelayResponseReceipt {packet : List (BitVec 8)} (h : Keeps σ s) :
    KeepsOut σ (execEvRelayResponseReceipt packet s) := by
  unfold Machine.execEvRelayResponseReceipt
  dsimp only
  split
  · exact h.toNext
  · split
    · exact h.dropPacket.toNext
    · split
      · exact h.toNext
      · split
        · exact h.tick.toNext
        · exact (h.learnIncarnation.ite h).relayAnswer.tick.toNext

theorem Keeps.modOp {asid dev : Nat} {serial : W32} {f : RelayOp → RelayOp} (h : Keeps σ s) :
    Keeps σ (s.modOp asid dev serial f) := h.modStream

theorem Keeps.resendOp {asid dev : Nat} {o : RelayOp} (h : Keeps σ s) : Keeps σ (s.resendOp asid dev o) := by
  unfold State.resendOp
  split
  · exact h
  · exact h.sendPacket

theorem Keeps.execEvRelayRetransmission {asid dev : Nat} {serial : BitVec 32} (h : Keeps σ s) :
    KeepsOut σ (execEvRelayRetransmission asid dev serial s) := by
  unfold Machine.execEvRelayRetransmission
  split
  · exact h.toNext
  · split
    · exact h.toNext
    · split
      · exact h.modOp.resendOp.count.tick.toNext
      · exact h.modOp.relayDrain.tick.toNext

theorem Keeps.execEvRelayRetryLaterResend {asid dev : Nat} {serial : BitVec 32} (h : Keeps σ s) :
    KeepsOut σ (execEvRelayRetryLaterResend asid dev serial s) := by
  unfold Machine.execEvRelayRetryLaterResend
  split
  · exact h.toNext
  · split
    · exact h.toNext
    · exact h.modOp.resendOp.tick.toNext

theorem Keeps.execEvRelayRetryLaterTimeout {asid dev : Nat} {serial : BitVec 32} (h : Keeps σ s) :
    KeepsOut σ (execEvRelayRetryLaterTimeout asid dev serial s) := by
  unfold Machine.execEvRelayRetryLaterTimeout
  split
  · exact h.toNext
  · split
    · exact h.toNext
    · exact h.modOp.relayDrain.tick.toNext

theorem Keeps.execEvRelayCloseResend {asid dev : Nat} (h : Keeps σ s) :
    KeepsOut σ (execEvRelayCloseResend asid dev s) := by
  unfold Machine.execEvRelayCloseResend
  split
  · exact h.toNext
  · split
    · exact h.toNext
    · split
      · exact h.modStream.sendClose.tick.toNext
      · exact h.modCtx.closeIdle.tick.toNext

theorem Keeps.restoreStreams {asid : Nat} (h : Keeps σ s) : Keeps σ (s.restoreStreams asid) := by
  unfold State.restoreStreams
  split
  · exact h
  · refine h.foldl (fun _ _ h1 => ?_)
    dsimp only
    split
    · split
      · exact h1.learnIncarnation
      · exact h1
    · exact (h1.learnIncarnation.ite h1).modStream.foldl (fun _ _ h2 => h2.resendOp)

/-! ### `Machine/Queue` -/

theorem Keeps.setShared {q : Nat} {l : List QEntry} (h : Keeps σ s) : Keeps σ (s.setShared q l) := by
  unfold State.setShared
  split
  · exact h
  · exact h.modTeam

theorem Keeps.queueHold {y : Heat} {code : Nat} (h : Keeps σ s) : KeepsOut σ (s.queueHold y code) := h.hold.toNext

theorem Keeps.pushShared {y : Heat} {q : Nat} {e : QEntry} (h : Keeps σ s) : KeepsOut σ (pushShared s y q e) := by
  unfold Machine.pushShared
  split
  · exact h.queueHold
  · exact h.setShared.finish.toNext

theorem Keeps.pushGather {y : Heat} {e : QEntry} (h : Keeps σ s) : KeepsOut σ (pushGather s y e) := by
  unfold Machine.pushGather
  dsimp only
  split
  · exact h.raise.toNext
  · split
    · exact h.queueHold
    · split
      · exact h.finish.toNext
      · exact h.gatherRange (fun _ _ h1 => h1.pushCommand)

theorem Keeps.qpush {q p r w : Nat} {val : Heat → Nat → W64} (h : Keeps σ s) :
    KeepsOut σ (qpush q p r w s val) := by
  unfold Machine.qpush
  refine h.heatWord (fun _ => h.teamOnly (fun _ => ?_))
  dsimp only
  split
  · exact h.raise.toNext
  · split
    · exact h.finish.toNext
    · split
      · split
        · exact h.copyCommand
        · exact h.raise.toNext
      · split
        · split
          · exact h.collCommand
          · exact h.raise.toNext
        · split
          · exact h.pushGather
          · exact h.pushShared

theorem Keeps.qtake {q p r w la : Nat} {pop : Bool} (h : Keeps σ s) : KeepsOut σ (qtake q p r w la pop s) := by
  unfold Machine.qtake
  refine h.heatWord (fun _ => h.teamOnly (fun _ => ?_))
  dsimp only
  split
  · exact h.raise.toNext
  · split
    · exact h.finish.toNext
    · refine h.needSlot ?_
      split
      · exact h.queueHold
      · split
        · exact h.queueHold
        · split
          · exact (h.noteReplay.ite h).finish.toNext
          · split
            · exact h.noteReplay.setShared.finish.toNext
            · exact (h.finish.refill.ite h.finish).toNext

/-! ### `Machine/System` -/

theorem Keeps.noteSel {c n : Nat} (h : Keeps σ s) : Keeps σ (s.noteSel c n) := by
  unfold State.noteSel
  dsimp only
  split
  · exact h.putCore
  · split
    · exact h.putCore
    · exact h

theorem Keeps.writeSel {x : Sel} {n : Nat} {v : W64} (h : Keeps σ s) : Keeps σ (s.writeSel x n v) := by
  unfold State.writeSel
  split
  · exact h.putHeat
  · exact h.modSeq
  · exact h

theorem Keeps.clockRead {y : Heat} {now : W64} (h : Keeps σ s) : Keeps σ (clockRead s y now).1 := by
  unfold Machine.clockRead
  dsimp only
  split
  · exact h
  · exact h.noteReplay

theorem Keeps.clockWord {d reason : Nat} {now : State → Heat → W64} (h : Keeps σ s) :
    KeepsOut σ (clockWord s d reason now) := by
  unfold Machine.clockWord
  refine h.heatWord (fun _ => ?_)
  split
  · exact h.raise.toNext
  · exact h.clockRead.finish.toNext

theorem Keeps.execSrd {d : BitVec 7} {r : BitVec 16} (h : Keeps σ s) : KeepsOut σ (execSrd d r s) := by
  unfold Machine.execSrd
  dsimp only
  split
  · exact h.heatWord (fun _ => h.raise.toNext)
  · split
    · exact h.heatWord (fun _ => h.finish.toNext)
    · split
      · exact h.heatWord (fun _ => h.finish.toNext)
      · split
        · exact h.clockWord
        · refine h.heatWord (fun _ => ?_)
          split
          · exact KeepsOut.fault
          · exact h.noteSel.finish.toNext

theorem Keeps.privWord {vr sr : List (Nat × Nat)} {f : Nat → Heat → Out} (h : Keeps σ s)
    (hf : ∀ x1 x2, KeepsOut σ (f x1 x2)) : KeepsOut σ (privWord s vr sr f) := by
  unfold Machine.privWord
  split
  · exact h.heatWord (fun _ => hf _ _)
  · exact h.heatWord (fun _ => h.raise.toNext)

theorem Keeps.swrCore {d : Nat} {f : Core → W64 → Core} (h : Keeps σ s) : KeepsOut σ (swrCore s d f) := by
  unfold Machine.swrCore
  refine h.privWord (fun _ _ => ?_)
  dsimp only
  split
  · exact KeepsOut.fault
  · exact h.putCore.finish.toNext

theorem Keeps.swrState {d : Nat} {f : Nat → State → W64 → State} (h : Keeps σ s)
    (hf : ∀ x1 u2 x3, Keeps σ u2 → Keeps σ (f x1 u2 x3)) :
    KeepsOut σ (swrState s d f) := h.privWord (fun _ _ => (hf _ _ _ h).finish.toNext)

theorem Keeps.execSwr {d : BitVec 7} {r : BitVec 16} (h : Keeps σ s) : KeepsOut σ (execSwr d r s) := by
  unfold Machine.execSwr
  split
  · exact h.privWord (fun _ _ => h.finish.toNext)
  · exact h.swrCore
  · exact h.swrCore
  · exact h.privWord (fun _ _ => h.raise.toNext)

theorem Keeps.swrPool {d : Nat} {f : Core → W64 → Core} (h : Keeps σ s) : KeepsOut σ (swrPool s d f) := by
  unfold Machine.swrPool
  refine h.privWord (fun _ _ => ?_)
  split
  · exact h.raise.toNext
  · dsimp only
    split
    · exact KeepsOut.fault
    · exact h.putCore.finish.toNext

theorem Keeps.setTensor {asid : Nat} {f : W64 × W64 → W64 × W64} (h : Keeps σ s) :
    Keeps σ (s.setTensor asid f) := h.modCtx.update

theorem Keeps.swrTensor {d : Nat} {f : W64 × W64 → W64 → W64 × W64} (h : Keeps σ s) :
    KeepsOut σ (swrTensor s d f) := h.privWord (fun _ _ => h.setTensor.update.finish.toNext)

theorem Keeps.swrSel {d n : Nat} (h : Keeps σ s) : KeepsOut σ (swrSel s d n) := by
  unfold Machine.swrSel
  refine h.swrState (fun _ _ _ h1 => ?_)
  split
  · exact h1.writeSel
  · exact h1

theorem Keeps.execEret (h : Keeps σ s) : KeepsOut σ (execEret s) := by
  unfold Machine.execEret
  refine h.privWord (fun _ _ => ?_)
  split
  · exact h.hold.toNext
  · exact h.finish.eret.toNext

theorem Keeps.invalidate {x : TlbiScope} (h : Keeps σ s) : Keeps σ (s.invalidate x) := h.update.dropUnreadable

theorem Keeps.tlbi {sr : List (Nat × Nat)} {scope : Heat → TlbiScope} (h : Keeps σ s) :
    KeepsOut σ (tlbi s sr scope) := by
  unfold Machine.tlbi
  refine h.privWord (fun _ _ => ?_)
  dsimp only
  split
  · exact h.invalidate.hold.toNext
  · exact h.invalidate.finish.toNext

theorem Keeps.haltOn {asid c : Nat} (h : Keeps σ s) :
    Keeps σ (s.haltOn asid c) := h.foldl (fun _ _ h1 => h1.modTeam)

theorem Keeps.halt {c asid action : Nat} (h : Keeps σ s) : Keeps σ (s.halt c asid action) := by
  unfold State.halt
  split
  · exact h.haltOn
  · exact h.haltOn.modCtx.foldl (fun _ _ h1 => h1.haltOn.raiseOn)
  · exact h.dropTeams.modCtx.putCore

theorem Keeps.execHalt {a : BitVec 6} (h : Keeps σ s) : KeepsOut σ (execHalt a s) := by
  unfold Machine.execHalt
  refine h.privWord (fun _ _ => ?_)
  dsimp only
  split
  · exact h.raise.toNext
  · split
    · exact h.finish.toNext
    · exact h.finish.halt.toNext

theorem Keeps.sendCall {x : Team} {t : Nat} {y : Heat} {m : Mask} {a n : Nat} (h : Keeps σ s) :
    Keeps σ (s.sendCall x t y m a n).1 := by
  unfold State.sendCall
  dsimp only
  split
  · exact h.noteDigest.noteRead
  · exact h.noteDigest.noteRead.sendFrame

theorem Keeps.execCallh {d a b : BitVec 7} {p : BitVec 2} (h : Keeps σ s) : KeepsOut σ (execCallh d a b p s) := by
  unfold Machine.execCallh
  refine h.heatWord (fun _ => h.teamOnly (fun _ => ?_))
  dsimp only
  split
  · exact h.finish.toNext
  · split
    · exact h.hold.toNext
    · refine h.commitPoint (fun _ _ h1 => ?_)
      split
      · exact KeepsOut.fault
      · exact h1.sendCall.finishPark.endLap.toNext

theorem Keeps.stopTeam {t : Nat} (h : Keeps σ s) :
    Keeps σ (s.stopTeam t) := h.foldl (fun _ _ h1 => h1.unpackTeam.modTeam)

theorem Keeps.execBrk {n : BitVec 9} (h : Keeps σ s) : KeepsOut σ (execBrk n s) := by
  unfold Machine.execBrk
  refine h.heatWord (fun _ => ?_)
  split
  · exact h.trapHeatFault.toNext
  · dsimp only
    split
    · exact h.finish.toNext
    · split
      · split
        · exact h.finish.toNext
        · exact h.finish.stopTeam.dbgReply.toNext
      · exact h.finish.raiseOn.toNext

/-! ### `Machine/Issue` -/

theorem Keeps.toHeader (h : Keeps σ s) : Keeps σ s.toHeader := by
  unfold State.toHeader
  split
  · exact h.putCurHeat
  · exact h.putCurSeq
  · exact h

theorem Keeps.fetchRaise {cls info : Nat} {word : W32} {addr : Addr} (h : Keeps σ s) :
    Keeps σ (s.fetchRaise cls info word addr) := h.toHeader.raiseRec

theorem Keeps.noteFetch {a : Addr} (h : Keeps σ s) : Keeps σ (s.noteFetch a) := h.noteWalk

theorem Keeps.withClause {code : FMap Byte} {buf : List (Addr × List W32)} {seq : Bool} {held : State}
    {k : List W32 → Prep} (h : Keeps σ s) (hheld : Keeps σ held) (hk : ∀ x1, KeepsPrep σ (k x1)) :
    KeepsPrep σ (withClause s code buf seq held k) := by
  unfold Machine.withClause
  dsimp only
  split
  · exact h.fetchRaise.toStay
  · split
    · exact h.fetchRaise.toStay
    · split
      · exact hheld.toStay
      · exact h.noteFetch.fetchRaise.toStay
      · split
        · exact h.fetchRaise.toStay
        · exact hk _

theorem Keeps.runWord (h : Keeps σ s) : KeepsPrep σ (runWord s) := by
  unfold Machine.runWord
  split
  · exact h.toRun
  · exact h.raise.toStay

theorem Keeps.deliverDue {t : Nat} {d : Delivery} (h : Keeps σ s) :
    Keeps σ (s.deliverDue t d) := h.modTeam.settleHeat.refill.tick

theorem Keeps.holdHeat {t u : Nat} {y : Heat} {active : Mask} {cause : Nat} (h : Keeps σ s) :
    Keeps σ (s.holdHeat t u y active cause) := h.putHeat

theorem Keeps.prepareGroup {who : Issuer} {t u core : Nat} {code : FMap Byte} {y : Heat} {active : Mask}
    (h : Keeps σ s) : KeepsPrep σ (prepareGroup s who t u core code y active) := by
  unfold Machine.prepareGroup
  refine h.update.withClause h.holdHeat (fun _ => ?_)
  dsimp only
  split
  · exact h.holdHeat.toStay
  · exact h.update.putHeat.update.runWord

theorem Keeps.prepareHeat {t u : Nat} (h : Keeps σ s) : KeepsPrep σ (prepareHeat s t u) := by
  unfold Machine.prepareHeat
  split
  · exact h.toStay
  · split
    · dsimp only
      split
      · exact h.deliverDue.toStay
      · split
        · exact h.toStay
        · split
          · exact h.toStay
          · exact h.prepareGroup
    · exact h.toStay

theorem Keeps.prepareTrap {core : Nat} (h : Keeps σ s) : KeepsPrep σ (prepareTrap s core) := by
  unfold Machine.prepareTrap
  dsimp only
  split
  · exact h.toStay
  · split
    · exact h.toStay
    · exact h.prepareGroup

theorem Keeps.prepareSeq {t : Nat} (h : Keeps σ s) : KeepsPrep σ (prepareSeq s t) := by
  unfold Machine.prepareSeq
  split
  · exact h.toStay
  · split
    · exact h.toStay
    · dsimp only
      split
      · exact h.deliverDue.toStay
      · split
        · exact h.toStay
        · refine h.update.withClause h (fun _ => ?_)
          split
          · exact h.toStay
          · exact h.update.modSeq.update.runWord

theorem Keeps.prepare {w : Issuer} (h : Keeps σ s) : KeepsPrep σ (prepare s w) := by
  unfold Machine.prepare
  split
  · exact h.prepareHeat
  · exact h.prepareSeq
  · exact h.prepareTrap

theorem Keeps.settleYield {s0 : State} {issued : Bool} (h : Keeps σ s) : Keeps σ (s.settleYield s0 issued) := by
  unfold State.settleYield
  split
  · split
    · exact h
    · exact h.putHeat.ite h
  · exact h

theorem Keeps.settleStep {s0 : State} {issued : Bool} (h : Keeps σ s) : Keeps σ (s.settleStep s0 issued) := by
  unfold State.settleStep
  split
  · exact h
  · split
    · exact h
    · split
      · exact h
      · dsimp only
        split
        · exact h.putTeam.dbgReply
        · split
          · exact h.putTeam.dbgReply
          · split
            · exact h
            · split
              · exact h.putTeam
              · exact h.putTeam.dbgReply

theorem Keeps.settleReplay {who : Issuer} (h : Keeps σ s) : Keeps σ (s.settleReplay who) := by
  unfold State.settleReplay
  split
  · exact h
  · exact h.modTeam
  · exact h.modTeam

theorem Keeps.settleWalks {s0 : State} {issued : Bool} (h : Keeps σ s) : Keeps σ (s.settleWalks s0 issued) := by
  unfold State.settleWalks
  split
  · exact h.endWalks
  · exact h

theorem Keeps.settleIssue {s1 : State} (hs1 : Keeps σ s1) :
    Keeps σ (settleIssue s s1) := hs1.settleYield.settleStep.settleReplay.settleWalks

theorem Keeps.execEvBroadcastFetch {team heat : Nat} (h : Keeps σ s) :
    KeepsOut σ (execEvBroadcastFetch team heat s) := by
  unfold Machine.execEvBroadcastFetch
  split
  · split
    · exact h.toNext
    · dsimp only
      split
      · exact h.toNext
      · split
        · exact h.modSeq.tick.toNext
        · exact h.toNext
  · split
    · exact h.toNext
    · split
      · exact h.toNext
      · dsimp only
        split
        · exact h.toNext
        · split
          · exact h.putHeat.tick.toNext
          · exact h.toNext

theorem Keeps.cacheWalk {homes : List Nat} {asid : Nat} {w : Walk} (h : Keeps σ s) :
    Keeps σ (s.cacheWalk homes asid w) := by
  unfold State.cacheWalk
  split
  · exact h.update
  · exact h

theorem Keeps.cachePath {es : List TableEntry} (h : Keeps σ s) : Keeps σ (s.cachePath es) := h.update

theorem Keeps.execEvPageWalkComplete {asid : Nat} {va : BitVec 72} (h : Keeps σ s) :
    KeepsOut σ (execEvPageWalkComplete asid va s) := by
  unfold Machine.execEvPageWalkComplete
  dsimp only
  split
  · exact h.toNext
  · split
    · exact h.toNext
    · exact h.update.cacheWalk.cachePath.noteWalk.tick.toNext

theorem Keeps.execEvArithmeticCycle {core : Nat} (h : Keeps σ s) : KeepsOut σ (execEvArithmeticCycle core s) := by
  unfold Machine.execEvArithmeticCycle
  split
  · exact h.toNext
  · exact (h.foldl (fun _ _ h1 => h1.modTeam.markReady)).putCore.count.tick.toNext

/-! ### `Machine/Vector` -/

theorem Keeps.vec2 {d a b : BitVec 7} {p : BitVec 2} {f : W32 → W32 → W32} (h : Keeps σ s) :
    KeepsOut σ (vec2 d a b p s f) := h.vecWord

theorem Keeps.vec3 {d a b : BitVec 7} {p : BitVec 2} {f : W32 → W32 → W32 → W32} (h : Keeps σ s) :
    KeepsOut σ (vec3 d a b p s f) := h.vecWord

theorem Keeps.vec1 {d a : BitVec 7} {p : Nat} {f : W32 → W32} (h : Keeps σ s) :
    KeepsOut σ (vec1 d a p s f) := h.vecWord

theorem Keeps.pair2 {d a b : BitVec 6} {p : BitVec 2} {f : W64 → W64 → W64} (h : Keeps σ s) :
    KeepsOut σ (pair2 d a b p s f) := h.pairWord

theorem Keeps.pairShift {d a : BitVec 6} {b : BitVec 7} {p : BitVec 2} {f : W64 → Nat → W64} (h : Keeps σ s) :
    KeepsOut σ (pairShift d a b p s f) := h.pairWord

theorem Keeps.vcmp {d : BitVec 3} {a b : BitVec 7} {p : BitVec 2} {f : W32 → W32 → Bool} (h : Keeps σ s) :
    KeepsOut σ (vcmp d a b p s f) := h.predWord

theorem Keeps.pred2 {d a b : BitVec 3} {p : BitVec 2} {f : Bool → Bool → Bool} (h : Keeps σ s) :
    KeepsOut σ (pred2 d a b p s f) := h.predWord

/-! ### `Machine/Float32` -/

theorem Keeps.fp2Word {m : Fmt} {d a b : BitVec 7} {p : BitVec 2} {f : W32 → W32 → W32} (h : Keeps σ s) :
    KeepsOut σ (fp2Word m d a b p s f) := h.fpWord

theorem Keeps.fp3Word {m : Fmt} {d a b : BitVec 7} {p : BitVec 2} {f : W32 → W32 → W32 → W32} (h : Keeps σ s) :
    KeepsOut σ (fp3Word m d a b p s f) := h.fpWord

theorem Keeps.fp1Word {m : Fmt} {d a : BitVec 7} {p : Nat} {f : W32 → W32} (h : Keeps σ s) :
    KeepsOut σ (fp1Word m d a p s f) := h.fpWord

/-! ### `Machine/Convert` -/

theorem Keeps.cvt {f : Fmt} {m : RMode} {d a : BitVec 7} {p : Nat} {e src : BitVec 3} (h : Keeps σ s) :
    KeepsOut σ (cvt f m d a p e src s) := h.heatWord (fun _ => h.finishShadow.toNext)

theorem Keeps.quantMx {f : Fmt} {d a b : BitVec 7} {p : BitVec 2} (h : Keeps σ s) :
    KeepsOut σ (quantMx f d a b p s) := h.heatWord (fun _ => h.finish.toNext)

theorem Keeps.quantQf {f : Fmt} {d a b : BitVec 7} {p : BitVec 2} (h : Keeps σ s) :
    KeepsOut σ (quantQf f d a b p s) := by
  unfold Machine.quantQf
  refine h.heatWord (fun _ => ?_)
  split
  · exact h.raise.toNext
  · exact h.finish.toNext

theorem Keeps.dequant {f : Fmt} {d a b : BitVec 7} {src : Mask} {scale : Heat → Nat → FVal} (h : Keeps σ s) :
    KeepsOut σ (dequant f d a b src scale s) := h.heatWord (fun _ => h.heatWordIn (fun _ => h.finishShadow.toNext))

theorem Keeps.dequantMx {f : Fmt} {d a b : BitVec 7} {p : BitVec 2} (h : Keeps σ s) :
    KeepsOut σ (dequantMx f d a b p s) := h.dequant

theorem Keeps.dequantQf {f : Fmt} {d a b : BitVec 7} {p : BitVec 2} (h : Keeps σ s) :
    KeepsOut σ (dequantQf f d a b p s) := h.dequant

/-! ### `Machine/CrossLane` -/

theorem Keeps.quadWord {d a : BitVec 7} {p : Nat} {f : Nat → Nat} (h : Keeps σ s) :
    KeepsOut σ (quadWord d a p f s) := h.heatWordBy (fun _ => h.finish.toNext)

theorem Keeps.shuffle {d a : BitVec 7} {uses : List (Nat × Nat)} {p : Nat} {src : Heat → Nat → Int} (h : Keeps σ s)
    : KeepsOut σ (shuffle d a uses p src s) := h.heatWordIn (fun _ => h.finish.toNext)

theorem Keeps.reduceWord {isFp : Bool} {d a : BitVec 7} {p : BitVec 2} {op : W32 → W32 → W32} {ident : W32}
    (h : Keeps σ s) : KeepsOut σ (reduceWord isFp d a p op ident s) := h.heatWordIn (fun _ => h.finishShadow.toNext)

theorem Keeps.scanWord {isFp : Bool} {d a : BitVec 7} {p : BitVec 2} {op : W32 → W32 → W32} {ident : W32}
    (h : Keeps σ s) : KeepsOut σ (scanWord isFp d a p op ident s) := h.heatWordIn (fun _ => h.finishShadow.toNext)

theorem Keeps.voteWord {d : BitVec 3} {uses : List (Nat × Nat)} {p : BitVec 2} {f : Heat → Mask → Bool}
    (h : Keeps σ s) : KeepsOut σ (voteWord d uses p f s) := h.heatWordIn (fun _ => h.finish.toNext)

/-! ### `Machine/Fabric` -/

theorem Keeps.dropFab {id : Nat} (h : Keeps σ s) : Keeps σ (s.dropFab id) := h.update

theorem Keeps.logFabric {q : FabReq} (h : Keeps σ s) : Keeps σ (s.logFabric q) := by
  unfold State.logFabric
  split
  · exact h
  · split
    · exact h
    · dsimp only
      split
      · exact h.foldl (fun _ _ h1 => h1.forwardIn)
      · exact (h.foldl (fun _ _ h1 => h1.forwardIn)).modTeam

theorem Keeps.fabDone {q : FabReq} {ok : Bool} {data : List Byte} (h : Keeps σ s) :
    Keeps σ (s.fabDone q ok data) := by
  unfold State.fabDone
  dsimp only
  split
  · exact h.dropFab.update
  · split
    · exact h.dropFab.modHeatBoth
    · exact h.dropFab.modHeatBoth.logFabric

theorem Keeps.fabFail {q : FabReq} {reason : Nat} (h : Keeps σ s) : Keeps σ (s.fabFail q reason) := by
  unfold State.fabFail
  dsimp only
  split
  · exact h.fabDone.tick
  · exact h.fabDone.raiseAsync.tick

theorem Keeps.collAnswer {id reason : Nat} (h : Keeps σ s) : KeepsOpt σ (s.collAnswer id reason) := by
  unfold State.collAnswer
  split
  · exact KeepsOpt.none
  · split
    · exact h.toSome
    · dsimp only
      split
      · exact h.update.toSome
      · split
        · exact h.update.toSome
        · exact h.update.collVerdict.toSome

theorem Keeps.execEvFabricResponse {id reason : Nat} {data : List (BitVec 8)} (h : Keeps σ s) :
    KeepsOut σ (execEvFabricResponse id reason data s) := by
  unfold Machine.execEvFabricResponse
  split
  · exact h.toNext
  · split
    · split
      · exact (Keeps.of_some h.collAnswer ‹_›).tick.toNext
      · exact h.toNext
    · split
      · split
        · exact h.fabDone.tick.toNext
        · exact h.toNext
      · split
        · exact h.update.tick.toNext
        · split
          · exact h.toNext
          · exact h.fabFail.toNext

theorem Keeps.execEvFabricRetryLaterResend {id : Nat} (h : Keeps σ s) :
    KeepsOut σ (execEvFabricRetryLaterResend id s) := by
  unfold Machine.execEvFabricRetryLaterResend
  split
  · exact h.update.tick.toNext
  · exact h.toNext

theorem Keeps.execEvFabricAccessTimeout {id : Nat} (h : Keeps σ s) :
    KeepsOut σ (execEvFabricAccessTimeout id s) := by
  unfold Machine.execEvFabricAccessTimeout
  split
  · exact h.toNext
  · exact h.fabFail.toNext

theorem Keeps.fabAnswer {src offset reason : Nat} {data : List Byte} (h : Keeps σ s) :
    Keeps σ (s.fabAnswer src offset reason data) := h.update.tick

theorem Keeps.execEvFabricAccessArrival {src offset size : Nat} {isWrite : Bool} {data : List (BitVec 8)}
    (h : Keeps σ s) : KeepsOut σ (execEvFabricAccessArrival src offset size isWrite data s) := by
  unfold Machine.execEvFabricAccessArrival
  split
  · exact h.toNext
  · split
    · exact h.noteArrival.fabAnswer.toNext
    · split
      · exact h.toNext
      · split
        · exact h.perform.fabAnswer.toNext
        · split
          · exact h.candidates.fabAnswer.toNext
          · exact h.fabAnswer.toNext

theorem Keeps.execEvUpliAtomicArrival {src offset op : Nat} {x y : BitVec 64} (h : Keeps σ s) :
    KeepsOut σ (execEvUpliAtomicArrival src offset op x y s) := by
  unfold Machine.execEvUpliAtomicArrival
  dsimp only
  split
  · exact h.toNext
  · split
    · exact h.noteArrival.fabAnswer.toNext
    · split
      · exact h.toNext
      · split
        · exact h.candidates.fabAnswer.toNext
        · exact h.perform.fabAnswer.toNext

/-! ### `Machine/Link` -/

theorem Keeps.rxAck {ack : W32} (h : Keeps σ s) : Keeps σ (s.rxAck ack) := h.update.update

theorem Keeps.rx {n : Nat} (h : Keeps σ s) : Keeps σ (s.rx n) := h.update

theorem Keeps.hostFrame {n : Nat} {ack : W32} {f : State → Out} (h : Keeps σ s)
    (hf : ∀ u1, Keeps σ u1 → KeepsOut σ (f u1)) : KeepsOut σ (hostFrame s n ack f) := by
  unfold Machine.hostFrame
  split
  · exact h.toNext
  · exact hf _ h.rx.rxAck

theorem Keeps.dropMessage (h : Keeps σ s) : Keeps σ s.dropMessage := h.update.tick

theorem Keeps.execEvFrameResend (h : Keeps σ s) : KeepsOut σ (execEvFrameResend s) := by
  unfold Machine.execEvFrameResend
  split
  · exact h.toNext
  · exact h.update.tick.toNext

theorem Keeps.execEvWavelengthFailure (h : Keeps σ s) : KeepsOut σ (execEvWavelengthFailure s) := by
  unfold Machine.execEvWavelengthFailure
  split
  · exact h.toNext
  · exact h.update.tick.toNext

theorem Keeps.execEvWavelengthRestored (h : Keeps σ s) : KeepsOut σ (execEvWavelengthRestored s) := by
  unfold Machine.execEvWavelengthRestored
  split
  · exact h.toNext
  · exact h.update.tick.toNext

theorem Keeps.execEvLinkDown (h : Keeps σ s) : KeepsOut σ (execEvLinkDown s) := by
  unfold Machine.execEvLinkDown
  split
  · exact h.toNext
  · exact h.update.tick.toNext

theorem Keeps.execEvLinkRestored (h : Keeps σ s) : KeepsOut σ (execEvLinkRestored s) := by
  unfold Machine.execEvLinkRestored
  split
  · exact h.toNext
  · exact h.update.mgmtEvent.tick.toNext

theorem Keeps.execEvUalinkPortTraining {port lanes : Nat} (h : Keeps σ s) :
    KeepsOut σ (execEvUalinkPortTraining port lanes s) := by
  unfold Machine.execEvUalinkPortTraining
  split
  · exact h.toNext
  · exact h.update.tick.toNext

theorem Keeps.execEvOpinaFrameDrop {frame : List (BitVec 8)} (h : Keeps σ s) :
    KeepsOut σ (execEvOpinaFrameDrop frame s) := by
  unfold Machine.execEvOpinaFrameDrop
  split
  · exact h.toNext
  · split
    · exact h.toNext
    · exact h.dropMessage.toNext
    · exact h.update.rxAck.dropMessage.toNext

theorem Keeps.launchResult {tag : W32} {ptag gid code : Nat} (h : Keeps σ s) :
    Keeps σ (s.launchResult tag ptag gid code) := h.sendFrame.tick

theorem Keeps.launchFrame {tag : W32} {p record : List Byte} (h : Keeps σ s) :
    Keeps σ (s.launchFrame tag p record) := by
  unfold State.launchFrame
  dsimp only
  split
  · split
    · exact h.launchResult
    · split
      · exact h.launchResult
      · split
        · exact h.launchResult
        · exact h.createGrid.launchResult
  · split
    · exact h.noteTranslate.launchResult
    · split
      · exact h.noteTranslate.launchResult
      · split
        · exact h.noteTranslate.launchResult
        · exact h.noteTranslate.createGrid.launchResult

theorem Keeps.execEvLaunchFrameInline {tag ack : BitVec 32} {payload : List (BitVec 8)} (h : Keeps σ s) :
    KeepsOut σ (execEvLaunchFrameInline tag ack payload s) := by
  unfold Machine.execEvLaunchFrameInline
  refine h.hostFrame (fun _ h1 => ?_)
  split
  · exact h1.dropMessage.toNext
  · split
    · exact h1.launchResult.toNext
    · split
      · exact h1.dropMessage.toNext
      · split
        · exact h1.launchResult.toNext
        · exact h1.launchFrame.toNext

theorem Keeps.execEvLaunchFramePointer {tag ack : BitVec 32} {payload : List (BitVec 8)} (h : Keeps σ s) :
    KeepsOut σ (execEvLaunchFramePointer tag ack payload s) := by
  unfold Machine.execEvLaunchFramePointer
  refine h.hostFrame (fun _ h1 => ?_)
  dsimp only
  split
  · exact h1.dropMessage.toNext
  · split
    · exact h1.launchResult.toNext
    · split
      · exact h.toNext
      · exact h1.noteTranslate.launchResult.toNext
      · exact h1.launchFrame.toNext

theorem Keeps.noteHost {asid va n : Nat} (h : Keeps σ s) : Keeps σ (s.noteHost asid va n) := by
  unfold State.noteHost
  split
  · exact h.foldl (fun _ _ h1 => h1.noteTranslate.ite h1)
  · exact h

theorem Keeps.execEvHostRead {tag ack : BitVec 32} {scale : Bool} {payload : List (BitVec 8)} (h : Keeps σ s) :
    KeepsOut σ (execEvHostRead tag ack scale payload s) := by
  unfold Machine.execEvHostRead
  refine h.hostFrame (fun _ h1 => ?_)
  split
  · exact h1.dropMessage.toNext
  · split
    · exact h.toNext
    · exact h1.noteHost.sendFrame.tick.toNext
    · split
      · exact h1.candidates.sendFrame.tick.toNext
      · exact h1.sendFrame.tick.toNext

theorem Keeps.writeSpare {b : List Byte} {base i0 n : Nat} (h : Keeps σ s) :
    Keeps σ (s.writeSpare b base i0 n) := h.foldl (fun _ _ h1 => h1.update.ite h1)

theorem Keeps.writeSpares {b : List Byte} {i : Nat} {ps : List (Nat × Nat)} (h : Keeps σ s) :
    Keeps σ (s.writeSpares b i ps) := by
  induction ps generalizing s i with
  | nil => exact h
  | cons p ps ih => exact ih h.writeSpare

theorem Keeps.execEvHostWrite {tag ack : BitVec 32} {scale : Bool} {payload : List (BitVec 8)} (h : Keeps σ s) :
    KeepsOut σ (execEvHostWrite tag ack scale payload s) := by
  unfold Machine.execEvHostWrite
  refine h.hostFrame (fun _ h1 => ?_)
  dsimp only
  split
  · split
    · exact h1.dropMessage.toNext
    · split
      · exact h.toNext
      · exact h1.noteHost.sendFrame.tick.toNext
      · exact h1.perform.writeSpares.sendFrame.tick.toNext
  · split
    · exact h1.dropMessage.toNext
    · split
      · exact h.toNext
      · exact h1.noteHost.sendFrame.tick.toNext
      · exact h1.perform.sendFrame.tick.toNext

theorem Keeps.execEvTrapCallReply {tag ack : BitVec 32} {payload : List (BitVec 8)} (h : Keeps σ s) :
    KeepsOut σ (execEvTrapCallReply tag ack payload s) := by
  unfold Machine.execEvTrapCallReply
  refine h.hostFrame (fun _ h1 => ?_)
  split
  · exact h1.dropMessage.toNext
  · split
    · exact h1.tick.toNext
    · exact h1.receive.tick.toNext

/-! ### `Machine/Boot` -/

theorem Keeps.mgmtFrame {f : State → Out} (h : Keeps σ s) (hf : ∀ u1, Keeps σ u1 → KeepsOut σ (f u1)) :
    KeepsOut σ (mgmtFrame s f) := by
  unfold Machine.mgmtFrame
  split
  · exact h.toNext
  · exact hf _ h.rx

theorem Keeps.bootFrame {f : State → Out} (h : Keeps σ s) (hf : ∀ u1, Keeps σ u1 → KeepsOut σ (f u1)) :
    KeepsOut σ (bootFrame s f) := by
  unfold Machine.bootFrame
  split
  · exact h.toNext
  · exact hf _ h.rx

theorem Keeps.answer {tag : W32} {status : Nat} (h : Keeps σ s) :
    KeepsOut σ (s.answer tag status) := h.mgmtReply.tick.toNext

theorem Keeps.bootStages {i : Nat} {l : List (Nat × List Byte)} (h : Keeps σ s) : Keeps σ (s.bootStages i l) := by
  induction l generalizing s i with
  | nil => exact h
  | cons e l ih =>
    unfold State.bootStages
    dsimp only
    split
    · exact h.update
    · refine ih ?_
      split
      · exact h.update
      · exact h

theorem Keeps.boot (h : Keeps σ s) : Keeps σ s.boot := h.update.bootStages

theorem Keeps.execEvColdReset (h : Keeps σ s) : KeepsOut σ (execEvColdReset s) :=
  (h.withMem (fun _ => rfl)).update.boot.tick.toNext

theorem Keeps.endAll (h : Keeps σ s) :
    Keeps σ s.endAll := ((h.foldl (fun _ _ h1 => h1.gridComplete)).foldl (fun _ _ h1 => h1.blackBoxAdd)).dropTeams

theorem Keeps.warm (h : Keeps σ s) : Keeps σ s.warm := by
  unfold State.warm
  extract_lets s1 zeroed
  have h1 : Keeps σ s1 := h.endAll
  exact (h1.withMem (wf_zeroUnits zeroed)).update.boot.tick

theorem Keeps.execEvFirmwareUpdate {tag : BitVec 32} {stage : Nat} {image : List (BitVec 8)} (h : Keeps σ s) :
    KeepsOut σ (execEvFirmwareUpdate tag stage image s) := by
  unfold Machine.execEvFirmwareUpdate
  refine h.bootFrame (fun _ h1 => ?_)
  split
  · exact h1.answer
  · exact h1.update.answer

theorem Keeps.execEvAttest {tag : BitVec 32} {nonce : List (BitVec 8)} (h : Keeps σ s) :
    KeepsOut σ (execEvAttest tag nonce s) := by
  unfold Machine.execEvAttest
  refine h.bootFrame (fun _ h1 => ?_)
  split
  · exact h1.answer
  · exact h1.mgmtReply.tick.toNext

/-! ### `Machine/Thread` -/

theorem Keeps.enterBin {c i : Nat} {b : BinThread} (h : Keeps σ s) : Keeps σ (s.enterBin c i b) := h.putCore

theorem Keeps.placeThread {c asid : Nat} {b : BinThread} (h : Keeps σ s) : Keeps σ (s.placeThread c asid b) := by
  unfold State.placeThread
  split
  · exact h.enterBin
  · exact h.modCtx

theorem Keeps.execSpawn {d : BitVec 4} {a : BitVec 6} {b : BitVec 7} {p : BitVec 2} (h : Keeps σ s) :
    KeepsOut σ (execSpawn d a b p s) := by
  unfold Machine.execSpawn
  refine h.heatWord (fun _ => h.teamOnly (fun _ => ?_))
  dsimp only
  split
  · exact h.finish.toNext
  · split
    · exact h.raise.toNext
    · exact (h.foldl (fun _ _ h1 => h1.placeThread)).finish.toNext

theorem Keeps.launchedLane {g : Launched} {t heat asid : Nat} {x : Nat × Target} (h : Keeps σ g.s) :
    Keeps σ (g.lane t heat asid x).s := by
  unfold Launched.lane
  extract_lets pend
  split
  · split
    · exact h
    · split
      · exact h
      · split
        · exact h
        · exact h.modTeam
  · exact h

theorem Keeps.noteLaunch {t stride : Nat} {addr : Nat → Addr} {ts : List (Nat × Target)} (h : Keeps σ s) :
    Keeps σ (s.noteLaunch t stride addr ts) := h.foldl (fun _ _ h1 => (h1.noteTaken.ite h1.noteRead).noteDigest)

theorem Keeps.launchedLanes {g : Launched} {t heat asid : Nat} {ts : List (Nat × Target)} (h : Keeps σ g.s) :
    Keeps σ (ts.foldl (fun g x => g.lane t heat asid x) g).s := by
  induction ts generalizing g with
  | nil => exact h
  | cons x ts ih => exact ih h.launchedLane

theorem Keeps.execLaunch {d : BitVec 7} {a : BitVec 4} {o : BitVec 7} {l : BitVec 4} {p : BitVec 1} (h : Keeps σ s)
    :
    KeepsOut σ (execLaunch d a o l p s) := by
  unfold Machine.execLaunch
  refine h.heatWord (fun _ => h.teamOnly (fun _ => ?_))
  extract_lets lanes addr
  split
  · exact h.commitOnly
  · refine h.needSlot (h.accessLanes (fun _ _ h1 => h1.commitPoint (fun u _ h2 => ?_)))
    extract_lets u1 g slot
    have hu : Keeps σ u1 := by
      dsimp only [u1]
      split
      · exact h2.noteLaunch
      · exact h2
    exact (Keeps.launchedLanes hu).finish.endLap.toNext

theorem Keeps.execWaitc {src : BitVec 6} {a : BitVec 4} {o : BitVec 7} {p : BitVec 1} (h : Keeps σ s) :
    KeepsOut σ (execWaitc src a o p s) := by
  unfold Machine.execWaitc
  refine h.heatWord (fun _ => h.teamOnly (fun _ => ?_))
  dsimp only
  split
  · exact h.finish.toNext
  · exact h.accessLanes (fun _ _ h1 => h1.finishPark.modTeam.retestTeam.toNext)

theorem Keeps.rsmpWord {a n : Nat} {u : Heat → Option Nat} {sr : List (Nat × Nat)} (h : Keeps σ s) :
    KeepsOut σ (rsmpWord a n u sr s) := by
  unfold Machine.rsmpWord
  refine h.heatWord (fun _ => h.teamOnly (fun _ => ?_))
  dsimp only
  split
  · exact h.endCheck.tick.toNext
  · split
    · exact h.raise.toNext
    · split
      · exact h.putCurHeat.raise.toNext
      · exact h.raise.toNext
      · exact h.commitPoint (fun _ _ h1 => h1.modGrid.finishPark.endLap.toNext)

/-! ### `Machine/Bins` -/

theorem Keeps.tryClone {grid : Nat} {det : Bool} {b : BinThread} {cs : List Nat} (h : Keeps σ s) :
    KeepsOpt σ (s.tryClone grid det b cs) := by
  induction cs with
  | nil => exact .none
  | cons c cs ih =>
    unfold State.tryClone
    split
    · exact ih
    · split
      · exact ih
      · exact h.enterBin.toSome

theorem Keeps.placeClone {b : BinThread} (h : Keeps σ s) : KeepsOpt σ (s.placeClone b) := by
  unfold State.placeClone
  split
  · exact KeepsOpt.none
  · exact h.tryClone

theorem Keeps.unspill {c : Nat} {b : BinThread} (h : Keeps σ s) : KeepsOpt σ (s.unspill c b) := by
  unfold State.unspill
  split
  · exact KeepsOpt.none
  · split
    · exact KeepsOpt.none
    · split
      · exact h.placeClone
      · exact KeepsOpt.map (fun _ => h.enterBin)

theorem Keeps.takeSpill {c : Nat} (h : Keeps σ s) : Keeps σ (s.takeSpill c) := by
  unfold State.takeSpill
  refine h.foldl (fun _ _ h1 => Keeps.modCtx (h1.foldlFst (fun _ _ h2 => ?_)))
  split
  · exact .of_some h2.unspill ‹_›
  · exact h2

theorem Keeps.launchBin {c i : Nat} (h : Keeps σ s) : Keeps σ (s.launchBin c i) := by
  unfold State.launchBin
  dsimp only
  split
  · exact h
  · split
    · exact h
    · split
      · exact h
      · split
        · exact h
        · split
          · exact h
          · exact h.putTeam.modCtx.putCore.takeSpill.tick

theorem Keeps.execEvBinHeatLaunch {core bin : Nat} (h : Keeps σ s) :
    KeepsOut σ (execEvBinHeatLaunch core bin s) := by
  unfold Machine.execEvBinHeatLaunch
  dsimp only
  split
  · exact h.launchBin.toNext
  · exact h.toNext

theorem Keeps.execEvBinTimerExpiry {core bin : Nat} (h : Keeps σ s) :
    KeepsOut σ (execEvBinTimerExpiry core bin s) := by
  unfold Machine.execEvBinTimerExpiry
  dsimp only
  split
  · exact h.launchBin.toNext
  · exact h.toNext

/-! ### `Machine/Place` -/

theorem Keeps.install {t : Nat} {r : Record} {f : Fit} (h : Keeps σ s) :
    Keeps σ (s.install t r f) := (h.ite h.putCore).modTeam

/-! ### `Machine/Swap` -/

theorem Keeps.leave {t : Nat} (h : Keeps σ s) : Keeps σ (s.leave t) := by
  unfold State.leave
  split
  · exact h
  · split
    · exact h.putTeam
    · exact h.unpackTeam.modTeam.update.putCore
    · exact h

theorem Keeps.swapOut {t : Nat} (h : Keeps σ s) : Keeps σ (s.swapOut t) := (h.foldl (fun _ _ h1 => h1.leave)).tick

theorem Keeps.execEvSwapThresholdExpiry {team : Nat} (h : Keeps σ s) :
    KeepsOut σ (execEvSwapThresholdExpiry team s) := by
  unfold Machine.execEvSwapThresholdExpiry
  split
  · exact h.toNext
  · split
    · exact h.toNext
    · dsimp only
      split
      · exact h.modTeam.swapOut.toNext
      · split
        · exact h.toNext
        · exact h.modTeam.tick.toNext

theorem Keeps.saved {c t : Nat} (h : Keeps σ s) : Keeps σ (s.saved c t) := by
  unfold State.saved
  split
  · exact h
  · dsimp only
    split
    · exact h.modTeam.update
    · exact h.modTeam.update.modTeam.raiseOn

theorem Keeps.execEvShadowWritebackDone {core : Nat} (h : Keeps σ s) :
    KeepsOut σ (execEvShadowWritebackDone core s) := by
  unfold Machine.execEvShadowWritebackDone
  split
  · exact h.toNext
  · dsimp only
    split
    · exact h.putCore.saved.tick.swapOut.toNext
    · exact h.putCore.saved.tick.toNext

theorem Keeps.reissue {t : Nat} (h : Keeps σ s) : Keeps σ (s.reissue t) := by
  unfold State.reissue
  split
  · exact h
  · refine Keeps.update ?_
    split
    · exact h.modTeam.modTeam
    · exact h.modTeam

theorem Keeps.enter {r : Record} {t : Nat} {f : Fit} (h : Keeps σ s) : Keeps σ (s.enter r t f) := by
  unfold State.enter
  split
  · exact h
  · dsimp only
    split
    · exact h.putTeam
    · exact ((h.putCore.install.modTeam.reissue.ite h.putCore.install.modTeam).foldl
        (fun _ _ h1 => h1.placeThread)).refill.foldl (fun _ _ h1 => h1.raiseAsync)

theorem KeepsOpt.swapBackVia {s1 : State} {t first : Nat} (hs1 : Keeps σ s1) :
    KeepsOpt σ (s.swapBackVia s1 t first) := by
  unfold State.swapBackVia
  split
  · exact KeepsOpt.none
  · split
    · exact KeepsOpt.none
    · dsimp only
      split
      · exact KeepsOpt.none
      · split
        · exact KeepsOpt.none
        · exact ((hs1.foldl (fun _ _ h1 => h1.enter)).restoreStreams.ite
            (hs1.foldl (fun _ _ h1 => h1.enter))).tick.toSome

theorem Keeps.swapBack {t first : Nat} (h : Keeps σ s) : KeepsOpt σ (s.swapBack t first) := KeepsOpt.swapBackVia h

theorem Keeps.exchange {t first v : Nat} (h : Keeps σ s) : KeepsOpt σ (s.exchange t first v) := by
  unfold State.exchange
  split
  · exact KeepsOpt.swapBackVia (h.foldl (fun _ _ h1 => h1.leave))
  · exact KeepsOpt.none

theorem Keeps.swapIn {t first : Nat} (h : Keeps σ s) : KeepsOpt σ (s.swapIn t first) := by
  unfold State.swapIn
  split
  · exact (Keeps.of_some h.swapBack ‹_›).toSome
  · split
    · exact KeepsOpt.none
    · split
      · exact KeepsOpt.none
      · split
        · exact KeepsOpt.none
        · split
          · exact h.endCheck.tick.toSome
          · exact KeepsOpt.none
          · split
            · exact (Keeps.of_some h.exchange ‹_›).toSome
            · split
              · exact h.swapOut.toSome
              · exact KeepsOpt.none

theorem Keeps.execEvSwapIn {team core : Nat} (h : Keeps σ s) : KeepsOut σ (execEvSwapIn team core s) := by
  unfold Machine.execEvSwapIn
  split
  · exact (Keeps.of_some h.swapIn ‹_›).toNext
  · exact h.toNext

theorem Keeps.execEvDetTimeSlice {quartet : Nat} (h : Keeps σ s) : KeepsOut σ (execEvDetTimeSlice quartet s) := by
  unfold Machine.execEvDetTimeSlice
  split
  · split
    · exact h.swapOut.toNext
    · exact h.toNext
  · split
    · exact h.toNext
    · exact h.update.tick.toNext

/-! ### `Machine/Starter` -/

theorem Keeps.dequeue {gid q : Nat} (h : Keeps σ s) : Keeps σ (s.dequeue gid q) := h.update

theorem Keeps.execEvGridDependenceSatisfied {queue : Nat} (h : Keeps σ s) :
    KeepsOut σ (execEvGridDependenceSatisfied queue s) := by
  unfold Machine.execEvGridDependenceSatisfied
  dsimp only
  split
  · exact h.dropUnreadable.toNext
  · split
    · exact h.dropUnreadable.toNext
    · split
      · exact h.dropUnreadable.modGrid.tick.toNext
      · exact h.dropUnreadable.toNext

theorem Keeps.execEvLaunchRecordTake {team : Nat} (h : Keeps σ s) : KeepsOut σ (execEvLaunchRecordTake team s) := by
  unfold Machine.execEvLaunchRecordTake
  split
  · exact h.toNext
  · split
    · exact h.toNext
    · dsimp only
      split
      · exact h.modTeam.deliver.tick.toNext
      · split
        · exact h.toNext
        · exact h.modTeam.createGrid.deliver.tick.toNext

theorem Keeps.sample {gid : Nat} {g : Grid} {teamId : Nat} {ts : List Nat} (h : Keeps σ s) :
    Keeps σ (s.sample gid g teamId ts) := by
  unfold State.sample
  split
  · exact h
  · exact h.update.foldl (fun _ _ h1 => h1.modTeam.putTeam)

theorem Keeps.placeCheck {t : Nat} (h : Keeps σ s) : KeepsOpt σ (s.placeCheck t) := by
  unfold State.placeCheck
  split
  · exact KeepsOpt.none
  · split
    · exact KeepsOpt.map (fun _ => (h.foldl (fun _ _ h1 => h1.install)).tick)
    · exact KeepsOpt.none

theorem Keeps.placeChecks (h : Keeps σ s) :
    Keeps σ s.placeChecks := h.getD (KeepsOpt.findSome? (fun _ => h.placeCheck))

theorem Keeps.poolError {gid : Nat} {g : Grid} {c : Nat} (h : Keeps σ s) : Keeps σ (s.poolError gid g c) := by
  unfold State.poolError
  dsimp only
  split
  · exact h.putCore.update.dequeue.dropTeams.sendFrame.tick
  · exact h.putCore.update.dequeue.dropTeams.tick

theorem Keeps.placeUnit {q gid : Nat} {g : Grid} {fs : List Fit} (h : Keeps σ s) :
    Keeps σ (s.placeUnit q gid g fs) :=
      ((h.update.foldl (fun _ _ h1 => h1.putTeam.install)).sample.modGrid.dequeue.ite
        (h.update.foldl (fun _ _ h1 => h1.putTeam.install)).sample.modGrid).tick

theorem Keeps.dispatch {l : List (Nat × Nat)} (h : Keeps σ s) : Keeps σ (s.dispatch l) := by
  induction l with
  | nil => exact h
  | cons e l ih =>
    unfold State.dispatch
    split
    · exact ih
    · split
      · exact ih
      · split
        · split
          · exact h.poolError
          · exact h.placeUnit
        · split
          · exact ih
          · split
            · exact h.endCheck.tick
            · split
              · exact h.swapOut
              · exact ih
            · exact ih

theorem Keeps.recallUnit {t : Nat} (h : Keeps σ s) : KeepsOpt σ (s.recallUnit t) := by
  unfold State.recallUnit
  split
  · exact (Keeps.of_some (KeepsOpt.findSome? (fun _ => h.swapBack)) ‹_›).toSome
  · exact h.swapIn

theorem Keeps.execEvTeamPlacement (h : Keeps σ s) : KeepsOut σ (execEvTeamPlacement s) := by
  unfold Machine.execEvTeamPlacement
  dsimp only
  split
  · exact (Keeps.of_some (KeepsOpt.findSome? (fun _ => h.dropUnreadable.recallUnit)) ‹_›).toNext
  · exact (h.dropUnreadable.dispatch.placeChecks.ite h.dropUnreadable.dispatch).toNext

theorem Keeps.execEvUnitStart {team : Nat} (h : Keeps σ s) : KeepsOut σ (execEvUnitStart team s) := by
  unfold Machine.execEvUnitStart
  split
  · exact h.toNext
  · split
    · exact h.toNext
    · refine Keeps.toNext (Keeps.tick (h.foldl (fun _ _ h1 => ?_)))
      dsimp only
      split
      · exact h1
      · split
        · exact h1.putTeam.modCtx
        · exact h1.putTeam.modCtx.putCore

theorem Keeps.endGrid {gid : Nat} {g : Grid} {status : Nat} (h : Keeps σ s) :
    Keeps σ (s.endGrid gid g status) := h.update.gridComplete.sendAcks

theorem Keeps.completeGrid {gid : Nat} (h : Keeps σ s) : Keeps σ (s.completeGrid gid) := by
  unfold State.completeGrid
  split
  · exact h
  · split
    · exact h
    · split
      · exact h.endGrid
      · split
        · exact h.perform.endGrid
        · exact h.noteTranslate.blackBoxAdd.endGrid

theorem Keeps.unbindTeam {t : Nat} (h : Keeps σ s) : Keeps σ (s.unbindTeam t) := h.update

theorem Keeps.dropSeq {t : Nat} (h : Keeps σ s) : Keeps σ (s.dropSeq t) := by
  unfold State.dropSeq
  split
  · exact h
  · exact h.foldl (fun _ _ h1 => h1.dropUnit.ite h1)

theorem Keeps.freeCluster {cluster : List Nat} (h : Keeps σ s) : Keeps σ (s.freeCluster cluster) := by
  unfold State.freeCluster
  split
  · exact h.update
  · exact h

theorem Keeps.finishCheck {t : Nat} (h : Keeps σ s) : Keeps σ (s.finishCheck t) := by
  unfold State.finishCheck
  split
  · exact h
  · dsimp only
    split
    · exact (h.modTeam.foldl (fun _ _ h1 => h1.modTeam)).tick
    · exact h.modTeam.tick

theorem Keeps.finishTeam {t : Nat} (h : Keeps σ s) : Keeps σ (s.finishTeam t) := by
  unfold State.finishTeam
  split
  · exact h
  · exact h.modTeam.unbindTeam.modGrid.modCtx.freeCluster.completeGrid.tick

theorem Keeps.execEvTeamExit {team : Nat} (h : Keeps σ s) : KeepsOut σ (execEvTeamExit team s) := by
  unfold Machine.execEvTeamExit
  split
  · exact h.toNext
  · split
    · exact h.toNext
    · split
      · exact h.flush.newLap.dropSeq.finishCheck.toNext
      · dsimp only
        split
        · exact h.toNext
        · exact h.flush.newLap.dropSeq.finishTeam.toNext

/-! ### `Machine/Rollback` -/

theorem Keeps.undoMem {x : Team} (h : Keeps σ s) : Keeps σ (s.undoMem x) :=
  (h.withMem (wf_foldl_writeByte x.undo)).update

theorem Keeps.withdraw {t grid : Nat} (h : Keeps σ s) : Keeps σ (s.withdraw t grid) := h.modGrid

theorem Keeps.dropThreads {t asid : Nat} (h : Keeps σ s) : Keeps σ (s.dropThreads t asid) := h.update.modCtx

theorem Keeps.dropLapLoads {t : Nat} {x : Team} (h : Keeps σ s) : Keeps σ (s.dropLapLoads t x) := h.update

theorem Keeps.rebin {t : Nat} (h : Keeps σ s) : Keeps σ (s.rebin t) := by
  unfold State.rebin
  split
  · exact h
  · split
    · exact h
    · exact h.modTeam.foldl (fun _ _ h1 => h1.placeThread)

theorem Keeps.recount {t : Nat} (h : Keeps σ s) : Keeps σ (s.recount t) := h.modTeam

theorem Keeps.rollBackCheck {c lap : Nat} (h : Keeps σ s) : Keeps σ (s.rollBackCheck c lap) := by
  unfold State.rollBackCheck
  split
  · exact h
  · dsimp only
    split
    · exact h.putTeam
    · exact h.putTeam.dropThreads.update.recount.rebin

theorem Keeps.rollBack {t : Nat} (h : Keeps σ s) : Keeps σ (s.rollBack t) := by
  unfold State.rollBack
  split
  · exact h
  · dsimp only
    split
    · exact h.undoMem.dropLapLoads.dropThreads.withdraw.putTeam.rollBackCheck
    · exact h.undoMem.dropLapLoads.dropThreads.withdraw.putTeam

theorem Keeps.relaunch {t : Nat} (h : Keeps σ s) : Keeps σ (s.relaunch t) := by
  unfold State.relaunch
  split
  · exact h
  · exact h.leave.modTeam

theorem Keeps.killTeams {cluster : List Nat} (h : Keeps σ s) : Keeps σ (s.killTeams cluster) := by
  unfold State.killTeams
  split
  · exact h
  · exact (h.foldl (fun _ _ h1 => h1.dropThreads.withdraw)).modCtx.update.dropTeams.modGrid.completeGrid

theorem Keeps.restoreEngines {t lap : Nat} {cs : List EngCmd} (h : Keeps σ s) :
    Keeps σ (s.restoreEngines t lap cs) := h.update

theorem Keeps.rejoin {t grid : Nat} {rs : List RsmpRec} (h : Keeps σ s) :
    Keeps σ (s.rejoin t grid rs) := h.withdraw.modGrid

theorem Keeps.restoreStop {t : Nat} (h : Keeps σ s) : Keeps σ (s.restoreStop t) := by
  unfold State.restoreStop
  split
  · exact h
  · split
    · exact h
    · next i _ =>
      extract_lets s1 s2 s3
      have h1 : Keeps σ s1 := h.undoMem.dropThreads.rejoin
      have h2 : Keeps σ s2 := (h1.withMem (wf_foldl_writeByte i.bytes)).update
      have h3 : Keeps σ s3 := h2.restoreEngines.putTeam
      exact (h3.reissue.rebin.foldl fun _ _ hu => hu.recount).retest

theorem Keeps.replayLost {t : Nat} (h : Keeps σ s) : Keeps σ (s.replayLost t) := by
  unfold State.replayLost
  split
  · exact h
  · exact (h.foldl (fun _ _ h1 => h1.restoreStop)).blackBoxAdd.dbgReply

theorem Keeps.execEvTeamRollback {team : Nat} (h : Keeps σ s) : KeepsOut σ (execEvTeamRollback team s) := by
  unfold Machine.execEvTeamRollback
  split
  · exact h.toNext
  · dsimp only
    split
    · exact h.toNext
    · split
      · exact h.replayLost.tick.toNext
      · split
        · exact (h.foldl (fun _ _ h1 => h1.rollBack.rebin)).tick.toNext
        · split
          · exact (h.foldl (fun _ _ h1 => h1.rollBack)).killTeams.tick.toNext
          · split
            · exact ((h.foldl (fun _ _ h1 => h1.rollBack)).foldl (fun _ _ h1 => h1.relaunch)).tick.toNext
            · exact h.toNext

/-! ### `Machine/Debug` -/

theorem Keeps.dbgFrame {tag : W32} {team : Nat} {f : State → Team → Out} (h : Keeps σ s)
    (hf : ∀ u1 x2, Keeps σ u1 → KeepsOut σ (f u1 x2)) : KeepsOut σ (dbgFrame s tag team f) := by
  unfold Machine.dbgFrame
  refine h.mgmtFrame (fun _ h1 => ?_)
  split
  · exact h1.answer
  · split
    · exact hf _ _ h1
    · exact h1.answer

theorem Keeps.dbgStopped {tag : W32} {team : Nat} {f : State → Team → Out} (h : Keeps σ s)
    (hf : ∀ u1 x2, Keeps σ u1 → KeepsOut σ (f u1 x2)) : KeepsOut σ (dbgStopped s tag team f) := by
  unfold Machine.dbgStopped
  refine h.dbgFrame (fun _ _ h1 => ?_)
  split
  · exact hf _ _ h1
  · exact h1.answer

theorem Keeps.modCluster {t : Nat} {f : Team → Team} (h : Keeps σ s) :
    Keeps σ (s.modCluster t f) := h.foldl (fun _ _ h1 => h1.modTeam)

theorem Keeps.taken {tag : W32} {team : Nat} (h : Keeps σ s) : Keeps σ (s.taken tag team) := h.mgmtReply.modCluster

theorem Keeps.execEvDebuggerAttach {tag : BitVec 32} {asid : Nat} (h : Keeps σ s) :
    KeepsOut σ (execEvDebuggerAttach tag asid s) := by
  unfold Machine.execEvDebuggerAttach
  refine h.mgmtFrame (fun _ h1 => ?_)
  split
  · exact h1.answer
  · exact h1.modCtx.answer

theorem Keeps.aim {team : Nat} {p : Point} (h : Keeps σ s) : Keeps σ (s.aim team p) := h.modCluster.modTeam

theorem Keeps.execEvRunto {tag : BitVec 32} {team lap heat stride : Nat} (h : Keeps σ s) :
    KeepsOut σ (execEvRunto tag team lap heat stride s) := by
  unfold Machine.execEvRunto
  refine h.dbgFrame (fun _ _ h1 => ?_)
  split
  · exact h1.answer
  · dsimp only
    split
    · exact h1.taken.dbgReply.tick.toNext
    · split
      · exact h1.taken.aim.tick.toNext
      · exact h1.taken.stopTeam.aim.setAction.tick.toNext

theorem Keeps.execEvRuntoPointReached {team : Nat} (h : Keeps σ s) :
    KeepsOut σ (execEvRuntoPointReached team s) := by
  unfold Machine.execEvRuntoPointReached
  split
  · exact h.toNext
  · split
    · exact h.toNext
    · split
      · exact h.toNext
      · split
        · exact h.stopTeam.dbgReply.tick.toNext
        · exact h.toNext

theorem Keeps.execEvStep {tag : BitVec 32} {team heat : Nat} (h : Keeps σ s) :
    KeepsOut σ (execEvStep tag team heat s) := by
  unfold Machine.execEvStep
  refine h.dbgStopped (fun _ _ h1 => ?_)
  split
  · exact h1.answer
  · exact h1.taken.dbgReply.tick.toNext
  · exact h1.taken.modTeam.tick.toNext

theorem Keeps.execEvQstep {tag : BitVec 32} {team heat : Nat} {quads : BitVec 8} (h : Keeps σ s) :
    KeepsOut σ (execEvQstep tag team heat quads s) := by
  unfold Machine.execEvQstep
  refine h.dbgStopped (fun _ _ h1 => ?_)
  split
  · exact h1.answer
  · split
    · exact h1.answer
    · split
      · exact h1.taken.dbgReply.tick.toNext
      · split
        · exact h1.taken.dbgReply.tick.toNext
        · exact h1.taken.modTeam.tick.toNext

theorem Keeps.execEvRead {tag : BitVec 32} {team : Nat} {sel : BitVec 64} {reg : BitVec 16} (h : Keeps σ s) :
    KeepsOut σ (execEvRead tag team sel reg s) := by
  unfold Machine.execEvRead
  refine h.dbgStopped (fun _ _ h1 => ?_)
  split
  · exact h1.taken.dbgReply.tick.toNext
  · exact h1.answer

theorem Keeps.execEvWrite {tag : BitVec 32} {team : Nat} {sel : BitVec 64} {reg : BitVec 16} {value : BitVec 64}
    (h : Keeps σ s) : KeepsOut σ (execEvWrite tag team sel reg value s) := by
  unfold Machine.execEvWrite
  refine h.dbgStopped (fun _ _ h1 => ?_)
  split
  · exact h1.taken.writeSel.dbgReply.tick.toNext
  · exact h1.answer

theorem Keeps.execEvReturn {tag : BitVec 32} {team : Nat} (h : Keeps σ s) :
    KeepsOut σ (execEvReturn tag team s) := by
  unfold Machine.execEvReturn
  refine h.dbgFrame (fun _ _ h1 => ?_)
  split
  · exact h1.answer
  · exact (h1.taken.foldl (fun _ _ h2 => h2.restoreStop)).dbgReply.tick.toNext

/-! ### `Machine/Observe` -/

theorem Keeps.setTraceBuf {src : Nat} {l : List TraceRec} (h : Keeps σ s) : Keeps σ (s.setTraceBuf src l) := by
  unfold State.setTraceBuf
  split
  · exact h.putCore
  · exact h.update

theorem Keeps.execEvTraceDrain {src : Nat} (h : Keeps σ s) : KeepsOut σ (execEvTraceDrain src s) := by
  unfold Machine.execEvTraceDrain
  split
  · exact h.toNext
  · dsimp only
    split
    · exact h.toNext
    · exact h.setTraceBuf.perform.update.tick.toNext

theorem Keeps.execEvStallSample {core sched : Nat} (h : Keeps σ s) :
    KeepsOut σ (execEvStallSample core sched s) := by
  unfold Machine.execEvStallSample
  dsimp only
  split
  · exact h.toNext
  · exact h.putCore.traceCore.tick.toNext

theorem Keeps.reportMismatch {x : Team} {lap : Nat} {theirs ours : W64 × W64} (h : Keeps σ s) :
    Keeps σ (s.reportMismatch x lap theirs ours) := h.mgmtEvent.blackBoxAdd.traceDev

theorem Keeps.dropCompared {t : Nat} (h : Keeps σ s) : Keeps σ (s.dropCompared t) := by
  unfold State.dropCompared
  split
  · exact h
  · split
    · exact h.update
    · exact h

theorem Keeps.execEvEqualityDigestCompare {team : Nat} {h0 h1 : BitVec 64} (h : Keeps σ s) :
    KeepsOut σ (execEvEqualityDigestCompare team h0 h1 s) := by
  unfold Machine.execEvEqualityDigestCompare
  split
  · exact h.toNext
  · split
    · exact h.toNext
    · split
      · split
        · exact h.toNext
        · exact (h.putTeam.reportMismatch.ite h.putTeam).dropCompared.tick.toNext
      · split
        · exact h.dropCompared.tick.toNext
        · exact h.toNext

theorem Keeps.noteCorrection {unit : Nat} (h : Keeps σ s) : Keeps σ (s.noteCorrection unit) := by
  unfold State.noteCorrection
  dsimp only
  split
  · exact h.update.candidate
  · exact h.update

theorem Keeps.execEvPatrolScrub {unit outcome : Nat} (h : Keeps σ s) :
    KeepsOut σ (execEvPatrolScrub unit outcome s) := by
  unfold Machine.execEvPatrolScrub
  split
  · exact h.toNext
  · split
    · exact h.update.candidate.tick.toNext
    · split
      · exact h.noteCorrection.tick.toNext
      · exact h.tick.toNext

theorem Keeps.setVfs {die v : Nat} (h : Keeps σ s) : Keeps σ (s.setVfs die v) := by
  unfold State.setVfs
  split
  · exact h
  · exact (h.update.ite h.update).update

theorem Keeps.execEvVfStateChangeDone {die : Nat} (h : Keeps σ s) : KeepsOut σ (execEvVfStateChangeDone die s) := by
  unfold Machine.execEvVfStateChangeDone
  split
  · exact h.update.tick.toNext
  · exact h.toNext

theorem Keeps.noteThrottle {die kind code v : Nat} (h : Keeps σ s) :
    Keeps σ (s.noteThrottle die kind code v) := h.traceDev.blackBoxAdd.mgmtEvent

theorem Keeps.startCapture {die : Nat} (h : Keeps σ s) :
    Keeps σ (s.startCapture die) := h.foldl (fun _ _ h1 => h1.putCore)

theorem Keeps.throttleOn {die code : Nat} (h : Keeps σ s) : Keeps σ (s.throttleOn die code) := by
  unfold State.throttleOn
  split
  · exact h
  · exact h.update.noteThrottle.startCapture

theorem Keeps.throttleOff {die code : Nat} (h : Keeps σ s) : Keeps σ (s.throttleOff die code) := by
  unfold State.throttleOff
  split
  · exact h.update.noteThrottle
  · exact h

theorem Keeps.putPacer {die : Nat} {p : Pacer} (h : Keeps σ s) : Keeps σ (s.putPacer die p) := h.update

theorem Keeps.dropToFive {die : Nat} (h : Keeps σ s) : Keeps σ (s.dropToFive die) := h.setVfs.throttleOn

theorem Keeps.powerStep {die avg1 avg10 : Nat} (h : Keeps σ s) : Keeps σ (s.powerStep die avg1 avg10) := by
  unfold State.powerStep
  extract_lets p v s1 up s2
  have h1 : Keeps σ s1 := h.update
  have h2 : Keeps σ s2 := h1.putPacer.setVfs
  split
  · exact h1.putPacer.dropToFive.dropToFive
  · split
    · split
      · exact h1.putPacer.setVfs.ite h1.putPacer
      · exact h1.putPacer.setVfs.throttleOn
    · exact ((h2.throttleOff.ite h2).ite h1.putPacer).ite h1.putPacer

theorem Keeps.thermalStep {die temp : Nat} (h : Keeps σ s) : Keeps σ (s.thermalStep die temp) := by
  unfold State.thermalStep
  dsimp only
  split
  · exact h.putPacer.setVfs.throttleOn
  · split
    · split
      · exact h.putPacer.throttleOff
      · split
        · exact h.putPacer.setVfs
        · exact h.putPacer
    · split
      · exact h.putPacer.setVfs.throttleOn
      · exact h

theorem Keeps.execEvPacerMeasurement {die avg1 avg10 temp : Nat} (h : Keeps σ s) :
    KeepsOut σ (execEvPacerMeasurement die avg1 avg10 temp s) := by
  unfold Machine.execEvPacerMeasurement
  split
  · exact h.toNext
  · exact h.powerStep.thermalStep.tick.toNext

theorem Keeps.execEvAgeingCheck {quartet drift : Nat} (h : Keeps σ s) :
    KeepsOut σ (execEvAgeingCheck quartet drift s) := by
  unfold Machine.execEvAgeingCheck
  dsimp only
  split
  · exact h.toNext
  · split
    · exact h.update.noteThrottle.startCapture.tick.toNext
    · split
      · exact h.update.noteThrottle.startCapture.tick.toNext
      · exact h.toNext

/-! ### `Machine/Resample` -/

theorem Keeps.popTrap {gid : Nat} {g : Grid} {reason : Nat} (h : Keeps σ s) :
    Keeps σ (s.popTrap gid g reason) := (h.foldl (fun _ _ h1 => h1.modHeat)).modGrid.tick

theorem Keeps.applyCount {o : Outcome} {m : Member} {count j : Nat} (h : Keeps σ s) :
    Keeps σ (s.applyCount o m count j) := by
  unfold State.applyCount
  dsimp only
  split
  · exact h
  · split
    · exact h.putHeat.endIfEmpty
    · exact h.putHeat

theorem Keeps.applyCounts {o : Outcome} {l : List (Member × Nat)} {j : Nat} (h : Keeps σ s) :
    Keeps σ (s.applyCounts o l j) := by
  induction l generalizing s j with
  | nil => exact h
  | cons e l ih => exact ih h.applyCount

theorem Keeps.applyBoth {o : Outcome} (h : Keeps σ s) : Keeps σ (s.applyBoth o) := h.applyCounts.update

theorem Keeps.placeClones {asid : Nat} {bs : List BinThread} (h : Keeps σ s) : Keeps σ (s.placeClones asid bs) := by
  unfold State.placeClones
  refine h.foldl (fun _ _ h1 => ?_)
  split
  · exact .of_some h1.placeClone ‹_›
  · exact h1.modCtx

theorem Keeps.keepClones {gid : Nat} {before : State} (h : Keeps σ s) :
    Keeps σ (s.keepClones gid before) := h.foldl (fun _ _ h1 => h1.modTeam)

theorem Keeps.logSegment {asid : Nat} {seg : List Byte} (h : Keeps σ s) : Keeps σ (s.logSegment asid seg) := by
  unfold State.logSegment
  split
  · exact h
  · split
    · exact h
    · split
      · exact h.modCtx.perform
      · exact h.modCtx.perform.perform

theorem Keeps.execEvResampleCompletion {grid : Nat} (h : Keeps σ s) :
    KeepsOut σ (execEvResampleCompletion grid s) := by
  unfold Machine.execEvResampleCompletion
  split
  · exact h.toNext
  · split
    · exact h.toNext
    · dsimp only
      split
      · exact h.popTrap.toNext
      · split
        · exact h.popTrap.toNext
        · exact h.applyBoth.logSegment.placeClones.keepClones.modGrid.tick.toNext

/-! ### `Machine/Manage` -/

theorem Keeps.execEvCreateContext {tag : BitVec 32}
    {asid root places save lap lapseg log loglen relayc lspill bspill wdog : Nat} {eqchk : Bool} (h : Keeps σ s) :
    KeepsOut σ (execEvCreateContext tag asid root places save lap lapseg log loglen relayc lspill bspill wdog eqchk
      s) := by
  unfold Machine.execEvCreateContext
  refine h.mgmtFrame (fun _ h1 => ?_)
  split
  · exact h1.answer
  · split
    · exact h1.answer
    · split
      · exact h1.answer
      · exact (h1.update.ite h1.update.perform).answer

theorem Keeps.unstick {c : Nat} (h : Keeps σ s) : Keeps σ (s.unstick c) := by
  unfold State.unstick
  dsimp only
  split
  · exact h.putCore.nextQueued
  · exact h

theorem Keeps.execEvRemoveContext {tag : BitVec 32} {asid : Nat} (h : Keeps σ s) :
    KeepsOut σ (execEvRemoveContext tag asid s) := by
  unfold Machine.execEvRemoveContext
  refine h.mgmtFrame (fun _ h1 => ?_)
  split
  · exact h1.answer
  · split
    · exact h1.answer
    · exact (h1.removeContext.foldl (fun _ _ h2 => h2.unstick)).answer

theorem Keeps.releaseCore {asid c : Nat} (h : Keeps σ s) : Keeps σ (s.releaseCore asid c) := by
  unfold State.releaseCore
  dsimp only
  split
  · exact h.putCore.eret
  · exact h

theorem Keeps.execEvReleaseFrozenContext {tag : BitVec 32} {asid : Nat} (h : Keeps σ s) :
    KeepsOut σ (execEvReleaseFrozenContext tag asid s) := by
  unfold Machine.execEvReleaseFrozenContext
  refine h.mgmtFrame (fun _ h1 => ?_)
  split
  · exact h1.answer
  · exact (h1.update.modCtx.foldl (fun _ _ h2 => h2.releaseCore)).answer

theorem Keeps.invalidateFrame {tag : W32} {x : TlbiScope} (h : Keeps σ s) :
    KeepsOut σ (invalidateFrame s tag x) := by
  unfold Machine.invalidateFrame
  refine h.mgmtFrame (fun _ h1 => ?_)
  split
  · exact h.invalidate.toNext
  · exact h1.invalidate.answer

theorem Keeps.execEvWriteDomainTableEntry {tag : BitVec 32} {dev : Nat} {entry : BitVec 128} (h : Keeps σ s) :
    KeepsOut σ (execEvWriteDomainTableEntry tag dev entry s) := by
  unfold Machine.execEvWriteDomainTableEntry
  refine h.mgmtFrame (fun _ h1 => ?_)
  dsimp only
  split
  · exact h1.answer
  · exact h1.update.answer

theorem Keeps.execEvWriteExportTableEntry {tag : BitVec 32} {index : Nat} {entry : BitVec 256} (h : Keeps σ s) :
    KeepsOut σ (execEvWriteExportTableEntry tag index entry s) := by
  unfold Machine.execEvWriteExportTableEntry
  refine h.mgmtFrame (fun _ h1 => ?_)
  dsimp only
  split
  · exact h1.answer
  · exact h1.update.answer

theorem Keeps.execEvWriteGroupTableEntry {tag : BitVec 32} {index : Nat} {entry : BitVec 128} (h : Keeps σ s) :
    KeepsOut σ (execEvWriteGroupTableEntry tag index entry s) := by
  unfold Machine.execEvWriteGroupTableEntry
  refine h.mgmtFrame (fun _ h1 => ?_)
  dsimp only
  split
  · exact h1.answer
  · exact h1.update.answer

theorem Keeps.execEvWriteRemapTable {tag : BitVec 32} {quartets : List Nat} (h : Keeps σ s) :
    KeepsOut σ (execEvWriteRemapTable tag quartets s) := by
  unfold Machine.execEvWriteRemapTable
  refine h.mgmtFrame (fun _ h1 => ?_)
  split
  · exact h1.answer
  · split
    · exact h1.answer
    · exact h1.update.answer

theorem Keeps.execEvSetThentry {tag : BitVec 32} {core : Nat} {entry : BitVec 64} (h : Keeps σ s) :
    KeepsOut σ (execEvSetThentry tag core entry s) := by
  unfold Machine.execEvSetThentry
  refine h.mgmtFrame (fun _ h1 => ?_)
  split
  · exact h1.answer
  · split
    · exact h1.answer
    · exact h1.putCore.answer

theorem Keeps.execEvTraceSetup {tag : BitVec 32} {base len read kinds k : Nat} (h : Keeps σ s) :
    KeepsOut σ (execEvTraceSetup tag base len read kinds k s) := by
  unfold Machine.execEvTraceSetup
  refine h.mgmtFrame (fun _ h1 => ?_)
  split
  · exact h1.answer
  · exact h1.update.answer

theorem Keeps.execEvEventCounterSelect {tag : BitVec 32} {core i source : Nat} (h : Keeps σ s) :
    KeepsOut σ (execEvEventCounterSelect tag core i source s) := by
  unfold Machine.execEvEventCounterSelect
  refine h.mgmtFrame (fun _ h1 => ?_)
  split
  · exact h1.answer
  · exact h1.putCore.answer

theorem Keeps.execEvEventCounterZero {tag : BitVec 32} {core i : Nat} (h : Keeps σ s) :
    KeepsOut σ (execEvEventCounterZero tag core i s) := by
  unfold Machine.execEvEventCounterZero
  refine h.mgmtFrame (fun _ h1 => ?_)
  split
  · exact h1.answer
  · exact h1.putCore.answer

theorem Keeps.execEvSetGtc {tag : BitVec 32} {value : BitVec 64} (h : Keeps σ s) :
    KeepsOut σ (execEvSetGtc tag value s) := by
  unfold Machine.execEvSetGtc
  refine h.mgmtFrame (fun _ h1 => ?_)
  split
  · exact h1.update.answer
  · exact h1.answer

theorem Keeps.execEvSetPowerLimit {tag : BitVec 32} {watts : Nat} (h : Keeps σ s) :
    KeepsOut σ (execEvSetPowerLimit tag watts s) := by
  unfold Machine.execEvSetPowerLimit
  refine h.mgmtFrame (fun _ h1 => ?_)
  split
  · exact h1.answer
  · exact h1.update.answer

theorem Keeps.execEvSetScaleMetadataMode {tag : BitVec 32} {frame layout : Nat} (h : Keeps σ s) :
    KeepsOut σ (execEvSetScaleMetadataMode tag frame layout s) := by
  unfold Machine.execEvSetScaleMetadataMode
  refine h.mgmtFrame (fun _ h1 => ?_)
  split
  · exact h1.answer
  · dsimp only
    split <;> exact h1.update.answer

theorem Keeps.moveFrame {old new : Nat} (h : Keeps σ s) : Keeps σ (s.moveFrame old new) := h.update

theorem wf_copyFrameBytes {m : FMap Byte} (old new : Nat) (h : Memory.wf m = true) :
    Memory.wf (copyFrameBytes m old new) = true := wf_writeBytes _ _ h

theorem wf_foldl_writeBytes (l : List α) (f : α → Nat) (g : α → List Byte) {m : FMap Byte} (h : Memory.wf m = true)
    :
    Memory.wf (l.foldl (fun m x => writeBytes m (f x) (g x)) m) = true := by
  induction l generalizing m with
  | nil => exact h
  | cons x l ih => exact ih (wf_writeBytes (g x) (f x) h)

theorem Keeps.execEvCopyFrame {tag : BitVec 32} {old new : Nat} (h : Keeps σ s) :
    KeepsOut σ (execEvCopyFrame tag old new s) := by
  unfold Machine.execEvCopyFrame
  refine h.mgmtFrame (fun s1 h1 => ?_)
  split
  · exact h1.answer
  · split
    · exact h.toNext
    · extract_lets bad fixed lost moved mem1 mem2 mode moves s2 s3
      have hw : Memory.wf s1.mem = true → Memory.wf mem2 = true := fun hi =>
        wf_foldl_writeBytes fixed _ _ (wf_copyFrameBytes old new hi)
      have hm : Keeps σ moves := h1.moveFrame
      clear_value moves mem2
      have h2 : Keeps σ s2 := ⟨fun hi => hw (h1.mem hi), hm.rollback, hm.self⟩
      have h3 : Keeps σ s3 := h2.mgmtReply
      exact h3.update.retest.tick.toNext

/-! ### `Machine/Trap` -/

theorem Keeps.execEvTrapHeatEntry {core : Nat} (h : Keeps σ s) : KeepsOut σ (execEvTrapHeatEntry core s) := by
  unfold Machine.execEvTrapHeatEntry
  dsimp only
  split
  · exact h.toNext
  · exact (h.foldl (fun _ _ h1 => h1.modTeam)).startTrapHeat.toNext

theorem Keeps.execEvWatchdogFault {team : Nat} (h : Keeps σ s) : KeepsOut σ (execEvWatchdogFault team s) := by
  unfold Machine.execEvWatchdogFault
  split
  · exact h.toNext
  · split
    · exact h.toNext
    · split
      · exact h.toNext
      · exact h.raiseAsync.toNext

theorem Keeps.writePieces {ps : List (Nat × Nat)} {d : List Byte} (h : Keeps σ s) :
    Keeps σ (s.writePieces ps d) := by
  induction ps generalizing s d with
  | nil => exact h
  | cons p ps ih => exact ih h.perform

theorem Keeps.dumpPoison {core : Nat} {d : Dump} (h : Keeps σ s) :
    Keeps σ (s.dumpPoison core d) := h.foldl (fun _ _ h1 => h1.foldl (fun _ _ h2 => h2.raiseOn))

theorem Keeps.execEvDumpBegin {core : Nat} (h : Keeps σ s) : KeepsOut σ (execEvDumpBegin core s) := by
  unfold Machine.execEvDumpBegin
  split
  · exact h.toNext
  · split
    · exact h.toNext
    · dsimp only
      split
      · exact h.toNext
      · refine Keeps.toNext (Keeps.tick (Keeps.dumpPoison (Keeps.putCore (Keeps.writePieces ?_))))
        split
        · exact h
        · exact h.noteTranslate

theorem Keeps.execEvDumpFinish {core : Nat} (h : Keeps σ s) : KeepsOut σ (execEvDumpFinish core s) := by
  unfold Machine.execEvDumpFinish
  split
  · exact h.toNext
  · split
    · exact h.toNext
    · dsimp only
      split
      · exact h.toNext
      · exact h.writePieces.putCore.tick.toNext
      · exact h.putCore.tick.toNext

/-! ### `Machine/Policy` -/

theorem Keeps.noteReady {w : Issuer} (h : Keeps σ s) : Keeps σ (s.noteReady w) := by
  unfold State.noteReady
  split
  · split
    · split
      · exact h.putCore
      · exact h
    · exact h
  · exact h

theorem Keeps.noteSpill {t : Nat} (h : Keeps σ s) : Keeps σ (s.noteSpill t) := by
  unfold State.noteSpill
  split
  · exact h
  · split
    · exact h
    · split
      · exact h
      · exact h.putTeam.count

theorem Keeps.closeLap {t : Nat} (h : Keeps σ s) : Keeps σ (s.closeLap t) := h.noteRead.flush.newLap

theorem Keeps.useSlot {c : Nat} {w : Issuer} (h : Keeps σ s) : Keeps σ (s.useSlot c w) := by
  unfold State.useSlot
  split
  · exact h.putCore
  · exact h

theorem Keeps.upset {u : Upset} (h : Keeps σ s) : Keeps σ (s.upset u) := by
  unfold State.upset
  split
  · exact h.modHeat
  · exact h.modTeam
  · exact h.modTeam
  · exact h.modTeam
  · exact h.modTeam
  · exact h.modTeam
  · exact h.putCore

theorem Keeps.settleJournal (h : Keeps σ s) : Keeps σ s.settleJournal := by
  unfold State.settleJournal
  split
  · exact h
  · exact h.putTeam.raiseAsync

/-! ### `Machine/Dispatch`: every instruction -/

/-- Every instruction, by the operation that its arm is. -/
theorem Keeps.exec {i : Instr} (h : Keeps σ s) : KeepsOut σ (exec i s) := by
  unfold Machine.exec
  cases i with
  | sadd | ssub | smul | smulhS64 | smulhN64 | sand | sor | sxor | sshl | sshr | ssra | sminS64
  | sminN64 | smaxS64 | smaxN64 | scmpEq | scmpNe | scmpLtS64 | scmpLeS64 | scmpLtN64 | scmpLeN64 =>
    exact h.sca2
  | ssel | smovi | sluiH1 | sluiH2 | sluiH3 | acmp | kpopc => exact h.scaWord
  | saddImm | ssubImm | smulImm | sandImm | sorImm | sxorImm | sshlImm | sshrImm | ssraImm
  | sminS64Imm | smaxS64Imm | smov | sclz | spopc => exact h.scaI
  | aadd | aaddImm | amovA | amovS | aldiH0 | aldiH1 | aldiH2 | aldiH3 | aldiH4 => exact h.addrWord
  | asplit | pref | nop | yield => exact h.heatWord (fun _ => h.finish.toNext)
  | vadd | vsub | vmul | vmulhS32 | vmulhN32 | vand | vor | vxor | vshl | vshr | vsra | vminS32
  | vminN32 | vmaxS32 | vmaxN32 | vaddSatS32 | vsubSatS32 | vaddSatN32 | vsubSatN32 | vbfeS32
  | vbfeN32 | vpackB8 | vpackB16 => exact h.vec2
  | vmad | vbfi | vdp4S8 | vdp4N8 | vdp2S16 => exact h.vec3
  | vaddN64 | vsubN64 | vmulN64 => exact h.pair2
  | vshlB64 | vshrB64 | vsraS64 => exact h.pairShift
  | vabsS32 | vclz | vpopc | vmov | vaddImm | vandImm | vorImm | vxorImm | vshlImm | vshrImm
  | vsraImm | vmulImm | vminS32Imm | vmaxS32Imm | vfclass | vunpkB4 | vunpkB4Sx | vunpkB8
  | vunpkB8Sx | vunpkB16 | vunpkB16Sx | vfrndRn | vfrndRz | vfrndRm | vfrndRp => exact h.vec1
  | vmovScalar | vsel | vmovi | vmoviHi | kmovK2v => exact h.vecWord
  | vcmpEq | vcmpNe | vcmpLtS32 | vcmpLeS32 | vcmpLtN32 | vcmpLeN32 | vfcmpEq | vfcmpNe | vfcmpLt
  | vfcmpLe | vfcmpUn => exact h.vcmp
  | vfadd | vfsub | vfmul | vfmin | vfmax | vfscl | vfaddRz | vfmulRz | vhadd | vhmul | vhsub
  | vhmin | vhmax => exact h.fp2Word
  | vfma | vfmaRz | vhfma => exact h.fp3Word
  | vfrcp | vfrsq | vfexp2 | vflog2 | vftanh => exact h.fp1Word
  | vcvtF32Rn | vcvtF32Rz | vcvtF32Sr | vcvtBf16Rn | vcvtBf16Rz | vcvtBf16Sr | vcvtE4m3Rn
  | vcvtE4m3Rz | vcvtE4m3Sr | vcvtE5m2Rn | vcvtE5m2Rz | vcvtE5m2Sr | vcvtE2m1Rn | vcvtE2m1Rz
  | vcvtE2m1Sr | vcvtS32Rn | vcvtS32Rz | vcvtS32Sr | vcvtN32Rn | vcvtN32Rz | vcvtN32Sr => exact h.cvt
  | vqntE4m3E8m0 | vqntE5m2E8m0 | vqntE2m1E8m0 => exact h.quantMx
  | vqntE4m3S32scale | vqntE5m2S32scale | vqntE2m1S32scale => exact h.quantQf
  | vdqntE4m3E8m0 | vdqntE5m2E8m0 | vdqntE2m1E8m0 => exact h.dequantMx
  | vdqntE4m3S32scale | vdqntE5m2S32scale | vdqntE2m1S32scale => exact h.dequantQf
  | qswpH | qswpV | qswpD | qbcast => exact h.quadWord
  | vshflIdx | vshflUp | vshflDown | vshflXor => exact h.shuffle
  | vredAddS32 | vredAddF32 | vredMinS32 | vredMaxS32 | vredMinF32 | vredMaxF32 | vredAndB32
  | vredOrB32 | vredXorB32 => exact h.reduceWord
  | vscanAddS32 | vscanAddF32 | vscanMinS32 | vscanMaxS32 | vscanOrB32 => exact h.scanWord
  | vballot => exact h.heatWordIn (fun _ => h.finish.toNext)
  | vvoteAll | vvoteAny | vvoteUni => exact h.voteWord
  | kand | kor | kxor => exact h.pred2
  | knot | kmov | kmovV2k => exact h.predWord
  | vldB8 | vldB16 | vldB32 | vldB64 | vldB128 => exact h.vld
  | vstB8 | vstB16 | vstB32 | vstB64 | vstB128 => exact h.vst
  | vldsB32 | vldsB64 | vldsB128 => exact h.vlds
  | vstsB32 | vstsB64 | vstsB128 => exact h.vsts
  | sld => exact h.heatWord (fun _ => h.needSlot (h.accessLanes (fun _ _ h1 => h1.gatheredLanes.finish.toNext)))
  | sst => exact h.heatWord (fun _ => h.accessLanes (fun _ _ h1 => h1.storeChecked))
  | tldg => exact h.execTldg
  | atomAddB32 | atomMinS32 | atomMaxS32 | atomAndB32 | atomOrB32 | atomXorB32 | atomExchB32
  | atomAddF32 | atomsAddB32 | atomsAddB32NonReturning | atomsMinS32 | atomsMinS32NonReturning
  | atomsMaxS32 | atomsMaxS32NonReturning | atomsExchB32 | atomsExchB32NonReturning | atomsAddF32
  | atomsAddF32NonReturning => exact h.atom4
  | atomCasB32 | atomsCasB32 | atomsCasB32NonReturning => exact h.cas4
  | atomAddB64 | atomExchB64 => exact h.atom8
  | atomCasB64 | redAddB64 => exact h.rmwWord
  | redAddB32 | redMinS32 | redMaxS32 | redOrB32 | redAddF32 | redAddBf16 | redstAnyF32
  | redstAnyB32 => exact h.red4
  | redstOrdF32 => exact h.execRedstOrdF32
  | cpy | cpytRow | cpytCol | cpym => exact h.copyWord
  | gthB32 | gthB64 | gthB128 => exact h.gth
  | sctB32 | sctB64 | sctB128 => exact h.sct
  | qpushB32 | qpushB64 => exact h.qpush
  | qpopB32 | qpopB64 | qpeekB32 | qpeekB64 => exact h.qtake
  | qlen => exact h.heatWord (fun _ => h.teamOnly (fun _ => h.noteReplay.finish.toNext))
  | bra | brc | brx | call | ret | jmpi => exact h.heatWord (fun _ => h.transfer.toNext)
  | brxPack => exact h.heatWord (fun _ => h.finishBy.toNext)
  | loop => exact h.execLoop
  | exit => exact h.heatWord (fun _ => h.finishBy.endIfEmpty.toNext)
  | sleep => exact h.execSleep
  | hregS | hregW | hregSw => exact h.hreg
  | hdrop => exact h.hurdleWord (fun _ _ _ h1 => h1.dropUnit.hurdleDone)
  | harr | harrCp | harrw => exact h.harr
  | hwait => exact h.execHwait
  | htest => exact h.hurdleWord (fun _ _ _ h1 => (h1.noteReplay.finish.endLap.ite h1.noteReplay.finish).toNext)
  | commit => exact h.heatWord (fun _ => h.commitPoint (fun _ _ h1 => h1.finish.endLap.toNext))
  | fence => exact h.execFence
  | fenceR => exact h.execFenceR
  | spawn => exact h.execSpawn
  | launch => exact h.execLaunch
  | waitc => exact h.execWaitc
  | rsmp | rsmpU => exact h.rsmpWord
  | ratomAdd | ratomMax | ratomExch => exact h.ratom
  | ratomCas | rredAddB64 | rredAddF32 | rharr | rlaunch => exact h.relayWord
  | rack => exact h.heatWord (fun _ => h.teamOnly (fun _ => (h.ite h.sendAcks).finish.toNext))
  | coll => exact h.heatWord (fun _ => h.teamOnly (fun _ => h.collCommand))
  | tld => exact h.tileLoad
  | tldt => exact h.execTldt
  | mmaE4m3E4m3 | mmaE4m3E5m2 | mmaE5m2E4m3 | mmaE5m2E5m2 | mmaE2m1E2m1 | mmaE4m3E2m1 | mmaBf16Bf16 =>
    exact h.mma
  | mmasE4m3E4m3 | mmasE5m2E5m2 | mmasE2m1E2m1 => exact h.mmas
  | zacc => exact KeepsOut.seqWord (fun _ _ _ => h.tileWord h.issueOp.toNext)
  | accld => exact KeepsOut.seqWord (fun _ _ _ => h.tileWord h.seqLoad)
  | accst => exact KeepsOut.seqWord (fun _ _ _ => h.tileWord h.seqStore)
  | drain => exact h.execDrain
  | drainAxpy | drainRed => exact h.drainWord
  | setsp => exact h.execSetsp
  | swrd => exact h.execSwrd
  | mloop => exact h.execMloop
  | mbr => exact KeepsOut.seqWord (fun _ _ _ => h.finishSeqAt.toNext)
  | madd | mmov | mmovI => exact h.seqMove
  | mharr => exact h.execMharr
  | mharrRegister | mhwaitRegister => exact h.seqRegister
  | mharrDrop => exact h.seqHurdle (fun _ _ _ _ h1 => h1.dropUnit.seqHurdleDone)
  | mhwait => exact h.execMhwait
  | mend => exact KeepsOut.seqWord (fun _ _ _ => h.finishSeq.toNext)
  | srd => exact h.execSrd
  | swr => exact h.execSwr
  | swrPoolrb | swrPoolsb | swrPoolcb => exact h.swrPool
  | swrTdbase | swrTdcnt => exact h.swrTensor
  | swrDumpc | swrTaction => exact h.swrCore
  | swrCposh | swrCposi | swrCpred | swrXv | swrXs | swrXa | swrXah | swrXm => exact h.swrSel
  | eret => exact h.execEret
  | tlbiAll | tlbiAsid | tlbiVa => exact h.tlbi
  | halt => exact h.execHalt
  | clkrd | cntrd => exact h.clockWord
  | callh => exact h.execCallh
  | brk => exact h.execBrk
  | tmark => exact h.heatWord (fun _ => (h.ite h.traceCore).finish.toNext)
  | evTrapHeatEntry => exact h.execEvTrapHeatEntry
  | evWatchdogFault => exact h.execEvWatchdogFault
  | evBroadcastFetch => exact h.execEvBroadcastFetch
  | evSleepExpiry => exact h.execEvSleepExpiry
  | evLoadLands => exact h.execEvLoadLands
  | evStoreAcknowledged => exact h.execEvStoreAcknowledged
  | evRedstOrdArrival => exact h.execEvRedstOrdArrival
  | evRedstOrdResend => exact h.execEvRedstOrdResend
  | evPredictorNearReturn => exact h.execEvPredictorNearReturn
  | evCopyEngineAccept => exact h.execEvCopyEngineAccept
  | evScratchpadLineWritten => exact h.execEvScratchpadLineWritten
  | evCopyComplete => exact h.execEvCopyComplete
  | evGatherEngineAccept => exact h.execEvGatherEngineAccept
  | evGatherResult => exact h.execEvGatherResult
  | evScatterComplete => exact h.execEvScatterComplete
  | evGatheringClose => exact h.execEvGatheringClose
  | evBinTimerExpiry => exact h.execEvBinTimerExpiry
  | evBinHeatLaunch => exact h.execEvBinHeatLaunch
  | evLaunchRecordTake => exact h.execEvLaunchRecordTake
  | evGridDependenceSatisfied => exact h.execEvGridDependenceSatisfied
  | evTeamPlacement => exact h.execEvTeamPlacement
  | evUnitStart => exact h.execEvUnitStart
  | evSwapThresholdExpiry => exact h.execEvSwapThresholdExpiry
  | evShadowWritebackDone => exact h.execEvShadowWritebackDone
  | evSwapIn => exact h.execEvSwapIn
  | evDetTimeSlice => exact h.execEvDetTimeSlice
  | evTeamExit => exact h.execEvTeamExit
  | evResampleCompletion => exact h.execEvResampleCompletion
  | evTeamRollback => exact h.execEvTeamRollback
  | evDumpBegin => exact h.execEvDumpBegin
  | evDumpFinish => exact h.execEvDumpFinish
  | evEngineGrant => exact h.execEvEngineGrant
  | evMmaStepStart => exact h.execEvMmaStepStart
  | evMmaComplete => exact h.execEvMmaComplete
  | evTileLoadLands => exact h.execEvTileLoadLands
  | evAccumulatorWritePerforms => exact h.execEvAccumulatorWritePerforms
  | evDrainRowPush => exact h.execEvDrainRowPush
  | evCollAccept => exact h.execEvCollAccept
  | evCollMessageReceipt => exact h.execEvCollMessageReceipt
  | evCollResend => exact h.execEvCollResend
  | evCollJoinTimeout => exact h.execEvCollJoinTimeout
  | evCollComplete => exact h.execEvCollComplete
  | evFabricAccessArrival => exact h.execEvFabricAccessArrival
  | evUpliAtomicArrival => exact h.execEvUpliAtomicArrival
  | evFabricResponse => exact h.execEvFabricResponse
  | evFabricRetryLaterResend => exact h.execEvFabricRetryLaterResend
  | evFabricAccessTimeout => exact h.execEvFabricAccessTimeout
  | evRelayRequestReceipt => exact h.execEvRelayRequestReceipt
  | evRelayResponseReceipt => exact h.execEvRelayResponseReceipt
  | evRelayAcknowledgementReceipt => exact h.execEvRelayAcknowledgementReceipt
  | evRelayCloseReceipt => exact h.execEvRelayCloseReceipt
  | evRelayRetransmission => exact h.execEvRelayRetransmission
  | evRelayRetryLaterResend => exact h.execEvRelayRetryLaterResend
  | evRelayRetryLaterTimeout => exact h.execEvRelayRetryLaterTimeout
  | evRelayCloseResend => exact h.execEvRelayCloseResend
  | evRelayRestart | evGtcTick => exact h.update.tick.toNext
  | evPageWalkComplete => exact h.execEvPageWalkComplete
  | evEqualityDigestCompare => exact h.execEvEqualityDigestCompare
  | evStallSample => exact h.execEvStallSample
  | evTraceDrain => exact h.execEvTraceDrain
  | evPacerMeasurement => exact h.execEvPacerMeasurement
  | evVfStateChangeDone => exact h.execEvVfStateChangeDone
  | evAgeingCheck => exact h.execEvAgeingCheck
  | evPatrolScrub => exact h.execEvPatrolScrub
  | evLaunchFrameInline => exact h.execEvLaunchFrameInline
  | evLaunchFramePointer => exact h.execEvLaunchFramePointer
  | evHostRead => exact h.execEvHostRead
  | evHostWrite => exact h.execEvHostWrite
  | evTrapCallReply => exact h.execEvTrapCallReply
  | evFrameResend => exact h.execEvFrameResend
  | evWavelengthFailure => exact h.execEvWavelengthFailure
  | evLinkDown => exact h.execEvLinkDown
  | evLinkRestored => exact h.execEvLinkRestored
  | evUalinkPortTraining => exact h.execEvUalinkPortTraining
  | evColdReset => exact h.execEvColdReset
  | evForcedWarmReset => exact h.warm.toNext
  | evCreateContext => exact h.execEvCreateContext
  | evRemoveContext => exact h.execEvRemoveContext
  | evReleaseFrozenContext => exact h.execEvReleaseFrozenContext
  | evInvalidateTranslationsAsid | evInvalidateTranslationsVa => exact h.invalidateFrame
  | evWriteDomainTableEntry => exact h.execEvWriteDomainTableEntry
  | evWriteExportTableEntry => exact h.execEvWriteExportTableEntry
  | evWriteGroupTableEntry => exact h.execEvWriteGroupTableEntry
  | evWriteRemapTable => exact h.execEvWriteRemapTable
  | evSetThentry => exact h.execEvSetThentry
  | evTraceSetup => exact h.execEvTraceSetup
  | evEventCounterSelect => exact h.execEvEventCounterSelect
  | evEventCounterZero => exact h.execEvEventCounterZero
  | evReadBlackBox => exact h.mgmtFrame (fun _ h1 => h1.mgmtReply.tick.toNext)
  | evSetGtc => exact h.execEvSetGtc
  | evSetPowerLimit => exact h.execEvSetPowerLimit
  | evCopyFrame => exact h.execEvCopyFrame
  | evSetScaleMetadataMode => exact h.execEvSetScaleMetadataMode
  | evAttest => exact h.execEvAttest
  | evFirmwareUpdate => exact h.execEvFirmwareUpdate
  | evWarmReset => exact h.bootFrame (fun _ h1 => h1.mgmtReply.warm.toNext)
  | evStop => exact h.dbgFrame (fun _ _ h1 => h1.taken.stopTeam.dbgReply.tick.toNext)
  | evRun => exact h.dbgStopped (fun _ _ h1 => h1.taken.modCluster.tick.toNext)
  | evRunto => exact h.execEvRunto
  | evRuntoPointReached => exact h.execEvRuntoPointReached
  | evStep => exact h.execEvStep
  | evQstep => exact h.execEvQstep
  | evRead => exact h.execEvRead
  | evWrite => exact h.execEvWrite
  | evReturn => exact h.execEvReturn
  | evArithmeticCycle => exact h.execEvArithmeticCycle
  | evZaccComplete => exact h.execEvZaccComplete
  | evAccumulatorTileRestore => exact h.execEvAccumulatorTileRestore
  | evWavelengthRestored => exact h.execEvWavelengthRestored
  | evOpinaFrameDrop => exact h.execEvOpinaFrameDrop
  | evDebuggerAttach => exact h.execEvDebuggerAttach

/-! ### `Machine/Policy`: a turn, a step -/

theorem Keeps.runFitting {i : Instr} (h : Keeps σ s) : KeepsOut σ (runFitting i s).2 := by
  unfold Machine.runFitting
  split
  · exact h.exec
  · extract_lets early s0 s2
    have h0 : Keeps σ s0 := h.flush.newLap.ite h
    have h2 : Keeps σ s2 := h.closeLap
    clear_value s0 s2
    split
    · next s1 hs1 =>
      have h1 : Keeps σ s1 := .of_next h0.exec hs1
      split
      · exact h1.noteSpill.toNext
      · split
        · exact h.toNext
        · split
          · next s3 hs3 => exact (Keeps.of_next h2.exec hs3).noteSpill.toNext
          · exact h2.exec
    · exact h0.exec

theorem Keeps.probe {w : Issuer} (h : Keeps σ s) : Keeps σ (s.probe w) := by
  unfold State.probe
  extract_lets c opened after
  split
  · exact h
  · exact h.ite h.raiseOn.useSlot

theorem Keeps.runIssue {w : Issuer} (h : Keeps σ s) : KeepsOut σ (runIssue w s) := by
  unfold Machine.runIssue
  split
  · next s1 hs1 =>
    have h1 : Keeps σ s1 := .of_stay h.prepare hs1
    exact (h1.useSlot.ite h1).toNext
  · next s1 i hs1 =>
    have h1 : Keeps σ s1 := .of_run h.prepare hs1
    extract_lets r
    split
    · next s2 hs2 =>
      have h2 : Keeps σ s2 := .of_next h1.runFitting hs2
      exact h.noteReady.toNext.ite (h2.settleIssue.useSlot.ite h2.settleIssue).toNext
    · exact h1.runFitting

theorem Keeps.rawTurn {t : Turn} (h : Keeps σ s) : KeepsOut σ (rawTurn t s) := by
  cases t with
  | event i => exact h.exec
  | issue w => exact h.probe.toNext.ite h.runIssue
  | upset u => exact h.upset.tick.toNext

theorem Keeps.runTurn {t : Turn} (h : Keeps σ s) : KeepsOut σ (runTurn t s) := by
  unfold Machine.runTurn
  split
  · next s1 hs1 => exact (Keeps.of_next h.rawTurn hs1).settleJournal.toNext
  · exact h.rawTurn

theorem Keeps.firstEffect {l : List Turn} (h : Keeps σ s) : KeepsOut σ (firstEffect l s) := by
  induction l generalizing s with
  | nil => exact h.toNext
  | cons t l ih =>
    unfold Machine.firstEffect
    split
    · next s1 hs1 =>
      have h1 : Keeps σ s1 := .of_next h.runTurn hs1
      exact (ih h1).ite h1.toNext
    · exact h.runTurn

/-- A step keeps the canonical form of memory, the fused rollback counter and the device's number. -/
theorem Keeps.step (h : Keeps σ s) : KeepsOut σ (step s) := by
  unfold Machine.step takeTurn
  split
  · exact h.update.runTurn
  · exact h.firstEffect

end

/-- Settles O59: `Keeps` of a state and itself, carried over a step. -/
theorem memoryKept : Obligations.MemoryKept := by
  unfold Obligations.MemoryKept
  intro s t hi hstep
  exact (Keeps.of_next (Keeps.refl s).step hstep).mem hi

end Sys2Proof.Machine

/-! SUPPORT. How a step with an issue pending comes to run a word: the clause found at the position (R16), the
preparation of each issuer (R296, R302), the room for the lap (R478), and what follows the run. -/

namespace Sys2Proof.Machine

section

variable {s s1 s2 s3 : State} {w : Issuer} {i : Instr} {o : Out} {u : Nat} {l : List Turn}

/-! ### Fetch -/

theorem fetchWord_issuing (s : State) (l : List Turn) (cu : Cur) (die asid : Nat) (code : FMap Byte) (a : Addr) :
    ({ s with inputs := l, cur := cu } : State).fetchWord die asid code a = s.fetchWord die asid code a := rfl

theorem fetchWords_issuing (s : State) (l : List Turn) (cu : Cur) (die asid : Nat) (code : FMap Byte) (a : Addr)
    (n : Nat) :
    ({ s with inputs := l, cur := cu } : State).fetchWords die asid code a n = s.fetchWords die asid code a n := by
  induction n generalizing a with
  | zero => rfl
  | succ n ih => simp only [State.fetchWords, fetchWord_issuing, ih]

/-- What is fetched does not depend on who issues. -/
theorem fetchClause_issuing (s : State) (l : List Turn) (cu : Cur) (die asid : Nat) (code : FMap Byte) (a : Addr) :
    ({ s with inputs := l, cur := cu } : State).fetchClause die asid code a = s.fetchClause die asid code a := by
  simp only [State.fetchClause, fetchWord_issuing, fetchWords_issuing]

theorem readNat_lt (m : FMap Byte) (a n : Nat) : readNat m a n < 256 ^ n := by
  induction n generalizing a with
  | zero => simp [readNat, readBytes, ofBytes]
  | succ n ih =>
    have hb := (readByte m a).isLt
    have ht := ih (a + 1)
    simp only [readNat, readBytes, ofBytes, Nat.pow_succ] at ht ⊢
    omega

/-- The decoder reads the number of four bytes. -/
theorem decode_readBytes (m : FMap Byte) (a : Nat) :
    decode (readBytes m a 4) = some (decodeWord (readNat m a 4), []) := by
  simp only [readNat, readBytes, decode, ofBytes]
  congr 3
  omega

/-- A fetched word is the four bytes at its address. -/
theorem fetchWord_page {a : Addr} {die asid b size leaf : Nat} (code : FMap Byte) (ha : a.toNat < 2 ^ 64)
    (ht : s.translateOn die asid a.toNat = .page b size leaf) (hm : pteMig leaf ≠ 1) (hx : pteX leaf = true) :
    s.fetchWord die asid code a = .ok [BitVec.ofNat 32 (readNat code (pageAddr leaf size a.toNat) 4)] := by
  have hd : a.toNat / 2 ^ 64 = 0 := Nat.div_eq_of_lt ha
  simp only [State.fetchWord, hd, ht, hm, hx, ne_eq, not_true_eq_false, Bool.not_true, Bool.false_eq_true, if_false]

/-! ### The clause and the word -/

theorem withClause_ok {code : FMap Byte} {buf : List (Addr × List W32)} {seq : Bool} {held : State}
    {k : List W32 → Prep} {ws : List W32} (hb : s.cur.hdr.toNat < 2 ^ 64) (ha : s.cur.hdr.toNat % 4 = 0)
    (hbuf : ∀ e ∈ buf, e.1 ≠ s.cur.hdr)
    (hf : s.fetchClause (s.cur.core / 64) s.curAsid code s.cur.hdr = .ok ws) (hc : clauseFault seq ws = none) :
    withClause s code buf seq held k = k ws := by
  have hd : s.cur.hdr.toNat / 2 ^ 64 = 0 := Nat.div_eq_of_lt hb
  have hn : buf.find? (fun e => e.1 == s.cur.hdr) = none := by simpa using hbuf
  simp only [withClause, State.clauseAt, hd, ha, hn, hf, hc, ne_eq, not_true_eq_false, if_false]

theorem runWord_ok (h : decodeWord s.cur.word.toNat = .ok i) : runWord s = .run s i := by
  simp only [runWord, h]

/-! ### Preparations -/

theorem curAsid_of_team {x : Team} (ht : s.curTeam = some u) (hx : s.team? u = some x) : s.curAsid = x.asid := by
  cases hw : s.cur.who with
  | heat t g => simp_all [State.curTeam, State.curAsid]
  | seq t => simp_all [State.curTeam, State.curAsid]
  | trap c => simp [State.curTeam, hw] at ht

theorem curAsid_of_trap {c : Nat} {r : TrapRec} (hw : s.cur.who = .trap c) (hf : (s.core c).frozen = some r) :
    s.curAsid = r.asid := by
  simp only [State.curAsid, hw, hf]

/-- The sub-group of a heat whose clause is fetched and which no wait holds. -/
theorem prepareGroup_run {t g c asid : Nat} {code : FMap Byte} {h : Heat} {m : Mask} {hw : W32} {ws : List W32}
    {cu : Cur}
    (hcu : cu =
      { who := w, core := c, active := m, helpers := h.helpers m, hdr := (h.lane (lowLane m)).hdr,
        idx := (h.lane (lowLane m)).idx })
    (hb : cu.hdr.toNat < 2 ^ 64) (ha : cu.hdr.toNat % 4 = 0) (hbuf : ∀ e ∈ h.loopBuf, e.1 ≠ cu.hdr)
    (has : { s with cur := cu }.curAsid = asid) (hf : s.fetchClause (c / 64) asid code cu.hdr = .ok (hw :: ws))
    (hc : clauseFault false (hw :: ws) = none)
    (hwait : { s with cur := cu }.waitCause h m hw.toNat cu.idx ws (s.core c).cycles.toNat = none)
    (hi : decodeWord (ws.getD cu.idx 0#32).toNat = .ok i) :
    prepareGroup s w t g c code h m = .run { { s with cur := cu }.putHeat t g
      { h.forLanes m (fun y j => y.setLane j { y.lane j with n := ws.length }) with
        loopBuf := bufferClause cu.hdr (hw :: ws) h.loopBuf, yielded := false } with
      cur := { cu with n := ws.length, word := ws.getD cu.idx 0#32 } } i := by
  subst hcu has
  unfold prepareGroup
  refine (withClause_ok hb ha hbuf ((fetchClause_issuing s s.inputs _ _ _ _ _).trans hf) hc).trans ?_
  simp only [List.headD_cons, List.tail_cons, hwait]
  exact runWord_ok hi

/-- A heat of a team that waits for nothing prepares its chosen sub-group. -/
theorem prepareHeat_group {g c : Nat} {x : Team} {h : Heat} {m : Mask} (hx : s.team? u = some x)
    (hp : Claims.PlainTeam s c x) (hh : x.heat? g = some h) (hr : s.runs u = true) (he : h.ended = false)
    (hs : h.sleepUntil = none) (hi : g % 4 ∉ (s.core c).issued) (hl : (s.core c).lastHeat.getD 0 ≤ g)
    (hm : h.choose = some m) :
    prepareHeat s u g = prepareGroup s (.heat u g) u g c (s.codeOf u) h m := by
  obtain ⟨hcore, hdue, hfeed, hchecks, hgrant, hrun, hfreeze, hchange⟩ := hp
  simp [prepareHeat, hx, hh, hcore, hr, hdue, Team.awaitsEntry, State.follows, hchecks, he, hs, hchange, hi, hl,
    Team.atStop, hrun, hgrant, hm]

/-- A running trap heat prepares its chosen sub-group. -/
theorem prepareTrap_group {c : Nat} {r : TrapRec} {m : Mask} (hf : (s.core c).frozen = some r)
    (ht : (s.core c).trapOn = true) (hk : (s.core c).stuck = false) (hv : s.changing c = false)
    (hs : (s.core c).trap.sleepUntil = none)
    (hl : ∀ j, inMask (s.core c).trap.live j = true →
      ((s.core c).trap.lane j).lastCycle ≠ some (s.core c).cycles.toNat)
    (hm : (s.core c).trap.choose = some m) :
    prepareTrap s c = prepareGroup s (.trap c) (trapBase + c) 0 c s.mem (s.core c).trap m := by
  have hi : ((lanesOf (s.core c).trap.live).any
      (fun j => ((s.core c).trap.lane j).lastCycle == some (s.core c).cycles.toNat)) = false := by
    simpa using hl
  simp [prepareTrap, hf, ht, hk, hv, hs, hi, hm]

/-- A sequencer that waits for nothing prepares the word at its position. -/
theorem prepareSeq_run {c : Nat} {x : Team} {hw : W32} {ws : List W32} {cu : Cur}
    (hcu : cu = { who := .seq u, core := c, hdr := x.body.seq.hdr, idx := x.body.seq.idx }) (hx : s.team? u = some x)
    (hp : Claims.PlainTeam s c x) (hr : s.runs u = true) (hq : x.body.seq.running = true)
    (hpark : x.body.seq.park = .none) (hlast : x.body.seq.lastCycle = none) (hb : x.body.seq.hdr.toNat < 2 ^ 64)
    (ha : x.body.seq.hdr.toNat % 4 = 0) (hbuf : ∀ e ∈ x.body.seq.loopBuf, e.1 ≠ x.body.seq.hdr)
    (hf : s.fetchClause (c / 64) x.asid (s.codeOf u) x.body.seq.hdr = .ok (hw :: ws))
    (hc : clauseFault true (hw :: ws) = none)
    (hwait : x.body.seq.waits hw.toNat x.body.seq.idx (s.core c).cycles.toNat = false)
    (hi : decodeWord (ws.getD x.body.seq.idx 0#32).toNat = .ok i) :
    prepareSeq s u = .run { { s with cur := cu }.modSeq u (fun _ => { x.body.seq with
        n := ws.length, loopBuf := bufferClause x.body.seq.hdr (hw :: ws) x.body.seq.loopBuf }) with
      cur := { cu with n := ws.length, word := ws.getD x.body.seq.idx 0#32 } } i := by
  obtain ⟨hcore, hdue, hfeed, hchecks, hgrant, hrun, hfreeze, hchange⟩ := hp
  have hasid : State.curAsid { s with cur := cu } = x.asid := by
    subst hcu
    exact curAsid_of_team (u := u) rfl hx
  have hfetch := (fetchClause_issuing s s.inputs cu (c / 64) x.asid (s.codeOf u) x.body.seq.hdr).trans hf
  rw [← hasid] at hfetch
  subst hcu
  simp only [prepareSeq, hx, hcore, hr, hdue, State.follows, hchecks, hq, hpark, Park.again, hchange, hlast,
    Team.atStop, hrun, Bool.true_or, if_true, List.find?_nil, Option.bind_none, Bool.not_true, Bool.or_false]
  refine (withClause_ok hb ha hbuf hfetch hc).trans ?_
  simp only [List.headD_cons, List.tail_cons, hwait, Bool.false_eq_true, if_false]
  exact runWord_ok hi

/-! ### Room for the lap (R478) -/

theorem closesHere_eq_false {x : Team} (ht : s.curTeam = some u) (hx : s.team? u = some x) (hf : x.feed = []) :
    s.closesHere = false := by
  simp [State.closesHere, ht, hx, hf]

theorem mute_eq_false {x : Team} (ht : s.curTeam = some u) (hx : s.team? u = some x) (hc : x.checks = none) :
    s.mute = false := by
  simp [State.mute, ht, hx, hc]

theorem runFitting_trap (ht : s.curTeam = none) : runFitting i s = (s, exec i s) := by
  simp only [runFitting, ht]

theorem runFitting_fits (ht : s.curTeam = some u) (hc : s.closesHere = false) (he : exec i s = .next s1)
    (hf : s1.lapFits u = true) : runFitting i s = (s, .next (s1.noteSpill u)) := by
  simp [runFitting, ht, hc, he, hf]

theorem runFitting_closed (ht : s.curTeam = some u) (hc : s.closesHere = false) (hm : s.mute = false)
    (he : exec i s = .next s1) (hf : s1.lapFits u = false) (hh : s.commitHeld u = false)
    (he2 : exec i (s.closeLap u) = .next s2) : runFitting i s = (s.closeLap u, .next (s2.noteSpill u)) := by
  simp [runFitting, ht, hc, hm, he, hf, hh, he2]

theorem runFitting_stopped (ht : s.curTeam = some u) (hc : s.closesHere = false) (he : exec i s = o)
    (ho : ∀ t, o ≠ .next t) : runFitting i s = (s, o) := by
  cases o with
  | next t => exact absurd rfl (ho t)
  | fault r => simp [runFitting, ht, hc, he]
  | refused r => simp [runFitting, ht, hc, he]

/-! ### The turn and the step -/

theorem step_of_input {t : Turn} (h : s.inputs = t :: l) : step s = runTurn t { s with inputs := l } := by
  simp only [step, takeTurn, h]

theorem runTurn_ran (hp : s.probes w = false) (hv : s.slotWithheld w = false) (hs : prepare s w = .run s1 i)
    (hwho : s1.cur.who = w) (hr : runFitting i s1 = (s2, .next s3)) :
    runTurn (.issue w) s = .next (Claims.settled s1 s2 s3) := by
  simp [runTurn, rawTurn, runIssue, Claims.settled, hp, hv, hs, hwho, hr]

theorem runTurn_stopped (hp : s.probes w = false) (hs : prepare s w = .run s1 i)
    (hr : runFitting i s1 = (s2, o)) (ho : ∀ t, o ≠ .next t) : runTurn (.issue w) s = o := by
  cases o with
  | next t => exact absurd rfl (ho t)
  | fault r => simp [runTurn, rawTurn, runIssue, hp, hs, hr]
  | refused r => simp [runTurn, rawTurn, runIssue, hp, hs, hr]

/-- A prepared word of a team that neither checks nor is checked runs as `StepRuns` says. -/
theorem stepRuns_of_prepare {x : Team} (hin : s.inputs = .issue w :: l)
    (hp : { s with inputs := l }.probes w = false) (hv : { s with inputs := l }.slotWithheld w = false)
    (hs : prepare { s with inputs := l } w = .run s1 i) (hwho : s1.cur.who = w) (ht : s1.curTeam = some u)
    (hx : s1.team? u = some x) (hfeed : x.feed = []) (hchecks : x.checks = none) : Claims.StepRuns s s1 u i := by
  have hc := closesHere_eq_false ht hx hfeed
  have hm := mute_eq_false ht hx hchecks
  unfold Claims.StepRuns
  rw [step_of_input hin]
  refine ⟨fun s2 he hf => ?_, fun s2 s3 he hf hh he2 => ?_, fun o he ho => ?_⟩
  · exact runTurn_ran hp hv hs hwho (runFitting_fits ht hc he hf)
  · exact runTurn_ran hp hv hs hwho (runFitting_closed ht hc hm he hf hh he2)
  · exact runTurn_stopped hp hs (runFitting_stopped ht hc he ho) ho

/-! ### What an issuer's core and team say -/

theorem probes_heat {x : Team} {c : Nat} (g : Nat) (hx : s.team? u = some x) (hc : x.core? = some c)
    (hf : (s.core c).freezing = false) : s.probes (.heat u g) = false := by
  simp [State.probes, State.coreOf, hx, hc, hf]

theorem probes_seq {x : Team} {c : Nat} (hx : s.team? u = some x) (hc : x.core? = some c)
    (hf : (s.core c).freezing = false) : s.probes (.seq u) = false := by
  simp [State.probes, State.coreOf, hx, hc, hf]

theorem slotWithheld_heat {x : Team} {c : Nat} (g : Nat) (hx : s.team? u = some x) (hc : x.core? = some c) :
    s.slotWithheld (.heat u g) = s.withholds c := by
  simp [State.slotWithheld, hx, hc]

theorem team?_putHeat {x : Team} {g : Nat} (y : Heat) (hu : u < trapBase) (hx : s.team? u = some x) :
    (s.putHeat u g y).team? u = some (x.putHeat g y) := by
  simp [State.putHeat, Nat.not_le.mpr hu, State.modTeam, hx]

theorem team?_modSeq {x : Team} (f : Seq → Seq) (hx : s.team? u = some x) :
    (s.modSeq u f).team? u = some { x with body := { x.body with seq := f x.body.seq } } := by
  simp [State.modSeq, State.modTeam, hx]

theorem putHeat_trapBase (s : State) (c g : Nat) (y : Heat) :
    s.putHeat (trapBase + c) g y = s.putCore c { s.core c with trap := y } := by
  simp [State.putHeat]

end

/-- Settles O56: the preparation of each issuer comes to its word, and the word runs. -/
theorem stepRunsDecoded : Obligations.StepRunsDecoded := by
  unfold Obligations.StepRunsDecoded
  refine ⟨?heat, ?seq, ?trap, ?fetch, ?event, ?upset⟩
  case heat =>
    intro s l u g c x h m hw ws i hin hx hp hu hh hr he hsl hwh hi hl hm p cu hb ha hbuf hf hc hwait hdec h1 s0 s1
    have hprep : prepare { s with inputs := l } (.heat u g) = .run s1 i :=
      (prepareHeat_group (s := { s with inputs := l }) hx hp hh hr he hsl hi hl hm).trans
        (prepareGroup_run rfl hb ha hbuf (curAsid_of_team (u := u) rfl hx)
          ((fetchClause_issuing s l s.cur _ _ _ _).trans hf) hc hwait hdec)
    obtain ⟨hcore, -, hfeed, hchecks, -, -, hfreeze, -⟩ := hp
    exact stepRuns_of_prepare hin (probes_heat g hx hcore hfreeze) ((slotWithheld_heat g hx hcore).trans hwh)
      hprep rfl rfl (team?_putHeat (g := g) _ hu hx) hfeed hchecks
  case seq =>
    intro s l u c x hw ws i hin hx hp hr hq hpark hlast hb ha hbuf hf hc hwait hdec q1 cu s0 s1
    have hprep : prepare { s with inputs := l } (.seq u) = .run s1 i :=
      prepareSeq_run (s := { s with inputs := l }) rfl hx hp hr hq hpark hlast hb ha hbuf
        ((fetchClause_issuing s l s.cur _ _ _ _).trans hf) hc hwait hdec
    obtain ⟨hcore, -, hfeed, hchecks, -, -, hfreeze, -⟩ := hp
    exact stepRuns_of_prepare hin (probes_seq hx hcore hfreeze) rfl hprep rfl rfl (team?_modSeq _ hx) hfeed hchecks
  case trap =>
    intro s l c r m hw ws i h hin hfr hon hst hch hsl hla hm p cu hb ha hbuf hf hc hwait hdec h1 s0 s1
    have hprep : prepare { s with inputs := l } (.trap c) = .run s1 i := by
      refine (prepareTrap_group (s := { s with inputs := l }) hfr hon hst hch hsl hla hm).trans
        ((prepareGroup_run (s := { s with inputs := l }) rfl hb ha hbuf (curAsid_of_trap rfl hfr)
          ((fetchClause_issuing s l s.cur _ _ _ _).trans hf) hc hwait hdec).trans ?_)
      rw [putHeat_trapBase]
      rfl
    have hrun : runFitting i s1 = (s1, exec i s1) := runFitting_trap rfl
    rw [step_of_input hin]
    split
    next s2 he => exact runTurn_ran rfl rfl hprep rfl (hrun.trans (by rw [he]))
    next o ho => exact runTurn_stopped rfl hprep hrun ho
  case fetch =>
    intro s a die asid b size leaf code ha ht hm hx bs
    have hlt : readNat code (pageAddr leaf size a.toNat) 4 < 2 ^ 32 := readNat_lt _ _ 4
    refine ⟨_, fetchWord_page code ha ht hm hx, ?_, ?_⟩
    · exact Nat.mod_eq_of_lt hlt
    · rw [BitVec.toNat_ofNat, Nat.mod_eq_of_lt hlt]
      exact decode_readBytes _ _
  case event =>
    intro s l i hin
    rw [step_of_input hin]
    simp only [runTurn, rawTurn]
    cases exec i { s with inputs := l } <;> rfl
  case upset =>
    intro s l u hin
    exact step_of_input hin

end Sys2Proof.Machine

/-! SUPPORT. The words of the instruction encodings (R26–R29): the three decoders agree on a word, and two instructions
that one word encodes. -/

namespace Sys2Proof

/-- The four bytes of a word (R9) decode as the word does. -/
theorem decode_toBytes {w : Nat} (hw : w < 2 ^ 32) : decode (toBytes 4 w) = some (decodeWord w, []) := by
  simp only [toBytes, decode, BitVec.toNat_ofNat]
  congr 3
  omega

/-- A table word of 32 bits is read as the decoder of words reads it. -/
theorem decodeTableWord_of_decodeWord {w : Nat} {i : Instr} (hw : w < 2 ^ 32) (h : decodeWord w = .ok i) :
    decodeTableWord 32 w = some i := by
  have hb : [BitVec.ofNat 8 w, BitVec.ofNat 8 (w / 256), BitVec.ofNat 8 (w / 65536), BitVec.ofNat 8 (w / 16777216)] =
      toBytes 4 w := by
    simp [toBytes, Nat.div_div_eq_div_mul, ← BitVec.toNat_inj]
  simp only [decodeTableWord, Nat.mod_eq_of_lt hw, hb, decode_toBytes hw, h]

/-- Settles O57: the decoder of words is evaluated on each word, and the other two agree with it. -/
theorem decodeWords : Obligations.DecodeWords := by
  unfold Obligations.DecodeWords
  refine ⟨fun e he => ?_, ?_, ?_, ?_, ?_⟩
  · obtain ⟨hw, hd⟩ : e.1 < 2 ^ 32 ∧ decodeWord e.1 = .ok e.2 := by
      revert e
      decide +kernel
    exact ⟨hd, decodeTableWord_of_decodeWord hw hd, by rw [decode_toBytes hw, hd]⟩
  all_goals decide +kernel

/-- R181: LA = 15 is the non-returning form, so the returning form with that LA has the word of the other. -/
theorem encode_atomsAddB32_la15 (d : BitVec 7) (a : BitVec 4) (o : BitVec 7) (p : BitVec 1) :
    encode (.atomsAddB32 d a o 15#4 p) = encode (.atomsAddB32NonReturning d a o p) := by
  have hw : 0xB3800000 + d.toNat * 65536 + a.toNat * 4096 + o.toNat * 32 + 15 * 2 + p.toNat =
      0xB380001E + d.toNat * 65536 + a.toNat * 4096 + o.toNat * 32 + p.toNat := by omega
  exact congrArg some hw

/-- Refutes O58: `wellFormed` admits a returning ATOMS with LA = 15, which R181 makes the non-returning form, so that
0xB380001E is the word of two well-formed instructions, and no decoder gives both back. -/
theorem not_roundTrip : ¬ Obligations.RoundTrip := by
  unfold Obligations.RoundTrip
  intro h
  have hw : encode (.atomsAddB32NonReturning 0 0 0 0) = some 0xB380001E := rfl
  obtain ⟨-, hn, -⟩ := h (.atomsAddB32NonReturning 0 0 0 0) 0xB380001E rfl hw
  obtain ⟨-, hr, -⟩ := h (.atomsAddB32 0 0 0 15 0) 0xB380001E rfl ((encode_atomsAddB32_la15 0 0 0 0).trans hw)
  cases hn.symm.trans hr

end Sys2Proof

/-! SUPPORT. What a word can raise instead of its result (R31, R32, R38, R42, R142, R375), and what taking a fault
does (R463, R471–R474). -/

namespace Sys2Proof.Machine

section

variable {σ s t : State} {i : Instr} {h : Heat} {c u g : Nat} {r f : TrapRec} {x : Team} {α : Type}

/-! ### Words that trap or hold -/

/-- A list that names a register at or above the budget has a first one (R42). -/
theorem overBudget_of_mem {budget r n : Nat} {l : List (Nat × Nat)} (hm : (r, n) ∈ l) (hn : 0 < n)
    (hb : budget < r + n) : ∃ v, overBudget budget l = some v ∧ budget ≤ v := by
  induction l with
  | nil => cases hm
  | cons e t ih =>
    by_cases he : budget < e.1 + e.2 ∧ 0 < e.2
    · exact ⟨max e.1 budget, if_pos he, le_max_right _ _⟩
    · have ht : (r, n) ∈ t := (List.mem_cons.mp hm).resolve_left (fun e1 => he (e1 ▸ ⟨hb, hn⟩))
      obtain ⟨v, hv, hle⟩ := ih ht
      exact ⟨v, (if_neg he).trans hv, hle⟩

theorem Heat.badRow_iff {vr : List (Nat × Nat)} :
    h.badRow vr = true ↔ ∃ r n k, (r, n) ∈ vr ∧ k ∈ h.badRows ∧ r ≤ k ∧ k < r + n := by
  simp only [Heat.badRow, List.any_eq_true, decide_eq_true_eq, Prod.exists]
  exact ⟨fun ⟨k, hk, r, n, hm, hr⟩ => ⟨r, n, k, hm, hk, hr⟩, fun ⟨r, n, k, hm, hk, hr⟩ => ⟨k, hk, r, n, hm, hr⟩⟩

/-- A heat word that names a row with an uncorrectable error (R473; log entry 78). -/
theorem heatWordIn_badRow {m : Mask} {vr sr : List (Nat × Nat)} (hs : s.curHeat? = some h)
    (ho : overBudget h.budget vr = none)
    (hb : h.blocker s.cur.active [{ lanes := m, vr := vr, sr := sr }] = none) (hr : h.badRow vr = true)
    (f : Heat → Out) :
    heatWordIn s m vr sr f = .next (s.raiseRec { s.curRecord 0x23 0 with isAsync := true }) := by
  simp [heatWordIn, heatWordBy, hs, ho, hb, hr]

/-- Every privileged word is run by `privWord` (R277). -/
theorem exec_of_privilegedWord (hp : Claims.privilegedWord i = true) (s : State) :
    ∃ vr sr f, exec i s = privWord s vr sr f := by
  cases i with
  | swr d r =>
    change ∃ vr sr f, execSwr d r s = privWord s vr sr f
    unfold execSwr
    split <;> exact ⟨_, _, _, rfl⟩
  | swrPoolrb | swrPoolsb | swrPoolcb | swrTdbase | swrTdcnt | swrDumpc | swrTaction | swrCposh | swrCposi | swrCpred
  | swrXv | swrXs | swrXa | swrXah | swrXm | eret | tlbiAll | tlbiAsid | tlbiVa | halt => exact ⟨_, _, _, rfl⟩
  | _ => cases hp

/-- An integer vector word is a heat word over the registers of its form. -/
theorem exec_of_intForm {f : Claims.VecForm} (hf : Claims.intForm i = some f) (s : State) :
    ∃ g, exec i s = heatWord s f.uses f.suses g := by
  cases i with
  | vadd | vsub | vmul | vmulhS32 | vmulhN32 | vmad | vand | vor | vxor | vshl | vshr | vsra | vminS32 | vminN32
  | vmaxS32 | vmaxN32 | vaddSatS32 | vsubSatS32 | vaddSatN32 | vsubSatN32 | vabsS32 | vclz | vpopc | vmov
  | vmovScalar | vsel | vaddImm | vandImm | vorImm | vxorImm | vshlImm | vshrImm | vsraImm | vmulImm | vminS32Imm
  | vmaxS32Imm | vbfeN32 | vbfeS32 | vbfi | vmovi | vmoviHi | vdp4S8 | vdp4N8 | vdp2S16 | kmovK2v =>
    cases hf
    exact ⟨_, rfl⟩
  | _ => cases hf

/-- R38, R277: a privileged word of a heat that is not the trap heat raises the privilege trap. -/
theorem exec_privileged (hp : Claims.privilegedWord i = true) (hr : s.ready h s.cur.lanes [] [])
    (hn : s.privileged = false) : exec i s = .next (s.raise 3 0) := by
  obtain ⟨vr, sr, f, he⟩ := exec_of_privilegedWord hp s
  rw [he]
  cases hw : s.cur.who with
  | heat t g => exact privWord_team hw hr vr sr f
  | seq t => simp [State.ready, State.curHeat?, hw] at hr
  | trap c => simp [State.privileged, hw] at hn

/-! ### Shadowed words -/

theorem half_eq_fld (x : W32) (n : Nat) : Claims.half x n = fld x.toNat (16 * n) 16 := by
  simp [Claims.half, Claims.part, fld, BitVec.extractLsb'_toNat, Nat.shiftRight_eq_div_pow]

/-- The two halves of a result, put together as bit vectors or as numbers (R150). -/
theorem append_eq_perHalf (f : Nat → Nat) :
    BitVec.ofNat 16 (f 1) ++ BitVec.ofNat 16 (f 0) = Claims.perHalf (fun n => f n % 65536) := by
  apply BitVec.eq_of_toNat_eq
  rw [BitVec.toNat_append, ← Nat.shiftLeft_add_eq_or_of_lt (BitVec.isLt _)]
  simp [Claims.perHalf, Nat.shiftLeft_eq]
  omega

theorem halves_eq_perHalf (f : Nat → Nat → Nat) (x y : W32) :
    halves f x y = Claims.perHalf (fun n => f (Claims.half x n) (Claims.half y n) % 65536) := by
  simp only [half_eq_fld]
  exact append_eq_perHalf (fun n => f (fld x.toNat (16 * n) 16) (fld y.toNat (16 * n) 16))

theorem halves3_eq_perHalf (f : Nat → Nat → Nat → Nat) (x y z : W32) :
    halves3 f x y z =
      Claims.perHalf (fun n => f (Claims.half x n) (Claims.half y n) (Claims.half z n) % 65536) := by
  simp only [half_eq_fld]
  exact append_eq_perHalf
    (fun n => f (fld x.toNat (16 * n) 16) (fld y.toNat (16 * n) 16) (fld z.toNat (16 * n) 16))

/-- A word whose results a shadow unit repeats runs by `fpWord` with the values of its form (R142, R145–R150). -/
theorem exec_of_shadowFmt {f : Claims.VecForm} {b : Fmt} (hf : Claims.floatForm i = some f)
    (hb : Claims.shadowFmt i = some b) (s : State) :
    exec i s = fpWord b s f.uses f.pred f.dest f.value ∧ f.suses = [] := by
  cases i with
  | vfadd | vfsub | vfmul | vfma | vfaddRz | vfmulRz | vfmaRz | vfmin | vfmax | vfscl | vfrcp | vfrsq | vfexp2
  | vflog2 | vftanh =>
    cases hf
    cases hb
    exact ⟨rfl, rfl⟩
  | vhadd | vhsub | vhmul | vhmin | vhmax =>
    cases hf
    cases hb
    exact ⟨congrArg (fpWord _ s _ _ _) (funext fun h => funext fun l => halves_eq_perHalf _ _ _), rfl⟩
  | vhfma =>
    cases hf
    cases hb
    exact ⟨congrArg (fpWord _ s _ _ _) (funext fun h => funext fun l => halves3_eq_perHalf _ _ _ _), rfl⟩
  | _ => cases hb

/-- An element of a register that is not packed over several. -/
theorem packedAt_of_lt {f : Fmt} {e : Nat} (he : e < 32 / f.width) : packedAt f e = (0, e) := by
  have hw : e * f.width < 32 := by cases f <;> simp only [Fmt.width] at he ⊢ <;> omega
  simp [packedAt, Nat.div_eq_of_lt hw, Nat.mod_eq_of_lt he]

theorem Heat.disturb_of_lt {f : Fmt} {x : Flip} (d : Nat) (hx : x.part < 32 / f.width) :
    h.disturb f d x = h.setV d x.index (Claims.wrongResult f (h.v d x.index) x) := by
  simp only [Heat.disturb, packedAt_of_lt hx, Nat.add_zero, Claims.wrongResult]

theorem Heat.agrees_disturb {f : Fmt} {x : Flip} (d : Nat) (hx : x.part < 32 / f.width) :
    h.agrees (h.disturb f d x) f d x = shadowAgrees f (elemOf f (h.v d x.index) x.part)
      (elemOf f (Claims.wrongResult f (h.v d x.index) x) x.part) := by
  simp only [Heat.agrees, packedAt_of_lt hx, Nat.add_zero, Heat.disturb_of_lt d hx, Heat.v_setV, if_pos]

/-- The state without the wrong results that lie ahead of the issuing core's arithmetic. -/
def State.dropFlips (s : State) : State := s.putCore s.cur.core { s.core s.cur.core with flips := [] }

theorem State.core_dropFlips (s : State) (c : Nat) : ∃ l, s.dropFlips.core c = { s.core c with flips := l } := by
  by_cases hc : s.cur.core = c
  · exact ⟨[], by simp [State.dropFlips, hc]⟩
  · exact ⟨(s.core c).flips, by simp [State.dropFlips, hc]⟩

theorem State.curHeat?_dropFlips (s : State) : s.dropFlips.curHeat? = s.curHeat? := by
  have ht (c : Nat) : (s.dropFlips.core c).trap = (s.core c).trap := by
    obtain ⟨l, hl⟩ := s.core_dropFlips c
    rw [hl]
  simp only [State.curHeat?, State.heat?, ht]
  rfl

/-- The heat with the results of a vector word in the lanes that execute it and take it. -/
def Heat.results (h : Heat) (m : Mask) (f : Claims.VecForm) : Heat :=
  h.forLanes (h.taking m f.pred) (fun y l => y.setV f.dest l (f.value h l))

theorem Heat.v_results (m : Mask) (f : Claims.VecForm) (r : Nat) {l : Nat} (hl : l < 32) :
    (h.results m f).v r l =
      if r = f.dest ∧ inMask m l = true ∧ h.k f.pred l = true then f.value h l else h.v r l := by
  simp only [Heat.results, Heat.v_forLanes_setV h _ _ (fun l => f.value h l) r l hl, inMask_taking, Bool.and_eq_true]

/-- A property of the heat that no write of a vector register changes. -/
theorem Heat.results_keeps {β : Type} (g : Heat → β) (hg : ∀ y r l x, g (Heat.setV y r l x) = g y) (m : Mask)
    (f : Claims.VecForm) : g (h.results m f) = g h :=
  Heat.forLanes_keeps g _ (fun y _ => hg y _ _ _) h _

/-- One wrong result that a shadowed word meets: it is written if its shadow agrees, and else the word traps (R142,
R375). -/
theorem finishShadow_hit {f : Fmt} {m : Mask} {d : Nat} {parts : Nat → Bool} {x : Flip}
    (hx : (s.core s.cur.core).flips = [x]) (hit : x.hits 1 m parts = true) :
    s.finishShadow h f m d parts = if h.agrees (h.disturb f d x) f d x = true
      then s.dropFlips.finish (h.disturb f d x) else s.dropFlips.raise 0x22 1 := by
  simp [State.finishShadow, State.dropFlips, hx, hit]

/-- The heat with the results of a word of which one was computed wrong. -/
def Heat.wrongResults (h : Heat) (m : Mask) (f : Claims.VecForm) (b : Fmt) (x : Flip) : Heat :=
  (h.results m f).setV f.dest x.index (Claims.wrongResult b (f.value h x.index) x)

/-- A shadowed word with one wrong result ahead, in a lane that executes and takes the word. -/
theorem exec_of_flip {f : Claims.VecForm} {b : Fmt} {x : Flip} (hf : Claims.floatForm i = some f)
    (hb : Claims.shadowFmt i = some b) (hr : s.ready h s.cur.lanes f.uses f.suses)
    (hx : (s.core s.cur.core).flips = [x]) (h1 : x.reason = 1) (hp : x.part < 32 / b.width) (hi : x.index < 32)
    (hl : inMask s.cur.lanes x.index = true) (hk : h.k f.pred x.index = true) :
    exec i s = .next (if shadowAgrees b (elemOf b (f.value h x.index) x.part)
        (elemOf b (Claims.wrongResult b (f.value h x.index) x) x.part) = true
      then s.dropFlips.finish (h.wrongResults s.cur.lanes f b x) else s.dropFlips.raise 0x22 1) := by
  obtain ⟨he, hs⟩ := exec_of_shadowFmt hf hb s
  rw [hs] at hr
  have hit : x.hits 1 (h.taking s.cur.lanes f.pred) (fun e => decide (e < 32 / b.width)) = true := by
    simp [Flip.hits, h1, hp, hl, hk]
  have hv : (h.results s.cur.lanes f).v f.dest x.index = f.value h x.index := by
    rw [Heat.v_results _ _ _ hi, if_pos ⟨rfl, hl, hk⟩]
  rw [he, fpWord, heatWord_ready hr]
  refine congrArg _ ((finishShadow_hit (h := h.results s.cur.lanes f) hx hit).trans ?_)
  rw [Heat.agrees_disturb _ hp, Heat.disturb_of_lt _ hp, hv, Heat.wrongResults]

theorem Heat.wrongResults_keeps {β : Type} (g : Heat → β) (hg : ∀ y r l x, g (Heat.setV y r l x) = g y) (m : Mask)
    (f : Claims.VecForm) (b : Fmt) (x : Flip) : g (h.wrongResults m f b x) = g h :=
  (hg _ _ _ _).trans (Heat.results_keeps g hg m f)

theorem Heat.v_wrongResults (m : Mask) (f : Claims.VecForm) (b : Fmt) {x : Flip} (hi : x.index < 32) (r : Nat) {l : Nat}
    (hl : l < 32) : (h.wrongResults m f b x).v r l =
      if r = f.dest ∧ l = x.index then Claims.wrongResult b (f.value h x.index) x
      else if r = f.dest ∧ inMask m l = true ∧ h.k f.pred l = true then f.value h l else h.v r l := by
  have hk : 32 * f.dest + x.index = 32 * r + l ↔ r = f.dest ∧ l = x.index := by omega
  simp only [Heat.wrongResults, Heat.v_setV, hk, Heat.v_results m f r hl]

/-- The end of a word whose wrong result agreed with its shadow: the word goes on, with that result written. -/
theorem finish_wrongResults (hs : s.curHeat? = some h) (f : Claims.VecForm) (b : Fmt) {x : Flip} (hi : x.index < 32)
    (he : exec i s = .next (s.dropFlips.finish (h.wrongResults s.cur.lanes f b x))) :
    ∃ t h', Issued i s t h' ∧ Retired s h h' s.onward ∧ (t.core s.cur.core).flips = [] ∧
        (∀ r l, l < 32 → h'.v r l = if r = f.dest ∧ l = x.index then Claims.wrongResult b (f.value h x.index) x
          else if r = f.dest ∧ inMask s.cur.lanes l ∧ h.k f.pred l then f.value h l else h.v r l) ∧
        SameK h h' ∧ SameS h h' ∧ SameA h h' := by
  have hcur : s.dropFlips.curHeat? = some h := s.curHeat?_dropFlips.trans hs
  have hcycles : (s.dropFlips.core s.cur.core).cycles = (s.core s.cur.core).cycles := by simp [State.dropFlips]
  have hflips : (s.dropFlips.core s.cur.core).flips = [] := by simp [State.dropFlips]
  obtain ⟨ht, ⟨-, -, -, hcore, -⟩, hstamp⟩ := State.finishBy_spec hcur (h.wrongResults s.cur.lanes f b x) s.onward
  obtain ⟨hrows, hpreds, hsr, har, hstill, hstride, hslots, hlane⟩ := Heat.retire_spec
    (h.wrongResults s.cur.lanes f b x) s.cur s.stamp (s.core s.cur.core).cycles.toNat s.onward
  have hkeep {β : Type} (g : Heat → β) (hg : ∀ y r l x, g (Heat.setV y r l x) = g y) :=
    Heat.wrongResults_keeps (h := h) g hg s.cur.lanes f b x
  rw [show s.dropFlips.cur = s.cur from rfl, show s.dropFlips.stamp = s.stamp from rfl, hcycles] at ht
  refine ⟨_, _, ⟨he, ht, hstamp⟩, ⟨?still, ?stride, ?slots, ?lane⟩, ?flips, ?v, ?k, ?s, ?a⟩
  case still => exact hstill.trans (hkeep Heat.still (fun _ _ _ _ => rfl))
  case stride => rw [hstride, hkeep Heat.stride (fun _ _ _ _ => rfl)]
  case slots => rw [hslots, hkeep Heat.slots (fun _ _ _ _ => rfl)]
  case lane =>
    intro l
    rw [hlane, show (h.wrongResults s.cur.lanes f b x).lane l = h.lane l from
      hkeep (Heat.lane · l) (fun _ _ _ _ => rfl)]
  case flips => exact (congrArg Core.flips (hcore s.cur.core)).trans hflips
  case v =>
    intro r l hl
    rw [← Heat.v_wrongResults s.cur.lanes f b hi r hl]
    exact congrArg (mget 0#32 · (32 * r + l)) hrows
  case k =>
    intro r l _
    simp only [Heat.k, hpreds, hkeep Heat.preds (fun _ _ _ _ => rfl)]
  case s =>
    intro r
    simp only [Heat.sr, hsr, hkeep Heat.s (fun _ _ _ _ => rfl)]
  case a =>
    intro r
    simp only [Heat.ar, har, hkeep Heat.a (fun _ _ _ _ => rfl)]

/-! ### What a fault leaves of the cores and of memory -/

/-- A core without its bins, its trace and its event counts. -/
def Core.unlogged (k : Core) : Core := { k with bins := [], trace := [], traceLost := 0, evCnt := [] }

/-- From σ to s memory and the clock stand, and every core but for its bins, its trace and its event counts. -/
structure KeepsCores (σ s : State) : Prop where
  mem : s.mem = σ.mem
  gtc : s.gtc = σ.gtc
  core : ∀ c, (s.core c).unlogged = (σ.core c).unlogged

theorem KeepsCores.refl (s : State) : KeepsCores s s := ⟨rfl, rfl, fun _ => rfl⟩

theorem KeepsCores.frozen (h : KeepsCores σ s) (c : Nat) : (s.core c).frozen = (σ.core c).frozen :=
  (congrArg Core.frozen (h.core c) :)

theorem KeepsCores.queue (h : KeepsCores σ s) (c : Nat) : (s.core c).queue = (σ.core c).queue :=
  (congrArg Core.queue (h.core c) :)

theorem KeepsCores.trapOn (h : KeepsCores σ s) (c : Nat) : (s.core c).trapOn = (σ.core c).trapOn :=
  (congrArg Core.trapOn (h.core c) :)

theorem KeepsCores.stuck (h : KeepsCores σ s) (c : Nat) : (s.core c).stuck = (σ.core c).stuck :=
  (congrArg Core.stuck (h.core c) :)

theorem KeepsCores.csel (h : KeepsCores σ s) (c : Nat) : (s.core c).csel = (σ.core c).csel :=
  (congrArg Core.csel (h.core c) :)

/-- A change of any field but memory, the clock and the cores. -/
theorem KeepsCores.update (h : KeepsCores σ s) (hm : t.mem = s.mem := by rfl) (hg : t.gtc = s.gtc := by rfl)
    (hc : t.cores = s.cores := by rfl) :
    KeepsCores σ t :=
  ⟨hm.trans h.mem, hg.trans h.gtc, fun c => (congrArg (fun l => (mget {} l c).unlogged) hc).trans (h.core c)⟩

theorem KeepsCores.putCore {k : Core} (h : KeepsCores σ s) (hk : k.unlogged = (s.core c).unlogged := by rfl) :
    KeepsCores σ (s.putCore c k) := by
  refine ⟨h.mem, h.gtc, fun d => ?_⟩
  rw [State.core_putCore]
  split
  next hd => exact hk.trans (hd ▸ h.core c)
  next => exact h.core d

theorem KeepsCores.foldl {f : State → α → State} {l : List α} (h : KeepsCores σ s)
    (hf : ∀ u x, KeepsCores σ u → KeepsCores σ (f u x)) : KeepsCores σ (l.foldl f s) := by
  induction l generalizing s with
  | nil => exact h
  | cons x l ih => exact ih (hf s x h)

theorem KeepsCores.dropBins {ts : List Nat} (h : KeepsCores σ s) (hm : t.mem = s.mem := by rfl) (hg : t.gtc = s.gtc := by rfl)
    (hc : t.cores = s.cores.map (fun (e : Nat × Core) => (e.1, e.2.dropBins ts)) := by rfl) : KeepsCores σ t := by
  have hmap (l : FMap Core) (c : Nat) :
      (mget {} (l.map (fun (e : Nat × Core) => (e.1, e.2.dropBins ts))) c).unlogged = (mget {} l c).unlogged := by
    induction l with
    | nil => rfl
    | cons e l ih =>
      simp only [List.map_cons, mget]
      split
      · rfl
      · exact ih
  exact ⟨hm.trans h.mem, hg.trans h.gtc,
    fun c => (congrArg (fun l => (mget {} l c).unlogged) hc).trans ((hmap s.cores c).trans (h.core c))⟩

theorem KeepsCores.modTeam {f : Team → Team} (h : KeepsCores σ s) : KeepsCores σ (s.modTeam u f) := by
  unfold State.modTeam
  split
  · exact h
  · exact h.update

theorem KeepsCores.modCtx {f : Context → Context} {a : Nat} (h : KeepsCores σ s) : KeepsCores σ (s.modCtx a f) := by
  unfold State.modCtx
  split
  · exact h
  · exact h.update

theorem KeepsCores.count {src n : Nat} (h : KeepsCores σ s) : KeepsCores σ (s.count c src n) := by
  unfold State.count
  dsimp only
  split
  · exact h
  · exact h.putCore

theorem KeepsCores.traceCore {r : TraceRec} (h : KeepsCores σ s) : KeepsCores σ (s.traceCore c r) := by
  unfold State.traceCore
  dsimp only
  split
  · split
    · exact (h.putCore).count
    · exact h.putCore
  · exact h

theorem KeepsCores.sendFrame {type : Nat} {tag : W32} {p : List Byte} (h : KeepsCores σ s) :
    KeepsCores σ (s.sendFrame type tag p) := by
  unfold State.sendFrame
  generalize p.length / 4096 = n
  induction n generalizing s p with
  | zero => exact h.update
  | succ n ih =>
    unfold State.sendChunks
    split
    · exact h.update
    · exact ih h.update

theorem KeepsCores.gridComplete {gid status : Nat} {x : Grid} (h : KeepsCores σ s) :
    KeepsCores σ (s.gridComplete gid x status) := by
  unfold State.gridComplete
  split
  · exact h.sendFrame
  · exact h

theorem KeepsCores.sendClose {asid dev : Nat} (h : KeepsCores σ s) : KeepsCores σ (s.sendClose asid dev) := by
  unfold State.sendClose State.sendPacket
  split
  · exact h
  · dsimp only
    split
    · exact h
    · exact h.update

theorem KeepsCores.closeIdle {asid : Nat} (h : KeepsCores σ s) : KeepsCores σ (s.closeIdle asid) := by
  unfold State.closeIdle
  split
  · exact h
  · split
    · exact h
    · split
      · exact h.update
      · refine h.foldl (fun u x h1 => ?_)
        split
        · exact h1.modCtx.sendClose
        · exact h1

theorem KeepsCores.collVerdict {k : CollCmd} {v : Nat} (h : KeepsCores σ s) : KeepsCores σ (s.collVerdict k v) := by
  unfold State.collVerdict
  dsimp only
  split
  · exact h
  · exact h.update

theorem KeepsCores.takeAll (h : KeepsCores σ s) : KeepsCores σ (s.takeAll u) := by
  unfold State.takeAll
  split
  · exact h
  · exact ((h.foldl (fun _ _ h1 => h1.update)).foldl
      (fun _ _ h1 => h1.foldl (fun _ _ h2 => h2.update))).foldl (fun _ _ h1 => h1.collVerdict)

theorem KeepsCores.endCheck (h : KeepsCores σ s) : KeepsCores σ (s.endCheck u) := by
  unfold State.endCheck
  split
  · exact h
  · split
    · exact h
    · exact (h.foldl (fun _ _ h1 => h1.modTeam)).count.dropBins

theorem KeepsCores.endChecks {ts : List Nat} (h : KeepsCores σ s) : KeepsCores σ (s.endChecks ts) := by
  unfold State.endChecks
  refine h.foldl (fun _ _ h1 => ?_)
  split
  · exact h1
  · split <;> exact h1.endCheck

theorem KeepsCores.dropTeams {gone : List Nat} (h : KeepsCores σ s) : KeepsCores σ (s.dropTeams gone) :=
  (h.endChecks.foldl (fun _ _ h1 => h1.takeAll)).dropBins

theorem KeepsCores.blackBoxAdd {b : BlackBox} (h : KeepsCores σ s) : KeepsCores σ (s.blackBoxAdd b) := by
  unfold State.blackBoxAdd
  exact h.update

theorem KeepsCores.tick (h : KeepsCores σ s) : KeepsCores σ s.tick := h.update

theorem KeepsCores.setGrids {gs : FMap Grid} {qs : FMap (List Nat)} {os : FMap OrdRec} (h : KeepsCores σ s) :
    KeepsCores σ { s with grids := gs, gridQueues := qs, ordRecs := os } := h.update

theorem KeepsCores.removeContext {asid : Nat} (h : KeepsCores σ s) : KeepsCores σ (s.removeContext asid) := by
  unfold State.removeContext
  split
  · exact h
  · exact (h.foldl (fun _ _ h1 => h1.gridComplete)).modCtx.dropTeams.setGrids.closeIdle.blackBoxAdd

theorem KeepsCores.unpackCore (h : KeepsCores σ s) : KeepsCores σ (s.unpackCore c) :=
  h.foldl (fun _ _ h1 => h1.modTeam)

/-! ### What a stop leaves of a team -/

/-- From h to h' every register, the stride and every position stand. -/
structure Stands (h h' : Heat) : Prop where
  regs : SameRegs h h'
  stride : h'.stride = h.stride
  place : ∀ l, (h'.lane l).hdr = (h.lane l).hdr ∧ (h'.lane l).idx = (h.lane l).idx

theorem Stands.refl (h : Heat) : Stands h h :=
  ⟨⟨fun _ _ _ => rfl, fun _ _ _ => rfl, fun _ => rfl, fun _ => rfl⟩, rfl, fun _ => ⟨rfl, rfl⟩⟩

theorem Heat.lane_unpack (h : Heat) (l : Nat) :
    h.unpack.lane l = if (h.lane l).park.isPack then { h.lane l with park := .none } else h.lane l := by
  unfold Heat.lane Heat.unpack
  dsimp only
  induction h.lanes with
  | nil => rfl
  | cons e t ih =>
    simp only [List.map_cons, mget]
    split
    · rfl
    · exact ih

theorem Stands.unpack {h' : Heat} (hs : Stands h h') : Stands h h'.unpack := by
  obtain ⟨hregs, hstride, hplace⟩ := hs
  refine ⟨hregs, hstride, fun l => ?_⟩
  rw [Heat.lane_unpack]
  split <;> exact hplace l

theorem mfind_map {β : Type} (f : α → β) (m : FMap α) (k : Nat) :
    mfind (m.map (fun e => (e.1, f e.2))) k = (mfind m k).map f := by
  induction m with
  | nil => rfl
  | cons e t ih =>
    simp only [List.map_cons, mfind]
    split
    · rfl
    · exact ih

/-- In s team u is on core c, and its heat g stands as h does. -/
def StandsAt (u g c : Nat) (h : Heat) (s : State) : Prop :=
  ∃ x h', s.team? u = some x ∧ x.core? = some c ∧ x.heat? g = some h' ∧ Stands h h'

theorem StandsAt.unpackTeam {v : Nat} (hs : StandsAt u g c h s) : StandsAt u g c h (s.unpackTeam v) := by
  obtain ⟨x, h', hx, hc, hh, hst⟩ := hs
  unfold State.unpackTeam State.modTeam
  split
  · exact ⟨x, h', hx, hc, hh, hst⟩
  · next y hy =>
    by_cases hv : v = u
    · subst hv
      cases hy.symm.trans hx
      refine ⟨_, h'.unpack, (State.team?_putTeam _ _ _ _).trans (if_pos rfl), hc, ?_, hst.unpack⟩
      simp only [Team.heat?, mfind_map] at hh ⊢
      rw [hh, Option.map_some]
    · exact ⟨x, h', by simp [hv, hx], hc, hh, hst⟩

theorem StandsAt.unpackCore {d : Nat} (hs : StandsAt u g c h s) : StandsAt u g c h (s.unpackCore d) := by
  unfold State.unpackCore
  induction s.residents d generalizing s with
  | nil => exact hs
  | cons v l ih => exact ih hs.unpackTeam

theorem StandsAt.not_runs (hs : StandsAt u g c h s) (hf : (s.core c).frozen = some r) : s.runs u = false := by
  obtain ⟨x, -, hx, hc, -, -⟩ := hs
  simp [State.runs, hx, hc, hf]

/-! ### Taking a fault -/

/-- The device once a fault of core c is in the black box and the trace (R515, R521). -/
def State.noted (s : State) (c : Nat) (r : TrapRec) : State := (s.noteFault c { r with gtc := s.gtc }).tick

theorem KeepsCores.noted : KeepsCores s (s.noted c r) := (KeepsCores.refl s).blackBoxAdd.traceCore.tick

theorem teams_traceCore {k : TraceRec} : (s.traceCore c k).teams = s.teams := by
  unfold State.traceCore State.count
  dsimp only
  repeat' split
  all_goals rfl

theorem teams_blackBoxAdd {b : BlackBox} : (s.blackBoxAdd b).teams = s.teams := by
  unfold State.blackBoxAdd
  rfl

theorem teams_noted : (s.noted c r).teams = s.teams := teams_traceCore.trans teams_blackBoxAdd

theorem raise_heat {cls info : Nat} (hw : s.cur.who = .heat u g) (hc : s.cur.core = c) (hx : s.team? u = some x)
    (hk : x.checks = none) : s.raise cls info = s.raiseOn c (s.curRecord cls info) := by
  simp [State.raise, State.raiseRec, hw, State.isCheck, hx, hk, hc]

theorem curRecord_heat {cls info : Nat} (hw : s.cur.who = .heat u g) (hx : s.team? u = some x)
    (hh : x.heat? g = some h) : s.curRecord cls info = {
      cls := cls, info := BitVec.ofNat 64 info, hdr := s.cur.hdr, idx := s.cur.idx, word := s.cur.word
      mask := s.cur.active, asid := x.asid, share := x.share, heat := g, live := h.live, lap := x.lap
      stride := h.stride } := by
  simp [State.curRecord, hw, hx, hh, State.curAsid]

theorem raiseOn_running (hf : (s.core c).frozen = none) :
    s.raiseOn c r = ((s.noted c r).freezeOn c r).unpackCore c := by
  simp only [State.raiseOn, hf]
  rfl

theorem raiseOn_first (hf : (s.core c).frozen = some f) (hz : (s.core c).freezing = true) (ho : r.order < f.order) :
    s.raiseOn c r = if f.isAsync then ((s.noted c r).freezeOn c r).queueFault c f else (s.noted c r).freezeOn c r := by
  have ho' : ({ r with gtc := s.gtc } : TrapRec).order < f.order := ho
  simp only [State.raiseOn, hf, hz, ho', decide_true, Bool.and_self, if_true]
  rfl

theorem raiseOn_outranked (hf : (s.core c).frozen = some f) (hz : (s.core c).freezing = true)
    (ho : ¬ r.order < f.order) (ha : r.isAsync = false) : s.raiseOn c r = s := by
  have hd : decide (({ r with gtc := s.gtc } : TrapRec).order < f.order) = false := decide_eq_false ho
  simp only [State.raiseOn, hf, hz, hd, Bool.and_false, Bool.false_eq_true, if_false]
  exact if_pos (by simp [ha])

theorem raiseOn_frozen (hf : (s.core c).frozen = some f) (hz : (s.core c).freezing = false) :
    s.raiseOn c r = (s.noted c r).queueFault c { r with gtc := s.gtc } := by
  simp only [State.raiseOn, hf, hz, Bool.false_and, Bool.false_eq_true, if_false]
  rfl

theorem queueFault_room (hq : (s.core c).queue.length < 64) :
    s.queueFault c r = s.putCore c { s.core c with queue := (s.core c).queue ++ [r] } := if_pos hq

theorem frozen_queueFault : ((s.queueFault c r).core c).frozen = (s.core c).frozen := by
  unfold State.queueFault
  dsimp only
  split
  · simp
  · exact (KeepsCores.refl s).removeContext.frozen c

theorem core_freezeOn : (s.freezeOn c r).core c =
    { (s.core c).freeze { r with gtc := s.gtc } with frozenAt := some (s.core c).cycles } := by
  simp [State.freezeOn]

theorem queue_freezeOn : ((s.freezeOn c r).core c).queue = (s.core c).queue := by
  rw [core_freezeOn]
  rfl

theorem frozen_freezeOn : ((s.freezeOn c r).core c).frozen = some { r with gtc := s.gtc } := by
  rw [core_freezeOn]
  rfl

theorem mem_queueFault (hq : (s.core c).queue.length < 64) : (s.queueFault c r).mem = s.mem := by
  rw [queueFault_room hq]
  rfl

/-- Taking a fault changes no byte of memory, unless a full queue removes a context (R471, R472). -/
theorem mem_raiseOn (ha : r.isAsync = false) (hq : (s.core c).queue.length < 64) : (s.raiseOn c r).mem = s.mem := by
  have hn : (s.noted c r).mem = s.mem := KeepsCores.noted.mem
  have hnq : ((s.noted c r).core c).queue = (s.core c).queue := KeepsCores.noted.queue c
  cases hf : (s.core c).frozen with
  | none =>
    rw [raiseOn_running hf]
    exact (KeepsCores.refl _).unpackCore.mem.trans hn
  | some f =>
    cases hz : (s.core c).freezing with
    | false =>
      rw [raiseOn_frozen hf hz]
      exact (mem_queueFault (hnq ▸ hq)).trans hn
    | true =>
      by_cases ho : r.order < f.order
      · rw [raiseOn_first hf hz ho]
        split
        · exact (mem_queueFault ((queue_freezeOn.trans hnq) ▸ hq)).trans hn
        · exact hn
      · rw [raiseOn_outranked hf hz ho ha]

/-- A fault of a heat of a team on a running core (R463, R471, R475): what the core records, and what stays of the
team. -/
theorem raiseOn_freezes (hx : s.team? u = some x) (hc : x.core? = some c) (hh : x.heat? g = some h)
    (hf : (s.core c).frozen = none) :
    ((s.raiseOn c r).core c).frozen = some { r with gtc := s.gtc } ∧ ((s.raiseOn c r).core c).trapOn = false ∧
      ((s.raiseOn c r).core c).csel = 0#64 ∧ (s.raiseOn c r).runs u = false ∧ StandsAt u g c h (s.raiseOn c r) := by
  rw [raiseOn_running hf]
  have hk : KeepsCores ((s.noted c r).freezeOn c r) (((s.noted c r).freezeOn c r).unpackCore c) :=
    (KeepsCores.refl _).unpackCore
  have hst : StandsAt u g c h (((s.noted c r).freezeOn c r).unpackCore c) :=
    StandsAt.unpackCore ⟨x, h, (congrArg (mfind · u) teams_noted).trans hx, hc, hh, Stands.refl h⟩
  have hr : ((((s.noted c r).freezeOn c r).unpackCore c).core c).frozen = some { r with gtc := s.gtc } :=
    (hk.frozen c).trans (frozen_freezeOn.trans (by rw [KeepsCores.noted.gtc]))
  exact ⟨hr, (hk.trapOn c).trans (by rw [core_freezeOn]; rfl), (hk.csel c).trans (by rw [core_freezeOn]; rfl),
    hst.not_runs hr, hst⟩

/-- Of the faults of one cycle the first in the order of R472 is the one reported. -/
theorem raiseOn_precedes (hf : (s.core c).frozen = some f) (hz : (s.core c).freezing = true)
    (ho : r.order < f.order) :
    ((s.raiseOn c r).core c).frozen = some { r with gtc := s.gtc } ∧
      (f.isAsync = false → ((s.raiseOn c r).core c).queue = (s.core c).queue) := by
  have hr : (((s.noted c r).freezeOn c r).core c).frozen = some { r with gtc := s.gtc } :=
    frozen_freezeOn.trans (by rw [KeepsCores.noted.gtc])
  rw [raiseOn_first hf hz ho]
  cases ha : f.isAsync with
  | true => exact ⟨frozen_queueFault.trans hr, nofun⟩
  | false => exact ⟨hr, fun _ => queue_freezeOn.trans (KeepsCores.noted.queue c)⟩

/-- A fault that comes after the cycle of the freeze waits in the queue (R472). -/
theorem raiseOn_waits (hf : (s.core c).frozen = some f) (hz : (s.core c).freezing = false)
    (hq : (s.core c).queue.length < 64) :
    ((s.raiseOn c r).core c).queue = (s.core c).queue ++ [{ r with gtc := s.gtc }] ∧
      ((s.raiseOn c r).core c).frozen = some f := by
  have hn : KeepsCores s (s.noted c r) := KeepsCores.noted
  rw [raiseOn_frozen hf hz, queueFault_room (by rw [hn.queue]; exact hq), State.core_putCore, if_pos rfl]
  exact ⟨by rw [hn.queue], (hn.frozen c).trans hf⟩

/-- R474: a fault of the trap heat stops it for good, and the core stays frozen. -/
theorem raise_trap {cls info : Nat} (hw : s.cur.who = .trap c) :
    ((s.raise cls info).core c).stuck = true ∧ ((s.raise cls info).core c).trapOn = false ∧
      (s.raise cls info).mem = s.mem := by
  have he : s.raise cls info = s.trapHeatFault c (s.curRecord cls info).cls := by simp [State.raise, State.raiseRec, hw]
  have hk : KeepsCores (s.putCore c { s.core c with stuck := true, trapOn := false }) (s.raise cls info) :=
    he ▸ (KeepsCores.refl _).tick.blackBoxAdd.sendFrame
  exact ⟨(hk.stuck c).trans (by simp), (hk.trapOn c).trans (by simp), hk.mem⟩

end

/-- Settles O36: each word raises or holds as its checks say, and taking a fault is `raiseOn`. -/
theorem faultEntry : Obligations.FaultEntry := by
  unfold Obligations.FaultEntry
  refine ⟨fun i s h hp hr hn => exec_privileged hp hr hn, ?budget, ?pending, ?row, ?shadow, ?fault,
    fun s c cls info hw => raise_trap hw⟩
  case budget =>
    intro i f s h r n hf hs hm hn hb
    obtain ⟨g, he⟩ := exec_of_intForm hf s
    obtain ⟨v, hv, hle⟩ := overBudget_of_mem hm hn hb
    exact ⟨v, hle, he.trans (heatWordIn_overBudget hs hv g)⟩
  case pending =>
    intro i f s h x cause hf hs ho hb
    obtain ⟨g, he⟩ := exec_of_intForm hf s
    exact he.trans (heatWordIn_blocked hs ho hb g)
  case row =>
    intro i f s h hf hs ho hb hr
    obtain ⟨g, he⟩ := exec_of_intForm hf s
    exact he.trans (heatWordIn_badRow hs ho hb (Heat.badRow_iff.mpr hr) g)
  case shadow =>
    intro i f b s h x hf hb hr hx h1 hp hi hl hk v w
    have he := exec_of_flip hf hb hr hx h1 hp hi hl hk
    refine ⟨fun ha => he.trans ?_, fun ha => finish_wrongResults hr.1 f b hi (he.trans ?_)⟩
    · exact congrArg _ (if_neg (ne_true_of_eq_false ha))
    · exact congrArg _ (if_pos ha)
  case fault =>
    intro s u g c cls info x h hw hcur hu hx hh hc hk t
    have ht : t = s.raiseOn c (s.curRecord cls info) := raise_heat hw hcur hx hk
    clear_value t
    subst ht
    rw [curRecord_heat hw hx hh]
    refine ⟨mem_raiseOn rfl, fun hf => ?_, fun r0 hf => ⟨fun hz => ?_, fun hz hq => ?_⟩⟩
    · obtain ⟨hr, hon, hsel, hruns, y, h', hy, -, hh', hst⟩ := raiseOn_freezes hx hc hh hf
      refine ⟨_, h', hr, rfl, rfl, rfl, rfl, rfl, rfl, rfl, rfl, rfl, rfl, rfl, rfl, rfl, rfl, hon, hsel, hruns, ?_,
        hst.regs, hst.stride, hst.place⟩
      rw [State.heat?, if_neg (Nat.not_le.mpr hu), hy]
      exact hh'
    · split
      next ho =>
        obtain ⟨hr, hq⟩ := raiseOn_precedes hf hz ho
        exact ⟨_, hr, rfl, rfl, hq⟩
      next ho => exact raiseOn_outranked hf hz ho rfl
    · obtain ⟨hqueue, hr⟩ := raiseOn_waits hf hz hq
      exact ⟨_, hqueue, hr, rfl, rfl⟩

end Sys2Proof.Machine

/-! SUPPORT. What the operations on one team and the end of an issue leave (R46–R62), in the form that the words of
queues and system registers need. -/

namespace Sys2Proof.Machine

section

variable {s s1 t : State} {i : Instr} {h h1 h2 : Heat} {u g c d : Nat} {x : Team}

/-! ### One team -/

@[simp] theorem State.team?_modTeam (s : State) (u : Nat) (f : Team → Team) (v : Nat) :
    (s.modTeam u f).team? v = if u = v then (s.team? v).map f else s.team? v := by
  unfold State.modTeam
  by_cases hv : u = v
  · subst hv
    cases hx : s.team? u <;> simp [hx]
  · cases hx : s.team? u <;> simp [hv]

/-- `modTeam` changes nothing but the teams. -/
theorem State.modTeam_eq (s : State) (u : Nat) (f : Team → Team) :
    s.modTeam u f = { s with teams := (s.modTeam u f).teams } := by
  unfold State.modTeam
  split <;> rfl

@[simp] theorem State.cores_modTeam (s : State) (u : Nat) (f : Team → Team) : (s.modTeam u f).cores = s.cores := by
  rw [State.modTeam_eq]

@[simp] theorem State.core_modTeam (s : State) (u : Nat) (f : Team → Team) (c : Nat) :
    (s.modTeam u f).core c = s.core c := by
  rw [State.core, State.cores_modTeam, ← State.core]

@[simp] theorem State.cur_modTeam (s : State) (u : Nat) (f : Team → Team) : (s.modTeam u f).cur = s.cur := by
  rw [State.modTeam_eq]

@[simp] theorem State.stamp_modTeam (s : State) (u : Nat) (f : Team → Team) : (s.modTeam u f).stamp = s.stamp := by
  rw [State.modTeam_eq]

@[simp] theorem State.contexts_modTeam (s : State) (u : Nat) (f : Team → Team) :
    (s.modTeam u f).contexts = s.contexts := by
  rw [State.modTeam_eq]

@[simp] theorem State.device_modTeam (s : State) (u : Nat) (f : Team → Team) : (s.modTeam u f).device = s.device := by
  rw [State.modTeam_eq]
  rfl

/-- A change of a team that is there. -/
theorem State.modTeam_of_team? {f : Team → Team} (hx : s.team? u = some x) : s.modTeam u f = s.putTeam u (f x) := by
  simp [State.modTeam, hx]

/-- A change of a team that leaves its heats. -/
theorem State.heat?_modTeam {f : Team → Team} (hf : ∀ y k, (f y).heat? k = y.heat? k) (v k : Nat) :
    (s.modTeam u f).heat? v k = s.heat? v k := by
  simp only [State.heat?, State.core_modTeam, State.team?_modTeam]
  split
  · rfl
  · by_cases hv : u = v
    · subst hv
      cases hx : s.team? u <;> simp [hf]
    · simp [hv]

/-! ### The end of an issue -/

theorem sameRegs_of_eq (hr : h2.rows = h1.rows) (hp : h2.preds = h1.preds) (hs : h2.s = h1.s) (ha : h2.a = h1.a) :
    SameRegs h1 h2 :=
  ⟨fun _ _ _ => by simp only [Heat.v, hr], fun _ _ _ => by simp only [Heat.k, hp], fun _ => by simp only [Heat.sr, hs],
    fun _ => by simp only [Heat.ar, ha]⟩

/-- The issue ends in a state s1 that a word has made of s. -/
theorem finishBy_after (hcur : s1.cur = s.cur) (hstamp : s1.stamp = s.stamp)
    (hcyc : (s1.core s.cur.core).cycles = (s.core s.cur.core).cycles) (hs : s1.curHeat? = some h) (h1 : Heat)
    (f : Nat → Lane → Lane) (he : exec i s = .next (s1.finishBy h1 f)) :
    ∃ t h', t = s1.finishBy h1 f ∧ h' = h1.retire s.cur s.stamp (s.core s.cur.core).cycles.toNat f ∧ Issued i s t h' ∧
      OnlyIssuer s1 t ∧ Retired s h1 h' f ∧ SameRegs h1 h' ∧ h'.rows = h1.rows ∧ h'.preds = h1.preds ∧ h'.s = h1.s ∧
      h'.a = h1.a := by
  obtain ⟨hheat, honly, hst⟩ := State.finishBy_spec hs h1 f
  rw [hcur, hstamp, hcyc] at hheat
  rw [hstamp] at hst
  obtain ⟨hr, hp, hsr, ha, hstill, hstride, hslots, hlane⟩ :=
    Heat.retire_spec h1 s.cur s.stamp (s.core s.cur.core).cycles.toNat f
  exact ⟨_, _, rfl, rfl, ⟨he, hheat, hst⟩, honly, ⟨hstill, hstride, hslots, hlane⟩, sameRegs_of_eq hr hp hsr ha, hr, hp,
    hsr, ha⟩

/-- The end of the issue of a word of the trap heat, which no scheduler counts. -/
theorem State.finishBy_trap (hw : s.cur.who = .trap c) (h : Heat) (f : Nat → Lane → Lane) :
    s.finishBy h f =
      (s.putCore c { s.core c with trap := h.retire s.cur s.stamp (s.core s.cur.core).cycles.toNat f }).tick := by
  have hw' (k : Core) : (s.putCore c k).cur.who = .trap c := hw
  simp only [State.finishBy, State.putCurHeat, State.noteIssue, hw, hw']

/-- Every lane of a mask after a change of each. -/
theorem Heat.lane_forLanes (h : Heat) (m : Mask) (f : Nat → Lane → Lane) (l : Nat) :
    (h.forLanes m (fun y l => y.setLane l (f l (y.lane l)))).lane l = if inMask m l then f l (h.lane l) else h.lane l := by
  have := foldl_lanes (fun y l => y.setLane l (f l (y.lane l))) (fun y l => y.lane l) (fun h l => f l (h.lane l))
    (lanesOf m) h (nodup_lanesOf m) (by intro y l x _ hx; simp [Ne.symm hx]) (by intro y l _ hy; simp [hy l]) l
  simpa only [Heat.forLanes, mem_lanesOf] using this

/-- A change of lanes before the retirement is part of the move. -/
theorem Retired.of_lanes {f f' : Nat → Lane → Lane} (hr : Retired s h1 h2 f) (hstill : h1.still = h.still)
    (hstride : h1.stride = h.stride) (hslots : h1.slots = h.slots)
    (hlane : ∀ l, h1.lane l = if inMask s.cur.active l then f' l (h.lane l) else h.lane l) :
    Retired s h h2 (fun l y => f l (f' l y)) := by
  obtain ⟨h1, h2, h3, h4⟩ := hr
  refine ⟨h1.trans hstill, hstride ▸ h2, hslots ▸ h3, fun l => ?_⟩
  rw [h4, hlane]
  split <;> rfl

end

end Sys2Proof.Machine

namespace Sys2Proof.Machine

/-- Settles O55: every field of the reset state has the value of its declaration. -/
theorem resetState : Obligations.ResetState := by
  unfold Obligations.ResetState
  refine ⟨rfl, ?_, fun _ => rfl, rfl, rfl, rfl, rfl, rfl, rfl, rfl, rfl, rfl, fun _ => rfl, fun _ => ?_⟩
  · simp only [Claims.Cleared, State.reset, and_self]
  · exact ⟨rfl, rfl, rfl, rfl, rfl, rfl, rfl⟩

/-- In the trap heat of core 0 one lane is active. -/
def trapLane : State := { cur := { who := .trap 0, active := 1#32 } }

/-- The pair of registers 0 and 1 of lane 0 of the issuing heat after an outcome. -/
def pairZero : Out → Option W64
  | .next t => t.curHeat?.map (fun h => h.pair 0 0)
  | _ => none

/-- Refutes O35: LINEAGE reads 0xFFFF_FFFF_FFFF_FFFE in the trap heat (R545), where the statement's table
`Claims.laneValue` has 0xFFFF_FFFF_FFFF_FFFF. -/
theorem not_systemReads : ¬ Obligations.SystemReads := by
  unfold Obligations.SystemReads
  rintro ⟨-, -, hpair, -⟩
  have hready : trapLane.ready {} trapLane.cur.lanes [(0, 2)] [] := ⟨rfl, rfl, rfl, rfl⟩
  obtain ⟨t, h', ⟨he, hh, -⟩, -, -, hv, -⟩ := hpair 0 0x30 trapLane {} (.inl rfl) hready
  have hread : pairZero (exec (.srd 0 0x30) trapLane) = some 0xFFFFFFFFFFFFFFFE#64 := by decide +kernel
  have hsaid : h'.pair 0 0 = 0xFFFFFFFFFFFFFFFF#64 := hv 0 (by decide)
  rw [he] at hread
  simp [pairZero, hh, hsaid] at hread

end Sys2Proof.Machine

/-! SUPPORT. The writes of system registers by the trap heat (R57, R59, R60, R464, R475, R476). -/

namespace Sys2Proof.Machine

section

variable {s s1 t : State} {i : Instr} {h h1 g : Heat} {u c d n : Nat} {x : Team}

/-! ### Writes of the core -/

/-- A write of a register of the core is `swrCore` with the function that the claims name. -/
theorem exec_of_coreWrite {f : Core → W64 → Core} (hf : Claims.coreWrite i = some (d, f)) (s : State) :
    exec i s = swrCore s d f := by
  cases i with
  | swr d' r =>
    simp only [Claims.coreWrite] at hf
    split at hf
    next hr => cases hf; subst hr; rfl
    next =>
      split at hf
      next hr => cases hf; subst hr; rfl
      next => cases hf
  | swrTaction d' =>
    cases hf
    change execSwrTaction d' s = _
    unfold execSwrTaction
    refine congrArg (swrCore s _) (funext fun k => funext fun v => ?_)
    have h2 (lo : Nat) : fld v.toNat lo 2 = (v.extractLsb' lo 2).toNat := by
      simp [fld, BitVec.extractLsb'_toNat, Nat.shiftRight_eq_div_pow]
    simp only [h2, ← BitVec.toNat_inj]
    rfl
  | swrDumpc d' =>
    cases hf
    change swrCore s d'.toNat Core.startDump = _
    refine congrArg (swrCore s _) (funext fun k => funext fun v => ?_)
    have hbad : (v.toNat / 16 ≠ 0 ∨ k.dumpa.toNat % 128 ≠ 0) ↔ ¬ (v.toNat < 16 ∧ k.dumpa.toNat % 128 = 0) := by omega
    unfold Core.startDump
    split
    next hd =>
      obtain ⟨y, hy⟩ := Option.isSome_iff_exists.mp hd
      simp only [hy]
    next hd =>
      have hn := Option.not_isSome_iff_eq_none.mp hd
      split
      next hz => simp only [hn, hz]
      next r hz => simp only [hn, hz, hbad, ite_not]
  | _ => cases hf

/-- A write of a pool boundary writes the low byte of the scalar (R59). -/
theorem exec_of_poolWrite {f : Core → W64 → Core} (hf : Claims.poolWrite i = some (d, f)) (s : State) :
    ∃ f', exec i s = swrPool s d f' ∧ ∀ k v, f' k (v &&& 0xFF#64) = f k v := by
  cases i with
  | swrPoolrb => cases hf; exact ⟨fun k v => { k with poolrb := v }, rfl, fun _ _ => rfl⟩
  | swrPoolsb => cases hf; exact ⟨fun k v => { k with poolsb := v }, rfl, fun _ _ => rfl⟩
  | swrPoolcb => cases hf; exact ⟨fun k v => { k with poolcb := v }, rfl, fun _ _ => rfl⟩
  | _ => cases hf

/-- Neither kind of write touches the trap heat or the clock. -/
theorem coreWrite_keeps {f : Core → W64 → Core}
    (hf : Claims.coreWrite i = some (d, f) ∨ Claims.poolWrite i = some (d, f)) (k : Core) (v : W64) :
    (f k v).trap = k.trap ∧ (f k v).cycles = k.cycles := by
  rcases hf with hf | hf
  · cases i with
    | swr d' r =>
      simp only [Claims.coreWrite] at hf
      split at hf
      next => cases hf; exact ⟨rfl, rfl⟩
      next =>
        split at hf
        next => cases hf; exact ⟨rfl, rfl⟩
        next => cases hf
    | swrTaction d' =>
      cases hf
      dsimp only
      split <;> exact ⟨rfl, rfl⟩
    | swrDumpc d' =>
      cases hf
      dsimp only
      split
      · exact ⟨rfl, rfl⟩
      · exact ⟨rfl, rfl⟩
      · split <;> exact ⟨rfl, rfl⟩
    | _ => cases hf
  · cases i with
    | swrPoolrb | swrPoolsb | swrPoolcb => cases hf; exact ⟨rfl, rfl⟩
    | _ => cases hf

/-- What a write of the core comes to (R57, R60): the registers of the core but for its trap heat are those of `k`. -/
theorem putCore_finish {k : Core} (hw : s.cur.who = .trap c) (hc : s.cur.core = c) (hs : s.curHeat? = some h)
    (htrap : k.trap = (s.core c).trap) (hcyc : k.cycles = (s.core c).cycles)
    (he : exec i s = .next ((s.putCore c k).finish h)) :
    ∃ t h', Issued i s t h' ∧ t.device = s.device ∧ t.teams = s.teams ∧ Retired s h h' s.onward ∧ SameRegs h h' ∧
      (t.core c).still = k.still ∧ ∀ j, j ≠ c → t.core j = s.core j := by
  have hs1 : (s.putCore c k).curHeat? = some h := by
    simp only [State.curHeat?, hw] at hs
    simp [State.curHeat?, hw, htrap, ← hs]
  obtain ⟨t, h', rfl, -, hi, -, hret, hregs, -⟩ :=
    finishBy_after (s := s) (s1 := s.putCore c k) rfl rfl (by simp [hc, hcyc]) hs1 h _ he
  refine ⟨_, h', hi, ?_, ?_, hret, hregs, ?_, fun j hj => ?_⟩ <;>
    rw [State.finishBy_trap (s := s.putCore c k) hw]
  · rfl
  · rfl
  · simp [Core.still]
  · simp [Ne.symm hj]

/-- A word of the trap heat that changes the core. -/
theorem swrCore_trap {f : Core → W64 → Core} (hw : s.cur.who = .trap c)
    (hr : s.ready h s.cur.lanes [] (Claims.single [d])) (ht : (f (s.core c) (h.sr d)).trap = (s.core c).trap) :
    swrCore s d f = .next ((s.putCore c (f (s.core c) (h.sr d))).finish h) := by
  have hs := hr.1
  simp only [State.curHeat?, hw] at hs
  rw [swrCore, privWord_trap hw]
  refine (heatWord_ready hr _).trans ?_
  simp [State.curHeat?, hw, ht, Option.some.inj hs]

/-- A pool boundary of a core without a team is written (R60). -/
theorem swrPool_free {f : Core → W64 → Core} (hw : s.cur.who = .trap c)
    (hr : s.ready h s.cur.lanes [] (Claims.single [d])) (hb : s.coreBusy c = false)
    (ht : (f (s.core c) (h.sr d &&& 0xFF#64)).trap = (s.core c).trap) :
    swrPool s d f = .next ((s.putCore c (f (s.core c) (h.sr d &&& 0xFF#64))).finish h) := by
  have hs := hr.1
  simp only [State.curHeat?, hw] at hs
  rw [swrPool, privWord_trap hw]
  refine (heatWord_ready hr _).trans ?_
  simp [hb, State.curHeat?, hw, ht, Option.some.inj hs]

/-- While a team is resident no pool boundary is written (R60). -/
theorem swrPool_busy {f : Core → W64 → Core} (hw : s.cur.who = .trap c)
    (hr : s.ready h s.cur.lanes [] (Claims.single [d])) (hb : s.coreBusy c = true) :
    swrPool s d f = .next (s.raise 0x0D 0) := by
  rw [swrPool, privWord_trap hw]
  refine (heatWord_ready hr _).trans ?_
  simp [hb]

/-! ### Writes of the selected heat or sequencer -/

/-- A write of a register of a selected heat is `swrSel` of its number, which changes the heat as the claims say. -/
theorem exec_of_heatWrite {stamp : Nat} {f : Heat → Nat → W64 → Heat} (hf : Claims.heatWrite stamp i = some (d, f))
    (s : State) : ∃ n, exec i s = swrSel s d n ∧ ∀ y l v, y.writeSel l n v stamp = f y l v := by
  cases i with
  | swrCposh d' =>
    cases hf
    refine ⟨0x1021, rfl, fun y l v => ?_⟩
    have hv : v.setWidth 72 = 0#8 ++ v := by simp [BitVec.setWidth_eq_append]
    simp only [Heat.writeSel, if_true, Lane.putAt, hv]
  | swrCposi d' =>
    cases hf
    refine ⟨0x1022, rfl, fun y l v => ?_⟩
    simp [Heat.writeSel, Lane.putAt, fld]
  | swrCpred d' => cases hf; exact ⟨0x1024, rfl, fun _ _ _ => rfl⟩
  | swrXv d' r =>
    cases hf
    refine ⟨0x1100 + r.toNat, rfl, fun y l v => ?_⟩
    have hr := r.isLt
    have hn : 0x1100 + r.toNat - 0x1100 = r.toNat := by omega
    unfold Heat.writeSel
    rw [if_neg (by omega), if_neg (by omega), if_neg (by omega), if_pos (by omega), hn]
    rfl
  | swrXs d' r =>
    cases hf
    refine ⟨0x1180 + r.toNat, rfl, fun y l v => ?_⟩
    have hr := r.isLt
    have hn : 0x1180 + r.toNat - 0x1180 = r.toNat := by omega
    unfold Heat.writeSel
    rw [if_neg (by omega), if_neg (by omega), if_neg (by omega), if_neg (by omega), if_pos (by omega), hn]
    rfl
  | swrXa d' r =>
    cases hf
    refine ⟨0x11C0 + r.toNat, rfl, fun y l v => ?_⟩
    have hr := r.isLt
    have hn : 0x11C0 + r.toNat - 0x11C0 = r.toNat := by omega
    unfold Heat.writeSel
    rw [if_neg (by omega), if_neg (by omega), if_neg (by omega), if_neg (by omega), if_neg (by omega),
      if_pos (by omega), hn]
  | swrXah d' r =>
    cases hf
    refine ⟨0x11D0 + r.toNat, rfl, fun y l v => ?_⟩
    have hr := r.isLt
    have hn : 0x11D0 + r.toNat - 0x11D0 = r.toNat := by omega
    unfold Heat.writeSel
    rw [if_neg (by omega), if_neg (by omega), if_neg (by omega), if_neg (by omega), if_neg (by omega),
      if_neg (by omega), if_pos (by omega), hn]
    rfl
  | _ => cases hf

/-- CSEL by its fields (R475). -/
theorem selected_of_teamAt {csel : W64} (hu : s.teamAt c (csel.toNat % 256) = some u) :
    s.selected c csel = some { team := u, heat := csel.toNat / 256 % 256, lane := csel.toNat / 65536 % 32 } := by
  have hshare : fld csel.toNat 0 8 = csel.toNat % 256 := by simp [fld]
  rw [State.selected, hshare, hu]
  rfl

/-- A word that writes a selected register (R476). -/
theorem swrSel_trap {y : Sel} (hw : s.cur.who = .trap c) (hr : s.ready h s.cur.lanes [] (Claims.single [d]))
    (hy : s.selected c (s.core c).csel = some y) :
    swrSel s d n = .next ((s.writeSel y n (h.sr d)).finish h) := by
  rw [swrSel, swrState, privWord_trap hw]
  refine (heatWord_ready hr _).trans ?_
  simp only [hy]

/-- What a write of the selection comes to: the team is `z`, and the trap heat retires. -/
theorem putTeam_finish {z : Team} (hw : s.cur.who = .trap c) (hc : s.cur.core = c) (hs : s.curHeat? = some h)
    (he : exec i s = .next ((s.putTeam u z).finish h)) :
    ∃ t h', Issued i s t h' ∧ SameRegs h h' ∧
      t = ((s.putTeam u z).putCore c { s.core c with trap := h' }).tick := by
  subst hc
  have hs1 : (s.putTeam u z).curHeat? = some h := by
    simpa only [State.curHeat?, State.cur_putTeam, hw, State.core_putTeam] using hs
  obtain ⟨t, h', rfl, rfl, hi, -, -, hregs, -⟩ :=
    finishBy_after (s := s) (s1 := s.putTeam u z) rfl rfl rfl hs1 h _ he
  exact ⟨_, _, hi, hregs, State.finishBy_trap (s := s.putTeam u z) hw _ _⟩

/-- A write of matrix register m(r) of the selected sequencer (R476). -/
theorem Seq.mr_writeSel (q : Seq) (r : BitVec 4) (v : W64) (stamp n : Nat) :
    (q.writeSel (0x11F0 + r.toNat) v stamp).mr n = if n = r.toNat then v else q.mr n := by
  have hr := r.isLt
  have hn : 0x11F0 + r.toNat - 0x11F0 = r.toNat := by omega
  unfold Seq.writeSel
  rw [if_neg (by omega), if_neg (by omega), if_pos (by omega), hn]
  simp only [Seq.mr, Seq.setM, mget_mset, eq_comm]

/-! ### Writes of the tensor table -/

theorem mget_map {α β : Type} (f : α → β) (m : FMap α) (a : α) (k : Nat) :
    mget (f a) (m.map (fun e => (e.1, f e.2))) k = f (mget a m k) := by
  induction m with
  | nil => rfl
  | cons e m ih =>
    simp only [List.map_cons, mget]
    split
    · rfl
    · exact ih

/-- A team after its context's TDBASE and TDCNT have been written. -/
def Team.tensor (a : Nat) (f : W64 × W64 → W64 × W64) (x : Team) : Team :=
  if x.asid = a then { x with tdbase := (f (x.tdbase, x.tdcnt)).1, tdcnt := (f (x.tdbase, x.tdcnt)).2 } else x

/-- The tensor table of a context and of its teams is set (R56, R59). -/
theorem setTensor_eq {a : Nat} {y : Context} (hy : s.ctx? a = some y) (f : W64 × W64 → W64 × W64) :
    s.setTensor a f = { s with
      contexts := mput s.contexts a { y with tdbase := (f (y.tdbase, y.tdcnt)).1, tdcnt := (f (y.tdbase, y.tdcnt)).2 }
      teams := s.teams.map (fun e => (e.1, e.2.tensor a f)) } := by
  have hteams : s.teams.map (fun (e : Nat × Team) =>
      if e.2.asid = a then (e.1, { e.2 with
        tdbase := (f (e.2.tdbase, e.2.tdcnt)).1, tdcnt := (f (e.2.tdbase, e.2.tdcnt)).2 }) else e) =
      s.teams.map (fun e => (e.1, e.2.tensor a f)) :=
    List.map_congr_left (fun e _ => by unfold Team.tensor; split <;> rfl)
  simp only [State.setTensor, State.modCtx, hy, hteams]

/-- A write of TDBASE or TDCNT (R59, R343): every descriptor cache is empty, and the context and its teams have the
pair as `f` makes it. -/
theorem swrTensor_trap {f : W64 × W64 → W64 → W64 × W64} {y : Context} (hw : s.cur.who = .trap c)
    (hr : s.ready h s.cur.lanes [] (Claims.single [d])) (hy : s.ctx? s.curAsid = some y)
    (he : exec i s = swrTensor s d f) :
    ∃ t h', Issued i s t h' ∧ SameRegs h h' ∧ (∀ k, (t.core k).descs = []) ∧
      t.ctx? s.curAsid = some { y with
        tdbase := (f (y.tdbase, y.tdcnt) (h.sr d)).1, tdcnt := (f (y.tdbase, y.tdcnt) (h.sr d)).2 } ∧
      ∀ u, t.team? u = (s.team? u).map (fun x => if x.asid = s.curAsid then { x with
        tdbase := (f (x.tdbase, x.tdcnt) (h.sr d)).1, tdcnt := (f (x.tdbase, x.tdcnt) (h.sr d)).2 } else x) := by
  let s1 := s.setTensor s.curAsid (fun p => f p (h.sr d))
  let s2 := { s1 with cores := s1.cores.map (fun (e : Nat × Core) => (e.1, { e.2 with descs := [] })) }
  have hcur : s2.cur = s.cur := by simp only [s2, s1, setTensor_eq hy]
  have hstamp : s2.stamp = s.stamp := by simp only [s2, s1, setTensor_eq hy]
  have hcore (k : Nat) : s2.core k = { s.core k with descs := [] } := by
    simp only [State.core, s2, s1, setTensor_eq hy]
    exact mget_map (fun y : Core => { y with descs := [] }) s.cores {} k
  have hw2 : s2.cur.who = .trap c := hcur ▸ hw
  have hs := hr.1
  simp only [State.curHeat?, hw] at hs
  have hs2 : s2.curHeat? = some h := by simp only [State.curHeat?, hw2, hcore, hs]
  have hrun : exec i s = .next (s2.finish h) := by
    rw [he, swrTensor, privWord_trap hw]
    exact heatWord_ready hr _
  obtain ⟨t, h', rfl, -, hi, -, -, hregs, -⟩ := finishBy_after (s := s) (s1 := s2) hcur hstamp
    (by rw [hcore]) hs2 h _ hrun
  refine ⟨_, h', hi, hregs, fun k => ?_, ?_, fun u => ?_⟩ <;> rw [State.finishBy_trap (s := s2) hw2]
  · simp only [State.core_tick, State.core_putCore, hcore]
    split <;> rfl
  · change mfind s2.contexts s.curAsid = _
    simp only [s2, s1, setTensor_eq hy, mfind_mput, if_true]
  · change mfind s2.teams u = _
    simp only [s2, s1, setTensor_eq hy]
    exact mfind_map (Team.tensor s.curAsid (fun p => f p (h.sr d))) s.teams u

/-- Settles O37: the kinds of SWR, each by its own lemma. -/
theorem systemWrites : Obligations.SystemWrites := by
  unfold Obligations.SystemWrites
  refine ⟨?cvcnt, ?core, ?busy, ?tensor, ?heat, ?seq, ?other⟩
  case cvcnt =>
    intro d s h c hw hr
    have he : exec (.swr d 0x32#16) s = .next (s.finish (h.forLanes s.cur.active
        (fun y l => y.setLane l { y.lane l with cvcnt := h.pair d.toNat l }))) :=
      (privWord_trap hw _ _ _).trans (heatWord_ready hr _)
    obtain ⟨t, h', hi, ho, hret, hrow, hpred, hs, ha⟩ := finishBy_issued hr.1 _ _ he
    have hkeep {β : Type} (p : Heat → β) (hp : ∀ y l z, p (Heat.setLane y l z) = p y) :=
      Heat.forLanes_keeps p (fun y l => y.setLane l { y.lane l with cvcnt := h.pair d.toNat l }) (fun y l => hp y l _) h
        s.cur.active
    refine ⟨t, h', hi, ho, sameRegs_of_eq (hrow.trans (hkeep Heat.rows fun _ _ _ => rfl))
      (hpred.trans (hkeep Heat.preds fun _ _ _ => rfl)) (hs.trans (hkeep Heat.s fun _ _ _ => rfl))
      (ha.trans (hkeep Heat.a fun _ _ _ => rfl)), ?_⟩
    exact hret.of_lanes (f' := fun l y => { y with cvcnt := h.pair d.toNat l }) (hkeep Heat.still fun _ _ _ => rfl)
      (hkeep Heat.stride fun _ _ _ => rfl) (hkeep Heat.slots fun _ _ _ => rfl)
      (Heat.lane_forLanes h s.cur.active fun l y => { y with cvcnt := h.pair d.toNat l })
  case core =>
    intro i d f s h c hw hc hr hf
    have hkeep := coreWrite_keeps (hf.imp_right And.left) (s.core c) (h.sr d)
    refine putCore_finish hw hc hr.1 hkeep.1 hkeep.2 ?_
    rcases hf with hf | ⟨hf, hb⟩
    · rw [exec_of_coreWrite hf]
      exact swrCore_trap hw hr hkeep.1
    · obtain ⟨f', he, hf'⟩ := exec_of_poolWrite hf s
      rw [he, ← hf']
      exact swrPool_free hw hr hb (by rw [hf']; exact hkeep.1)
  case busy =>
    intro i d f s h c hw hr hf hb
    obtain ⟨f', he, -⟩ := exec_of_poolWrite hf s
    exact he.trans (swrPool_busy hw hr hb)
  case tensor =>
    intro d s h c x hw hc hr hx
    exact ⟨swrTensor_trap (f := fun p v => (v &&& 0xFFFFFFFFFFFFFF00#64, p.2)) hw hr hx rfl,
      swrTensor_trap (f := fun p v => (p.1, v &&& 0x1FFF#64)) hw hr hx rfl⟩
  case heat =>
    intro i d f s h g c u x hw hc hf hr v hsel hu hx hg hend
    obtain ⟨n, he, hn⟩ := exec_of_heatWrite hf s
    have hheat : s.heat? u (v / 256 % 256) = some g := by
      simp only [State.heat?, if_neg (Nat.not_le.mpr hu), hx, hg]
    have hwrite : exec i s = .next
        ((s.putTeam u (x.putHeat (v / 256 % 256) (f g (v / 65536 % 32) (h.sr d)))).finish h) := by
      rw [he, swrSel_trap hw hr (selected_of_teamAt hsel)]
      simp [State.writeSel, State.selHeat, hheat, hend, v, State.putHeat, Nat.not_le.mpr hu, hx, State.modTeam, hn]
    obtain ⟨t, h', hi, hregs, rfl⟩ := putTeam_finish hw hc hr.1 hwrite
    refine ⟨_, h', hi, rfl, hregs, fun y k => ?_⟩
    simp only [State.heat?, State.core_tick, State.core_putCore, State.team?_tick, State.team?_putCore,
      State.team?_putTeam, State.core_putTeam]
    by_cases hy : trapBase ≤ y
    · have hyu : ¬ (y = u ∧ k = v / 256 % 256) := by omega
      by_cases hyc : y = trapBase + c
      · simp [hyc]
        omega
      · have : c ≠ y - trapBase := by omega
        simp [hy, hyu, hyc, this]
    · have hyc : y ≠ trapBase + c := by omega
      by_cases hyu : u = y
      · subst hyu
        by_cases hk : v / 256 % 256 = k
        · simp [hy, hk]
        · simp [hy, hk, Ne.symm hk, hyc, hx]
      · simp [hy, hyu, Ne.symm hyu, hyc]
  case seq =>
    intro d r s h c u x hw hc hr hsel hu hid hx hnone
    have hheat : s.heat? u 255 = none := by simp only [State.heat?, if_neg (Nat.not_le.mpr hu), hx, hnone]
    obtain ⟨z, hz, hm⟩ : ∃ z, exec (.swrXm d r) s = .next ((s.putTeam u z).finish h) ∧
        ∀ n, z.body.seq.mr n = if n = r.toNat then h.sr d.toNat else x.body.seq.mr n := by
      refine ⟨{ x with body := { x.body with seq := x.body.seq.writeSel (0x11F0 + r.toNat) (h.sr d.toNat) s.stamp } },
        (swrSel_trap hw hr (selected_of_teamAt hsel)).trans ?_, Seq.mr_writeSel _ _ _ _⟩
      simp [State.writeSel, State.selHeat, State.selSeq, hid, hheat, hx, State.modSeq, State.modTeam_of_team? hx]
    obtain ⟨t, h', hi, hregs, rfl⟩ := putTeam_finish hw hc hr.1 hz
    refine ⟨_, h', z, hi, hregs, ?_, hm⟩
    simp only [State.team?_tick, State.team?_putCore, State.team?_putTeam, if_true]
  case other =>
    intro d r s h hr hp h1 h2 h3
    obtain ⟨c, hw⟩ : ∃ c, s.cur.who = .trap c := by
      cases hw : s.cur.who with
      | trap c => exact ⟨c, rfl⟩
      | _ => simp [State.privileged, hw] at hp
    have hexec : exec (.swr d r) s = privWord s [] [] (fun _ _ => .next (s.raise 2 0)) := by
      change execSwr d r s = _
      unfold execSwr
      split
      next e => exact absurd (BitVec.eq_of_toNat_eq e) h1
      next e => exact absurd (BitVec.eq_of_toNat_eq e) h2
      next e => exact absurd (BitVec.eq_of_toNat_eq e) h3
      next => rfl
    rw [hexec, privWord_trap hw]
    exact heatWord_ready hr _

end

end Sys2Proof.Machine

/-! SUPPORT. The words of the queues (R47–R49, R186–R188). -/

namespace Sys2Proof.Machine

section

variable {s s1 s2 t : State} {i : Instr} {h h1 : Heat} {u q : Nat} {x : Team}

/-! ### Maps that list a value for each lane -/

theorem mget_map_pair {α : Type} (d : α) (f : Nat → α) {ls : List Nat} {l : Nat} (hl : l ∈ ls) :
    mget d (ls.map (fun j => (j, f j))) l = f l := by
  induction ls with
  | nil => cases hl
  | cons j ls ih =>
    by_cases hj : j = l
    · subst hj
      simp [mget]
    · have : l ∈ ls := by simpa [Ne.symm hj] using hl
      simp [mget, hj, ih this]

theorem mfind_map_pair {α : Type} (f : Nat → α) {ls : List Nat} {l : Nat} (hl : l ∈ ls) :
    mfind (ls.map (fun j => (j, f j))) l = some (f l) := by
  induction ls with
  | nil => cases hl
  | cons j ls ih =>
    by_cases hj : j = l
    · subst hj
      simp [mfind]
    · have : l ∈ ls := by simpa [Ne.symm hj] using hl
      simp [mfind, hj, ih this]

/-! ### What a queue word changes besides its heat -/

/-- A team without its log, its heats and its queues. -/
def Team.quiet (x : Team) : Team := { x with log := [], body := { x.body with heats := [], queues := [] } }

/-- From s to s1 at most team queues and logs change. -/
structure QueueChange (s s1 : State) : Prop where
  cur : s1.cur = s.cur
  stamp : s1.stamp = s.stamp
  cores : s1.cores = s.cores
  device : s1.device = s.device
  heats : ∀ u g, s1.heat? u g = s.heat? u g
  quiet : ∀ u, (s1.team? u).map Team.quiet = (s.team? u).map Team.quiet

theorem QueueChange.refl (s : State) : QueueChange s s := ⟨rfl, rfl, rfl, rfl, fun _ _ => rfl, fun _ => rfl⟩

theorem QueueChange.trans (a : QueueChange s s1) (b : QueueChange s1 s2) : QueueChange s s2 :=
  ⟨b.cur.trans a.cur, b.stamp.trans a.stamp, b.cores.trans a.cores, b.device.trans a.device,
    fun u g => (b.heats u g).trans (a.heats u g), fun u => (b.quiet u).trans (a.quiet u)⟩

theorem QueueChange.modTeam (f : Team → Team) (hf : ∀ y, (f y).quiet = y.quiet)
    (hh : ∀ y, (f y).body.heats = y.body.heats) : QueueChange s (s.modTeam u f) := by
  refine ⟨State.cur_modTeam .., State.stamp_modTeam .., State.cores_modTeam .., State.device_modTeam ..,
    State.heat?_modTeam (fun y k => by simp only [Team.heat?, hh]), fun v => ?_⟩
  rw [State.team?_modTeam]
  split
  · simp [Function.comp_def, hf]
  · rfl

theorem QueueChange.curTeam (a : QueueChange s s1) : s1.curTeam = s.curTeam := by
  simp only [State.curTeam, a.cur]

theorem QueueChange.curHeat? (a : QueueChange s s1) : s1.curHeat? = s.curHeat? := by
  simp only [State.curHeat?, a.cur, a.heats, State.core, a.cores]

theorem QueueChange.setShared (q : Nat) (l : List QEntry) : QueueChange s (s.setShared q l) := by
  unfold State.setShared
  split
  · exact .refl s
  · exact .modTeam _ (fun _ => rfl) (fun _ => rfl)

/-- An unchecked word notes a value in its team's log only, if it does not take it from there (R503). -/
theorem noteReplay_unchecked {kind stride addr value : Nat} (hu : s.curTeam = some u) (hx : s.team? u = some x)
    (hc : Claims.Unchecked s) (hl : s.logged kind stride 0 addr = none) :
    s.noteReplay kind stride addr value = s.modTeam u (fun y => { y with
      log := y.log ++ [{ heat := s.curHeatId, stride := stride, lane := 0, addr := addr, value := value
                         kind := kind }] }) := by
  have hcur (f : Team → Team) : (s.modTeam u f).curTeam = some u := by simpa only [State.curTeam, State.cur_modTeam]
  simp only [State.noteReplay, State.noteLog, hu, hl, State.noteRead, hcur, State.forward, State.team?_modTeam, if_true,
    hx, Option.map_some, State.forwardIn, Option.bind_some, (hc u x hu hx).1]

theorem QueueChange.noteReplay {kind stride addr value : Nat} (hu : s.curTeam = some u) (hx : s.team? u = some x)
    (hc : Claims.Unchecked s) (hl : s.logged kind stride 0 addr = none) :
    QueueChange s (s.noteReplay kind stride addr value) := by
  rw [noteReplay_unchecked hu hx hc hl]
  exact .modTeam _ (fun _ => rfl) (fun _ => rfl)

/-- Outside replay and checks nothing is read from a log. -/
theorem State.logged_none (hu : s.curTeam = some u) (hx : s.team? u = some x) (hp : x.replaying = false)
    (hc : Claims.Unchecked s) (kind stride lane addr : Nat) : s.logged kind stride lane addr = none := by
  simp [State.logged, hu, hx, Team.served, (hc u x hu hx).2, hp]

/-! ### Queues -/

theorem State.entries_eq (hu : s.curTeam = some u) (h : Heat) (q : Nat) : s.entries h q = Claims.queueOf s h q := by
  unfold State.entries Claims.queueOf
  split
  · rfl
  · rw [hu]
    cases hx : s.team? u <;> simp only [hx]

/-- A queue of a heat whose team has the key u. -/
theorem queueOf_team (hu : s.curTeam = some u) (h : Heat) (q : Nat) :
    Claims.queueOf s h q =
      if q < 8 then h.queue q else ((s.team? u).map (fun y => mget [] y.body.queues q)).getD [] := by
  unfold Claims.queueOf
  rw [hu]
  cases hx : s.team? u <;> simp only [hx, Option.map_none, Option.map_some, Option.getD_none, Option.getD_some]

/-- The queues after a change of a team queue. -/
theorem queueOf_setShared (hu : s.curTeam = some u) (hx : s.team? u = some x) (hq : 8 ≤ q) (l : List QEntry) (n : Nat) :
    Claims.queueOf (s.setShared q l) h n = if n = q then l else Claims.queueOf s h n := by
  have hset : s.setShared q l = s.modTeam u (fun y => { y with body := { y.body with
      queues := mset [] y.body.queues q l } }) := by simp only [State.setShared, hu]
  rw [queueOf_team ((QueueChange.setShared q l).curTeam.trans hu), queueOf_team hu, hset, State.team?_modTeam, hx]
  by_cases hn : n < 8
  · simp [hn, show n ≠ q by omega]
  · simp [hn, eq_comm]

/-- The queues after a change of a queue of the heat. -/
theorem queueOf_setQueue (hu : s.curTeam = some u) (hq : q < 8) (l : List QEntry) (n : Nat) :
    Claims.queueOf s (h.setQueue q l) n = if n = q then l else Claims.queueOf s h n := by
  rw [queueOf_team hu, queueOf_team hu]
  by_cases hn : n = q
  · subst hn
    simp [hq, Heat.queue]
  · simp [hn, Heat.queue, Ne.symm hn]

/-- A note in the log leaves the queues. -/
theorem queueOf_noteReplay {kind stride addr value : Nat} (hu : s.curTeam = some u) (hx : s.team? u = some x)
    (hc : Claims.Unchecked s) (hl : s.logged kind stride 0 addr = none) (n : Nat) :
    Claims.queueOf (s.noteReplay kind stride addr value) h n = Claims.queueOf s h n := by
  rw [noteReplay_unchecked hu hx hc hl, queueOf_team (by simpa only [State.curTeam, State.cur_modTeam]), queueOf_team hu,
    State.team?_modTeam, hx]
  simp

/-! ### The end of the issue of a queue word -/

theorem Team.still_queues {y z : Team} (h : y.still = z.still) : y.body.queues = z.body.queues :=
  (congrArg (fun w : Team => w.body.queues) h :)

theorem Team.still_quiet {y z : Team} (h : y.still = z.still) : y.quiet = z.quiet :=
  (congrArg Team.quiet h :)

/-- What the end of the issue leaves of a team of the issuer. -/
theorem OnlyIssuer.map_team {β : Type} (ho : OnlyIssuer s t) (f : Team → β)
    (hf : ∀ y z : Team, y.still = z.still → f y = f z) (v : Nat) : (t.team? v).map f = (s.team? v).map f := by
  obtain ⟨-, -, hteam, -⟩ := ho
  have hv := hteam v
  cases hs : s.team? v with
  | none => simpa [hs] using hv
  | some y =>
    obtain ⟨z, hz, hst⟩ : ∃ z, t.team? v = some z ∧ z.still = y.still := by simpa [hs] using hv
    simp [hz, hf z y hst]

theorem QueueChange.onlyQueues (a : QueueChange s s1) (ho : OnlyIssuer s1 t) : Claims.OnlyQueues s t := by
  have hquiet := ho.map_team Team.quiet (fun _ _ => Team.still_quiet)
  obtain ⟨hdev, hheat, -, hcore, hmem⟩ := ho
  have hissue (u g : Nat) : s1.issues u g ↔ s.issues u g := by simp only [State.issues, a.cur]
  have hm : s1.mem = s.mem := (congrArg State.mem a.device :)
  refine ⟨hdev.trans a.device, fun u g hi => (hheat u g (hi ∘ (hissue u g).1)).trans (a.heats u g),
    fun u => (hquiet u).trans (a.quiet u), fun c => ?_, fun b => by rw [hmem, hm]⟩
  rw [hcore, State.core, a.cores, ← State.core]

/-- A queue word that goes on: nothing but the heat, the queues and the log have changed. -/
theorem QueueChange.finish (a : QueueChange s s1) (hu : s.curTeam = some u) (hs : s.curHeat? = some h) (h1 : Heat)
    (he : exec i s = .next (s1.finish h1)) :
    ∃ h', Issued i s (s1.finish h1) h' ∧ OnlyIssuer s1 (s1.finish h1) ∧ Claims.OnlyQueues s (s1.finish h1) ∧
      Retired s h1 h' s.onward ∧ SameRegs h1 h' ∧ (∀ r, h'.sr r = h1.sr r) ∧
      ∀ n, Claims.queueOf (s1.finish h1) h' n = Claims.queueOf s1 h1 n := by
  have hcore : (s1.core s.cur.core).cycles = (s.core s.cur.core).cycles := by
    rw [State.core, a.cores, ← State.core]
  obtain ⟨t, h', ht, -, hi, ho, hret, hregs, -, -, hsr, -⟩ :=
    finishBy_after a.cur a.stamp hcore (a.curHeat?.trans hs) h1 _ he
  have ht' : t = s1.finish h1 := ht
  subst ht'
  rw [a.stamp] at hret
  obtain ⟨hstill, hrest⟩ := hret
  refine ⟨h', hi, ho, a.onlyQueues ho, ⟨hstill, hrest⟩, hregs, fun r => by simp only [Heat.sr, hsr], fun n => ?_⟩
  have hqueues : h'.queues = h1.queues := (congrArg Heat.queues hstill :)
  have hcur : (s1.finish h1).curTeam = some u := by
    have : (s1.finish h1).cur = s1.cur := (congrArg State.cur ho.1 :)
    simpa only [State.curTeam, this, a.cur] using hu
  have hteam := ho.map_team (fun y => mget [] y.body.queues n) (fun y z e => by rw [Team.still_queues e]) u
  rw [queueOf_team hcur, queueOf_team (a.curTeam.trans hu), hteam]
  simp only [Heat.queue, hqueues]

/-! ### Pushes, pops and lengths -/

theorem exec_of_pushForm {f : Claims.PushForm} (hf : Claims.pushForm i = some f) (s : State) :
    ∃ r w, f.uses = [(r, w)] ∧ exec i s = qpush f.queue f.pred r w s f.value := by
  cases i with
  | qpushB32 q a p =>
    cases hf
    have hval : (fun (h : Heat) l => (h.v a.toNat l).setWidth 64) = fun h l => 0#32 ++ h.v a.toNat l := by
      funext h l
      exact BitVec.setWidth_eq_append (by decide)
    exact ⟨_, _, rfl, congrArg (qpush q.toNat p.toNat a.toNat 1 s) hval⟩
  | qpushB64 q a p =>
    cases hf
    exact ⟨_, _, rfl, rfl⟩
  | _ => cases hf

theorem exec_of_takeForm {f : Claims.TakeForm} (hf : Claims.takeForm i = some f) (s : State) :
    exec i s = qtake f.queue f.pred f.dest f.regs f.la.toNat f.pop s := by
  cases i with
  | qpopB32 | qpopB64 | qpeekB32 | qpeekB64 => cases hf; rfl
  | _ => cases hf

theorem queue_lt_of_takeForm {f : Claims.TakeForm} (hf : Claims.takeForm i = some f) : f.queue < 16 := by
  cases i with
  | qpopB32 q | qpopB64 q | qpeekB32 q | qpeekB64 q => cases hf; exact q.isLt
  | _ => cases hf

theorem mayPush_iff (q : Nat) : mayPush q = true ↔ q ∉ [1, 3, 5, 6, 7] := by
  simp [mayPush]
  omega

theorem mayPop_iff (role q : Nat) :
    mayPop role q = true ↔ q ∈ [1, 3, 5, 6] ∨ (q = 7 ∧ role = 2) ∨ 8 ≤ q := by
  simp [mayPop]
  omega

/-- The values that the taking lanes push (R186). -/
def pushed (h : Heat) (m : Mask) (val : Heat → Nat → W64) : FMap W64 := (lanesOf m).map (fun l => (l, val h l))

section

variable {p r w la : Nat} {val : Heat → Nat → W64} {pop : Bool}

theorem qpush_bad (hr : s.ready h s.cur.lanes [(r, w)] []) (hu : s.curTeam = some u) (hq : q ∈ [1, 3, 5, 6, 7]) :
    qpush q p r w s val = .next (s.raise 5 q) := by
  have hmay : mayPush q = false := by simpa using mt (mayPush_iff q).1 (not_not_intro hq)
  simp [qpush, heatWord_ready hr, teamOnly, hu, hmay]

theorem qpush_idle (hr : s.ready h s.cur.lanes [(r, w)] []) (hu : s.curTeam = some u) (hq : q ∉ [1, 3, 5, 6, 7])
    (hm : h.taking s.cur.active p = 0#32) : qpush q p r w s val = .next (s.finish h) := by
  simp [qpush, heatWord_ready hr, teamOnly, hu, (mayPush_iff q).2 hq, hm]

theorem qpush_team (hr : s.ready h s.cur.lanes [(r, w)] []) (hu : s.curTeam = some u) (hq : 8 ≤ q)
    (hm : h.taking s.cur.active p ≠ 0#32) :
    qpush q p r w s val =
      pushShared s h q (s.entry h (pushed h (h.taking s.cur.active p) val) (h.taking s.cur.active p)) := by
  have hmay : mayPush q = true := (mayPush_iff q).2 (by simp; omega)
  simp [qpush, heatWord_ready hr, teamOnly, hu, hmay, hm, show q ≠ 0 by omega, show q ≠ 4 by omega,
    show q ≠ 2 by omega, pushed]

theorem qtake_bad (hr : s.ready h s.cur.lanes [(r, w)] []) (hu : s.curTeam = some u)
    (hq : ¬ (q ∈ [1, 3, 5, 6] ∨ (q = 7 ∧ h.role = 2) ∨ 8 ≤ q)) :
    qtake q p r w la pop s = .next (s.raise 5 q) := by
  have hmay : mayPop h.role q = false := by simpa using mt (mayPop_iff h.role q).1 hq
  simp [qtake, heatWord_ready hr, teamOnly, hu, hmay]

theorem qtake_idle (hr : s.ready h s.cur.lanes [(r, w)] []) (hu : s.curTeam = some u)
    (hq : q ∈ [1, 3, 5, 6] ∨ (q = 7 ∧ h.role = 2) ∨ 8 ≤ q) (hm : h.taking s.cur.active p = 0#32) :
    qtake q p r w la pop s = .next (s.finish h) := by
  simp [qtake, heatWord_ready hr, teamOnly, hu, (mayPop_iff h.role q).2 hq, hm]

/-- The slot of a pop or peek of an entry (R187). -/
def takeSlot (s : State) (h : Heat) (r w la : Nat) (e : QEntry) (m : Mask) : Slot :=
  { s.newSlot h (.vec r w) la with vals := e.laneVals m w, isLoad := false }

/-- An empty queue holds a pop (R187). -/
theorem qtake_empty (hr : s.ready h s.cur.lanes [(r, w)] []) (hu : s.curTeam = some u)
    (hq : q ∈ [1, 3, 5, 6] ∨ (q = 7 ∧ h.role = 2) ∨ 8 ≤ q) (hm : h.taking s.cur.active p ≠ 0#32)
    (hslot : h.pending.length < Config.slotCount) (hempty : Claims.queueOf s h q = []) :
    qtake q p r w la pop s = s.queueHold h q := by
  have htake : s.takeEntry h q = none := by
    simp only [State.takeEntry, State.entries_eq hu, hempty]
    split <;> rfl
  simp [qtake, heatWord_ready hr, teamOnly, hu, (mayPop_iff h.role q).2 hq, hm, needSlot, Nat.not_le.mpr hslot, htake]

/-- A pop or peek that takes the oldest entry (R187). -/
theorem qtake_entry {e : QEntry} {rest : List QEntry} (hr : s.ready h s.cur.lanes [(r, w)] [])
    (hu : s.curTeam = some u) (hq : q ∈ [1, 3, 5, 6] ∨ (q = 7 ∧ h.role = 2) ∨ 8 ≤ q)
    (hm : h.taking s.cur.active p ≠ 0#32) (hslot : h.pending.length < Config.slotCount)
    (hturn : s.queueTurn h q q = false) (hl : s.logged 8 h.stride.toNat 0 q = none)
    (hhead : Claims.queueOf s h q = e :: rest) :
    qtake q p r w la pop s =
      let s1 := if 8 ≤ q then s.noteReplay 8 h.stride.toNat q (e.heat + 256 * e.stride) else s
      let h1 := { h with slots := h.slots ++ [takeSlot s1 h r w la e (h.taking s.cur.active p)] }
      if !pop then .next (s1.finish h1)
      else if 8 ≤ q then .next ((s1.setShared q rest).finish h1)
      else .next (if q = 6 then (s1.finish (h1.setQueue q rest)).refill s1.curKey else s1.finish (h1.setQueue q rest)) := by
  have htake : s.takeEntry h q = some (e, rest) := by
    simp only [State.takeEntry, State.entries_eq hu, hhead, hl, ite_self]
  simp [qtake, heatWord_ready hr, teamOnly, hu, (mayPop_iff h.role q).2 hq, hm, needSlot, Nat.not_le.mpr hslot, hturn,
    htake, takeSlot]

end

/-- No entry of the relay completion area waits for a team (R241). -/
theorem State.refill_none (hx : s.team? u = some x)
    (ha : ∀ c, s.ctx? x.asid = some c → ∀ y ∈ c.relayArea, y.1 ≠ u) : s.refill u = s := by
  simp only [State.refill, hx]
  cases hc : s.ctx? x.asid with
  | none => rfl
  | some c =>
    have hfind (f : Nat × Nat × QEntry → Bool) : c.relayArea.find? (fun e => e.1 == u && f e) = none :=
      List.find?_eq_none.2 fun y hy => by simp [ha c hc y hy]
    have hrefill (n : Nat) : s.refillQ6 u x.asid n = s := by
      cases n with
      | zero => rfl
      | succ n => simp only [State.refillQ6, hx, hc, Bool.and_assoc, hfind]
    simp only [hrefill, ite_self]

/-- The lane values that a pop delivers (R187). -/
theorem mfind_laneVals (e : QEntry) {m : Mask} {l : Nat} (w : Nat) (hl : inMask m l = true) :
    mfind (e.laneVals m w) l = some (if inMask e.mask l then (mget 0#64 e.vals l).toNat % 2 ^ (32 * w) else 0) :=
  mfind_map_pair (fun l => if inMask e.mask l then (mget 0#64 e.vals l).toNat % 2 ^ (32 * w) else 0) (mem_lanesOf.2 hl)

/-- A word that no lane takes goes on (R166). -/
theorem idle_issued (hs : s.curHeat? = some h) (he : exec i s = .next (s.finish h)) :
    ∃ t h', Issued i s t h' ∧ OnlyIssuer s t ∧ Retired s h h' s.onward ∧ SameRegs h h' := by
  obtain ⟨t, h', hi, ho, hret, hr, hp, hsr, ha⟩ := finishBy_issued hs h _ he
  exact ⟨t, h', hi, ho, hret, sameRegs_of_eq hr hp hsr ha⟩

theorem State.curKey_of_team (hu : s.curTeam = some u) : s.curKey = u := by
  unfold State.curTeam at hu
  unfold State.curKey
  cases hw : s.cur.who <;> simp_all

theorem State.curAsid_of_team (hu : s.curTeam = some u) (hx : s.team? u = some x) : s.curAsid = x.asid := by
  unfold State.curTeam at hu
  unfold State.curAsid
  cases hw : s.cur.who <;> simp_all

/-- The end of an issue brings no entry of the relay completion area. -/
theorem State.refill_finish (hs : s.curHeat? = some h) (hu : s.curTeam = some u) (hx : s.team? u = some x)
    (ha : ∀ c, s.ctx? s.curAsid = some c → ∀ y ∈ c.relayArea, y.1 ≠ u) (h1 : Heat) :
    (s.finish h1).refill u = s.finish h1 := by
  have ho : OnlyIssuer s (s.finish h1) := (State.finishBy_spec hs h1 _).2.1
  obtain ⟨z, hz, hasid⟩ : ∃ z, (s.finish h1).team? u = some z ∧ z.asid = x.asid := by
    have := ho.map_team Team.asid (fun y z e => (congrArg Team.asid e :)) u
    simpa only [hx, Option.map_some, Option.map_eq_some_iff] using this
  have hctx : (s.finish h1).contexts = s.contexts := (congrArg State.contexts ho.1 :)
  refine State.refill_none hz fun c hc => ha c ?_
  rwa [hasid, ← State.curAsid_of_team hu hx, State.ctx?, hctx] at hc

/-- What a pop or peek makes of its queue, and its slot (R187). -/
theorem qtake_change {p r w la : Nat} {pop : Bool} {e : QEntry} {rest : List QEntry}
    (he : exec i s = qtake q p r w la pop s) (hq : q ∈ [1, 3, 5, 6] ∨ (q = 7 ∧ h.role = 2) ∨ 8 ≤ q)
    (hr : s.ready h s.cur.lanes [(r, w)] []) (hu : s.curTeam = some u) (hx : s.team? u = some x)
    (hc : Claims.Unchecked s) (hm : h.taking s.cur.active p ≠ 0#32) (hslot : h.pending.length < Config.slotCount)
    (hturn : s.queueTurn h q q = false) (hl : s.logged 8 h.stride.toNat 0 q = none)
    (hhead : Claims.queueOf s h q = e :: rest)
    (harea : ∀ c, s.ctx? s.curAsid = some c → ∀ y ∈ c.relayArea, y.1 ≠ u) :
    ∃ s1 s2 h2, exec i s = .next (s2.finish h2) ∧ QueueChange s s1 ∧ QueueChange s s2 ∧
      h2 = { h with
        slots := h.slots ++ [takeSlot s1 h r w la e (h.taking s.cur.active p)], queues := h2.queues } ∧
      ∀ n, Claims.queueOf s2 h2 n = if n = q ∧ pop = true then rest else Claims.queueOf s h n := by
  have hrun := he.trans (qtake_entry hr hu hq hm hslot hturn hl hhead)
  by_cases hq8 : 8 ≤ q
  · have h1 := QueueChange.noteReplay (value := e.heat + 256 * e.stride) hu hx hc hl
    have hqueues (n : Nat) := queueOf_noteReplay (h := h) (value := e.heat + 256 * e.stride) hu hx hc hl n
    simp only [hq8, if_true] at hrun
    cases pop with
    | false => exact ⟨_, _, _, hrun, h1, h1, rfl, fun n => (hqueues n).trans (if_neg (by simp)).symm⟩
    | true =>
      refine ⟨_, _, _, hrun, h1, h1.trans (.setShared q rest), rfl, fun n => ?_⟩
      obtain ⟨y, hy⟩ : ∃ y, (s.noteReplay 8 h.stride.toNat q (e.heat + 256 * e.stride)).team? u = some y := by
        rw [noteReplay_unchecked hu hx hc hl, State.team?_modTeam, hx]
        simp
      refine (queueOf_setShared (h1.curTeam.trans hu) hy hq8 rest n).trans ?_
      simp only [and_true]
      exact if_congr Iff.rfl rfl (hqueues n)
  · simp only [hq8, if_false, State.curKey_of_team hu, State.refill_finish hr.1 hu hx harea, ite_self] at hrun
    cases pop with
    | false => exact ⟨s, s, _, hrun, .refl s, .refl s, rfl, fun n => by simp [queueOf_team hu, Heat.queue]⟩
    | true =>
      refine ⟨s, s, _, hrun, .refl s, .refl s, rfl, fun n => ?_⟩
      rw [queueOf_setQueue hu (by omega)]
      simp [queueOf_team hu, Heat.queue]

/-- Settles O23: the rules of pushes, pops and lengths above, with `QueueChange.finish` for what they leave. -/
theorem queueResults : Obligations.QueueResults := by
  unfold Obligations.QueueResults
  refine ⟨?pushStops, ?takeStops, ?push, ?take, ?length⟩
  case pushStops =>
    intro i f s h u x hf hr hu hx m
    obtain ⟨r, w, huses, he⟩ := exec_of_pushForm hf s
    rw [huses] at hr
    refine ⟨fun hq => he.trans (qpush_bad hr hu hq), fun hq hm => idle_issued hr.1 (he.trans (qpush_idle hr hu hq hm)),
      fun hq hm hfull => ?_⟩
    rw [he, qpush_team hr hu hq hm]
    simp [pushShared, State.entries_eq hu, hfull, State.queueHold]
  case takeStops =>
    intro i f s h u x hf hr hu hx may m
    have he := exec_of_takeForm hf s
    refine ⟨fun hq => he.trans (qtake_bad hr hu hq), fun hq hm => idle_issued hr.1 (he.trans (qtake_idle hr hu hq hm)),
      fun hq hm hslot hempty => ?_⟩
    rw [he, qtake_empty hr hu hq hm hslot hempty]
    have hq16 : ¬ 16 ≤ f.queue := Nat.not_le.mpr (queue_lt_of_takeForm hf)
    simp [State.queueHold, hq16]
  case push =>
    intro i f s h u x hf hq hr hu hx hm hroom hturn
    obtain ⟨r, w, huses, he⟩ := exec_of_pushForm hf s
    rw [huses] at hr
    let e := s.entry h (pushed h (h.taking s.cur.active f.pred) f.value) (h.taking s.cur.active f.pred)
    have hrun : exec i s = .next ((s.setShared f.queue (Claims.queueOf s h f.queue ++ [e])).finish h) := by
      rw [he, qpush_team hr hu hq hm]
      simp [pushShared, State.entries_eq hu, Nat.not_le.mpr hroom, hturn, e]
    obtain ⟨h', hi, -, ho, hret, hregs, -, hqueues⟩ := (QueueChange.setShared _ _).finish hu hr.1 h hrun
    refine ⟨_, h', e, hi, ho, hret, hregs, fun n => ?_, rfl, rfl, rfl, fun l hl => ?_⟩
    · rw [hqueues, queueOf_setShared hu hx hq]
      split
      next hn => rw [hn]
      next => rfl
    · exact mget_map_pair _ _ (mem_lanesOf.2 hl)
  case take =>
    intro i f s h u x e rest hf hq hr hu hx hrep hc hm hslot hturn hhead harea
    have hl := State.logged_none hu hx hrep hc
    obtain ⟨s1, s2, h2, hrun, hs1, hs2, hh2, hq2⟩ := qtake_change (exec_of_takeForm hf s) hq hr hu hx hc hm hslot hturn
      (State.logged_none hu hx hrep hc _ _ _ _) hhead harea
    obtain ⟨h', hi, -, ho, hret, ⟨hv, hk, hs, ha⟩, -, hqueues⟩ := hs2.finish hu hr.1 h2 hrun
    have hh' : h'.queues = h2.queues := (congrArg Heat.queues hret.1 :)
    rw [hh2] at hv hk hs ha
    rw [hh2, ← hh'] at hret
    refine ⟨_, h', _, hi, ho, ⟨hv, hk, hs, ha⟩, hret, fun n => (hqueues n).trans (hq2 n), rfl,
      congrArg Cur.active hs1.cur, rfl, rfl, ?_, fun l => mfind_laneVals e f.regs⟩
    simp only [takeSlot, State.newSlot, window, ← BitVec.toNat_inj]
    rfl
  case length =>
    intro q a s h u x hr hu hx hrep hc
    have hl := State.logged_none hu hx hrep hc
    let n := (Claims.queueOf s h q.toNat).length
    have hrun : exec (.qlen q a) s = .next
        ((s.noteReplay 4 h.stride.toNat q.toNat n).finish (h.setS a.toNat (BitVec.ofNat 64 n))) := by
      refine (heatWord_ready hr _).trans ?_
      simp only [teamOnly, hu, hl, State.entries_eq hu, n]
    obtain ⟨h', hi, -, ho, hret, ⟨hv, hk, -, ha⟩, hs, hqueues⟩ :=
      (QueueChange.noteReplay hu hx hc (hl _ _ _ _)).finish hu hr.1 _ hrun
    refine ⟨_, h', hi, ho, hret, fun r => ?_, fun n => ?_, hv, hk, ha⟩
    · rw [hs, Heat.sr_setS]
      simp only [eq_comm, n]
    · rw [hqueues]
      exact queueOf_noteReplay hu hx hc (hl _ _ _ _) n

end

end Sys2Proof.Machine

/-! SUPPORT. Fetch ahead, the end of a page walk and the end of a cycle (R302, R404, R405, R491, R493). -/

namespace Sys2Proof.Machine

section

variable {s s1 s2 t : State} {h : Heat} {u g c k m n : Nat} {x : Team}

/-! ### Fetch ahead (R302) -/

theorem fetchWord_length {die asid : Nat} {code : FMap Byte} {a : Addr} {ws : List W32}
    (hf : s.fetchWord die asid code a = .ok ws) : ws.length = 1 := by
  unfold State.fetchWord at hf
  split at hf
  · cases hf
  · split at hf
    · split at hf
      · cases hf
      · split at hf
        · cases hf
        · cases hf
          rfl
    · cases hf

theorem fetchWords_length {die asid : Nat} {code : FMap Byte} {a : Addr} {ws : List W32}
    (hf : s.fetchWords die asid code a n = .ok ws) : ws.length = n := by
  induction n generalizing a ws with
  | zero =>
    cases hf
    rfl
  | succ n ih =>
    unfold State.fetchWords at hf
    split at hf
    next w hw =>
      split at hf
      next vs hvs =>
        cases hf
        rw [List.length_append, fetchWord_length hw, ih hvs, Nat.add_comm]
      next he =>
        exact (he ws hf).elim
    next he =>
      exact (he ws hf).elim

/-- A clause has at most 16 words (R16). -/
theorem fetchClause_length {die asid : Nat} {code : FMap Byte} {a : Addr} {ws : List W32}
    (hf : s.fetchClause die asid code a = .ok ws) : ws.length ≤ 16 := by
  unfold State.fetchClause at hf
  split at hf
  next w hw =>
    split at hf
    next vs hvs =>
      cases hf
      have : fld (w.headD 0#32).toNat 0 4 < 16 := Nat.mod_lt _ (by decide)
      rw [List.length_append, fetchWord_length hw, fetchWords_length hvs]
      omega
    next he =>
      exact (he ws hf).elim
  next he =>
    exact (he ws hf).elim

theorem fitClauses_sublist (n : Nat) (l : List (Addr × List W32)) : (fitClauses n l).Sublist l := by
  induction l generalizing n with
  | nil => exact .refl _
  | cons e l ih =>
    unfold fitClauses
    split
    · exact (ih _).cons_cons e
    · exact List.nil_sublist _

theorem fitClauses_words (n : Nat) (l : List (Addr × List W32)) :
    ((fitClauses n l).map (fun e => e.2.length)).sum ≤ n := by
  induction l generalizing n with
  | nil => exact Nat.zero_le n
  | cons e l ih =>
    unfold fitClauses
    split
    · have := ih (n - e.2.length)
      simp only [List.map_cons, List.sum_cons]
      omega
    · exact Nat.zero_le n

theorem mem_fitClauses_head {e : Addr × List W32} (he : e.2.length ≤ n) (l : List (Addr × List W32)) :
    e ∈ fitClauses n (e :: l) := by
  simp [fitClauses, he]

theorem bufferClause_new {hdr : Addr} {l : List (Addr × List W32)} (hl : ∀ e ∈ l, e.1 ≠ hdr) (ws : List W32) :
    bufferClause hdr ws l = fitClauses 48 ((hdr, ws) :: l) := by
  have : l.any (fun e => e.1 == hdr) = false := by simpa using fun a b he => hl (a, b) he
  simp only [bufferClause, this, Bool.false_eq_true, if_false]

theorem nextFetch_new {hdr : Addr} {l : List (Addr × List W32)} (hl : ∀ e ∈ l, e.1 ≠ hdr) : nextFetch l hdr = hdr := by
  have : l.find? (fun e => e.1 == hdr) = none := List.find?_eq_none.2 fun e he => by simpa using hl e he
  simp only [nextFetch, this]

/-- The fetch unit brings the clause of a heat of a team into its loop buffers. -/
theorem broadcastFetch_heat {mask : Mask} {ws : List W32} (hg : g ≠ 255) (hu : u < trapBase) (hx : s.team? u = some x)
    (hh : s.heat? u g = some h) (hm : h.choose = some mask)
    (hl : ∀ e ∈ h.loopBuf, e.1 ≠ (h.lane (lowLane mask)).hdr)
    (hf : s.fetchClause (s.coreOfKey u / 64) x.asid (s.codeOf u) (h.lane (lowLane mask)).hdr = .ok ws) :
    exec (.evBroadcastFetch u g) s = .next (s.putTeam u (x.putHeat g { h with
      loopBuf := fitClauses 48 (((h.lane (lowLane mask)).hdr, ws) :: h.loopBuf) })).tick := by
  have hany : h.loopBuf.any (fun e => e.1 == (h.lane (lowLane mask)).hdr) = false := by
    simpa using fun a b he => hl (a, b) he
  have hb : ¬ trapBase ≤ u := Nat.not_le.mpr hu
  change execEvBroadcastFetch u g s = _
  simp only [execEvBroadcastFetch, if_neg hg, hh, hm, nextFetch_new hl, hany, Bool.false_eq_true, if_false, if_neg hb, hx,
    hf, bufferClause_new hl, State.putHeat, State.modTeam]

/-- The fetch unit brings the clause of a sequencer into its loop buffers. -/
theorem broadcastFetch_seq {ws : List W32} (hx : s.team? u = some x)
    (hl : ∀ e ∈ x.body.seq.loopBuf, e.1 ≠ x.body.seq.hdr)
    (hf : s.fetchClause (x.core?.getD 0 / 64) x.asid (s.codeOf u) x.body.seq.hdr = .ok ws) :
    exec (.evBroadcastFetch u 255) s = .next (s.putTeam u { x with body := { x.body with seq := { x.body.seq with
      loopBuf := fitClauses 48 ((x.body.seq.hdr, ws) :: x.body.seq.loopBuf) } } }).tick := by
  have hany : x.body.seq.loopBuf.any (fun e => e.1 == x.body.seq.hdr) = false := by
    simpa using fun a b he => hl (a, b) he
  change execEvBroadcastFetch u 255 s = _
  simp only [execEvBroadcastFetch, if_true, hx, nextFetch_new hl, hany, Bool.false_eq_true, if_false, hf,
    bufferClause_new hl, State.modSeq, State.modTeam]

/-- A heat of a team replaced by another: nothing else changes. -/
theorem onlyHeat_putHeat (hu : u < trapBase) (hx : s.team? u = some x) (g : Nat) (y : Heat) :
    Claims.OnlyHeat s (s.putTeam u (x.putHeat g y)).tick u g ∧ (s.putTeam u (x.putHeat g y)).tick.heat? u g = some y := by
  have hb : ¬ trapBase ≤ u := Nat.not_le.mpr hu
  refine ⟨⟨rfl, rfl, fun v => ?_, fun v j hv => ?_⟩, ?_⟩
  · rw [State.team?_tick, State.team?_putTeam]
    split
    next hv =>
      subst hv
      simp [hx, Team.still_putHeat]
    next => rfl
  · simp only [State.heat?, State.core_tick, State.core_putTeam, State.team?_tick, State.team?_putTeam]
    by_cases hvu : u = v
    · subst hvu
      have hj : g ≠ j := by
        rintro rfl
        simp at hv
      simp [hb, hx, hj]
    · simp [hvu]
  · simp [State.heat?, hb]

/-! ### The end of a page walk (R491, R493) -/

theorem mem_distinct {α : Type} [DecidableEq α] (l : List α) (a : α) : a ∈ distinct l ↔ a ∈ l := by
  induction l with
  | nil => rfl
  | cons b l ih =>
    unfold distinct
    split
    next hb =>
      rw [ih, List.mem_cons]
      exact ⟨.inr, fun h => h.elim (fun e => e ▸ hb) id⟩
    next => rw [List.mem_cons, List.mem_cons, ih]

/-- The state in which a page walk has ended with a valid translation. -/
def State.walked (s : State) (k : OpenWalk) (asid va : Nat) (w : Walk) : State :=
  (({ s with walks := s.walks.map (fun (x : OpenWalk) => if x = k then { x with result := some w } else x) }
    : State).cacheWalk ((128 + k.die) :: distinct (k.users.map (·.1))) asid w).cachePath (s.walkPath k.die asid va).2

theorem pageWalk_page {a base size leaf : Nat} {va : BitVec 72} (hva : va.getLsbD 71 = false)
    (hw : s.walkResult (s.theWalk a va.toNat) va.toNat = .page base size leaf) :
    exec (.evPageWalkComplete a va) s =
      .next (s.walked (s.theWalk a va.toNat) a va.toNat (.page base size leaf)).tick := by
  change execEvPageWalkComplete a va s = _
  simp only [execEvPageWalkComplete, hva, hw, Bool.false_eq_true, if_false, reduceCtorEq, false_and, State.noteWalk]
  rfl

/-- What the TLBs hold after a page walk (R493). -/
theorem mem_tlb_walked (k : OpenWalk) (a va base size leaf : Nat) (z : TlbEntry) :
    z ∈ (s.walked k a va (.page base size leaf)).tlb ↔
      (∃ n ∈ (128 + k.die) :: k.users.map (fun x => x.1),
        z = { home := n, asid := a, base := base, size := size, leaf := BitVec.ofNat 64 leaf }) ∨
      (z ∈ s.tlb ∧ ¬ (z.home ∈ (128 + k.die) :: k.users.map (fun x => x.1) ∧ z.asid = a ∧ z.base < base + size ∧
        base < z.base + z.size)) := by
  have hhome (n : Nat) : n ∈ (128 + k.die) :: distinct (k.users.map (·.1)) ↔ n ∈ (128 + k.die) :: k.users.map (·.1) := by
    rw [List.mem_cons, mem_distinct, List.mem_cons]
  change z ∈ List.map _ ((128 + k.die) :: distinct (k.users.map (·.1))) ++ s.tlb.filter _ ↔ _
  rw [List.mem_append, List.mem_map, List.mem_filter]
  refine or_congr ?_ (and_congr Iff.rfl ?_)
  · exact exists_congr fun n => by rw [hhome, eq_comm]
  · simp only [Bool.not_eq_true', Bool.eq_false_iff, ne_eq, Bool.and_eq_true, List.contains_iff_mem, hhome, beq_iff_eq,
      decide_eq_true_eq, and_assoc]

/-! ### The end of a cycle (R283, R404, R405) -/

theorem causeCounter_lt (order : Nat) : causeCounter order < 16 := by
  unfold causeCounter
  split <;> decide

theorem charge_lt (s : State) (c k : Nat) : (s.charge c k).1 < 16 := by
  unfold State.charge
  dsimp only
  split
  · decide
  split
  · decide
  split
  · exact (by decide : 0 < 16)
  split
  · decide
  · split
    · decide
    · exact causeCounter_lt _

/-- The stall counters after each scheduler of a list has charged one. -/
theorem mget_charged {f : Nat → Nat} (hf : ∀ j, f j < 16) {ls : List Nat} (hnd : ls.Nodup) (hm : m < 16) (y : FMap W64) :
    mget 0#64 (ls.foldl (fun z j => mset 0#64 z (16 * j + f j) (mget 0#64 z (16 * j + f j) + 1#64)) y) (16 * k + m) =
      mget 0#64 y (16 * k + m) + if k ∈ ls ∧ m = f k then 1#64 else 0#64 := by
  induction ls generalizing y with
  | nil => simp
  | cons j ls ih =>
    have := hf j
    obtain ⟨hj, hnd⟩ := List.nodup_cons.1 hnd
    rw [List.foldl_cons, ih hnd, mget_mset]
    by_cases hk : k = j
    · subst hk
      by_cases hmk : m = f k
      · simp [hj, hmk]
      · simp [hj, hmk, Ne.symm hmk]
    · have : ¬ (16 * j + f j = 16 * k + m) := by omega
      simp [this, hk]

/-- Counting events changes the event counts of a core. -/
theorem State.count_cases (s : State) (c src n : Nat) :
    s.count c src n = s ∨ ∃ y, s.count c src n = s.putCore c { s.core c with evCnt := y } := by
  unfold State.count
  dsimp only
  split
  · exact .inl rfl
  · exact .inr ⟨_, rfl⟩

/-- From s to t cores and every other part of the device stand, and no heat of a team changes its registers or its
lanes. -/
structure HeatsStand (s t : State) : Prop where
  device : t.device = s.device
  cores : t.cores = s.cores
  heats : ∀ u g h, u < trapBase → s.heat? u g = some h →
    ∃ h', t.heat? u g = some h' ∧ SameRegs h h' ∧ ∀ l, h'.lane l = h.lane l

theorem HeatsStand.refl (s : State) : HeatsStand s s :=
  ⟨rfl, rfl, fun _ _ h _ hh => ⟨h, hh, sameRegs_of_eq rfl rfl rfl rfl, fun _ => rfl⟩⟩

theorem HeatsStand.trans (a : HeatsStand s s1) (b : HeatsStand s1 s2) : HeatsStand s s2 := by
  refine ⟨b.device.trans a.device, b.cores.trans a.cores, fun u g h hu hh => ?_⟩
  obtain ⟨h1, hh1, ⟨hv, hk, hs, ha⟩, hl1⟩ := a.heats u g h hu hh
  obtain ⟨h2, hh2, ⟨hv', hk', hs', ha'⟩, hl2⟩ := b.heats u g h1 hu hh1
  exact ⟨h2, hh2, ⟨fun r l hl => (hv' r l hl).trans (hv r l hl), fun r l hl => (hk' r l hl).trans (hk r l hl),
    fun r => (hs' r).trans (hs r), fun r => (ha' r).trans (ha r)⟩, fun l => (hl2 l).trans (hl1 l)⟩

/-- A change of a team that takes each heat to one with the same registers and lanes. -/
theorem HeatsStand.modTeam {f : Team → Team} (j : Heat → Heat) (hf : ∀ y g, (f y).heat? g = (y.heat? g).map j)
    (hj : ∀ h, SameRegs h (j h) ∧ ∀ l, (j h).lane l = h.lane l) : HeatsStand s (s.modTeam u f) := by
  refine ⟨State.device_modTeam .., State.cores_modTeam .., fun v g h hv hh => ?_⟩
  simp only [State.heat?, if_neg (Nat.not_le.mpr hv), State.team?_modTeam] at hh ⊢
  cases hx : s.team? v with
  | none => simp [hx] at hh
  | some x =>
    simp only [hx] at hh
    by_cases huv : u = v
    · exact ⟨j h, by simp [huv, hf, hh], hj h⟩
    · exact ⟨h, by simp [huv, hh], sameRegs_of_eq rfl rfl rfl rfl, fun _ => rfl⟩

theorem HeatsStand.markReady : HeatsStand s (s.markReady u) :=
  .modTeam id (fun _ _ => Option.map_id'.symm) (fun _ => ⟨sameRegs_of_eq rfl rfl rfl rfl, fun _ => rfl⟩)

/-- The heats of a team at the end of a cycle. -/
theorem HeatsStand.endCycle (cyc : Nat) : HeatsStand s (s.modTeam u (fun x => { x with body := { x.body with
    heats := x.body.heats.map (fun e => (e.1, e.2.endCycle cyc)) } })) :=
  .modTeam (fun h => h.endCycle cyc) (fun y g => mfind_map (fun h : Heat => h.endCycle cyc) y.body.heats g)
    (fun _ => ⟨sameRegs_of_eq rfl rfl rfl rfl, fun _ => rfl⟩)

theorem HeatsStand.foldl {f : State → Nat → State} (hf : ∀ s j, HeatsStand s (f s j)) (ls : List Nat) :
    HeatsStand s (ls.foldl f s) := by
  induction ls generalizing s with
  | nil => exact .refl s
  | cons j ls ih => exact (hf s j).trans ih

/-- The state at the end of a cycle but for the count of the step (R283, R405). -/
def State.cycled (s : State) (c : Nat) : State :=
  let k := s.core c
  (s.residents c).foldl (fun s t => (s.modTeam t (fun x => { x with body := { x.body with
    heats := x.body.heats.map (fun (e : Nat × Heat) => (e.1, e.2.endCycle k.cycles.toNat)) } })).markReady t) s

theorem heatsStand_cycled (s : State) (c : Nat) : HeatsStand s (s.cycled c) :=
  HeatsStand.foldl (fun s j => (HeatsStand.endCycle (s := s) (u := j) _).trans .markReady) _

/-- The stall counters at the end of a cycle. -/
def State.stallsAfter (s : State) (c : Nat) : FMap W64 :=
  (upto 4).foldl (fun m sched =>
    let n := 16 * sched + (s.charge c sched).1
    mset 0#64 m n (mget 0#64 m n + 1#64)) (s.core c).stalls

theorem mget_stallsAfter (s : State) (c : Nat) (hk : k < 4) (hm : m < 16) :
    mget 0#64 (s.stallsAfter c) (16 * k + m) =
      mget 0#64 (s.core c).stalls (16 * k + m) + if m = (s.charge c k).1 then 1#64 else 0#64 := by
  have hmem : k ∈ upto 4 := List.mem_range.2 hk
  refine (mget_charged (charge_lt s c) (ls := upto 4) (by decide) hm _).trans ?_
  simp only [hmem, true_and]

theorem charge_frozen (hf : (s.core c).frozen ≠ none) : (s.charge c k).1 = 15 := by
  simp [State.charge, Option.isSome_iff_ne_none, hf]

theorem charge_readied (hf : (s.core c).frozen = none) (hs : (s.core c).stuck = false) (hr : k ∈ (s.core c).readied) :
    (s.charge c k).1 = 14 := by
  simp [State.charge, hf, hs, hr]

section

variable (hf : (s.core c).frozen = none) (hs : (s.core c).stuck = false) (hv : s.vfChanging = [])
  (hr : k ∉ (s.core c).readied)

include hf hs hv hr

theorem charge_issued (hi : k ∈ (s.core c).issued) : (s.charge c k).1 = 0 := by
  simp [State.charge, State.changing, hf, hs, hv, hr, hi]

theorem charge_idle (hi : k ∉ (s.core c).issued) (hn : s.schedHeats c k = []) : (s.charge c k).1 = 1 := by
  simp [State.charge, State.changing, hf, hs, hv, hr, hi, hn, leastRecent]

end

/-- A core replaced and an event of it counted. -/
theorem count_putCore (s : State) (c : Nat) (k : Core) (src n : Nat) :
    let t := ((s.putCore c k).count c src n).tick
    t.device = s.device ∧ t.teams = s.teams ∧ Claims.OnlyCore s t c ∧ (t.core c).cycles = k.cycles ∧
      (t.core c).issued = k.issued ∧ (t.core c).frozen = k.frozen ∧ (t.core c).stalls = k.stalls := by
  have hc : (s.putCore c k).core c = k := by rw [State.core_putCore, if_pos rfl]
  rcases (s.putCore c k).count_cases c src n with he | ⟨z, he⟩
  · rw [he]
    refine ⟨rfl, rfl, fun d hd => by rw [State.core_tick, State.core_putCore, if_neg (Ne.symm hd)], ?_⟩
    rw [State.core_tick, hc]
    exact ⟨rfl, rfl, rfl, rfl⟩
  · rw [he, hc]
    refine ⟨rfl, rfl, fun d hd => ?_, ?_⟩
    · rw [State.core_tick, State.core_putCore, if_neg (Ne.symm hd), State.core_putCore, if_neg (Ne.symm hd)]
    · rw [State.core_tick, State.core_putCore, if_pos rfl]
      exact ⟨rfl, rfl, rfl, rfl⟩

/-- The core at the end of a cycle but for its event counts (R283, R405). -/
def State.coreAfter (s : State) (c : Nat) : Core :=
  { (s.cycled c).core c with
    cycles := (s.core c).cycles + 1#64, issued := [], lastHeat := none, readied := [], sampled := []
    stalls := s.stallsAfter c, capture := (s.core c).capture - 1
    trap := ((s.cycled c).core c).trap.endCycle (s.core c).cycles.toNat }

theorem arithmeticCycle_run (hc : c < 128) (s : State) :
    exec (.evArithmeticCycle c) s = .next (((s.cycled c).putCore c (s.coreAfter c)).count c 1 1).tick := by
  change execEvArithmeticCycle c s = _
  rw [execEvArithmeticCycle, if_neg (by omega)]
  rfl

theorem core_cycled (s : State) (c d : Nat) : (s.cycled c).core d = s.core d := by
  rw [State.core, (heatsStand_cycled s c).cores, ← State.core]

theorem coreAfter_spec (s : State) (c : Nat) :
    (s.coreAfter c).cycles = (s.core c).cycles + 1#64 ∧ (s.coreAfter c).issued = [] ∧
      (s.coreAfter c).frozen = (s.core c).frozen ∧ (s.coreAfter c).stalls = s.stallsAfter c := by
  simp only [State.coreAfter, core_cycled, and_self]

/-- What the end of a cycle leaves. -/
theorem arithmeticCycle_core (hc : c < 128) (s : State) :
    ∃ t, exec (.evArithmeticCycle c) s = .next t ∧ t.device = s.device ∧ t.teams = (s.cycled c).teams ∧
      Claims.OnlyCore s t c ∧ (t.core c).cycles = (s.core c).cycles + 1#64 ∧ (t.core c).issued = [] ∧
      (t.core c).frozen = (s.core c).frozen ∧ (t.core c).stalls = s.stallsAfter c := by
  obtain ⟨hdevice, hteams, hother, hcycles, hissued, hfrozen, hstalls⟩ :=
    count_putCore (s.cycled c) c (s.coreAfter c) 1 1
  obtain ⟨hcycles', hissued', hfrozen', hstalls'⟩ := coreAfter_spec s c
  exact ⟨_, arithmeticCycle_run hc s, hdevice.trans (heatsStand_cycled s c).device, hteams,
    fun d hd => (hother d hd).trans (core_cycled s c d), hcycles.trans hcycles', hissued.trans hissued',
    hfrozen.trans hfrozen', hstalls.trans hstalls'⟩

/-- Settles O42, event by event. -/
theorem timeEvents : Obligations.TimeEvents := by
  unfold Obligations.TimeEvents
  refine ⟨?heat, ?seq, ?page, ?invalid, ?cycle, fun _ => rfl⟩
  case heat =>
    intro u g s x h mask ws hg hu hx hh hm hdr hl hf
    have hws := fetchClause_length hf
    obtain ⟨honly, hheat⟩ := onlyHeat_putHeat hu hx g { h with loopBuf := fitClauses 48 ((hdr, ws) :: h.loopBuf) }
    refine ⟨_, _, broadcastFetch_heat hg hu hx hh hm hl hf, honly, hheat, rfl, mem_fitClauses_head (hws.trans (by decide)) _,
      fun e he => ?_, fitClauses_words 48 _⟩
    exact List.mem_cons.1 ((fitClauses_sublist _ _).subset he)
  case seq =>
    intro u s x ws hx hl hf
    have hws := fetchClause_length hf
    refine ⟨_, _, broadcastFetch_seq hx hl hf, rfl, rfl, fun v hv => ?_, if_pos rfl ▸ State.team?_putTeam .., rfl,
      mem_fitClauses_head (n := 48) (hws.trans (by decide)) _⟩
    rw [State.team?_tick, State.team?_putTeam, if_neg (Ne.symm hv)]
  case page =>
    intro a base size leaf va s hva k homes hw
    exact ⟨_, pageWalk_page hva hw, rfl, rfl, fun z => mem_tlb_walked _ _ va.toNat _ _ _ z⟩
  case invalid =>
    intro a va s hva hw
    by_cases hk : (s.theWalk a va.toNat).users.isEmpty = true
    · refine ⟨s, ?_, rfl, fun _ => rfl⟩
      change execEvPageWalkComplete a va s = _
      simp only [execEvPageWalkComplete, hva, hw, hk, Bool.false_eq_true, if_false, and_self, if_true]
    · refine ⟨(s.walked (s.theWalk a va.toNat) a va.toNat .invalid).tick, ?_, rfl, fun _ => rfl⟩
      change execEvPageWalkComplete a va s = _
      simp only [execEvPageWalkComplete, hva, hw, hk, Bool.false_eq_true, if_false, and_false, State.noteWalk, reduceCtorEq]
      rfl
  case cycle =>
    intro c s hc
    obtain ⟨t, hrun, hdevice, hteams, hother, hcycles, hissued, hfrozen, hstalls⟩ := arithmeticCycle_core hc s
    refine ⟨t, fun k => (s.charge c k).1, hrun, hdevice, hother, hcycles, hissued, hfrozen, fun k m hk hm => ?_,
      fun k _ => ⟨charge_lt s c k, charge_frozen, charge_readied, fun hfr hst hvf hrd => ?_⟩, fun u g h hu hh => ?_⟩
    · rw [hstalls]
      exact mget_stallsAfter s c hk hm
    · exact ⟨charge_issued hfr hst hvf hrd, charge_idle hfr hst hvf hrd⟩
    · obtain ⟨h', hh', hregs⟩ := (heatsStand_cycled s c).heats u g h hu hh
      refine ⟨h', ?_, hregs⟩
      simpa only [State.heat?, if_neg (Nat.not_le.mpr hu), State.team?, hteams] using hh'

end

end Sys2Proof.Machine

/-! SUPPORT. The launch of a bin (R62, R313, R400, R401). -/

namespace Sys2Proof.Machine

section

variable {s t r : State} {h : Heat} {u g c i : Nat} {x : Team}

/-! ### The heat of a bin -/

/-- A fold keeps what each step keeps. -/
theorem foldl_proj {α β γ : Type} (p : β → γ) {f : β → α → β} (l : List α) (hf : ∀ y, ∀ a ∈ l, p (f y a) = p y) (y : β) :
    p (l.foldl f y) = p y := by
  induction l generalizing y with
  | nil => rfl
  | cons a l ih =>
    rw [List.foldl_cons, ih (fun y b hb => hf y b (List.mem_cons_of_mem a hb)), hf y a List.mem_cons_self]

/-- The lane that a thread of a bin takes. -/
def BinThread.lane (b : BinThread) (entry : Addr) (stamp : Nat) : Lane :=
  { live := true, hdr := entry, idx := b.idx, loops := b.loops, cvcnt := b.cvcnt, lineage := b.lineage
    member := b.member, clauseStamp := stamp, since := stamp }

/-- A thread that takes its lane changes nothing of the heat but that lane and its registers. -/
theorem Heat.seat_keeps {β : Type} (p : Heat → β) {l : Nat} (hl : ∀ y x, p (Heat.setLane y l x) = p y)
    (hv : ∀ y n x, p (Heat.setV y n l x) = p y) (hk : ∀ y n x, p (Heat.setK y n l x) = p y) (h : Heat) (b : BinThread)
    (entry : Addr) (stamp : Nat) : p (h.seat l b entry stamp) = p h := by
  unfold Heat.seat
  rw [foldl_proj p _ fun y e _ => hk y _ _, foldl_proj p _ fun y e _ => hv y _ _, foldl_proj p _ fun y e _ => hv y _ _, hl]

theorem Heat.setK_keeps {β : Type} (p : Heat → β) (hp : ∀ (y : Heat) z, p { y with preds := z } = p y) (h : Heat)
    (n l : Nat) (x : Bool) : p (h.setK n l x) = p h := by
  unfold Heat.setK
  split
  · rfl
  · exact hp h _

theorem Heat.lane_seat (h : Heat) (l : Nat) (b : BinThread) (entry : Addr) (stamp j : Nat) :
    (h.seat l b entry stamp).lane j = if l = j then b.lane entry stamp else h.lane j := by
  have hk (y : Heat) (n : Nat) (x : Bool) : (y.setK n l x).lane = y.lane := Heat.setK_keeps Heat.lane (fun _ _ => rfl) y n l x
  have hv (y : Heat) (n : Nat) (x : W32) : (y.setV n l x).lane = y.lane := rfl
  unfold Heat.seat
  rw [foldl_proj Heat.lane _ fun y e _ => hk y _ _, foldl_proj Heat.lane _ fun y e _ => hv y _ _,
    foldl_proj Heat.lane _ fun y e _ => hv y _ _, Heat.lane_setLane]
  rfl

/-- The registers of another lane. -/
theorem Heat.v_seat_ne (h : Heat) {l j : Nat} (hl : l < 32) (hj : j < 32) (hne : l ≠ j) (b : BinThread) (entry : Addr)
    (stamp n : Nat) : (h.seat l b entry stamp).v n j = h.v n j := by
  refine Heat.seat_keeps (fun y => y.v n j) (fun y x => rfl) (fun y m x => ?_) (fun y m x => ?_) h b entry stamp
  · rw [Heat.v_setV, if_neg (by omega)]
  · exact Heat.setK_keeps (fun y => y.v n j) (fun _ _ => rfl) y m l x

/-- Registers written from a list of words. -/
theorem Heat.v_setV_words (h : Heat) (l : Nat) (ws : List W32) (m n : Nat) (hn : n < m) :
    ((upto m).foldl (fun y j => y.setV j l (ws.getD j 0#32)) h).v n l = ws.getD n 0#32 := by
  induction m with
  | zero => omega
  | succ m ih =>
    rw [upto, List.range_succ, List.foldl_append, List.foldl_cons, List.foldl_nil, Heat.v_setV]
    by_cases hm : n = m
    · rw [if_pos (by omega), hm]
    · rw [if_neg (by omega)]
      exact ih (by omega)

/-- The argument words of a thread without saved registers (R416). -/
theorem Heat.v_seat_args (h : Heat) (l : Nat) {b : BinThread} (hb : b.rows = []) (entry : Addr) (stamp : Nat) {n : Nat}
    (hn : n < b.args.length) : (h.seat l b entry stamp).v n l = b.args.getD n 0#32 := by
  have hk (y : Heat) (m : Nat) (x : Bool) : (y.setK m l x).v n l = y.v n l :=
    Heat.setK_keeps (fun y => y.v n l) (fun _ _ => rfl) y m l x
  unfold Heat.seat
  rw [foldl_proj (fun y : Heat => y.v n l) _ fun y e _ => hk y _ _, hb, List.foldl_nil]
  exact Heat.v_setV_words _ l b.args _ n hn

/-- The first n threads of a list have taken their lanes. -/
def seated (h : Heat) (ts : List BinThread) (entry : Addr) (stamp n : Nat) : Heat :=
  (upto n).foldl (fun y l => y.seat l (ts.getD l {}) entry stamp) h

theorem seated_succ (h : Heat) (ts : List BinThread) (entry : Addr) (stamp n : Nat) :
    seated h ts entry stamp (n + 1) = (seated h ts entry stamp n).seat n (ts.getD n {}) entry stamp := by
  simp only [seated, upto, List.range_succ, List.foldl_append, List.foldl_cons, List.foldl_nil]

theorem seated_keeps {β : Type} (p : Heat → β) (hl : ∀ y l x, p (Heat.setLane y l x) = p y)
    (hv : ∀ y n l x, p (Heat.setV y n l x) = p y) (hk : ∀ (y : Heat) z, p { y with preds := z } = p y) (h : Heat)
    (ts : List BinThread) (entry : Addr) (stamp n : Nat) : p (seated h ts entry stamp n) = p h :=
  foldl_proj p _ (fun y l _ => Heat.seat_keeps p (fun y => hl y l) (fun y n => hv y n l)
    (fun y n => Heat.setK_keeps p hk y n l) y _ entry stamp) h

theorem lane_seated (h : Heat) (ts : List BinThread) (entry : Addr) (stamp n l : Nat) :
    (seated h ts entry stamp n).lane l = if l < n then (ts.getD l {}).lane entry stamp else h.lane l := by
  induction n with
  | zero => rfl
  | succ n ih =>
    rw [seated_succ, Heat.lane_seat, ih]
    by_cases hn : n = l
    · simp [hn]
    · rw [if_neg hn]
      exact if_congr (by omega) rfl rfl

theorem v_seated (h : Heat) {ts : List BinThread} (entry : Addr) (stamp : Nat) {n l j : Nat} (hn : n ≤ 32) (hl : l < n)
    (hb : (ts.getD l {}).rows = []) (hj : j < (ts.getD l {}).args.length) :
    (seated h ts entry stamp n).v j l = (ts.getD l {}).args.getD j 0#32 := by
  induction n with
  | zero => omega
  | succ n ih =>
    rw [seated_succ]
    by_cases hnl : n = l
    · subst hnl
      exact Heat.v_seat_args _ n hb entry stamp hj
    · rw [Heat.v_seat_ne _ (by omega) (by omega) hnl]
      exact ih (by omega) (by omega)

/-- The heat of a bin (R62, R401). -/
theorem binHeat_eq (args : List W64) (slot : Nat) (entry : Addr) (ts : List BinThread) (stamp : Nat) :
    binHeat args slot entry ts stamp =
      seated { role := (ts.headD {}).role, budget := (ts.headD {}).budget, slot := slot
               s := (upto 8).foldl (fun m i => mset 0#64 m i (args.getD i 0#64)) [] } ts entry stamp ts.length := rfl

/-- Scalars written from the argument words. -/
theorem mget_scalars (args : List W64) (m n : Nat) :
    mget 0#64 ((upto m).foldl (fun z i => mset 0#64 z i (args.getD i 0#64)) []) n =
      if n < m then args.getD n 0#64 else 0#64 := by
  induction m with
  | zero => rfl
  | succ m ih =>
    rw [upto, List.range_succ, List.foldl_append, List.foldl_cons, List.foldl_nil, mget_mset]
    by_cases hm : m = n
    · simp [hm]
    · rw [if_neg hm]
      exact ih.trans (if_congr (by omega) rfl rfl)

/-! ### What the spill area does (R313, R400) -/

/-- From s to t at most contexts, cores and the count of the steps change. -/
def OnlyBins (s t : State) : Prop := t = { s with stamp := t.stamp, contexts := t.contexts, cores := t.cores }

theorem OnlyBins.refl (s : State) : OnlyBins s s := rfl

theorem OnlyBins.trans (a : OnlyBins s t) (b : OnlyBins t r) : OnlyBins s r := by
  unfold OnlyBins at *
  rw [b, a]

theorem OnlyBins.putCore {k : Core} (a : OnlyBins s t) : OnlyBins s (t.putCore c k) := a.trans rfl

theorem OnlyBins.tick (a : OnlyBins s t) : OnlyBins s t.tick := a.trans rfl

theorem OnlyBins.modCtx {f : Context → Context} {asid : Nat} (a : OnlyBins s t) : OnlyBins s (t.modCtx asid f) := by
  refine a.trans ?_
  unfold State.modCtx
  split <;> rfl

theorem OnlyBins.enterBin {b : BinThread} (a : OnlyBins s t) : OnlyBins s (t.enterBin c i b) := a.putCore

theorem OnlyBins.teams (a : OnlyBins s t) : t.teams = s.teams := by rw [a]

theorem OnlyBins.mem (a : OnlyBins s t) : t.mem = s.mem := by rw [a]

theorem OnlyBins.tryClone {grid : Nat} {det : Bool} {b : BinThread} {l : List Nat}
    (e : s.tryClone grid det b l = some t) : OnlyBins s t := by
  induction l with
  | nil => cases e
  | cons p l ih =>
    unfold State.tryClone at e
    split at e
    · exact ih e
    · split at e
      · exact ih e
      · cases e
        exact (OnlyBins.refl s).enterBin

theorem OnlyBins.placeClone {b : BinThread} (e : s.placeClone b = some t) : OnlyBins s t := by
  unfold State.placeClone at e
  split at e
  · cases e
  · exact .tryClone e

theorem OnlyBins.unspill {b : BinThread} (e : s.unspill c b = some t) : OnlyBins s t := by
  unfold State.unspill at e
  split at e
  · cases e
  · split at e
    · cases e
    · split at e
      · exact .placeClone e
      · obtain ⟨i, -, rfl⟩ := Option.map_eq_some_iff.1 e
        exact (OnlyBins.refl s).enterBin

/-- A fold over spilled threads. -/
theorem OnlyBins.unspills (l : List BinThread) (p : State × List BinThread) :
    OnlyBins p.1 (l.foldl (fun (acc : State × List BinThread) b => match acc.1.unspill c b with
      | some s' => (s', acc.2)
      | none => (acc.1, acc.2 ++ [b])) p).1 := by
  induction l generalizing p with
  | nil => exact .refl _
  | cons b l ih =>
    refine OnlyBins.trans ?_ (ih _)
    dsimp only
    split
    next e => exact .unspill e
    next => exact .refl _

theorem OnlyBins.takeSpill (s : State) (c : Nat) : OnlyBins s (s.takeSpill c) := by
  unfold State.takeSpill
  generalize s.contexts = l
  induction l generalizing s with
  | nil => exact .refl s
  | cons e l ih => exact ((OnlyBins.unspills (c := c) e.2.spill (s, [])).modCtx).trans (ih _)

/-! ### The launch -/

/-- A launch puts the heat of the bin and changes bins and spill areas. -/
theorem launchBin_fits {slot : Nat} {entry : Addr} (hf : Claims.BinFits s c i u g slot entry) :
    ∃ x, s.team? u = some x ∧ OnlyBins (s.putTeam u (x.putHeat g
      ((binHeat (s.teamArgs x) slot entry ((s.core c).bin i).threads s.stamp).succeed (x.heat? g) s.stamp)))
      (s.launchBin c i) := by
  obtain ⟨hu, hkey, -, ⟨x, hx, hc, hfree⟩, hslot, hrows⟩ := hf
  have hroom : ¬ (s.core c).bankBytes <
      rowBytesOf (s.coreHeats c) + 128 * (((s.core c).bin i).threads.headD {}).budget := Nat.not_lt.mpr hrows
  refine ⟨x, hx, ?_⟩
  unfold State.launchBin
  simp only [hkey, hx, hfree, hslot, hc, hroom, ne_eq, not_true, or_self, if_false]
  exact ((OnlyBins.refl _).modCtx.putCore.trans (.takeSpill _ _)).tick

/-- What a launch comes to (R62, R401). -/
theorem binLaunched_of_fits {slot : Nat} {entry : Addr} (hf : Claims.BinFits s c i u g slot entry) :
    Claims.SameMem s (s.launchBin c i) ∧ Claims.BinLaunched s (s.launchBin c i) c i u g slot entry := by
  obtain ⟨x, hx, ht⟩ := launchBin_fits hf
  obtain ⟨hu, -, hlen, -⟩ := hf
  have hmem : (s.launchBin c i).mem = s.mem := ht.mem
  refine ⟨fun a => congrArg (readByte · a) hmem, x,
    (binHeat (s.teamArgs x) slot entry ((s.core c).bin i).threads s.stamp).succeed (x.heat? g) s.stamp,
    hx, ?heat, ?slot, ?role, ?budget, ?scalars, ?dead, ?live⟩
  case heat =>
    simp only [State.heat?, if_neg (Nat.not_le.mpr hu), State.team?, ht.teams]
    simp [State.putTeam]
  case slot => exact seated_keeps Heat.slot (fun _ _ _ => rfl) (fun _ _ _ _ => rfl) (fun _ _ => rfl) ..
  case role => exact seated_keeps Heat.role (fun _ _ _ => rfl) (fun _ _ _ _ => rfl) (fun _ _ => rfl) ..
  case budget => exact seated_keeps Heat.budget (fun _ _ _ => rfl) (fun _ _ _ _ => rfl) (fun _ _ => rfl) ..
  case scalars =>
    intro n
    refine Eq.trans ?_ (mget_scalars (s.teamArgs x) 8 n)
    exact congrArg (mget 0#64 · n)
      (seated_keeps Heat.s (fun _ _ _ => rfl) (fun _ _ _ _ => rfl) (fun _ _ => rfl) ..)
  case dead =>
    intro l hl
    refine congrArg Lane.live ((lane_seated ..).trans (if_neg (Nat.not_lt.mpr hl)))
  case live =>
    intro l b hb
    obtain ⟨hl, rfl⟩ := List.getElem?_eq_some_iff.1 hb
    have hget : ((s.core c).bin i).threads.getD l {} = ((s.core c).bin i).threads[l] := List.getD_eq_getElem _ _ hl
    have hlane : (binHeat (s.teamArgs x) slot entry ((s.core c).bin i).threads s.stamp).lane l =
        (((s.core c).bin i).threads[l]).lane entry s.stamp := by
      rw [binHeat_eq, lane_seated, if_pos hl, hget]
    refine ⟨congrArg Lane.live hlane, congrArg Lane.hdr hlane, congrArg Lane.idx hlane, congrArg Lane.lineage hlane,
      congrArg Lane.cvcnt hlane, congrArg Lane.park hlane, fun hrows j hj => ?_⟩
    rw [← hget] at hrows hj ⊢
    exact v_seated _ entry s.stamp hlen hl hrows hj

/-- A bin that is full, or whose timer has expired, launches (R400). -/
theorem bin_launches {slot : Nat} {entry : Addr} (hf : Claims.BinFits s c i u g slot entry) :
    (((s.core c).bin i).threads.length = 32 → ∃ t, exec (.evBinHeatLaunch c i) s = .next t ∧ Claims.SameMem s t ∧
      Claims.BinLaunched s t c i u g slot entry) ∧
    (((s.core c).bin i).expires ≤ (s.core c).cycles.toNat → s.binDet ((s.core c).bin i) = false →
      ∃ t, exec (.evBinTimerExpiry c i) s = .next t ∧ Claims.SameMem s t ∧
        Claims.BinLaunched s t c i u g slot entry) := by
  obtain ⟨hmem, hlaunch⟩ := binLaunched_of_fits hf
  refine ⟨fun hfull => ⟨_, ?_, hmem, hlaunch⟩, fun hexp hdet => ⟨_, ?_, hmem, hlaunch⟩⟩
  · exact if_pos (.inl hfull)
  · refine if_pos ⟨?_, hexp, ?_⟩
    · rw [hf.2.1]
      rfl
    · rw [hdet]
      rfl

end

end Sys2Proof.Machine

/-! SUPPORT. The starter takes a launch record, frees a grid, and orders the grids (R231, R234–R236, R391–R394). -/

namespace Sys2Proof.Machine

section

variable {s t : State} {h : Heat} {u g q gid : Nat} {x : Team}

/-! ### A launch record (R231) -/

theorem TeamBody.mfind_modHeat {b : TeamBody} (hh : mfind b.heats g = some h) (f : Heat → Heat) :
    mfind (b.modHeat g f).heats g = some (f h) := by
  simp [TeamBody.modHeat, hh]

/-- The slot after a lane's value has come. -/
def Slot.take (z : Slot) (stamp lane v : Nat) : Slot :=
  if z.stamp = stamp ∧ z.waiting ≠ 0 then { z with vals := mput z.vals lane v, waiting := z.waiting - 1 } else z

/-- A value that comes changes the slots of one heat. -/
theorem deliver_eq (hu : u < trapBase) (hx : s.team? u = some x) (hh : x.heat? g = some h) (stamp lane v : Nat) :
    ∃ y, s.deliver u g stamp lane v = s.putTeam u y ∧ y.launches = x.launches ∧
      y.heat? g = some { h with slots := h.slots.map (fun z => z.take stamp lane v) } := by
  let f (h : Heat) : Heat := { h with slots := h.slots.map (fun z => z.take stamp lane v) }
  refine ⟨x.both (fun b => b.modHeat g f), ?_, rfl, TeamBody.mfind_modHeat hh f⟩
  have hrun : s.deliver u g stamp lane v = s.modTeam u (fun x => x.both (fun b => b.modHeat g f)) :=
    if_neg (Nat.not_le.mpr hu)
  rw [hrun, State.modTeam_of_team? hx]

/-- The launching word's heat after its GRIDID, or the code of a refusal, has come. -/
theorem deliver_launch {z : Slot} (hu : u < trapBase) (hx : s.team? u = some x) (hh : x.heat? g = some h)
    (hz : h.slots = [z]) (hw : z.waiting ≠ 0) (lane v : Nat) :
    ∃ (y : Team) (h' : Heat) (z' : Slot), s.deliver u g z.stamp lane v = s.putTeam u y ∧ y.launches = x.launches ∧
      (s.deliver u g z.stamp lane v).tick.team? u = some y ∧
      (s.deliver u g z.stamp lane v).tick.heat? u g = some h' ∧ h'.slots = [z'] ∧
      z'.waiting = z.waiting - 1 ∧ SameRegs h h' ∧ mget 0 z'.vals lane = v := by
  obtain ⟨y, he, hl, hy⟩ := deliver_eq hu hx hh z.stamp lane v
  have hz' : z.take z.stamp lane v = { z with vals := mput z.vals lane v, waiting := z.waiting - 1 } := if_pos ⟨rfl, hw⟩
  refine ⟨y, { h with slots := h.slots.map (fun w => w.take z.stamp lane v) }, z.take z.stamp lane v, he, hl, ?_, ?_,
    congrArg (List.map _) hz, by rw [hz'],
    sameRegs_of_eq rfl rfl rfl rfl, by simp [hz']⟩
  · rw [he]
    simp
  · simp [State.heat?, Nat.not_le.mpr hu, he, hy]

/-- A launch record with an error in it (R231). -/
theorem launchRecord_bad {p : PendLaunch} {l : List PendLaunch} (hx : s.team? u = some x) (hl : x.launches = p :: l)
    (hr : (parseRecord p.record).code ≠ 0) :
    exec (.evLaunchRecordTake u) s =
      .next ((s.modTeam u (fun y => { y with launches := l })).deliver u p.heat p.slot p.lane 0xFFFFFFFF).tick := by
  change execEvLaunchRecordTake u s = _
  simp only [execEvLaunchRecordTake, hx, hl, if_pos hr]

/-- A launch record that makes a grid (R231, R391). -/
theorem launchRecord_good {p : PendLaunch} {l : List PendLaunch} (hx : s.team? u = some x) (hl : x.launches = p :: l)
    (hr : (parseRecord p.record).code = 0) (hq : s.queueFull (parseRecord p.record).queue = false) :
    exec (.evLaunchRecordTake u) s =
      let s1 := (s.modTeam u (fun y => { y with launches := l })).createGrid (parseRecord p.record) x.asid none 0 0
      .next (s1.deliver u p.heat p.slot p.lane s.nextGrid.toNat).tick := by
  have hgrid : ((s.modTeam u (fun y => { y with launches := l })).createGrid
      (parseRecord p.record) x.asid none 0 0).lastGrid = s.nextGrid := by
    rw [State.modTeam_eq]
    rfl
  change execEvLaunchRecordTake u s = _
  simp only [execEvLaunchRecordTake, hx, hl, if_neg (not_not_intro hr), hq, Bool.false_eq_true, if_false, hgrid]

theorem launchRecord_taken {z : Slot} {p : PendLaunch} {l : List PendLaunch} (hu : u < trapBase)
    (hx : s.team? u = some x) (hl : x.launches = p :: l) (hh : s.heat? u p.heat = some h) (hz : h.slots = [z])
    (hp : z.stamp = p.slot) (hw : z.waiting ≠ 0) :
    let r := parseRecord p.record
    (r.code ≠ 0 ∨ s.queueFull r.queue = false) →
    ∃ t y h' z', exec (.evLaunchRecordTake u) s = .next t ∧ Claims.SameMem s t ∧ t.team? u = some y ∧ y.launches = l ∧
      t.heat? u p.heat = some h' ∧ h'.slots = [z'] ∧ z'.waiting = z.waiting - 1 ∧ SameRegs h h' ∧
      (r.code ≠ 0 → mget 0 z'.vals p.lane = 0xFFFFFFFF ∧ t.grids = s.grids ∧ t.gridQueues = s.gridQueues) ∧
      (r.code = 0 → mget 0 z'.vals p.lane = s.nextGrid.toNat ∧ t.lastGrid = s.nextGrid ∧
        mget [] t.gridQueues r.queue = mget [] s.gridQueues r.queue ++ [s.nextGrid.toNat] ∧
        ∃ g, mfind t.grids s.nextGrid.toNat = some g ∧ g.record = r ∧ g.asid = x.asid ∧ g.tag = none) := by
  intro r hok
  have hheat : x.heat? p.heat = some h := by
    simpa only [State.heat?, if_neg (Nat.not_le.mpr hu), hx] using hh
  have hone : s.modTeam u (fun y => { y with launches := l }) = s.putTeam u { x with launches := l } :=
    State.modTeam_of_team? hx
  by_cases hr : r.code = 0
  · have hq := hok.resolve_left (not_not_intro hr)
    let s1 := (s.putTeam u { x with launches := l }).createGrid r x.asid none 0 0
    have hx1 : s1.team? u = some { x with launches := l } := (State.team?_putTeam ..).trans (if_pos rfl)
    obtain ⟨y, h', z', he, hl', hy, hh', hz', hw', hregs, hval⟩ :=
      deliver_launch hu hx1 hheat hz hw p.lane s.nextGrid.toNat
    have hrun := launchRecord_good hx hl hr hq
    rw [hone, ← hp] at hrun
    refine ⟨_, y, h', z', hrun, fun _ => ?_, hy, hl', hh', hz', hw', hregs, fun hne => absurd hr hne,
      fun _ => ⟨hval, ?_, ?_, ?_⟩⟩
    all_goals
      rw [he]
    · rfl
    · rfl
    · exact (mget_mset ..).trans (if_pos rfl)
    · exact ⟨_, (mfind_mput ..).trans (if_pos rfl), rfl, rfl, rfl⟩
  · have hx1 : (s.putTeam u { x with launches := l }).team? u = some { x with launches := l } :=
      (State.team?_putTeam ..).trans (if_pos rfl)
    obtain ⟨y, h', z', he, hl', hy, hh', hz', hw', hregs, hval⟩ :=
      deliver_launch hu hx1 hheat hz hw p.lane 0xFFFFFFFF
    have hrun := launchRecord_bad hx hl hr
    rw [hone, ← hp] at hrun
    refine ⟨_, y, h', z', hrun, fun _ => ?_, hy, hl', hh', hz', hw', hregs, fun _ => ⟨hval, ?_, ?_⟩,
      fun h0 => absurd h0 hr⟩
    all_goals
      rw [he]
      rfl

/-! ### Grids at the heads of the queues (R394, R396) -/

/-- A grid whose wait address can be read stays. -/
theorem dropUnreadable_of_readable (hs : Claims.HeadsReadable s) : s.dropUnreadable = s := by
  unfold State.dropUnreadable
  have hall : ∀ k ∈ s.heads, ∀ g, mfind s.grids k = some g →
      g.waitAddr = 0 ∨ g.met = true ∨ g.nextTeam ≠ 0 ∨ s.waitReadable g.asid g.waitAddr = true := hs
  generalize s.heads = l at hall
  induction l with
  | nil => rfl
  | cons k l ih =>
    rw [List.foldl_cons]
    have hk := hall k List.mem_cons_self
    cases hg : mfind s.grids k with
    | none => exact ih fun j hj => hall j (List.mem_cons_of_mem k hj)
    | some g =>
      simp only [if_pos (hk g hg)]
      exact ih fun j hj => hall j (List.mem_cons_of_mem k hj)

theorem gridMet_iff (s : State) (g : Grid) : s.gridMet g = true ↔ Claims.CounterReached s g := by
  unfold State.gridMet Claims.CounterReached
  cases s.translate g.asid g.waitAddr with
  | page base size leaf => simp
  | invalid => simp
  | poisoned => simp

theorem gridDependence_freed {g : Grid} (hs : Claims.HeadsReadable s) (hq : (mget [] s.gridQueues q).head? = some gid)
    (hg : mfind s.grids gid = some g) (hw : g.waitAddr ≠ 0) (hm : g.met = true ∨ Claims.CounterReached s g) :
    exec (.evGridDependenceSatisfied q) s =
      .next { s with grids := mput s.grids gid { g with waitAddr := 0 }, stamp := s.stamp + 1 } := by
  have hmet : g.waitAddr ≠ 0 ∧ (g.met || s.gridMet g) = true := ⟨hw, by rw [Bool.or_eq_true, gridMet_iff]; exact hm⟩
  change execEvGridDependenceSatisfied q s = _
  simp only [execEvGridDependenceSatisfied, dropUnreadable_of_readable hs, hq, hg, if_pos hmet, State.modGrid]
  rfl

/-! ### The order of dispatch (R396) -/

/-- Blocks of descending priority, one after the other. -/
theorem pairwise_blocks (f : Nat → List (Nat × Nat)) (hf : ∀ i, ∀ z ∈ f i, z.1 / 8 = 7 - i) (n : Nat) (hn : n ≤ 8) :
    ((upto n).foldl (fun acc i => acc ++ f i) []).Pairwise (fun a b => b.1 / 8 ≤ a.1 / 8) ∧
      ∀ z ∈ (upto n).foldl (fun acc i => acc ++ f i) [], 8 ≤ z.1 / 8 + n := by
  induction n with
  | zero => exact ⟨.nil, fun z hz => nomatch hz⟩
  | succ n ih =>
    obtain ⟨hp, hall⟩ := ih (by omega)
    rw [upto, List.range_succ, List.foldl_append, List.foldl_cons, List.foldl_nil, ← upto]
    refine ⟨List.pairwise_append.2 ⟨hp, ?_, fun a ha b hb => ?_⟩, fun z hz => ?_⟩
    · exact List.pairwise_iff_getElem.2 fun i j hi hj _ =>
        (hf n _ (List.getElem_mem hj)).trans (hf n _ (List.getElem_mem hi)).symm |>.le
    · have := hall a ha
      have := hf n b hb
      omega
    · rcases List.mem_append.1 hz with hz | hz
      · have := hall z hz
        omega
      · have := hf n z hz
        omega

/-- The queue of the first grid in the order has no lower priority than any other. -/
theorem dispatchOrder_head {e : Nat × Nat} {l : List (Nat × Nat)} (ho : s.dispatchOrder = e :: l) :
    ∀ z ∈ l, z.1 / 8 ≤ e.1 / 8 := by
  unfold State.dispatchOrder at ho
  dsimp only at ho
  generalize s.gridQueues.filterMap _ = ready at ho
  let f (i : Nat) : List (Nat × Nat) :=
    (ready.filter (fun e => e.1 / 8 == 7 - i)).filter (fun e => decide (s.lastQueue < e.1)) ++
      (ready.filter (fun e => e.1 / 8 == 7 - i)).filter (fun e => decide (e.1 ≤ s.lastQueue))
  have hf (i : Nat) : ∀ z ∈ f i, z.1 / 8 = 7 - i := by
    intro z hz
    simp only [f, List.mem_append, List.mem_filter, beq_iff_eq] at hz
    rcases hz with ⟨⟨-, hz⟩, -⟩ | ⟨⟨-, hz⟩, -⟩ <;> exact hz
  have hp := (pairwise_blocks f hf 8 (le_refl 8)).1
  simp only [f, ← List.append_assoc] at hp
  rw [ho] at hp
  exact (List.pairwise_cons.1 hp).1

end

end Sys2Proof.Machine

/-! SUPPORT. The placement and the start of a unit (R62, R313, R394–R398, R412). -/

namespace Sys2Proof.Machine

section

variable {s t r : State} {h : Heat} {u g q gid c n : Nat} {x : Team}

/-- From s to t at most teams and cores change. -/
def OnlyUnits (s t : State) : Prop := t = { s with teams := t.teams, cores := t.cores }

theorem OnlyUnits.refl (s : State) : OnlyUnits s s := rfl

theorem OnlyUnits.trans (a : OnlyUnits s t) (b : OnlyUnits t r) : OnlyUnits s r := by
  unfold OnlyUnits at *
  rw [b, a]

theorem OnlyUnits.putTeam (s : State) (u : Nat) (x : Team) : OnlyUnits s (s.putTeam u x) := rfl

theorem OnlyUnits.putCore (s : State) (c : Nat) (k : Core) : OnlyUnits s (s.putCore c k) := rfl

theorem OnlyUnits.modTeam (s : State) (u : Nat) (f : Team → Team) : OnlyUnits s (s.modTeam u f) := by
  unfold State.modTeam
  split <;> rfl

/-! ### A fresh team -/

/-- A lane that has not issued on its core. -/
def Lane.anew (l : Lane) : Lane := { l with lastCycle := none }

/-- A heat that is installed on a core: its state there starts anew. -/
def Fit.put (f : Fit) (g : Nat) (h : Heat) : Heat :=
  { h with
    slot := mget h.slot f.slots g, refKey := 31, turn := none, loopBuf := [], waves := 0
    lanes := h.lanes.map (fun (l : Nat × Lane) => (l.1, l.2.anew)) }

theorem mfind_map_key {α β : Type} (f : Nat → α → β) (m : FMap α) (k : Nat) :
    mfind (m.map (fun e => (e.1, f e.1 e.2))) k = (mfind m k).map (f k) := by
  induction m with
  | nil => rfl
  | cons e m ih =>
    simp only [List.map_cons, mfind]
    split
    next h =>
      subst h
      rfl
    next => exact ih

theorem Team.heat?_install (x : Team) (f : Fit) (g : Nat) : (x.install f).heat? g = (x.heat? g).map (f.put g) :=
  mfind_map_key f.put x.body.heats g

theorem Fit.lane_put (f : Fit) (g : Nat) (h : Heat) (l : Nat) :
    (f.put g h).lane l = (h.lane l).anew :=
  mget_map Lane.anew h.lanes {} l

theorem Record.lane_freshHeat (rec : Record) (teamId k role stamp : Nat) {l : Nat} (hl : l < 32) :
    (rec.freshHeat teamId k role stamp).lane l =
      { live := true, hdr := rec.roleEntry role, lineage := rec.lineage teamId k l, member := rec.pop
        clauseStamp := stamp } :=
  mget_map_pair _ _ (List.mem_range.2 hl : l ∈ upto 32)

/-- A heat of a team at its start on a core (R62, R412). -/
theorem freshHeat_put (rec : Record) (teamId k role stamp : Nat) (f : Fit) :
    Claims.FreshHeat rec role (f.put k (rec.freshHeat teamId k role stamp)) := by
  refine ⟨rfl, rfl, rfl, fun l hl => ?_, fun i => mget_scalars rec.args 8 i, fun _ _ => rfl, fun _ => rfl,
    fun n l hn => if_neg hn, rfl⟩
  rw [Fit.lane_put, Record.lane_freshHeat rec teamId k role stamp hl]
  exact ⟨rfl, rfl, rfl, rfl, rfl⟩

theorem freshTeam_heat? (gid : Nat) (g : Grid) (teamId rank : Nat) (cluster : List Nat) (stamp : Nat) (e : Nat × Nat)
    (he : e ∈ g.record.layout) :
    (freshTeam gid g teamId rank cluster stamp).heat? e.1 = some (g.record.freshHeat teamId e.1 e.2 stamp) := by
  obtain ⟨k, hk, rfl⟩ := List.mem_map.1 he
  simp only [Team.heat?, freshTeam, Record.layout, List.map_map, Function.comp_def]
  exact mfind_map_pair _ hk

theorem freshTeam_installed (gid : Nat) (g : Grid) (teamId rank : Nat) (cluster : List Nat) (stamp : Nat) (f : Fit)
    (e : Nat × Nat) (he : e ∈ g.record.layout) :
    ∃ h, ((freshTeam gid g teamId rank cluster stamp).install f).heat? e.1 = some h ∧
      Claims.FreshHeat g.record e.2 h := by
  rw [Team.heat?_install, freshTeam_heat? gid g teamId rank cluster stamp e he]
  exact ⟨_, rfl, freshHeat_put ..⟩

/-! ### Placement (R394–R398) -/

theorem State.install_spec (s : State) (u : Nat) (rec : Record) (f : Fit) :
    OnlyUnits s (s.install u rec f) ∧
      ∀ v, (s.install u rec f).team? v = if u = v then (s.team? v).map (fun x => x.install f) else s.team? v := by
  unfold State.install
  dsimp only
  split
  · exact ⟨.modTeam .., s.team?_modTeam u _⟩
  · exact ⟨(OnlyUnits.putCore ..).trans (.modTeam ..), State.team?_modTeam _ u _⟩

/-- The teams of a unit are put and installed one after the other. -/
theorem installs_spec (key : Nat → Nat) (T : Nat → Nat → Team) (rec : Record) (F : Nat → Fit) {b n : Nat}
    (hkey : ∀ k, k < n → key k = b + k) (s : State) :
    OnlyUnits s ((upto n).foldl (fun (s : State) k => (s.putTeam (key k) (T k s.stamp)).install (key k) rec (F k)) s) ∧
      ∀ k, k < n → ((upto n).foldl (fun (s : State) k =>
        (s.putTeam (key k) (T k s.stamp)).install (key k) rec (F k)) s).team? (b + k) =
          some ((T k s.stamp).install (F k)) := by
  induction n with
  | zero => exact ⟨.refl s, fun k hk => absurd hk (Nat.not_lt_zero k)⟩
  | succ n ih =>
    obtain ⟨honly, hteam⟩ := ih fun k hk => hkey k (by omega)
    rw [upto, List.range_succ, List.foldl_append, List.foldl_cons, List.foldl_nil, ← upto]
    generalize (upto n).foldl _ s = t at honly hteam
    have hstamp : t.stamp = s.stamp := by rw [honly]
    rw [hkey n (by omega), hstamp]
    obtain ⟨hunits, hv⟩ := (t.putTeam (b + n) (T n s.stamp)).install_spec (b + n) rec (F n)
    refine ⟨honly.trans ((OnlyUnits.putTeam ..).trans hunits), fun k hk => ?_⟩
    rw [hv, State.team?_putTeam]
    by_cases hkn : n = k
    · simp [hkn]
    · have : b + n ≠ b + k := by omega
      rw [if_neg this, if_neg this]
      exact hteam k (by omega)

/-- The teams of a unit are on their cores, before the unit is sampled. -/
def State.unitPlaced (s : State) (q gid : Nat) (g : Grid) (fs : List Fit) : State :=
  let keys := (upto g.record.n).map (s.nextTeam + ·)
  (upto g.record.n).foldl (fun (s : State) k =>
    (s.putTeam (keys.getD k 0) (freshTeam gid g (g.nextTeam + k) k keys s.stamp)).install (keys.getD k 0) g.record
      (fs.getD k {})) { s with nextTeam := s.nextTeam + g.record.n, lastQueue := q }

theorem unitPlaced_spec (s : State) (q gid : Nat) (g : Grid) (fs : List Fit) :
    OnlyUnits { s with nextTeam := s.nextTeam + g.record.n, lastQueue := q } (s.unitPlaced q gid g fs) ∧
      ∀ k, k < g.record.n → (s.unitPlaced q gid g fs).team? (s.nextTeam + k) = some
        ((freshTeam gid g (g.nextTeam + k) k ((upto g.record.n).map (s.nextTeam + ·)) s.stamp).install (fs.getD k {})) := by
  refine installs_spec (fun k => ((upto g.record.n).map (s.nextTeam + ·)).getD k 0)
    (fun k stamp => freshTeam gid g (g.nextTeam + k) k ((upto g.record.n).map (s.nextTeam + ·)) stamp) g.record
    (fun k => fs.getD k {}) (fun k hk => ?_) { s with nextTeam := s.nextTeam + g.record.n, lastQueue := q }
  simp [upto, List.getD, hk]

/-- A unit that is not sampled (R394, R510). -/
theorem placeUnit_unsampled {g : Grid} (fs : List Fit) (hg : mfind s.grids gid = some g)
    (hs : s.sampleUnit g g.nextTeam = false) :
    s.placeUnit q gid g fs =
      let s1 := { s.unitPlaced q gid g fs with
        grids := mput s.grids gid { g with nextTeam := g.nextTeam + g.record.n } }
      (if g.record.teams ≤ g.nextTeam + g.record.n then s1.dequeue gid q else s1).tick := by
  obtain ⟨honly, -⟩ := unitPlaced_spec s q gid g fs
  have hsample : (s.unitPlaced q gid g fs).sample gid g g.nextTeam ((upto g.record.n).map (s.nextTeam + ·)) =
      s.unitPlaced q gid g fs := by
    have : (s.unitPlaced q gid g fs).sampleUnit g g.nextTeam = false := by
      rw [honly]
      exact hs
    simp only [State.sample, this, Bool.not_false, if_true]
  have hgrids : (s.unitPlaced q gid g fs).grids = s.grids := by rw [honly]
  have hrun : s.placeUnit q gid g fs =
      let s1 := ((s.unitPlaced q gid g fs).sample gid g g.nextTeam ((upto g.record.n).map (s.nextTeam + ·))).modGrid gid
        (fun y => { y with nextTeam := g.nextTeam + g.record.n })
      (if g.record.teams ≤ g.nextTeam + g.record.n then s1.dequeue gid q else s1).tick := rfl
  rw [hrun, hsample]
  simp only [State.modGrid, hgrids, hg]

/-- The head of the order that finds room is placed (R394). -/
theorem teamPlacement_run {g : Grid} {l : List (Nat × Nat)} {fs : List Fit} (hr : Claims.HeadsReadable s)
    (ho : s.dispatchOrder = (q, gid) :: l) (hg : mfind s.grids gid = some g) (hp : s.hasPlaces g.asid g.record.n = true)
    (hc : s.chooseUnit g g.nextTeam [] (fun c => s.fit c g.record g.record.freshHeats) = some fs)
    (hb : ∀ f ∈ fs, s.poolBroken f.core = false) (hl : s.lowestOut.findSome? s.recallUnit = none)
    (hs : s.sampleUnit g g.nextTeam = false) :
    exec .evTeamPlacement s = .next (s.placeUnit q gid g fs) := by
  have hfind : fs.find? (fun f => s.poolBroken f.core) = none :=
    List.find?_eq_none.2 fun f hf => by simp [hb f hf]
  have hdispatch : s.dispatch s.dispatchOrder = s.placeUnit q gid g fs := by
    rw [ho]
    simp only [State.dispatch, hg, hp, Bool.not_true, Bool.false_eq_true, if_false, hc, hfind]
  have hstamp : (s.placeUnit q gid g fs).stamp ≠ s.stamp := by
    rw [placeUnit_unsampled fs hg hs]
    have : (s.unitPlaced q gid g fs).stamp = s.stamp := by rw [(unitPlaced_spec s q gid g fs).1]
    dsimp only
    split <;> simp [State.tick, State.dequeue, this]
  change execEvTeamPlacement s = _
  simp only [execEvTeamPlacement, dropUnreadable_of_readable hr, hl, hdispatch, if_neg hstamp]

theorem teamPlacement_spec {g : Grid} {l : List (Nat × Nat)} {fs : List Fit} (hr : Claims.HeadsReadable s)
    (ho : s.dispatchOrder = (q, gid) :: l) (hg : mfind s.grids gid = some g) (hp : s.hasPlaces g.asid g.record.n = true)
    (hc : s.chooseUnit g g.nextTeam [] (fun c => s.fit c g.record g.record.freshHeats) = some fs)
    (hb : ∀ f ∈ fs, s.poolBroken f.core = false) (hl : s.lowestOut.findSome? s.recallUnit = none)
    (hs : s.sampleUnit g g.nextTeam = false) :
    ∃ t, exec .evTeamPlacement s = .next t ∧ Claims.SameMem s t ∧ t.nextTeam = s.nextTeam + g.record.n ∧
      t.lastQueue = q ∧ mfind t.grids gid = some { g with nextTeam := g.nextTeam + g.record.n } ∧
      mget [] t.gridQueues q = (if g.record.teams ≤ g.nextTeam + g.record.n
        then (mget [] s.gridQueues q).filter (· != gid) else mget [] s.gridQueues q) ∧
      ∀ k, k < g.record.n → ∃ y, t.team? (s.nextTeam + k) = some y ∧ y.grid = gid ∧ y.asid = g.asid ∧
        y.teamId = g.nextTeam + k ∧ y.rank = k ∧ y.started = false ∧ y.size = g.record.granules * 65536 ∧
        y.res = .active (fs.getD k {}).core (fs.getD k {}).share (fs.getD k {}).seqSlot (fs.getD k {}).accBase ∧
        ∀ e ∈ g.record.layout, ∃ h, y.heat? e.1 = some h ∧ Claims.FreshHeat g.record e.2 h := by
  obtain ⟨honly, hteams⟩ := unitPlaced_spec s q gid g fs
  have hmem : (s.unitPlaced q gid g fs).mem = s.mem := by rw [honly]
  have hnext : (s.unitPlaced q gid g fs).nextTeam = s.nextTeam + g.record.n := by rw [honly]
  have hlast : (s.unitPlaced q gid g fs).lastQueue = q := by rw [honly]
  have hqueues : (s.unitPlaced q gid g fs).gridQueues = s.gridQueues := by rw [honly]
  refine ⟨_, teamPlacement_run hr ho hg hp hc hb hl hs, ?_⟩
  rw [placeUnit_unsampled fs hg hs]
  have hplaced (k : Nat) (hk : k < g.record.n) : ∃ y, (s.unitPlaced q gid g fs).team? (s.nextTeam + k) = some y ∧
      y.grid = gid ∧ y.asid = g.asid ∧ y.teamId = g.nextTeam + k ∧ y.rank = k ∧ y.started = false ∧
      y.size = g.record.granules * 65536 ∧
      y.res = .active (fs.getD k {}).core (fs.getD k {}).share (fs.getD k {}).seqSlot (fs.getD k {}).accBase ∧
      ∀ e ∈ g.record.layout, ∃ h, y.heat? e.1 = some h ∧ Claims.FreshHeat g.record e.2 h :=
    ⟨_, hteams k hk, rfl, rfl, rfl, rfl, rfl, rfl, rfl, freshTeam_installed gid g (g.nextTeam + k) k _ s.stamp _⟩
  generalize s.unitPlaced q gid g fs = p at *
  dsimp only
  split
  · exact ⟨fun a => congrArg (readByte · a) hmem, hnext, hlast, (mfind_mput ..).trans (if_pos rfl),
      (mget_mset ..).trans ((if_pos rfl).trans (by rw [← hqueues])), hplaced⟩
  · exact ⟨fun a => congrArg (readByte · a) hmem, hnext, hlast, (mfind_mput ..).trans (if_pos rfl),
      congrArg (mget [] · q) hqueues, hplaced⟩

/-! ### The start of a unit (R313, R343, R391, R481) -/

/-- One team of a unit starts. -/
def State.startTeam (s : State) (u : Nat) : State :=
  match s.team? u with
  | none => s
  | some y =>
    let s := (s.putTeam u { y with started := true, lapBody := y.body }).modCtx y.asid (fun c =>
      { c with tdbase := y.tdbase, tdcnt := y.tdcnt })
    match y.core? with
    | none => s
    | some c => s.putCore c { s.core c with descs := [] }

theorem unitStart_run (hx : s.team? u = some x) (hs : x.started = false) (hc : x.core? = some c) :
    exec (.evUnitStart u) s = .next (x.cluster.foldl State.startTeam s).tick := by
  change execEvUnitStart u s = _
  simp only [execEvUnitStart, hx, hs, hc, Bool.false_eq_true, reduceCtorEq, or_self, if_false]
  rfl

/-- A team that has started. -/
def Team.begun (y : Team) : Team := { y with started := true, lapBody := y.body }

/-- What the start of a team leaves: contexts, teams and cores are all that changes. -/
structure Starts (s t : State) (u : Nat) : Prop where
  device : { t.device with contexts := [] } = { s.device with contexts := [] }
  team : ∀ v, t.team? v = if u = v then (s.team? v).map Team.begun else s.team? v
  descs : ∀ k, (s.core k).descs = [] → (t.core k).descs = []
  emptied : ∀ y k, s.team? u = some y → y.core? = some k → (t.core k).descs = []
  ctx : ∀ y k, s.team? u = some y → s.ctx? y.asid = some k →
    t.ctx? y.asid = some { k with tdbase := y.tdbase, tdcnt := y.tdcnt }

theorem State.modCtx_parts (s : State) (a : Nat) (f : Context → Context) :
    { (s.modCtx a f).device with contexts := [] } = { s.device with contexts := [] } ∧
      (s.modCtx a f).teams = s.teams ∧ (s.modCtx a f).cores = s.cores ∧
      ∀ k, s.ctx? a = some k → (s.modCtx a f).ctx? a = some (f k) := by
  unfold State.modCtx
  cases hk : s.ctx? a with
  | none => exact ⟨rfl, rfl, rfl, fun k h => nomatch h⟩
  | some k =>
    refine ⟨rfl, rfl, rfl, fun j hj => ?_⟩
    cases hj
    exact (mfind_mput ..).trans (if_pos rfl)

theorem startTeam_none (hy : s.team? u = none) : s.startTeam u = s := by
  simp only [State.startTeam, hy]

/-- A team that is there: it has begun, its context has its tensor table, and its core's descriptor cache is empty. -/
theorem startTeam_some (hx : s.team? u = some x) :
    let p := (s.putTeam u x.begun).modCtx x.asid (fun k => { k with tdbase := x.tdbase, tdcnt := x.tdcnt })
    s.startTeam u = p ∧ x.core? = none ∨
      ∃ c, x.core? = some c ∧ s.startTeam u = p.putCore c { p.core c with descs := [] } := by
  intro p
  cases hc : x.core? with
  | none =>
    refine .inl ⟨?_, rfl⟩
    simp only [State.startTeam, hx, hc]
    rfl
  | some c =>
    refine .inr ⟨c, rfl, ?_⟩
    simp only [State.startTeam, hx, hc]
    rfl

theorem startTeam_spec (s : State) (u : Nat) : Starts s (s.startTeam u) u := by
  cases hy : s.team? u with
  | none =>
    rw [startTeam_none hy]
    refine ⟨rfl, fun v => ?_, fun _ hk => hk, fun y k h => ?_, fun y k h => ?_⟩
    · split
      next hv =>
        subst hv
        simp [hy]
      next => rfl
    · exact nomatch hy.symm.trans h
    · exact nomatch hy.symm.trans h
  | some y =>
    obtain ⟨hdevice, hteams, hcores, hctx⟩ := (s.putTeam u y.begun).modCtx_parts y.asid
      (fun k => { k with tdbase := y.tdbase, tdcnt := y.tdcnt })
    have hrun := startTeam_some hy
    generalize (s.putTeam u y.begun).modCtx y.asid _ = p at *
    have hteam (v : Nat) : p.team? v = if u = v then (s.team? v).map Team.begun else s.team? v := by
      rw [State.team?, hteams]
      refine (State.team?_putTeam ..).trans ?_
      split
      next hv =>
        subst hv
        simp [hy]
      next => rfl
    have hcore (k : Nat) : p.core k = s.core k := by
      rw [State.core, hcores]
      rfl
    rcases hrun with ⟨hrun, hc⟩ | ⟨c, hc, hrun⟩
    · rw [hrun]
      refine ⟨hdevice, hteam, fun k hk => by rwa [hcore], fun z k hz hk => ?_, fun z k hz hk => ?_⟩
      · cases hy.symm.trans hz
        exact nomatch hc.symm.trans hk
      · cases hy.symm.trans hz
        exact hctx k hk
    · rw [hrun]
      refine ⟨hdevice, hteam, fun k hk => ?_, fun z k hz hk => ?_, fun z k hz hk => ?_⟩
      · rw [State.core_putCore]
        split
        · rfl
        · rwa [hcore]
      · cases hy.symm.trans hz
        cases hc.symm.trans hk
        rw [State.core_putCore, if_pos rfl]
      · cases hy.symm.trans hz
        exact hctx k hk

theorem Team.begun_begun (y : Team) : y.begun.begun = y.begun := rfl

/-- The start of the teams of a list, one after the other. -/
theorem startTeams_spec (l : List Nat) (s : State) :
    { (l.foldl State.startTeam s).device with contexts := [] } = { s.device with contexts := [] } ∧
      (∀ v, (l.foldl State.startTeam s).team? v = if v ∈ l then (s.team? v).map Team.begun else s.team? v) ∧
      (∀ k, (s.core k).descs = [] → ((l.foldl State.startTeam s).core k).descs = []) ∧
      ∀ v y k, v ∈ l → s.team? v = some y → y.core? = some k → ((l.foldl State.startTeam s).core k).descs = [] := by
  induction l generalizing s with
  | nil => exact ⟨rfl, fun v => rfl, fun k hk => hk, fun v y k hv => nomatch hv⟩
  | cons u l ih =>
    obtain ⟨hdevice, hteam, hdescs, hempty, -⟩ := startTeam_spec s u
    obtain ⟨hdevice', hteam', hdescs', hempty'⟩ := ih (s.startTeam u)
    rw [List.foldl_cons]
    refine ⟨hdevice'.trans hdevice, fun v => ?_, fun k hk => hdescs' k (hdescs k hk), fun v y k hv hy hk => ?_⟩
    · rw [hteam', hteam]
      by_cases huv : u = v
      · subst huv
        simp [Function.comp_def, Team.begun_begun]
      · simp [huv, Ne.symm huv]
    · by_cases huv : u = v
      · subst huv
        exact hdescs' k (hempty y k hy hk)
      · have hvl : v ∈ l := (List.mem_cons.1 hv).resolve_left (Ne.symm huv)
        exact hempty' v y k hvl (by rw [hteam, if_neg huv, hy]) hk

theorem unitStart_spec (hx : s.team? u = some x) (hs : x.started = false) (hc : x.core? = some c) :
    ∃ t : State, exec (.evUnitStart u) s = .next t ∧ { t.device with contexts := [] } = { s.device with contexts := [] } ∧
      (x.cluster = [u] → ∀ k, s.ctx? x.asid = some k →
        t.ctx? x.asid = some { k with tdbase := x.tdbase, tdcnt := x.tdcnt }) ∧
      (∀ v y, v ∈ x.cluster → s.team? v = some y → t.team? v = some { y with started := true, lapBody := y.body } ∧
        ∀ k, y.core? = some k → (t.core k).descs = []) ∧
      (∀ v, v ∉ x.cluster → t.team? v = s.team? v) := by
  obtain ⟨hdevice, hteam, -, hdescs⟩ := startTeams_spec x.cluster s
  refine ⟨_, unitStart_run hx hs hc, hdevice, fun hone k hk => ?_, fun v y hv hy => ⟨?_, fun k hk => ?_⟩, fun v hv => ?_⟩
  · rw [hone]
    exact (startTeam_spec s u).ctx x k hx hk
  · rw [State.team?_tick, hteam, if_pos hv, hy]
    rfl
  · exact hdescs v y k hv hy hk
  · rw [State.team?_tick, hteam, if_neg hv]

end

end Sys2Proof.Machine

/-! SUPPORT. The exit of a team and the completion of its grid (R211, R314, R318, R385, R390). -/

namespace Sys2Proof.Machine

section

variable {s t r : State} {h : Heat} {u g q gid c n : Nat} {x y : Team}

/-! ### Maps -/

theorem mem_mdel {α : Type} {m : FMap α} {k : Nat} {e : Nat × α} (he : e ∈ mdel m k) : e ∈ m := by
  induction m with
  | nil => exact he
  | cons a m ih =>
    unfold mdel at he
    split at he
    · exact List.mem_cons_of_mem _ (ih he)
    · rcases List.mem_cons.1 he with rfl | he
      · exact List.mem_cons_self
      · exact List.mem_cons_of_mem _ (ih he)

theorem mem_mins {α : Type} {m : FMap α} {k : Nat} {v : α} {e : Nat × α} (he : e ∈ mins m k v) : e = (k, v) ∨ e ∈ m := by
  induction m with
  | nil => exact .inl (List.mem_singleton.1 he)
  | cons a m ih =>
    unfold mins at he
    split at he
    · exact List.mem_cons.1 he
    · rcases List.mem_cons.1 he with rfl | he
      · exact .inr List.mem_cons_self
      · exact (ih he).imp_right (List.mem_cons_of_mem _)

theorem mem_mput {α : Type} {m : FMap α} {k : Nat} {v : α} {e : Nat × α} (he : e ∈ mput m k v) : e = (k, v) ∨ e ∈ m :=
  (mem_mins he).imp_right mem_mdel

theorem mem_of_mfind {α : Type} {m : FMap α} {k : Nat} {v : α} (hv : mfind m k = some v) : (k, v) ∈ m := by
  induction m with
  | nil => cases hv
  | cons a m ih =>
    unfold mfind at hv
    split at hv
    next h =>
      cases hv
      exact h ▸ List.mem_cons_self
    next => exact List.mem_cons_of_mem _ (ih hv)

theorem mfind_filter_not {α : Type} (m : FMap α) (p : Nat → Bool) {k : Nat} (hk : p k = false) :
    mfind (m.filter (fun e => p e.1)) k = none := by
  induction m with
  | nil => rfl
  | cons a m ih =>
    rw [List.filter_cons]
    split
    next h =>
      have : a.1 ≠ k := fun e => by simp [e, hk] at h
      simp only [mfind, if_neg this, ih]
    next => exact ih

/-! ### What stands while a team exits -/

/-- What says whose team it is, and the hurdles of its sequencer. -/
def Team.kin (x : Team) : Team :=
  { grid := x.grid, asid := x.asid, teamId := x.teamId, cluster := x.cluster, checks := x.checks
    checker := x.checker, body := { seq := { hmem := x.body.seq.hmem } } }

/-- An engine command of a heat of the team. -/
def Team.Copying (x : Team) (c : CopyRec) : Prop := ∃ h ∈ x.body.heats, c ∈ h.2.copies

/-- A grid but for the note that its counter was reached. -/
def Grid.unmet (g : Grid) : Grid := { g with met := false }

/-- From s to t grids have at most been noted as met, teams stay kin, and nothing changes besides but teams, cores and
the frames sent. -/
structure Abides (s t : State) : Prop where
  rest : t = { s with
    teams := t.teams, cores := t.cores, grids := t.grids, hostOut := t.hostOut, unacked := t.unacked, txSeq := t.txSeq
    wire := t.wire }
  grids : ∀ k, (mfind t.grids k).map Grid.unmet = (mfind s.grids k).map Grid.unmet
  teams : ∀ v, (t.team? v).map Team.kin = (s.team? v).map Team.kin
  copies : ∀ c, (∃ e ∈ t.teams, e.2.Copying c) → ∃ e ∈ s.teams, e.2.Copying c

theorem Abides.refl (s : State) : Abides s s := ⟨rfl, fun _ => rfl, fun _ => rfl, fun _ => id⟩

theorem Abides.trans (a : Abides s t) (b : Abides t r) : Abides s r := by
  refine ⟨?_, fun k => (b.grids k).trans (a.grids k), fun v => (b.teams v).trans (a.teams v),
    fun c hc => a.copies c (b.copies c hc)⟩
  rw [b.rest, a.rest]

theorem Abides.foldl {α : Type} {f : State → α → State} (hf : ∀ s a, Abides s (f s a)) (l : List α) (s : State) :
    Abides s (l.foldl f s) := by
  induction l generalizing s with
  | nil => exact .refl s
  | cons a l ih => exact (hf s a).trans (ih _)

theorem Abides.putTeam (hx : s.team? u = some x) (hk : y.kin = x.kin) (hc : ∀ c, y.Copying c → x.Copying c) :
    Abides s (s.putTeam u y) := by
  refine ⟨rfl, fun _ => rfl, fun v => ?_, fun c ⟨e, he, hec⟩ => ?_⟩
  · rw [State.team?_putTeam]
    split
    next hv =>
      subst hv
      simp [hx, hk]
    next => rfl
  · rcases mem_mput he with rfl | he
    · exact ⟨_, mem_of_mfind hx, hc c hec⟩
    · exact ⟨e, he, hec⟩

theorem Abides.modTeam {f : Team → Team} (hk : ∀ x, (f x).kin = x.kin) (hc : ∀ x c, (f x).Copying c → x.Copying c) :
    Abides s (s.modTeam u f) := by
  unfold State.modTeam
  split
  · exact .refl s
  next hx => exact .putTeam hx (hk _) (hc _)

theorem Abides.putCore {k : Core} : Abides s (s.putCore c k) := ⟨rfl, fun _ => rfl, fun _ => rfl, fun _ => id⟩

theorem Abides.count {src n : Nat} : Abides s (s.count c src n) := by
  rcases s.count_cases c src n with he | ⟨y, he⟩ <;> rw [he]
  · exact .refl s
  · exact .putCore

/-- Heats that keep their commands. -/
theorem Team.copying_of_map {f : Heat → Heat} (hf : ∀ h, (f h).copies = h.copies) {c : CopyRec}
    (hy : y.body.heats = x.body.heats.map (fun e => (e.1, f e.2))) (hc : y.Copying c) : x.Copying c := by
  obtain ⟨e, he, hec⟩ := hc
  rw [hy] at he
  obtain ⟨e0, he0, rfl⟩ := List.mem_map.1 he
  exact ⟨e0, he0, by rwa [hf] at hec⟩

theorem Team.copying_of_eq {c : CopyRec} (hy : y.body.heats = x.body.heats) (hc : y.Copying c) : x.Copying c := by
  rwa [Team.Copying, hy] at hc

theorem Team.copying_putHeat {h' : Heat} (hh : x.heat? g = some h) (hk : h'.copies = h.copies) {c : CopyRec}
    (hc : (x.putHeat g h').Copying c) : x.Copying c := by
  obtain ⟨e, he, hec⟩ := hc
  rcases mem_mput he with rfl | he
  · exact ⟨_, mem_of_mfind hh, hk ▸ hec⟩
  · exact ⟨e, he, hec⟩

/-! #### Frames -/

theorem Abides.sendOne {f : Frame} : Abides s (s.sendOne f) := ⟨rfl, fun _ => rfl, fun _ => rfl, fun _ => id⟩

theorem Abides.sendChunks {type : Nat} {tag : W32} (n : Nat) (p : List Byte) (s : State) :
    Abides s (s.sendChunks type tag n p) := by
  induction n generalizing p s with
  | zero => exact .sendOne
  | succ n ih =>
    unfold State.sendChunks
    split
    · exact .sendOne
    · exact Abides.sendOne.trans (ih _ _)

theorem Abides.mgmtEvent {code : Nat} {data : List Byte} : Abides s (s.mgmtEvent code data) := .sendChunks _ _ s

/-! #### Counters (R232, R394) -/

theorem Abides.modGrid {f : Grid → Grid} (hf : ∀ g, (f g).unmet = g.unmet) : Abides s (s.modGrid gid f) := by
  unfold State.modGrid
  split
  · exact .refl s
  next g hg =>
    refine ⟨rfl, fun k => ?_, fun _ => rfl, fun _ => id⟩
    rw [mfind_mput]
    split
    next hk =>
      subst hk
      simp [hg, hf]
    next => rfl

theorem Abides.retestGrids : Abides s s.retestGrids := by
  refine Abides.foldl (fun s k => .modGrid fun g => ?_) _ s
  split <;> rfl

theorem Abides.noteTeam : Abides s (s.noteTeam u) := .modTeam (fun _ => rfl) (fun _ _ => Team.copying_of_eq rfl)

theorem Abides.noteMet : Abides s s.noteMet :=
  Abides.retestGrids.trans (Abides.foldl (fun _ _ => .noteTeam) _ _)

theorem Heat.copies_releaseMask (h : Heat) (m : Mask) (stamp : Nat) : (h.releaseMask m stamp).copies = h.copies :=
  Heat.forLanes_keeps Heat.copies (fun y l => y.setLane l ((y.lane l).goOn stamp)) (fun _ _ => rfl) h m

/-- The waiters that a list releases. -/
theorem releases_spec (l : List Waiter) (stamp : Nat) (x : Team) :
    let y := l.foldl (fun x w => match x.heat? w.heat with
      | none => x
      | some h => x.putHeat w.heat (h.releaseMask w.mask stamp)) x
    y.kin = x.kin ∧ ∀ c, y.Copying c → x.Copying c := by
  induction l generalizing x with
  | nil => exact ⟨rfl, fun _ => id⟩
  | cons w l ih =>
    rw [List.foldl_cons]
    cases hh : x.heat? w.heat with
    | none => exact ih x
    | some h =>
      obtain ⟨hk, hc⟩ := ih (x.putHeat w.heat (h.releaseMask w.mask stamp))
      exact ⟨hk, fun c hy => Team.copying_putHeat hh (h.copies_releaseMask ..) (hc c hy)⟩

theorem Abides.retestTeam : Abides s (s.retestTeam u) := by
  unfold State.retestTeam
  split
  · exact .refl s
  next x hx =>
    dsimp only
    split
    · exact .refl s
    · obtain ⟨hk, hc⟩ := releases_spec (x.body.waiters.filter (fun w => w.met)) s.stamp
        { x with body := { x.body with waiters := x.body.waiters.filter (fun w => !w.met) } }
      exact .putTeam hx hk hc

theorem Abides.retest : Abides s s.retest :=
  Abides.noteMet.trans (Abides.foldl (fun _ _ => .retestTeam) _ _)

/-! ### The last commit point of a team without deferred stores -/

theorem clusterOf_team (hx : s.team? u = some x) : s.clusterOf u = x.cluster := by
  simp only [State.clusterOf, hx]

theorem commitHeld_empty (hx : s.team? u = some x) (hc : x.cluster = [u]) (hd : x.deferred = []) :
    s.commitHeld u = false := by
  simp [State.commitHeld, clusterOf_team hx, hc, hx, hd]

theorem Abides.flush (hx : s.team? u = some x) (hc : x.cluster = [u]) (hd : x.deferred = []) : Abides s (s.flush u) := by
  have hrun : s.flush u = s.flushTeam u := by rw [State.flush, clusterOf_team hx, hc]; rfl
  have hput : Abides s (s.putTeam u { x with deferred := [] }) := .putTeam hx rfl (fun _ => Team.copying_of_eq rfl)
  rw [hrun]
  unfold State.flushTeam
  simp only [hx, hd, List.foldl_nil]
  split
  · exact hput
  · exact hput.trans .retest

theorem Abides.unpackTeam : Abides s (s.unpackTeam u) :=
  .modTeam (fun _ => rfl) (fun _ _ => Team.copying_of_map (f := Heat.unpack) (fun _ => rfl) rfl)

theorem Abides.runtoPassed : Abides s (s.runtoPassed u) := by
  unfold State.runtoPassed
  split
  · exact .refl s
  split
  · exact .refl s
  split
  · exact .refl s
  · refine Abides.trans (Abides.foldl (fun s v => ?_) _ s) .mgmtEvent
    exact Abides.unpackTeam.trans (.modTeam (fun _ => rfl) (fun _ _ => Team.copying_of_eq rfl))

theorem Team.kin_newLap (x : Team) (l : List BinThread) : Team.kin { x.newLap with lapBins := l } = x.kin := rfl

theorem State.team?_count (s : State) (c src n v : Nat) : (s.count c src n).team? v = s.team? v := by
  rcases s.count_cases c src n with he | ⟨y, he⟩ <;> rw [he]
  rfl

/-- The count of a commit point of a team. -/
def State.countLap (s : State) (x : Team) : State :=
  match x.core? with
  | some c => s.count c 13 1
  | none => s

theorem countLap_spec (s : State) (x : Team) : Abides s (s.countLap x) ∧ ∀ v, (s.countLap x).team? v = s.team? v := by
  unfold State.countLap
  split
  · exact ⟨.count, s.team?_count _ _ _⟩
  · exact ⟨.refl s, fun _ => rfl⟩

theorem newLap_run (hx : s.team? u = some x) (hc : x.cluster = [u]) (hk : x.checker = none) :
    s.newLap u =
      let t := (s.countLap x).modTeam u (fun x => { x.newLap with lapBins := s.binThreads u })
      (t.clusterOf u).foldl State.runtoPassed t := by
  have hcount : (s.countLap x).team? u = some x := ((countLap_spec s x).2 u).trans hx
  unfold State.newLap
  unfold State.countLap at hcount ⊢
  cases hcore : x.core? with
  | none => simp only [clusterOf_team hx, hc, List.foldl_cons, List.foldl_nil, hx, hcore, hk]
  | some c =>
    simp only [hcore] at hcount
    simp only [clusterOf_team hx, hc, List.foldl_cons, List.foldl_nil, hx, hcore, hk, hcount]

theorem Abides.newLap (hx : s.team? u = some x) (hc : x.cluster = [u]) (hk : x.checker = none) :
    Abides s (s.newLap u) := by
  rw [newLap_run hx hc hk]
  refine ((countLap_spec s x).1.trans (.modTeam (fun x => x.kin_newLap _) (fun x c => ?_))).trans
    (Abides.foldl (fun _ _ => .runtoPassed) _ _)
  exact Team.copying_of_map (f := fun h => { h with stride := 0#64, journalled := [] }) (fun _ => rfl) rfl

/-- A sequencer in no cluster hurdle has none to leave. -/
theorem dropSeq_none (hx : s.team? u = some x) (hs : ∀ e ∈ x.body.seq.hmem, e.1 < 256) : s.dropSeq u = s := by
  simp only [State.dropSeq, hx]
  suffices ∀ l : List Nat, (∀ k ∈ l, k < 256) → ∀ s : State, l.foldl (fun (s : State) k =>
      if 256 ≤ k then s.dropUnit u 255 { cluster := true, h := k - 256 } else s) s = s by
    refine this _ (fun k hk => ?_) s
    obtain ⟨e, he, rfl⟩ := List.mem_map.1 hk
    exact hs e he
  intro l hl s
  induction l with
  | nil => rfl
  | cons k l ih =>
    rw [List.foldl_cons, if_neg (Nat.not_le.mpr (hl k List.mem_cons_self))]
    exact ih fun j hj => hl j (List.mem_cons_of_mem k hj)

end

end Sys2Proof.Machine

/-! SUPPORT. The exit of a team and the completion of its grid (R211, R314, R385, R390). -/

namespace Sys2Proof.Machine

section

variable {s t r : State} {h : Heat} {u g q gid c n : Nat} {x y : Team}

/-- What a translation reads of the state. -/
structure SameTables (s t : State) : Prop where
  mem : t.mem = s.mem
  poison : t.poison = s.poison
  retired : t.retired = s.retired
  tlb : t.tlb = s.tlb
  tables : t.tables = s.tables
  stamp : t.stamp = s.stamp
  roots : ∀ a, (t.ctx? a).map Context.root = (s.ctx? a).map Context.root

theorem SameTables.chosenEntry (a : SameTables s t) : chosenEntry t = chosenEntry s := by
  funext va b
  unfold Machine.chosenEntry
  rw [a.mem, a.stamp]

theorem SameTables.readEntry (a : SameTables s t) : t.readEntry = s.readEntry := by
  funext die asid va level b
  unfold State.readEntry State.unitBad State.cachedTable
  rw [a.mem, a.poison, a.retired, a.tables, a.stamp]

theorem SameTables.walkFrom (a : SameTables s t) (die asid va n b : Nat) :
    walkFrom t die asid va n b = walkFrom s die asid va n b := by
  induction n generalizing b with
  | zero => rfl
  | succ n ih =>
    unfold Machine.walkFrom
    rw [a.chosenEntry, a.readEntry]
    simp only [ih]

theorem SameTables.translate (a : SameTables s t) (asid va : Nat) : t.translate asid va = s.translate asid va := by
  have hwalk : t.walk 0 asid va = s.walk 0 asid va := by
    have hroot := a.roots asid
    unfold State.walk State.walkPath
    cases hs : s.ctx? asid with
    | none =>
      have ht : t.ctx? asid = none := by simpa [hs] using hroot
      rw [ht]
    | some k =>
      obtain ⟨j, ht, hj⟩ : ∃ j, t.ctx? asid = some j ∧ j.root = k.root := by simpa [hs] using hroot
      simp only [ht, hj, a.walkFrom]
  unfold State.translate State.translateOn State.cached
  rw [hwalk, a.tlb, a.stamp]

/-- The check of a DONE add, or of another agent that is no team: it does not depend on the bindings. -/
theorem checkLocal_agent (a : SameTables s t) {bs bs' : List Binding} {asid va : Nat} {k : Access} {z : Target}
    (hs : s.checkLocal bs { asid := asid } va k = .ok z bs') (cs : List Binding) :
    t.checkLocal cs { asid := asid } va k = .ok z cs := by
  unfold State.checkLocal State.look at hs ⊢
  simp only [a.translate] at hs ⊢
  cases hw : s.translate asid va with
  | invalid => simp [hw] at hs
  | poisoned => simp [hw] at hs
  | page base size leaf =>
    simp only [hw] at hs ⊢
    split at hs
    · cases hs
    next hm =>
      split at hs
      · cases hs
      next hp =>
        rw [if_neg hm, if_neg hp]
        unfold State.share at hs ⊢
        split at hs
        · cases hs
        next hsh =>
          split at hsh
          next hsw =>
            cases hs
            simp only [if_pos hsw]
          next => cases hsh

theorem SameTables.bytesBad (a : SameTables s t) (pa n : Nat) : t.bytesBad pa n = s.bytesBad pa n := by
  unfold State.bytesBad State.unitBad
  rw [a.poison, a.retired]

/-- Where a DONE add goes, in a state with the same tables in which no more is owned (R385). -/
theorem doneAdd_at {g : Grid} {pa : Nat} (a : SameTables s t) (ho : t.ordRecs = s.ordRecs)
    (hown : ∀ pa n, t.ownedRange pa n = true → s.ownedRange pa n = true) (hd : s.doneAdd g = .at pa) :
    t.doneAdd g = .at pa := by
  unfold State.doneAdd State.checkMem at hd ⊢
  by_cases h8 : (BitVec.ofNat 72 g.record.done).toNat % 8 ≠ 0
  · simp only [if_pos h8] at hd
    cases hd
  · by_cases h71 : (BitVec.ofNat 72 g.record.done).getLsbD 71 = true
    · simp only [if_neg h8, if_pos h71] at hd
      cases hd
    · simp only [if_neg h8, if_neg h71] at hd ⊢
      cases hchk : s.checkLocal s.bindings { asid := g.asid } (BitVec.ofNat 72 g.record.done).toNat .write with
      | bad n => simp only [hchk, reduceCtorEq] at hd
      | held m => simp only [hchk, reduceCtorEq] at hd
      | ok z bs =>
        simp only [hchk] at hd
        rw [checkLocal_agent a hchk t.bindings]
        cases z with
        | fab dev off => cases hd
        | spad team off => cases hd
        | mem b leaf =>
          simp only at hd ⊢
          split at hd
          · cases hd
          next hwait =>
            have hwait' : ¬ t.rangeWaits b 8 = true := by
              intro hw
              refine hwait ?_
              unfold State.rangeWaits State.orderedWait at hw ⊢
              rw [ho] at hw
              rw [Bool.or_eq_true] at hw ⊢
              exact hw.imp_left (hown b 8)
            rw [if_neg hwait', a.bytesBad]
            exact hd

/-- No more is owned when no more commands are in flight (R192). -/
theorem ownedRange_of_copies (he : t.engines = s.engines)
    (hc : ∀ c, (∃ e ∈ t.teams, e.2.Copying c) → ∃ e ∈ s.teams, e.2.Copying c) (pa n : Nat)
    (hown : t.ownedRange pa n = true) : s.ownedRange pa n = true := by
  unfold State.ownedRange State.ownedBy at hown ⊢
  dsimp only at hown ⊢
  rw [he] at hown
  rw [Bool.or_eq_true] at hown ⊢
  refine hown.imp_right fun h => ?_
  simp only [List.any_eq_true] at h ⊢
  obtain ⟨e, he, g, hg, c, hcg, hit⟩ := h
  obtain ⟨e', he', g', hg', hcg'⟩ := hc c ⟨e, he, g, hg, hcg⟩
  exact ⟨e', he', g', hg', c, hcg', hit⟩

theorem doneAdd_congr {g g' : Grid} (hr : g'.record = g.record) (ha : g'.asid = g.asid) : s.doneAdd g' = s.doneAdd g := by
  unfold State.doneAdd
  rw [hr, ha]

theorem Abides.sameTables (a : Abides s t) : SameTables s t := by
  refine ⟨?_, ?_, ?_, ?_, ?_, ?_, fun b => ?_⟩
  rotate_right
  · have : t.contexts = s.contexts := by rw [a.rest]
    rw [State.ctx?, this, ← State.ctx?]
  all_goals rw [a.rest]

/-! ### A team leaves its core (R211, R314) -/

/-- A team that has exited. -/
def Team.leave (x : Team) : Team :=
  { x with
    exited := true, res := match x.res with
      | .active c j _ _ => .exited c j
      | r => r }

/-- The state in which a team has left and its grid has counted it. -/
def State.left (s : State) (u : Nat) (x : Team) : State :=
  ((((s.modTeam u Team.leave).unbindTeam u).modGrid x.grid (fun g =>
    { g with finished := g.finished ++ [x.teamId] })).modCtx x.asid (fun c =>
      { c with relayArea := c.relayArea.filter (fun e => e.1 != u) })).freeCluster x.cluster

theorem finishTeam_run (hx : s.team? u = some x) : s.finishTeam u = ((s.left u x).completeGrid x.grid).tick := by
  simp only [State.finishTeam, hx]
  rfl

/-- What a team that was alone in its cluster leaves. -/
structure Left (s t : State) (u : Nat) (x : Team) : Prop where
  tables : SameTables s t
  ordRecs : t.ordRecs = s.ordRecs
  engines : t.engines = s.engines
  copies : ∀ c, (∃ e ∈ t.teams, e.2.Copying c) → ∃ e ∈ s.teams, e.2.Copying c
  team : t.team? u = none
  bindings : ∀ b, b ∈ t.bindings ↔ b ∈ s.bindings ∧ b.owner ≠ u
  grid : mfind t.grids x.grid = (mfind s.grids x.grid).map (fun g => { g with finished := g.finished ++ [x.teamId] })

theorem State.grids_modGrid (s : State) (k : Nat) (f : Grid → Grid) :
    mfind (s.modGrid k f).grids k = (mfind s.grids k).map f := by
  unfold State.modGrid
  cases hg : mfind s.grids k with
  | none => exact hg
  | some g => exact (mfind_mput ..).trans (if_pos rfl)

theorem State.modGrid_eq (s : State) (k : Nat) (f : Grid → Grid) :
    s.modGrid k f = { s with grids := (s.modGrid k f).grids } := by
  unfold State.modGrid
  split <;> rfl

theorem State.root_modCtx (s : State) (a : Nat) (f : Context → Context) (hf : ∀ k, (f k).root = k.root) (b : Nat) :
    ((s.modCtx a f).ctx? b).map Context.root = (s.ctx? b).map Context.root := by
  unfold State.modCtx
  cases hk : s.ctx? a with
  | none => rfl
  | some k =>
    have hput : ({ s with contexts := mput s.contexts a (f k) } : State).ctx? b =
        if a = b then some (f k) else s.ctx? b := mfind_mput ..
    simp only [hput]
    split
    next hab =>
      subst hab
      simp [hk, hf]
    next => rfl

/-- The cluster of a single team is freed with it. -/
theorem freeCluster_single (hx : s.team? u = some x) (he : x.exited = true) :
    s.freeCluster [u] = { s with
      teams := s.teams.filter (fun e => !(e.1 == u)), bindings := unbind s.bindings [u] } := by
  have hone (k : Nat) : [u].contains k = (k == u) := by rw [Bool.eq_iff_iff]; simp
  simp only [State.freeCluster, List.all_cons, List.all_nil, Bool.and_true, hx, he, if_true, hone]

theorem left_eq (hx : s.team? u = some x) (hc : x.cluster = [u]) :
    s.left u x = { s with
      teams := (mput s.teams u x.leave).filter (fun e => !(e.1 == u))
      bindings := unbind (s.unbindTeam u).bindings [u]
      grids := (s.modGrid x.grid (fun g => { g with finished := g.finished ++ [x.teamId] })).grids
      contexts := (s.modCtx x.asid (fun c => { c with
        relayArea := c.relayArea.filter (fun e => e.1 != u) })).contexts } := by
  have hput : (s.putTeam u x.leave).team? u = some x.leave := (State.team?_putTeam ..).trans (if_pos rfl)
  let p := (s.putTeam u x.leave).unbindTeam u
  let f (g : Grid) : Grid := { g with finished := g.finished ++ [x.teamId] }
  let k (c : Context) : Context := { c with relayArea := c.relayArea.filter (fun e => e.1 != u) }
  have hgrid : p.modGrid x.grid f = { p with grids := (s.modGrid x.grid f).grids } := by
    unfold State.modGrid
    change (match mfind s.grids x.grid with
      | none => p
      | some g => { p with grids := mput p.grids x.grid (f g) }) = _
    cases mfind s.grids x.grid <;> rfl
  have hctx : ({ p with grids := (s.modGrid x.grid f).grids } : State).modCtx x.asid k =
      { p with grids := (s.modGrid x.grid f).grids, contexts := (s.modCtx x.asid k).contexts } := by
    unfold State.modCtx
    change (match s.ctx? x.asid with
      | none => ({ p with grids := (s.modGrid x.grid f).grids } : State)
      | some c => { p with grids := (s.modGrid x.grid f).grids, contexts := mput p.contexts x.asid (k c) }) = _
    cases s.ctx? x.asid <;> rfl
  have hrun : s.left u x = ((p.modGrid x.grid f).modCtx x.asid k).freeCluster [u] := by
    rw [State.left, State.modTeam_of_team? hx, hc]
  rw [hrun, hgrid, hctx]
  exact freeCluster_single hput rfl

theorem left_spec (hx : s.team? u = some x) (hc : x.cluster = [u]) : Left s (s.left u x) u x := by
  have hroot := s.root_modCtx x.asid (fun c => { c with relayArea := c.relayArea.filter (fun e => e.1 != u) })
    (fun _ => rfl)
  rw [left_eq hx hc]
  refine ⟨⟨rfl, rfl, rfl, rfl, rfl, rfl, hroot⟩, rfl, rfl,
    fun c ⟨e, he, hec⟩ => ?_, ?_, fun b => ?_, State.grids_modGrid ..⟩
  · rcases mem_mput (List.mem_filter.1 he).1 with rfl | he
    · exact ⟨_, mem_of_mfind hx, hec⟩
    · exact ⟨e, he, hec⟩
  · exact mfind_filter_not _ (fun k => !(k == u)) (by simp)
  · simp only [unbind, State.unbindTeam, List.mem_filter]
    have hone : [u].contains b.owner = (b.owner == u) := by rw [Bool.eq_iff_iff]; simp
    rw [hone]
    by_cases hb : b.owner = u <;> simp [hb]

/-! ### The completion of a grid (R385, R390) -/

theorem readByte_writes (ws : List (Nat × Byte)) (m : FMap Byte) (a : Nat) :
    readByte (ws.foldl (fun m w => writeByte m w.1 w.2) m) a = (Claims.lastWrite ws a).getD (readByte m a) := by
  induction ws using List.reverseRecOn with
  | nil => rfl
  | append_singleton ws w ih =>
    have hlast : Claims.lastWrite (ws ++ [w]) a = if w.1 = a then some w.2 else Claims.lastWrite ws a := by
      simp only [Claims.lastWrite, List.foldl_append, List.foldl_cons, List.foldl_nil]
    rw [List.foldl_append, List.foldl_cons, List.foldl_nil, readByte_writeByte, ih, hlast]
    split <;> rfl

theorem Abides.teamNone (a : Abides s t) (hs : s.team? u = none) : t.team? u = none := by
  simpa [hs] using a.teams u

/-- What a store of the device leaves (R542). -/
theorem perform_spec (s : State) (ws : List (Nat × Byte)) :
    Claims.Stored s (s.perform ws) ws ∧ (s.team? u = none → (s.perform ws).team? u = none) := by
  unfold State.perform State.writeMem
  split
  next hw =>
    have hws : ws = [] := List.isEmpty_iff.1 hw
    have hmem : s.retest.mem = s.mem := by rw [(Abides.retest (s := s)).rest]
    subst hws
    exact ⟨fun a => congrArg (readByte · a) hmem, (Abides.retest).teamNone⟩
  next =>
    let p : State := { s with
      mem := ws.foldl (fun m w => writeByte m w.1 w.2) s.mem
      poison := s.poison.filter (fun u => !(upto 64).all (fun i => ws.any (fun w => w.1 == 64 * u + i)))
      ordRecs := s.ordRecs.filter (fun e => !ws.any (fun w => decide (e.1 ≤ w.1 ∧ w.1 < e.1 + 4))) }
    have hp : Abides p p.noteMet.retest := Abides.noteMet.trans .retest
    have hmem : p.noteMet.retest.mem = p.mem := by rw [hp.rest]
    refine ⟨fun a => ?_, fun hs => hp.teamNone hs⟩
    exact (congrArg (readByte · a) hmem).trans (readByte_writes ws s.mem a)

/-- From s to t at most contexts and packets change. -/
def OnlyAcks (s t : State) : Prop := t = { s with contexts := t.contexts, packets := t.packets }

theorem OnlyAcks.trans (a : OnlyAcks s t) (b : OnlyAcks t r) : OnlyAcks s r := by
  unfold OnlyAcks at *
  rw [b, a]

theorem OnlyAcks.modStream (s : State) (asid dev : Nat) (f : Stream → Stream) : OnlyAcks s (s.modStream asid dev f) := by
  unfold State.modStream State.modCtx
  split <;> rfl

theorem OnlyAcks.sendPacket (s : State) (dev : Nat) (p : Packet) : OnlyAcks s (s.sendPacket dev p) := by
  unfold State.sendPacket
  split <;> rfl

theorem OnlyAcks.sendAcks (s : State) (asid : Nat) : OnlyAcks s (s.sendAcks asid) := by
  unfold State.sendAcks
  cases s.ctx? asid with
  | none => rfl
  | some c =>
    dsimp only
    generalize c.streams = l
    induction l generalizing s with
    | nil => rfl
    | cons e l ih =>
      rw [List.foldl_cons]
      refine OnlyAcks.trans ?_ (ih _)
      split
      · exact (OnlyAcks.modStream ..).trans (.sendPacket ..)
      · rfl

/-- A payload that fits in one frame (R532). -/
theorem sendFrame_short (s : State) (type : Nat) (tag : W32) {p : List Byte} (hp : p.length < 4096) :
    s.sendFrame type tag p = s.sendOne { type := type, flags := 2, tag := tag, payload := p } := by
  rw [State.sendFrame, Nat.div_eq_of_lt hp]
  rfl

/-- A grid that ends is forgotten, and the host is told of one that it launched (R390). -/
theorem endGrid_spec {g : Grid} (hs : g.status = 0) :
    (s.endGrid gid g 0).mem = s.mem ∧ (s.endGrid gid g 0).teams = s.teams ∧ mfind (s.endGrid gid g 0).grids gid = none ∧
      ∀ tag, g.tag = some tag → Claims.SentLast (s.endGrid gid g 0) {
        type := 3, flags := 2, tag := tag, payload := toBytes 4 gid ++ toBytes 4 0 } := by
  have hrun : s.endGrid gid g 0 = (({ s with grids := mdel s.grids gid } : State).gridComplete gid g 0).sendAcks g.asid := by
    simp only [State.endGrid, hs, ne_eq, not_true, if_false]
  have hacks := OnlyAcks.sendAcks (({ s with grids := mdel s.grids gid } : State).gridComplete gid g 0) g.asid
  rw [← hrun] at hacks
  rw [hacks]
  cases htag : g.tag with
  | none =>
    have hnone : ({ s with grids := mdel s.grids gid } : State).gridComplete gid g 0 =
        { s with grids := mdel s.grids gid } := by simp only [State.gridComplete, htag]
    rw [hnone]
    exact ⟨rfl, rfl, mfind_mdel_same .., fun tag h => nomatch h⟩
  | some tag =>
    have hsome : ({ s with grids := mdel s.grids gid } : State).gridComplete gid g 0 =
        ({ s with grids := mdel s.grids gid } : State).sendOne {
          type := 3, flags := 2, tag := tag, payload := toBytes 4 gid ++ toBytes 4 0 } := by
      simp only [State.gridComplete, htag]
      exact sendFrame_short _ _ _ (by simp)
    rw [hsome]
    refine ⟨rfl, rfl, mfind_mdel_same .., fun tag' h => ?_⟩
    cases h
    exact List.getLast?_concat

/-- A grid with teams to finish goes on (R385). -/
theorem completeGrid_more {g : Grid} (hg : mfind s.grids gid = some g) (hf : g.finished.length < g.record.teams) :
    s.completeGrid gid = s := by
  simp only [State.completeGrid, hg, if_pos hf]

/-- A grid whose teams have finished adds to its DONE word (R385). -/
theorem completeGrid_done {g : Grid} {pa : Nat} (hg : mfind s.grids gid = some g)
    (hf : g.finished.length = g.record.teams) (hd : g.record.done ≠ 0) (hs : g.status = 0) (ha : s.doneAdd g = .at pa) :
    s.completeGrid gid = (s.perform (pairsAt pa (toBytes 8 (readNat s.mem pa 8 + 1)))).endGrid gid g 0 := by
  simp [State.completeGrid, hg, hf, hd, hs, ha]

/-! ### Team exit -/

/-- A team that is done leaves its core (R211, R478). -/
theorem teamExit_run (hx : s.team? u = some x) (hr : s.runs u = true) (hd : s.teamDone u x = true)
    (hc : x.cluster = [u]) (he : x.deferred = []) (hseq : ∀ e ∈ x.body.seq.hmem, e.1 < 256) (hk : x.checks = none)
    (hk' : x.checker = none) (hw : (s.flush u).doneWaits x = false) :
    ∃ (t : State) (y : Team), exec (.evTeamExit u) s = .next ((t.left u y).completeGrid y.grid).tick ∧ Abides s t ∧
      t.team? u = some y ∧ y.kin = x.kin := by
  have hflush := Abides.flush hx hc he
  obtain ⟨y, hy, hky⟩ : ∃ y, (s.flush u).team? u = some y ∧ y.kin = x.kin := by simpa [hx] using hflush.teams u
  have hcy : y.cluster = [u] := (congrArg Team.cluster hky :).trans hc
  have hny : y.checker = none := (congrArg Team.checker hky :).trans hk'
  have hlap := hflush.trans (Abides.newLap hy hcy hny)
  obtain ⟨z, hz, hkz⟩ : ∃ z, ((s.flush u).newLap u).team? u = some z ∧ z.kin = x.kin := by simpa [hx] using hlap.teams u
  have hsz : z.body.seq.hmem = x.body.seq.hmem := (congrArg (fun w : Team => w.body.seq.hmem) hkz :)
  refine ⟨(s.flush u).newLap u, z, ?_, hlap, hz, hkz⟩
  change execEvTeamExit u s = _
  have hdrop : ((s.flush u).newLap u).dropSeq u = (s.flush u).newLap u := dropSeq_none hz (by rwa [hsz])
  simp only [execEvTeamExit, hx, hr, hd, commitHeld_empty hx hc he, hk, hw, hdrop, finishTeam_run hz, Bool.not_true,
    Bool.or_self, Option.isSome_none, Bool.false_eq_true, if_false]

/-- A grid of which more is known than that it was noted as met. -/
theorem Abides.grid (a : Abides s t) {k : Nat} {g : Grid} (hg : mfind s.grids k = some g) :
    ∃ g', mfind t.grids k = some g' ∧ g'.unmet = g.unmet := by
  simpa [hg] using a.grids k

/-- Nothing waits for a grid that has more teams to finish. -/
theorem doneWaits_more {g : Grid} (hg : mfind s.grids x.grid = some g) (hf : g.finished.length + 1 < g.record.teams) :
    s.doneWaits x = false := by
  have : (g.finished.length + 1 == g.record.teams) = false := by simp; omega
  simp only [State.doneWaits, hg, this, Bool.false_and]

theorem doneWaits_at {g : Grid} {pa : Nat} (hg : mfind s.grids x.grid = some g) (ha : s.doneAdd g = .at pa) :
    s.doneWaits x = false := by
  simp [State.doneWaits, hg, ha]

/-- Where the DONE add of a grid goes, in a state that a team's exit has come to. -/
theorem Abides.doneAdd (a : Abides s t) {g g' : Grid} {pa : Nat} (hg : g'.unmet = g.unmet) (hd : s.doneAdd g = .at pa) :
    t.doneAdd g' = .at pa := by
  have hrec : g'.record = g.record := (congrArg Grid.record hg :)
  have hasid : g'.asid = g.asid := (congrArg Grid.asid hg :)
  rw [doneAdd_congr hrec hasid]
  have ho : t.ordRecs = s.ordRecs := by rw [a.rest]
  have he : t.engines = s.engines := by rw [a.rest]
  exact doneAdd_at a.sameTables ho (ownedRange_of_copies he a.copies) hd

theorem SameTables.trans (a : SameTables s t) (b : SameTables t r) : SameTables s r :=
  ⟨b.mem.trans a.mem, b.poison.trans a.poison, b.retired.trans a.retired, b.tlb.trans a.tlb, b.tables.trans a.tables,
    b.stamp.trans a.stamp, fun k => (b.roots k).trans (a.roots k)⟩

section

variable {d : Grid} (hx : s.team? u = some x) (hr : s.runs u = true) (hd : s.teamDone u x = true)
  (hc : x.cluster = [u]) (he : x.deferred = []) (hseq : ∀ e ∈ x.body.seq.hmem, e.1 < 256) (hk : x.checks = none)
  (hk' : x.checker = none) (hg : mfind s.grids x.grid = some d)

include hx hr hd hc he hseq hk hk' hg

/-- A team that leaves while its grid has more to finish (R211, R314). -/
theorem teamExit_more (hf : d.finished.length + 1 < d.record.teams) :
    ∃ t g', exec (.evTeamExit u) s = .next t ∧ Claims.SameMem s t ∧ t.team? u = none ∧
      (∀ b, b ∈ t.bindings ↔ b ∈ s.bindings ∧ b.owner ≠ u) ∧ mfind t.grids x.grid = some g' ∧
      g'.finished = d.finished ++ [x.teamId] := by
  have hwait : (s.flush u).doneWaits x = false := by
    obtain ⟨g1, hg1, hu1⟩ := (Abides.flush hx hc he).grid hg
    have hfin : g1.finished = d.finished := (congrArg Grid.finished hu1 :)
    have hrec : g1.record = d.record := (congrArg Grid.record hu1 :)
    exact doneWaits_more hg1 (by rw [hfin, hrec]; exact hf)
  obtain ⟨t, y, hrun, ha, hy, hky⟩ := teamExit_run hx hr hd hc he hseq hk hk' hwait
  have hgy : y.grid = x.grid := (congrArg Team.grid hky :)
  have hty : y.teamId = x.teamId := (congrArg Team.teamId hky :)
  have hl := left_spec hy ((congrArg Team.cluster hky :).trans hc)
  obtain ⟨g1, hg1, hu1⟩ := ha.grid hg
  have hfin : g1.finished = d.finished := (congrArg Grid.finished hu1 :)
  have hrec : g1.record = d.record := (congrArg Grid.record hu1 :)
  have hg2 := hl.grid
  rw [hgy, hg1, hty, Option.map_some] at hg2
  have hmem : t.mem = s.mem := by rw [ha.rest]
  have hbind : t.bindings = s.bindings := by rw [ha.rest]
  have hsame : (t.left u y).completeGrid y.grid = t.left u y := by
    rw [hgy]
    refine completeGrid_more hg2 ?_
    rw [List.length_append, List.length_singleton, hfin, hrec]
    exact hf
  rw [hsame] at hrun
  refine ⟨_, _, hrun, fun a => congrArg (readByte · a) (hl.tables.mem.trans hmem), hl.team, fun b => ?_, hg2, by rw [hfin]⟩
  rw [← hbind]
  exact hl.bindings b

/-- The last team of a grid: the DONE word is added to and the host is told (R385, R390). -/
theorem teamExit_last {pa : Nat} (hf : d.finished.length + 1 = d.record.teams) (hdone : d.record.done ≠ 0)
    (hst : d.status = 0) (hadd : s.doneAdd d = .at pa) :
    ∃ t, exec (.evTeamExit u) s = .next t ∧ t.team? u = none ∧ mfind t.grids x.grid = none ∧
      Claims.Stored s t (pairsAt pa (toBytes 8 (readNat s.mem pa 8 + 1))) ∧
      ∀ tag, d.tag = some tag → Claims.SentLast t {
        type := 3, flags := 2, tag := tag, payload := toBytes 4 x.grid ++ toBytes 4 0 } := by
  have hwait : (s.flush u).doneWaits x = false := by
    have hflush := Abides.flush hx hc he
    obtain ⟨g1, hg1, hu1⟩ := hflush.grid hg
    exact doneWaits_at hg1 (hflush.doneAdd hu1 hadd)
  obtain ⟨t, y, hrun, ha, hy, hky⟩ := teamExit_run hx hr hd hc he hseq hk hk' hwait
  have hgy : y.grid = x.grid := (congrArg Team.grid hky :)
  have hl := left_spec hy ((congrArg Team.cluster hky :).trans hc)
  obtain ⟨g1, hg1, hu1⟩ := ha.grid hg
  have hfin : g1.finished = d.finished := (congrArg Grid.finished hu1 :)
  have hrec : g1.record = d.record := (congrArg Grid.record hu1 :)
  have hst1 : g1.status = 0 := (congrArg Grid.status hu1 :).trans hst
  have htag : g1.tag = d.tag := (congrArg Grid.tag hu1 :)
  let g2 : Grid := { g1 with finished := g1.finished ++ [y.teamId] }
  have hg2 : mfind (t.left u y).grids x.grid = some g2 := by
    have := hl.grid
    rwa [hgy, hg1, Option.map_some] at this
  have hmem : (t.left u y).mem = s.mem := hl.tables.mem.trans (by rw [ha.rest])
  have hadd2 : (t.left u y).doneAdd g2 = .at pa :=
    doneAdd_at hl.tables hl.ordRecs (ownedRange_of_copies hl.engines hl.copies) (ha.doneAdd (g' := g1) hu1 hadd)
  have hdone2 := completeGrid_done hg2 (by rw [List.length_append, List.length_singleton, hfin, hrec]; exact hf)
    (by rw [hrec]; exact hdone) hst1 hadd2
  obtain ⟨hstored, hnone⟩ := perform_spec (u := u) (t.left u y) (pairsAt pa (toBytes 8 (readNat (t.left u y).mem pa 8 + 1)))
  obtain ⟨hm, ht, hgr, hsent⟩ := endGrid_spec (gid := x.grid)
    (s := (t.left u y).perform (pairsAt pa (toBytes 8 (readNat (t.left u y).mem pa 8 + 1)))) (g := g2) hst1
  rw [hgy, hdone2] at hrun
  refine ⟨_, hrun, ?_, hgr, fun a => ?_, fun tag h => hsent tag (htag.trans h)⟩
  · rw [State.team?_tick, State.team?, ht]
    exact hnone hl.team
  · have := hstored a
    rw [hmem] at this
    exact (congrArg (readByte · a) hm).trans (by rw [hmem]; exact this)

end

end

end Sys2Proof.Machine

/-! SUPPORT. What the end of a heat leaves of the lanes of every heat: hurdles release only lanes that are parked at
them (R210, R217–R221). -/

namespace Sys2Proof.Machine

section

variable {s t r : State} {h h' h'' : Heat} {u v g : Nat} {x : Team}

/-- Whether a lane is parked at a hurdle. -/
def Park.atHurdle (p : Park) : Bool :=
  match p with
  | .regHurdle _ _ => true
  | .waitHurdle _ _ => true
  | _ => false

theorem Park.regHurdle_beq {k : Park} {a : Bool} {b : Nat} (hk : k.atHurdle = false) : (k == .regHurdle a b) = false := by
  refine beq_eq_false_iff_ne.mpr fun e => ?_
  rw [e] at hk
  cases hk

theorem Park.waitHurdle_beq {k : Park} {a : Bool} {b : Nat} (hk : k.atHurdle = false) : (k == .waitHurdle a b) = false := by
  refine beq_eq_false_iff_ne.mpr fun e => ?_
  rw [e] at hk
  cases hk

/-- A heat keeps its vector registers and predicates, and every lane that is not parked at a hurdle. -/
structure Heat.Calm (h h' : Heat) : Prop where
  rows : h'.rows = h.rows
  preds : h'.preds = h.preds
  lanes : ∀ l, (h.lane l).park.atHurdle = false → h'.lane l = h.lane l

theorem Heat.Calm.refl (h : Heat) : h.Calm h := ⟨rfl, rfl, fun _ _ => rfl⟩

theorem Heat.Calm.trans (a : h.Calm h') (b : h'.Calm h'') : h.Calm h'' := by
  refine ⟨b.rows.trans a.rows, b.preds.trans a.preds, fun l hl => ?_⟩
  have := a.lanes l hl
  rw [b.lanes l (by rwa [this]), this]

/-- From s to t only teams and cores change, and the heats of teams stay calm. -/
structure Calm (s t : State) : Prop where
  only : OnlyUnits s t
  heats : ∀ u g h, u < trapBase → s.heat? u g = some h → ∃ h', t.heat? u g = some h' ∧ h.Calm h'

theorem Calm.refl (s : State) : Calm s s := ⟨.refl s, fun _ _ h _ hh => ⟨h, hh, .refl h⟩⟩

theorem Calm.trans (a : Calm s t) (b : Calm t r) : Calm s r := by
  refine ⟨a.only.trans b.only, fun u g h hu hh => ?_⟩
  obtain ⟨h1, hh1, c1⟩ := a.heats u g h hu hh
  obtain ⟨h2, hh2, c2⟩ := b.heats u g h1 hu hh1
  exact ⟨h2, hh2, c1.trans c2⟩

theorem Calm.foldl {α : Type} {f : State → α → State} (hf : ∀ s a, Calm s (f s a)) (l : List α) (s : State) :
    Calm s (l.foldl f s) := by
  induction l generalizing s with
  | nil => exact .refl s
  | cons a l ih => exact (hf s a).trans (ih _)

/-- A change of a team that leaves its heats. -/
theorem Calm.modTeam {f : Team → Team} (hf : ∀ y k, (f y).heat? k = y.heat? k) : Calm s (s.modTeam u f) :=
  ⟨.modTeam .., fun v k h _ hh => ⟨h, (State.heat?_modTeam hf v k).trans hh, .refl h⟩⟩

theorem State.heat?_putHeat (hv : v < trapBase) (hh : s.heat? u g = some h) (h' : Heat) (k : Nat) :
    (s.putHeat u g h').heat? v k = if v = u ∧ k = g then some h' else s.heat? v k := by
  have hnv : ¬ trapBase ≤ v := Nat.not_le.mpr hv
  by_cases hu : trapBase ≤ u
  · have hne : v ≠ u := by omega
    simp [State.putHeat, hu, State.heat?, hnv, hne]
  · obtain ⟨x, hx, hput⟩ := State.putHeat_team (y := h') hu hh
    rw [hput]
    simp only [State.heat?, if_neg hnv, State.team?_putTeam]
    by_cases huv : u = v
    · subst huv
      simp only [if_true, Team.heat?_putHeat, true_and, hx]
      exact if_congr eq_comm rfl rfl
    · rw [if_neg huv, if_neg (fun e => huv e.1.symm)]

theorem OnlyUnits.putHeat (s : State) (u g : Nat) (h : Heat) : OnlyUnits s (s.putHeat u g h) := by
  unfold State.putHeat
  split
  · exact .putCore ..
  · exact .modTeam ..

theorem Calm.putHeat (hh : s.heat? u g = some h) (hc : h.Calm h') : Calm s (s.putHeat u g h') := by
  refine ⟨.putHeat .., fun v k y hv hy => ?_⟩
  rw [State.heat?_putHeat hv hh]
  split
  next he =>
    obtain ⟨rfl, rfl⟩ := he
    cases hh.symm.trans hy
    exact ⟨h', rfl, hc⟩
  next => exact ⟨y, hy, .refl y⟩

theorem Calm.modHeat {f : Heat → Heat} (hc : ∀ h : Heat, h.Calm (f h)) : Calm s (s.modHeat u g f) := by
  unfold State.modHeat
  split
  · exact .refl s
  next hh => exact .putHeat hh (hc _)

/-! ### Hurdles (R214–R221) -/

theorem TeamBody.heats_writeSpad (b : TeamBody) (ws : List (Nat × Byte)) :
    ((b.noteLines (ws.map Prod.fst)).writeSpad ws).heats = b.heats :=
  rfl

theorem Calm.writeSpad {ws : List (Nat × Byte)} : Calm s (s.writeSpad u ws) := by
  unfold State.writeSpad
  split
  · exact .refl s
  · exact .modTeam fun y k => by simp only [Team.heat?, TeamBody.heats_writeSpad]

theorem Calm.putHurdle {i : HId} {w : HWord} : Calm s (s.putHurdle u i w) := .writeSpad

theorem Calm.modSeq {f : Seq → Seq} : Calm s (s.modSeq u f) := .modTeam fun _ _ => rfl

theorem Calm.putMember {i : HId} {m : HMember} : Calm s (s.putMember u g i m) := by
  unfold State.putMember
  split
  · exact .modSeq
  · exact .modHeat fun h => ⟨rfl, rfl, fun _ _ => rfl⟩

/-- Only lanes whose park the test picks are released. -/
theorem Heat.Calm.release {p : Park → Bool} (hp : ∀ k, k.atHurdle = false → p k = false) (h : Heat) (stamp : Nat) :
    h.Calm (h.release stamp p) := by
  have hkeep {β : Type} (q : Heat → β) (hq : ∀ y l z, q (Heat.setLane y l z) = q y) :=
    Heat.forLanes_keeps q (fun y l => y.setLane l ((y.lane l).goOn stamp)) (fun y l => hq y l _) h
      (maskOf (fun l => p (h.lane l).park))
  refine ⟨hkeep Heat.rows fun _ _ _ => rfl, hkeep Heat.preds fun _ _ _ => rfl, fun l hl => ?_⟩
  rw [Heat.release, Heat.lane_forLanes h _ (fun _ x => x.goOn stamp)]
  rw [if_neg]
  rw [inMask_maskOf]
  simp [hp _ hl]

theorem Calm.releaseUnit {i : HId} {phase : W32} {m : HMember} {e : Nat × Nat} : Calm s (s.releaseUnit i phase m e) := by
  unfold State.releaseUnit
  dsimp only
  split
  · split
    · exact .refl s
    · split
      · exact .refl s
      · split
        · exact Calm.modSeq.trans .putMember
        · exact .modSeq
  · split
    · exact .refl s
    next h hh =>
      split
      · exact .refl s
      · have hcalm : Calm s (s.putHeat e.1 e.2 (h.release s.stamp (fun p => p == .regHurdle i.cluster i.h ||
            (p == .waitHurdle i.cluster i.h && later phase m.wait)))) := by
          refine .putHeat hh (.release (fun k hk => ?_) h s.stamp)
          rw [Park.regHurdle_beq hk, Park.waitHurdle_beq hk, Bool.false_and, Bool.or_self]
        split
        · exact hcalm.trans .putMember
        · exact hcalm

theorem Calm.advanceUnit {i : HId} {phase : W32} {e : Nat × Nat} : Calm s (s.advanceUnit i phase e) :=
  Calm.putMember.trans .releaseUnit

theorem Calm.noteAdvance {i : HId} : Calm s (s.noteAdvance u i) := by
  unfold State.noteAdvance
  split
  · exact .refl s
  · exact .modTeam fun _ _ => rfl

theorem Calm.advance {i : HId} : Calm s (s.advance u i) := by
  unfold State.advance
  dsimp only
  split
  · exact .refl s
  · exact (Calm.putHurdle.trans .noteAdvance).trans (Calm.foldl (fun _ _ => .advanceUnit) _ _)

theorem Calm.advanceWaiting (n : Nat) (s : State) : Calm s (s.advanceWaiting u n) := by
  induction n generalizing s with
  | zero => exact .refl s
  | succ n ih =>
    unfold State.advanceWaiting
    split
    · exact .refl s
    · split
      · exact .refl s
      · split
        · exact .refl s
        · exact Calm.advance.trans (ih _)

theorem Calm.raiseArr {i : HId} : Calm s (s.raiseArr u i) :=
  (Calm.putHurdle.trans .advance).trans (.advanceWaiting ..)

theorem Calm.dropUnit {i : HId} : Calm s (s.dropUnit u g i) := by
  unfold State.dropUnit
  dsimp only
  split
  · exact .refl s
  · split
    · exact (Calm.putHurdle.trans .putMember).trans .raiseArr
    · exact Calm.putHurdle.trans .putMember

theorem Calm.endHeat : Calm s (s.endHeat u g) := by
  unfold State.endHeat
  split
  · exact .refl s
  next h hh =>
    exact (Calm.putHeat hh (h' := { h with ended := true }) ⟨rfl, rfl, fun _ _ => rfl⟩).trans
      (Calm.foldl (f := fun s k => s.dropUnit u g ⟨decide (256 ≤ k), k % 256⟩) (fun _ _ => .dropUnit) _ _)

theorem Calm.endIfEmpty : Calm s (s.endIfEmpty u g) := by
  unfold State.endIfEmpty
  split
  · exact .refl s
  · split
    · exact .endHeat
    · exact .refl s

end

end Sys2Proof.Machine

/-! SUPPORT. The counts of a resample add up to N, and its members are those of the gathering (R235, R413, R423). -/

namespace Sys2Proof.Machine

section

variable {s : State} {g : Grid} {n total u : Nat} {m : Member}

/-! ### F at its ends, and the sum of the counts (R235) -/

theorem countF_zero (n total : Nat) (hu : u < 2 ^ 53) : countF n total u 0 = 0 := by
  unfold countF
  by_cases ht : total = 0
  · simp [ht]
  · refine Nat.div_eq_of_lt ?_
    rw [Nat.mul_zero, Nat.zero_mul, Nat.zero_add, Nat.mul_comm total]
    exact Nat.mul_lt_mul_of_pos_right hu (Nat.pos_of_ne_zero ht)

theorem countF_total (n : Nat) (ht : 0 < total) (hu : u < 2 ^ 53) : countF n total u total = n := by
  have hcommon : n * total * 2 ^ 53 + u * total = total * (n * 2 ^ 53 + u) := by ring
  rw [countF, hcommon, Nat.mul_div_mul_left _ _ ht, Nat.add_comm, Nat.add_mul_div_right _ _ (by norm_num),
    Nat.div_eq_of_lt hu, Nat.zero_add]

theorem countF_mono (n total u : Nat) {a b : Nat} (h : a ≤ b) : countF n total u a ≤ countF n total u b :=
  Nat.div_le_div_right (Nat.add_le_add_right (Nat.mul_le_mul_right _ (Nat.mul_le_mul_left n h)) _)

/-- The counts telescope. -/
theorem sum_copyCounts (n total u : Nat) (ws : List Nat) (acc : Nat) :
    (copyCounts n total u acc ws).sum = countF n total u (acc + ws.sum) - countF n total u acc := by
  induction ws generalizing acc with
  | nil => simp [copyCounts]
  | cons w t ih =>
    have hfirst : countF n total u acc ≤ countF n total u (acc + w) := countF_mono _ _ _ (by omega)
    have hrest : countF n total u (acc + w) ≤ countF n total u (acc + w + t.sum) := countF_mono _ _ _ (by omega)
    rw [copyCounts, List.sum_cons, List.sum_cons, ih, ← Nat.add_assoc]
    omega

theorem length_copyCounts (n total u : Nat) (ws : List Nat) (acc : Nat) :
    (copyCounts n total u acc ws).length = ws.length := by
  induction ws generalizing acc with
  | nil => rfl
  | cons w t ih => rw [copyCounts, List.length_cons, List.length_cons, ih]

/-! ### The outcome -/

/-- The weights a resample counts by: the members' own, or all 1 where these are all zero (R423). -/
def memberWeights (ms : List Member) : List Nat :=
  let ws := ms.map (fun m => weightOf m.issue.weight)
  if ws.foldl (· + ·) 0 = 0 then ws.map (fun _ => 1) else ws

theorem sum_map_one {α : Type} (l : List α) : (l.map (fun _ => 1)).sum = l.length := by
  rw [List.map_const', List.sum_replicate, smul_eq_mul, mul_one]

theorem length_memberWeights (ms : List Member) : (memberWeights ms).length = ms.length := by
  unfold memberWeights
  dsimp only
  split <;> simp

theorem sum_memberWeights_pos {ms : List Member} (hne : ms ≠ []) : 0 < (memberWeights ms).sum := by
  unfold memberWeights
  dsimp only
  split
  · rw [sum_map_one, List.length_map]
    exact List.length_pos_iff.mpr hne
  next hsum => exact Nat.pos_of_ne_zero fun he => hsum (List.sum_eq_foldl.symm.trans he)

theorem outcome_counts (g : Grid) (ms : List Member) :
    (g.outcome ms).counts = ms.zip (copyCounts (g.outcome ms).n (memberWeights ms).sum (g.resampleU ms).1 0
      (memberWeights ms)) := by
  simp only [Grid.outcome, memberWeights]
  split
  · rw [sum_map_one, List.length_map]
  · rw [List.sum_eq_foldl]

theorem outcome_members (g : Grid) (ms : List Member) : (g.outcome ms).counts.map Prod.fst = ms := by
  rw [outcome_counts, List.map_fst_zip]
  rw [length_copyCounts, length_memberWeights]

theorem resampleU_lt {ms : List Member} (hu : ∀ m ∈ ms, ∀ n, m.issue.u = some n → n < 2 ^ 53) :
    (g.resampleU ms).1 < 2 ^ 53 := by
  have hdrawn : (draw g.record.seed 0#64 g.round).toNat / 2 ^ 11 < 2 ^ 53 := by
    have := (draw g.record.seed 0#64 g.round).isLt
    omega
  unfold Grid.resampleU
  dsimp only
  split
  · exact hdrawn
  · split
    next hs =>
      split
      · exact hu _ List.mem_cons_self _ hs
      · exact hdrawn
    next => exact hdrawn

/-- N is the sum of the counts. -/
theorem sum_outcome {ms : List Member} (hne : ms ≠ []) (hu : ∀ m ∈ ms, ∀ n, m.issue.u = some n → n < 2 ^ 53) :
    ((g.outcome ms).counts.map (fun e => e.2)).sum = (g.outcome ms).n := by
  have hlt := resampleU_lt (g := g) hu
  rw [outcome_counts, List.map_snd_zip, sum_copyCounts, Nat.zero_add, countF_total _ (sum_memberWeights_pos hne) hlt,
    countF_zero _ _ hlt, Nat.sub_zero]
  rw [length_copyCounts, length_memberWeights]

/-! ### The members -/

theorem insertMember_perm (m : Member) (l : List Member) : (insertMember m l).Perm (m :: l) := by
  induction l with
  | nil => exact .refl _
  | cons x t ih =>
    unfold insertMember
    split
    · exact .refl _
    · exact (ih.cons x).trans (.swap m x t)

/-- Every issue of a gathering whose heats exist has one member. -/
theorem memberList_perm (hh : ∀ r ∈ g.gathering, ∃ h, s.heat? r.team r.heat = some h) :
    ((s.memberList g).map Member.issue).Perm g.gathering := by
  unfold State.memberList
  generalize g.gathering = l at hh
  induction l with
  | nil => exact .refl _
  | cons r l ih =>
    obtain ⟨h, hr⟩ := hh r List.mem_cons_self
    rw [List.foldr_cons, hr]
    exact ((insertMember_perm _ _).map Member.issue).trans
      ((ih fun r hr => hh r (List.mem_cons_of_mem _ hr)).cons r)

end

end Sys2Proof.Machine

/-! SUPPORT. A resample that fails: every member stays parked, to raise the population trap (R420, R427). -/

namespace Sys2Proof.Machine

section

variable {s t r : State} {h h' h'' : Heat} {u v g k gid n : Nat} {d : Grid}

/-- Where a member of a population stands: its team, heat and lane. -/
def RsmpRec.spot (r : RsmpRec) : Nat × Nat × Nat := (r.team, r.heat, r.lane)

/-! ### The members that stay parked -/

/-- A heat in which the members of a list that stand at an RSMP wait for its population trap. -/
structure Heat.Failed (h h' : Heat) (reason : Nat) (p : Nat → Prop) : Prop where
  rows : h'.rows = h.rows
  preds : h'.preds = h.preds
  s : h'.s = h.s
  a : h'.a = h.a
  parked : ∀ l, p l → (h.lane l).park = .rsmp → h'.lane l = { h.lane l with park := .retryRsmp reason }
  others : ∀ l, (h.lane l).park ≠ .rsmp ∨ ¬ p l → h'.lane l = h.lane l

theorem Heat.Failed.refl (h : Heat) (reason : Nat) {p : Nat → Prop} (hp : ∀ l, ¬ p l) : h.Failed h reason p :=
  ⟨rfl, rfl, rfl, rfl, fun l hl => absurd hl (hp l), fun _ _ => rfl⟩

/-- Members fail in turn; one that has failed stands as it is. -/
theorem Heat.Failed.trans {reason : Nat} {p q w : Nat → Prop} (a : h.Failed h' reason p) (b : h'.Failed h'' reason q)
    (hw : ∀ l, w l ↔ p l ∨ q l) : h.Failed h'' reason w := by
  refine ⟨b.rows.trans a.rows, b.preds.trans a.preds, b.s.trans a.s, b.a.trans a.a, fun l hl hpark => ?_, fun l hl => ?_⟩
  · by_cases hp : p l
    · have hfirst := a.parked l hp hpark
      rw [b.others l (.inl (by rw [hfirst]; exact Park.noConfusion)), hfirst]
    · have hfirst := a.others l (.inr hp)
      rw [b.parked l (((hw l).mp hl).resolve_left hp) (by rw [hfirst]; exact hpark), hfirst]
  · have hfirst := a.others l (hl.imp_right fun hn hp => hn ((hw l).mpr (.inl hp)))
    rw [b.others l (by rw [hfirst]; exact hl.imp_right fun hn hq => hn ((hw l).mpr (.inr hq))), hfirst]

/-- A lane parked at an RSMP waits for its trap. -/
def Heat.failLane (reason l : Nat) (h : Heat) : Heat :=
  let x := h.lane l
  if x.park = .rsmp then h.setLane l { x with park := .retryRsmp reason } else h

theorem Heat.failed_failLane (h : Heat) (reason l : Nat) : h.Failed (h.failLane reason l) reason (· = l) := by
  unfold Heat.failLane
  dsimp only
  split
  next hpark =>
    refine ⟨rfl, rfl, rfl, rfl, fun j hj _ => ?_, fun j hj => ?_⟩
    · rw [hj, Heat.lane_setLane, if_pos rfl]
    · rw [Heat.lane_setLane, if_neg]
      rintro rfl
      exact hj.elim (· hpark) (· rfl)
  next hpark =>
    exact ⟨rfl, rfl, rfl, rfl, fun j hj hp => absurd (hj ▸ hp) hpark, fun _ _ => rfl⟩

/-- From s to t only the members of a list fail. -/
structure Fails (s t : State) (reason : Nat) (rs : List RsmpRec) : Prop where
  only : OnlyUnits s t
  heats : ∀ u g h, u < trapBase → s.heat? u g = some h →
    ∃ h', t.heat? u g = some h' ∧ h.Failed h' reason (fun l => (u, g, l) ∈ rs.map RsmpRec.spot)

theorem OnlyUnits.modHeat (s : State) (u g : Nat) (f : Heat → Heat) : OnlyUnits s (s.modHeat u g f) := by
  unfold State.modHeat
  split
  · exact .refl s
  · exact .putHeat ..

theorem State.heat?_modHeat (hv : v < trapBase) (f : Heat → Heat) :
    (s.modHeat u g f).heat? v k = (s.heat? v k).map (if v = u ∧ k = g then f else id) := by
  unfold State.modHeat
  split
  next hn =>
    split
    next he =>
      obtain ⟨rfl, rfl⟩ := he
      rw [hn]
      rfl
    next => rw [Option.map_id]; rfl
  next h hh =>
    rw [State.heat?_putHeat hv hh]
    split
    next he =>
      obtain ⟨rfl, rfl⟩ := he
      rw [hh]
      rfl
    next => rw [Option.map_id]; rfl

theorem fails_foldl (reason : Nat) (rs : List RsmpRec) (s : State) :
    Fails s (rs.foldl (fun s r => s.modHeat r.team r.heat (Heat.failLane reason r.lane)) s) reason rs := by
  induction rs generalizing s with
  | nil => exact ⟨.refl s, fun u g h _ hh => ⟨h, hh, .refl h reason fun _ => List.not_mem_nil⟩⟩
  | cons r rs ih =>
    obtain ⟨honly, hheats⟩ := ih (s.modHeat r.team r.heat (Heat.failLane reason r.lane))
    refine ⟨(OnlyUnits.modHeat ..).trans honly, fun u g h hu hh => ?_⟩
    have hstep := (State.heat?_modHeat (u := r.team) (g := r.heat) hu (Heat.failLane reason r.lane)).trans
      (congrArg (Option.map _) hh)
    obtain ⟨h', hh', hfail⟩ := hheats u g _ hu hstep
    refine ⟨h', hh', ?_⟩
    by_cases he : u = r.team ∧ g = r.heat
    · rw [if_pos he] at hfail
      refine (h.failed_failLane reason r.lane).trans hfail fun l => ?_
      rw [List.map_cons, List.mem_cons, RsmpRec.spot, Prod.mk.injEq, Prod.mk.injEq]
      simp [he]
    · rw [if_neg he] at hfail
      refine (Heat.Failed.refl h reason fun _ => not_false).trans hfail fun l => ?_
      rw [List.map_cons, List.mem_cons, RsmpRec.spot, Prod.mk.injEq, Prod.mk.injEq, ← and_assoc]
      simp [he]

/-! ### The event -/

theorem resample_gathered (hg : mfind s.grids gid = some d) (hc : s.gathered gid d = true) :
    exec (.evResampleCompletion gid) s =
      let o := d.outcome (s.memberList d)
      if (s.memberList d).any (fun m => m.issue.count != o.n) then .next (s.popTrap gid d 4)
      else if s.cloneRoom gid d < o.n - (o.counts.filter (fun e => decide (e.2 ≠ 0))).length then
        .next (s.popTrap gid d 6)
      else .next ((((s.applyBoth o).logSegment d.asid (segment gid d o)).placeClones d.asid
        (s.clones d.record o o.counts 0)).keepClones gid s |>.modGrid gid (fun g => { g with
          round := g.round + 1#64, gathering := [], popSize := some o.n })).tick := by
  change execEvResampleCompletion gid s = _
  unfold execEvResampleCompletion
  rw [hg]
  dsimp only
  rw [hc]
  rfl

/-- Members that name different counts, or more clones than there is room for, fail the resample. -/
theorem resample_failed_run {reason : Nat} (hg : mfind s.grids gid = some d) (hc : s.gathered gid d = true) :
    let o := d.outcome (s.memberList d)
    ((∃ m ∈ s.memberList d, m.issue.count ≠ o.n) ∧ reason = 4) ∨
      ((∀ m ∈ s.memberList d, m.issue.count = o.n) ∧ reason = 6 ∧
        s.cloneRoom gid d < o.n - (o.counts.filter (fun e => decide (e.2 ≠ 0))).length) →
    exec (.evResampleCompletion gid) s = .next (s.popTrap gid d reason) := by
  intro o hcase
  refine (resample_gathered hg hc).trans ?_
  rcases hcase with ⟨⟨m, hm, hne⟩, rfl⟩ | ⟨hall, rfl, hroom⟩
  · exact if_pos (List.any_eq_true.mpr ⟨m, hm, (bne_iff_ne (a := m.issue.count)).mpr hne⟩)
  · refine (if_neg fun hany => ?_).trans (if_pos hroom)
    obtain ⟨m, hm, hne⟩ := List.any_eq_true.mp hany
    exact (bne_iff_ne (a := m.issue.count)).mp hne (hall m hm)

theorem State.heat?_modGrid (s : State) (k : Nat) (f : Grid → Grid) (v j : Nat) :
    (s.modGrid k f).heat? v j = s.heat? v j := by
  rw [State.modGrid_eq]
  rfl

theorem State.mem_modGrid (s : State) (k : Nat) (f : Grid → Grid) : (s.modGrid k f).mem = s.mem := by
  rw [State.modGrid_eq]

/-- A failed resample changes no register and leaves every member parked. -/
theorem resample_failed {reason : Nat} (hg : mfind s.grids gid = some d) (hc : s.gathered gid d = true) :
    let o := d.outcome (s.memberList d)
    ((∃ m ∈ s.memberList d, m.issue.count ≠ o.n) ∧ reason = 4) ∨
      ((∀ m ∈ s.memberList d, m.issue.count = o.n) ∧ reason = 6 ∧
        s.cloneRoom gid d < o.n - (o.counts.filter (fun e => decide (e.2 ≠ 0))).length) →
    (d.gathering.map (fun r => (r.team, r.heat, r.lane))).Nodup →
    (∀ r ∈ d.gathering, r.team < trapBase ∧ r.lane < 32 ∧
      ∃ h, s.heat? r.team r.heat = some h ∧ (h.lane r.lane).park = .rsmp) →
    ∃ (t : State) (g' : Grid), exec (.evResampleCompletion gid) s = .next t ∧ Claims.SameMem s t ∧
      mfind t.grids gid = some g' ∧ g'.round = d.round ∧ g'.gathering = [] ∧
      ∀ r ∈ d.gathering, ∃ h h', s.heat? r.team r.heat = some h ∧ t.heat? r.team r.heat = some h' ∧ SameRegs h h' ∧
        h'.lane r.lane = { h.lane r.lane with park := .retryRsmp reason } := by
  intro o hcase _ hmembers
  obtain ⟨honly, hheats⟩ := fails_foldl reason d.gathering s
  have hrun : exec (.evResampleCompletion gid) s = .next ((State.modGrid (d.gathering.foldl (fun s r =>
      s.modHeat r.team r.heat (Heat.failLane reason r.lane)) s) gid (fun g => { g with gathering := [] })).tick) :=
    resample_failed_run hg hc hcase
  generalize d.gathering.foldl _ s = t at honly hheats hrun
  have hgrids : mfind t.grids gid = some d := by
    rw [honly]
    exact hg
  refine ⟨_, { d with gathering := [] }, hrun, fun a => ?_, ?_, rfl, rfl, fun r hr => ?_⟩
  · change readByte (State.modGrid t gid _).mem a = _
    rw [State.mem_modGrid, honly]
  · exact (State.grids_modGrid t gid _).trans (congrArg (Option.map _) hgrids)
  · obtain ⟨hteam, -, h, hh, hpark⟩ := hmembers r hr
    obtain ⟨h', hh', hfail⟩ := hheats r.team r.heat h hteam hh
    exact ⟨h, h', hh, (State.heat?_modGrid t gid _ _ _).trans hh', sameRegs_of_eq hfail.rows hfail.preds hfail.s hfail.a,
      hfail.parked r.lane (List.mem_map_of_mem hr) hpark⟩

end

end Sys2Proof.Machine

/-! SUPPORT. A resample that completes: each member ends or goes on as the new member of its number (R235, R236,
R414, R423). -/

namespace Sys2Proof.Machine

section

variable {s t r : State} {h h' h'' : Heat} {u v g k l gid c j n : Nat} {d : Grid} {o : Outcome} {m : Member}

/-! ### One count (R236, R414) -/

/-- A member's lane after its count. -/
def Lane.resampled (x : Lane) (m : Member) (c j stamp : Nat) : Lane :=
  if c = 0 then { x with live := false, loops := [], park := .none }
  else { x.goOn stamp with lineage := newLineage m.lineage j }

/-- A member's heat after its count. -/
def Outcome.applied (o : Outcome) (h : Heat) (m : Member) (c j stamp : Nat) : Heat :=
  let y := h.setLane m.issue.lane ((h.lane m.issue.lane).resampled m c j stamp)
  if c = 0 then y else o.flags y m.issue.lane

theorem applyCount_some (hh : s.heat? m.issue.team m.issue.heat = some h) :
    s.applyCount o m c j =
      let z := s.putHeat m.issue.team m.issue.heat (o.applied h m c j s.stamp)
      if c = 0 then z.endIfEmpty m.issue.team m.issue.heat else z := by
  simp only [State.applyCount, hh, Outcome.applied, Lane.resampled]
  by_cases hc : c = 0
  · simp only [if_pos hc]
  · simp only [if_neg hc]

theorem Lane.park_goOn (x : Lane) (stamp : Nat) : (x.goOn stamp).park = .none := by
  unfold Lane.goOn
  split <;> rfl

theorem Lane.live_goOn (x : Lane) (stamp : Nat) : (x.goOn stamp).live = x.live := by
  unfold Lane.goOn
  split <;> rfl

theorem Lane.park_resampled (x : Lane) (m : Member) (c j stamp : Nat) : (x.resampled m c j stamp).park = .none := by
  unfold Lane.resampled
  split
  · rfl
  · exact x.park_goOn stamp

theorem flags_keeps {β : Type} (p : Heat → β) (hp : ∀ (y : Heat) z, p { y with preds := z } = p y) (o : Outcome) (h : Heat)
    (l : Nat) : p (o.flags h l) = p h :=
  (Heat.setK_keeps p hp _ 7 l _).trans (Heat.setK_keeps p hp h 6 l _)

theorem Outcome.rows_applied (o : Outcome) (h : Heat) (m : Member) (c j stamp : Nat) :
    (o.applied h m c j stamp).rows = h.rows := by
  unfold Outcome.applied
  dsimp only
  split
  · rfl
  · exact flags_keeps Heat.rows (fun _ _ => rfl) o _ _

theorem Outcome.lane_applied (o : Outcome) (h : Heat) (m : Member) (c j stamp i : Nat) :
    (o.applied h m c j stamp).lane i =
      if m.issue.lane = i then (h.lane m.issue.lane).resampled m c j stamp else h.lane i := by
  rw [← Heat.lane_setLane]
  unfold Outcome.applied
  dsimp only
  split
  · rfl
  · exact flags_keeps (fun y => y.lane i) (fun _ _ => rfl) o _ _

theorem Outcome.atHurdle_applied (o : Outcome) (h : Heat) (m : Member) (c j stamp : Nat) :
    ((o.applied h m c j stamp).lane m.issue.lane).park.atHurdle = false := by
  rw [o.lane_applied, if_pos rfl, Lane.park_resampled]
  rfl

theorem Outcome.k_applied (o : Outcome) (h : Heat) {m : Member} (c j stamp n : Nat) {i : Nat} (hm : m.issue.lane < 32)
    (hi : i < 32) : (o.applied h m c j stamp).k n i =
      if c ≠ 0 ∧ m.issue.lane = i ∧ n = 7 then o.invalid
      else if c ≠ 0 ∧ m.issue.lane = i ∧ n = 6 then o.zero else h.k n i := by
  unfold Outcome.applied Outcome.flags
  dsimp only
  by_cases hc : c = 0
  · simp only [hc, if_true, ne_eq, not_true, false_and, if_false]
    rfl
  · rw [if_neg hc, Heat.k_setK, Heat.k_setK]
    exact if_congr (by omega) rfl (if_congr (by omega) rfl rfl)

/-! ### A lane and what it holds -/

/-- Two heats agree on a lane and on what it holds. -/
structure Heat.Agrees (h h' : Heat) (l : Nat) : Prop where
  rows : h'.rows = h.rows
  preds : ∀ n, h'.k n l = h.k n l
  lane : h'.lane l = h.lane l

theorem Heat.Agrees.refl (h : Heat) (l : Nat) : h.Agrees h l := ⟨rfl, fun _ => rfl, rfl⟩

theorem Heat.Agrees.trans (a : h.Agrees h' l) (b : h'.Agrees h'' l) : h.Agrees h'' l :=
  ⟨b.rows.trans a.rows, fun n => (b.preds n).trans (a.preds n), b.lane.trans a.lane⟩

theorem Heat.Calm.agrees (a : h.Calm h') (hl : (h.lane l).park.atHurdle = false) : h.Agrees h' l :=
  ⟨a.rows, fun n => by rw [Heat.k, Heat.k, a.preds], a.lanes l hl⟩

/-- The count of a member leaves the other lanes. -/
theorem Heat.agrees_applied (o : Outcome) (h : Heat) (c j stamp : Nat) (hm : m.issue.lane < 32) (hl : l < 32)
    (hne : m.issue.lane ≠ l) : h.Agrees (o.applied h m c j stamp) l := by
  refine ⟨o.rows_applied h m c j stamp, fun n => ?_, ?_⟩
  · rw [o.k_applied h c j stamp n hm hl]
    simp [hne]
  · rw [o.lane_applied, if_neg hne]

/-- The count of a member depends on its lane alone. -/
theorem Heat.Agrees.applied (a : h.Agrees h' m.issue.lane) (o : Outcome) (c j stamp : Nat) (hm : m.issue.lane < 32) :
    (o.applied h m c j stamp).Agrees (o.applied h' m c j stamp) m.issue.lane := by
  refine ⟨?_, fun n => ?_, ?_⟩
  · rw [o.rows_applied, o.rows_applied, a.rows]
  · rw [o.k_applied h' c j stamp n hm hm, o.k_applied h c j stamp n hm hm, a.preds]
  · rw [o.lane_applied, o.lane_applied, a.lane]

/-- A lane of a state and what it holds are those of h. -/
def State.Sits (s : State) (h : Heat) (z : Nat × Nat × Nat) : Prop :=
  ∃ h', s.heat? z.1 z.2.1 = some h' ∧ h.Agrees h' z.2.2

variable {z : Nat × Nat × Nat}

theorem State.Sits.calm (a : s.Sits h z) (hz : z.1 < trapBase) (hl : (h.lane z.2.2).park.atHurdle = false)
    (hc : Calm s t) : t.Sits h z := by
  obtain ⟨h1, hs, hagree⟩ := a
  obtain ⟨h2, ht, hcalm⟩ := hc.heats _ _ h1 hz hs
  exact ⟨h2, ht, hagree.trans (hcalm.agrees (by rw [hagree.lane]; exact hl))⟩

theorem State.Sits.putHeat (a : s.Sits h z) (hz : z.1 < trapBase) {y y' : Heat} (hy : s.heat? u g = some y)
    (hk : z.1 = u ∧ z.2.1 = g → y.Agrees y' z.2.2) : (s.putHeat u g y').Sits h z := by
  obtain ⟨h', hs, hagree⟩ := a
  rw [State.Sits, State.heat?_putHeat hz hy]
  split
  next he =>
    obtain ⟨hu, hg⟩ := he
    obtain rfl : y = h' := by
      rw [hu, hg, hy] at hs
      exact Option.some.inj hs
    exact ⟨y', rfl, hagree.trans (hk ⟨hu, hg⟩)⟩
  next => exact ⟨h', hs, hagree⟩

/-! ### The counts in turn (R236) -/

theorem onlyUnits_applyCount (s : State) (o : Outcome) (m : Member) (c j : Nat) : OnlyUnits s (s.applyCount o m c j) := by
  cases hh : s.heat? m.issue.team m.issue.heat with
  | none =>
    simp only [State.applyCount, hh]
    exact .refl s
  | some h =>
    rw [applyCount_some hh]
    dsimp only
    split
    · exact (OnlyUnits.putHeat ..).trans Calm.endIfEmpty.only
    · exact .putHeat ..

theorem onlyUnits_applyCounts (o : Outcome) (cs : List (Member × Nat)) (s : State) (j : Nat) :
    OnlyUnits s (s.applyCounts o cs j) := by
  induction cs generalizing s j with
  | nil => exact .refl s
  | cons e cs ih => exact (onlyUnits_applyCount s o e.1 e.2 j).trans (ih _ _)

theorem OnlyUnits.stamp (a : OnlyUnits s t) : t.stamp = s.stamp := by rw [a]

/-- The count of a member leaves every other member. -/
theorem State.Sits.applyCount_ne (a : s.Sits h z) (hz : z.1 < trapBase) (hl : (h.lane z.2.2).park.atHurdle = false)
    (hz32 : z.2.2 < 32) (hm : m.issue.lane < 32) (hne : m.issue.spot ≠ z) : (s.applyCount o m c j).Sits h z := by
  cases hh : s.heat? m.issue.team m.issue.heat with
  | none =>
    simp only [State.applyCount, hh]
    exact a
  | some y =>
    rw [applyCount_some hh]
    have hput := a.putHeat hz hh (y' := o.applied y m c j s.stamp) fun he =>
      Heat.agrees_applied o y c j s.stamp hm hz32 fun hlane =>
        hne (Prod.ext he.1.symm (Prod.ext he.2.symm hlane))
    dsimp only
    split
    · exact hput.calm hz hl .endIfEmpty
    · exact hput

/-- The count of a member on its own lane. -/
theorem State.Sits.applyCount_self (a : s.Sits h m.issue.spot) (hz : m.issue.team < trapBase) (hm : m.issue.lane < 32) :
    (s.applyCount o m c j).Sits (o.applied h m c j s.stamp) m.issue.spot := by
  obtain ⟨h', hs, hagree⟩ := a
  rw [applyCount_some hs]
  have hput : (s.putHeat m.issue.team m.issue.heat (o.applied h' m c j s.stamp)).Sits (o.applied h m c j s.stamp)
      m.issue.spot :=
    ⟨_, (State.heat?_putHeat hz hs _ _).trans (if_pos ⟨rfl, rfl⟩), hagree.applied o c j s.stamp hm⟩
  dsimp only
  split
  · exact hput.calm hz (o.atHurdle_applied ..) .endIfEmpty
  · exact hput

theorem State.Sits.applyCounts_ne (cs : List (Member × Nat)) (hz : z.1 < trapBase) (hz32 : z.2.2 < 32)
    (hl : (h.lane z.2.2).park.atHurdle = false) (hm : ∀ e ∈ cs, e.1.issue.lane < 32 ∧ e.1.issue.spot ≠ z) (a : s.Sits h z)
    (j : Nat) : (s.applyCounts o cs j).Sits h z := by
  induction cs generalizing s j with
  | nil => exact a
  | cons e cs ih =>
    obtain ⟨hlane, hne⟩ := hm e List.mem_cons_self
    exact ih (fun e he => hm e (List.mem_cons_of_mem _ he)) (a.applyCount_ne hz hl hz32 hlane hne) _

/-- Each member's count applies to its own lane, from the number of the counts before it. -/
theorem sits_applyCounts (cs : List (Member × Nat)) (hnd : (cs.map (fun e => e.1.issue.spot)).Nodup)
    (hcs : ∀ e ∈ cs, e.1.issue.team < trapBase ∧ e.1.issue.lane < 32) {i : Nat} (hi : cs[i]? = some (m, c))
    (hl : (h.lane m.issue.lane).park.atHurdle = false) (a : s.Sits h m.issue.spot) (j : Nat) :
    (s.applyCounts o cs j).Sits (o.applied h m c (j + ((cs.take i).map (fun e => e.2)).sum) s.stamp) m.issue.spot := by
  induction cs generalizing s j i with
  | nil => simp at hi
  | cons e cs ih =>
    rw [List.map_cons, List.nodup_cons] at hnd
    obtain ⟨hfresh, hnd⟩ := hnd
    have hrest : ∀ e ∈ cs, e.1.issue.team < trapBase ∧ e.1.issue.lane < 32 := fun e he =>
      hcs e (List.mem_cons_of_mem _ he)
    cases i with
    | zero =>
      rw [List.getElem?_cons_zero, Option.some_inj] at hi
      subst hi
      obtain ⟨hteam, hlane⟩ := hcs _ List.mem_cons_self
      refine (a.applyCount_self hteam hlane).applyCounts_ne cs hteam hlane (o.atHurdle_applied ..)
        (fun e he => ⟨(hrest e he).2, fun heq => ?_⟩) _
      exact hfresh (List.mem_map.mpr ⟨e, he, heq⟩)
    | succ i =>
      rw [List.getElem?_cons_succ] at hi
      have hmem := List.mem_of_getElem? hi
      obtain ⟨hteam, hlane⟩ := hrest _ hmem
      have hne : e.1.issue.spot ≠ m.issue.spot := fun heq => hfresh (List.mem_map.mpr ⟨_, hmem, heq.symm⟩)
      have hstep := a.applyCount_ne (o := o) (c := e.2) (j := j) hteam hl hlane (hcs e List.mem_cons_self).2 hne
      have hgoal := ih hnd hrest hi hstep (j + e.2)
      rw [(onlyUnits_applyCount s o e.1 e.2 j).stamp, Nat.add_assoc] at hgoal
      rw [List.take_succ_cons, List.map_cons, List.sum_cons]
      exact hgoal

/-! ### What follows the counts -/

theorem mfind_map_body (m : FMap Team) (f : Nat × Team → Team) (hf : ∀ e, (f e).body = e.2.body) (k : Nat) :
    (mfind (m.map (fun e => (e.1, f e))) k).map Team.body = (mfind m k).map Team.body := by
  induction m with
  | nil => rfl
  | cons e m ih =>
    obtain ⟨a, x⟩ := e
    rw [List.map_cons, mfind, mfind]
    split
    · exact congrArg some (hf _)
    · exact ih

theorem State.heat?_eq_body (s : State) (hu : u < trapBase) (g : Nat) :
    s.heat? u g = ((s.team? u).map Team.body).bind (fun b => mfind b.heats g) := by
  rw [State.heat?, if_neg (Nat.not_le.mpr hu)]
  cases s.team? u <;> rfl

/-- A live team with the lap-start image of its own. -/
def State.imaged (s image : State) (e : Nat × Team) : Team :=
  match s.team? e.1, image.team? e.1 with
  | some x, some y => { e.2 with lapBody := y.body, log := x.log, advances := x.advances }
  | _, _ => e.2

theorem State.body_imaged (s image : State) (e : Nat × Team) : (s.imaged image e).body = e.2.body := by
  unfold State.imaged
  split <;> rfl

/-- The state with every team at its lap start. -/
def State.atLapStarts (s : State) : State :=
  { s with teams := s.teams.map (fun e => (e.1, { e.2 with body := e.2.lapBody })) }

theorem applyBoth_eq (s : State) (o : Outcome) :
    s.applyBoth o = { s.applyCounts o o.counts 0 with
      teams := (s.applyCounts o o.counts 0).teams.map
        (fun e => (e.1, s.imaged (s.atLapStarts.applyCounts o o.counts 0) e)) } := by
  refine congrArg (fun l => ({ s.applyCounts o o.counts 0 with teams := l } : State)) (List.map_congr_left fun e _ => ?_)
  unfold State.imaged State.atLapStarts
  generalize State.applyCounts _ o o.counts 0 = image
  cases s.team? e.1 <;> cases image.team? e.1 <;> rfl

theorem applyBoth_only (s : State) (o : Outcome) : OnlyUnits s (s.applyBoth o) :=
  (onlyUnits_applyCounts o o.counts s 0).trans rfl

theorem applyBoth_heat? (s : State) (o : Outcome) (hu : u < trapBase) (g : Nat) :
    (s.applyBoth o).heat? u g = (s.applyCounts o o.counts 0).heat? u g := by
  rw [applyBoth_eq, State.heat?_eq_body _ hu, State.heat?_eq_body _ hu]
  exact congrArg (Option.bind · _) (mfind_map_body _ (s.imaged _) (s.body_imaged _) u)

theorem logSegment_none {asid : Nat} {x : Context} (hx : s.ctx? asid = some x) (hl : x.logLen = 0) (seg : List Byte) :
    s.logSegment asid seg = s := by
  simp only [State.logSegment, hx, if_pos hl]

theorem placeClones_only (asid : Nat) (bs : List BinThread) (s : State) : OnlyBins s (s.placeClones asid bs) := by
  unfold State.placeClones
  induction bs generalizing s with
  | nil => exact .refl s
  | cons b bs ih =>
    refine OnlyBins.trans ?_ (ih _)
    dsimp only
    split
    next hb => exact .placeClone hb
    next => exact (OnlyBins.refl s).modCtx

theorem OnlyBins.heat? (a : OnlyBins s t) (hu : u < trapBase) (g : Nat) : t.heat? u g = s.heat? u g := by
  rw [State.heat?_eq_body _ hu, State.heat?_eq_body _ hu, State.team?, State.team?, a.teams]

theorem keepClones_only (s : State) (gid : Nat) (before : State) : OnlyUnits s (s.keepClones gid before) := by
  unfold State.keepClones
  generalize s.gridTeams gid = l
  induction l generalizing s with
  | nil => exact .refl s
  | cons v l ih => exact (OnlyUnits.modTeam ..).trans (ih _)

theorem keepClones_heat? (s : State) (gid : Nat) (before : State) (u g : Nat) :
    (s.keepClones gid before).heat? u g = s.heat? u g := by
  refine foldl_proj (fun y : State => y.heat? u g) _ (fun y v _ => ?_) s
  exact State.heat?_modTeam (f := fun x => { x with lapBins := x.lapBins ++ _ }) (fun _ _ => rfl) u g

/-! ### The event -/

/-- The state in which every count is applied and every clone placed. -/
def State.resampled (s : State) (gid : Nat) (d : Grid) : State :=
  let o := d.outcome (s.memberList d)
  (((s.applyBoth o).logSegment d.asid (segment gid d o)).placeClones d.asid
    (s.clones d.record o o.counts 0)).keepClones gid s

theorem resample_done_run (hg : mfind s.grids gid = some d) (hc : s.gathered gid d = true) :
    let o := d.outcome (s.memberList d)
    (∀ m ∈ s.memberList d, m.issue.count = o.n) →
    o.n - (o.counts.filter (fun e => decide (e.2 ≠ 0))).length ≤ s.cloneRoom gid d →
    exec (.evResampleCompletion gid) s = .next ((s.resampled gid d).modGrid gid (fun g => { g with
      round := g.round + 1#64, gathering := [], popSize := some o.n })).tick := by
  intro o hall hroom
  refine (resample_gathered hg hc).trans ((if_neg fun hany => ?_).trans (if_neg (Nat.not_lt.mpr hroom)))
  obtain ⟨m, hm, hne⟩ := List.any_eq_true.mp hany
  exact (bne_iff_ne (a := m.issue.count)).mp hne (hall m hm)

/-- After the counts only clones are placed: no heat changes any more. -/
theorem resampled_spec {x : Context} (hx : s.ctx? d.asid = some x) (hl : x.logLen = 0) :
    (s.resampled gid d).mem = s.mem ∧ (s.resampled gid d).grids = s.grids ∧
      ∀ u g, u < trapBase → (s.resampled gid d).heat? u g =
        (s.applyCounts (d.outcome (s.memberList d)) (d.outcome (s.memberList d)).counts 0).heat? u g := by
  have hboth := applyBoth_only s (d.outcome (s.memberList d))
  have hheat := fun u g (hu : u < trapBase) => applyBoth_heat? s (d.outcome (s.memberList d)) hu g
  have hlog : ((s.applyBoth (d.outcome (s.memberList d))).ctx? d.asid) = some x := by
    rw [hboth]
    exact hx
  unfold State.resampled
  dsimp only
  rw [logSegment_none hlog hl]
  have hplace := placeClones_only d.asid (s.clones d.record (d.outcome (s.memberList d))
    (d.outcome (s.memberList d)).counts 0) (s.applyBoth (d.outcome (s.memberList d)))
  generalize s.applyBoth _ = s1 at *
  generalize s1.placeClones _ _ = s2 at *
  have hkeep := keepClones_only s2 gid s
  refine ⟨?_, ?_, fun u g hu => ?_⟩
  · rw [hkeep, hplace, hboth]
  · rw [hkeep, hplace, hboth]
  · rw [keepClones_heat?, hplace.heat? hu, hheat u g hu]

end

end Sys2Proof.Machine

/-! What the starter does: bins, records, grids, units, exits and resamples (O45). -/

namespace Sys2Proof.Machine

section

variable {s t : State} {h h' : Heat} {gid c j n : Nat} {d : Grid} {o : Outcome} {m : Member} {x : Context}

/-- What a member's heat shows after its count. -/
theorem Heat.Agrees.resampled (a : (o.applied h m c j n).Agrees h' m.issue.lane) (hm : m.issue.lane < 32)
    (hlive : (h.lane m.issue.lane).live = true) :
    SameV h h' ∧ (c = 0 → (h'.lane m.issue.lane).live = false) ∧
      (c ≠ 0 → (h'.lane m.issue.lane).live = true ∧ (h'.lane m.issue.lane).park = .none ∧
        (h'.lane m.issue.lane).hdr = ((h.lane m.issue.lane).goOn n).hdr ∧
        (h'.lane m.issue.lane).idx = ((h.lane m.issue.lane).goOn n).idx ∧
        (h'.lane m.issue.lane).lineage = newLineage m.lineage j ∧
        h'.k 6 m.issue.lane = o.zero ∧ h'.k 7 m.issue.lane = o.invalid) := by
  have hlane : h'.lane m.issue.lane = (h.lane m.issue.lane).resampled m c j n :=
    a.lane.trans ((o.lane_applied ..).trans (if_pos rfl))
  have hrows : h'.rows = h.rows := a.rows.trans (o.rows_applied ..)
  refine ⟨fun r i _ => by rw [Heat.v, Heat.v, hrows], fun hc => ?_, fun hc => ?_⟩
  · rw [hlane, Lane.resampled, if_pos hc]
  · have hgone : (h.lane m.issue.lane).resampled m c j n =
        { (h.lane m.issue.lane).goOn n with lineage := newLineage m.lineage j } := if_neg hc
    rw [hlane, hgone, a.preds, a.preds, o.k_applied h c j n 6 hm hm, o.k_applied h c j n 7 hm hm]
    refine ⟨(Lane.live_goOn ..).trans hlive, Lane.park_goOn .., rfl, rfl, rfl, ?_, ?_⟩
    · simp [hc]
    · simp [hc]

/-- A resample that completes counts to N and leaves each member ended, or as the new member of its number. -/
theorem resample_done (hg : mfind s.grids gid = some d) (hc : s.gathered gid d = true) (hx : s.ctx? d.asid = some x)
    (hlog : x.logLen = 0) :
    let o := d.outcome (s.memberList d)
    (∀ m ∈ s.memberList d, m.issue.count = o.n) →
    o.n - (o.counts.filter (fun e => decide (e.2 ≠ 0))).length ≤ s.cloneRoom gid d →
    (d.gathering.map (fun r => (r.team, r.heat, r.lane))).Nodup →
    (∀ r ∈ d.gathering, r.team < trapBase ∧ r.lane < 32 ∧ (∀ n, r.u = some n → n < 2 ^ 53) ∧
      ∃ h, s.heat? r.team r.heat = some h ∧ (h.lane r.lane).live = true ∧ (h.lane r.lane).park = .rsmp) →
    (o.counts.map (fun e => e.2)).sum = o.n ∧
    ∃ (t : State) (g' : Grid), exec (.evResampleCompletion gid) s = .next t ∧ Claims.SameMem s t ∧
      mfind t.grids gid = some g' ∧ g'.round = d.round + 1#64 ∧ g'.gathering = [] ∧ g'.popSize = some o.n ∧
      ∀ i m k, o.counts[i]? = some (m, k) → ∃ h h', s.heat? m.issue.team m.issue.heat = some h ∧
        t.heat? m.issue.team m.issue.heat = some h' ∧ SameV h h' ∧
        (k = 0 → (h'.lane m.issue.lane).live = false) ∧
        (k ≠ 0 → (h'.lane m.issue.lane).live = true ∧ (h'.lane m.issue.lane).park = .none ∧
          (h'.lane m.issue.lane).hdr = ((h.lane m.issue.lane).goOn s.stamp).hdr ∧
          (h'.lane m.issue.lane).idx = ((h.lane m.issue.lane).goOn s.stamp).idx ∧
          (h'.lane m.issue.lane).lineage = newLineage m.lineage ((o.counts.take i).map (fun e => e.2)).sum ∧
          h'.k 6 m.issue.lane = o.zero ∧ h'.k 7 m.issue.lane = o.invalid) := by
  intro o hall hroom hnd hmembers
  have hperm : ((s.memberList d).map Member.issue).Perm d.gathering :=
    memberList_perm fun r hr => (hmembers r hr).2.2.2.imp fun _ hh => hh.1
  have hissue : ∀ m ∈ s.memberList d, m.issue ∈ d.gathering := fun m hm =>
    hperm.mem_iff.mp (List.mem_map_of_mem hm)
  have hmem : ∀ e ∈ o.counts, e.1 ∈ s.memberList d := fun e he =>
    outcome_members d (s.memberList d) ▸ List.mem_map_of_mem he
  have hspots : (o.counts.map (fun e => e.1.issue.spot)).Nodup := by
    have hsame : o.counts.map (fun e => e.1.issue.spot) = ((s.memberList d).map Member.issue).map RsmpRec.spot := by
      rw [← outcome_members d (s.memberList d), List.map_map, List.map_map]
      rfl
    rw [hsame]
    exact (hperm.map RsmpRec.spot).nodup_iff.mpr hnd
  have hne : s.memberList d ≠ [] := fun he => by
    rw [he, List.map_nil] at hperm
    simp [State.gathered, ← hperm.nil_eq] at hc
  obtain ⟨hkeep, hgrids, hheats⟩ := resampled_spec (gid := gid) hx hlog
  have hrun := resample_done_run hg hc hall hroom
  generalize s.resampled gid d = t at *
  refine ⟨sum_outcome hne fun m hm => (hmembers _ (hissue m hm)).2.2.1, _, _, hrun, fun a => ?_,
    (State.grids_modGrid t gid _).trans (congrArg (Option.map _) (hgrids ▸ hg)), rfl, rfl, rfl, fun i m k hi => ?_⟩
  · change readByte (State.modGrid t gid _).mem a = _
    rw [State.mem_modGrid, hkeep]
  · obtain ⟨hteam, hlane, -, h, hh, hlive, hpark⟩ := hmembers _ (hissue m (hmem _ (List.mem_of_getElem? hi)))
    have hcs : ∀ e ∈ o.counts, e.1.issue.team < trapBase ∧ e.1.issue.lane < 32 := fun e he =>
      (hmembers _ (hissue _ (hmem e he))).imp_right And.left
    obtain ⟨h', hh', hagree⟩ := sits_applyCounts (o := o) o.counts hspots hcs hi (congrArg Park.atHurdle hpark)
      (s := s) ⟨h, hh, .refl h _⟩ 0
    rw [Nat.zero_add] at hagree
    exact ⟨h, h', hh, (State.heat?_modGrid t gid _ _ _).trans ((hheats _ _ hteam).trans hh'),
      hagree.resampled hlane hlive⟩

end

/-- Settles O45: each event of the starter is run once, and its effect read off the relation that frames it. The
counts of a resample telescope to N, and a member's count touches its own lane alone. -/
theorem starterEvents : Obligations.StarterEvents := by
  unfold Obligations.StarterEvents
  refine ⟨fun c i u g slot entry s hf => bin_launches hf,
    fun u s x h z p l hu hx hl hh hz hp hw => launchRecord_taken hu hx hl hh hz hp hw,
    fun q gid s g hs hq hg hw hm => gridDependence_freed hs hq hg hw hm,
    fun s e l ho => dispatchOrder_head ho,
    fun q gid s g l fs hr ho hg hp hc hb hl hs => teamPlacement_spec hr ho hg hp hc hb hl hs,
    fun u c s x hx hs hc _ => unitStart_spec hx hs hc,
    fun u s x g hr hx hd hc he hseq hk hk' hg => ⟨fun hf => teamExit_more hx hr hd hc he hseq hk hk' hg hf,
      fun pa hf hdone hst hadd => teamExit_last hx hr hd hc he hseq hk hk' hg hf hdone hst hadd⟩,
    fun gid s g c hg hgathered hx hlog => resample_done hg hgathered hx hlog,
    fun gid reason s g hg hgathered => resample_failed hg hgathered⟩

end Sys2Proof.Machine

/-! SUPPORT. The scalar, address, integer and predicate words (R107–R140, R147). First, the model's operation and the
value of the statement's table agree; then each word is run by the shape of its family, and that shape writes its
destination alone. -/

namespace Sys2Proof.Machine

section

variable {w : Nat}

/-! ### Values of scalar and integer words -/

/-- R115: beyond the width the sign fills the value; below it the shift divides, rounding down. -/
theorem sra_eq_shiftA (hw : 0 < w) (x : BitVec w) (c : Nat) : sra x c = Claims.shiftA x c := by
  by_cases hc : w ≤ c
  · rw [sra, Claims.shiftA, if_pos hc, Nat.min_eq_right (by omega)]
    have hsign (j : Nat) (hj : j < w) : (x.sshiftRight (w - 1)).getLsbD j = x.msb := by
      rw [BitVec.getLsbD_sshiftRight]
      by_cases h0 : j = 0
      · simp [h0, hw.ne', BitVec.msb_eq_getLsbD_last]
      · simp [hj, show ¬ w - 1 + j < w by omega]
    apply BitVec.eq_of_getLsbD_eq
    intro j hj
    rw [hsign j hj]
    cases x.msb <;> simp [hj]
  · rw [sra, Claims.shiftA, if_neg hc, Nat.min_eq_left (by omega), BitVec.sshiftRight_eq, Int.shiftRight_eq_div_pow]
    norm_cast

theorem minS_eq (x y : BitVec w) : minS x y = if x.toInt < y.toInt then x else y := by
  simp only [minS, BitVec.slt_iff_toInt_lt]

theorem maxS_eq (x y : BitVec w) : maxS x y = if x.toInt < y.toInt then y else x := by
  simp only [maxS, BitVec.slt_iff_toInt_lt]

theorem minN_eq (x y : BitVec w) : minN x y = if x.toNat < y.toNat then x else y := by
  simp only [minN, BitVec.ult_iff_toNat_lt]

theorem maxN_eq (x y : BitVec w) : maxN x y = if x.toNat < y.toNat then y else x := by
  simp only [maxN, BitVec.ult_iff_toNat_lt]

theorem toInt_sext {n : Nat} (hn : n ≤ w) (i : BitVec n) : (sext w i).toInt = i.toInt :=
  BitVec.toInt_signExtend_of_le hn

theorem minS_sext {n : Nat} (hn : n ≤ w) (x : BitVec w) (i : BitVec n) :
    minS x (sext w i) = if x.toInt < i.toInt then x else i.signExtend w := by
  rw [minS_eq, toInt_sext hn, sext]

theorem maxS_sext {n : Nat} (hn : n ≤ w) (x : BitVec w) (i : BitVec n) :
    maxS x (sext w i) = if x.toInt < i.toInt then i.signExtend w else x := by
  rw [maxS_eq, toInt_sext hn, sext]

theorem clz_eq (x : BitVec w) : clz x = if x = 0#w then w else w - 1 - Nat.log2 x.toNat := by
  simp only [clz, bitLen, ← BitVec.toNat_inj, BitVec.toNat_ofNat, Nat.zero_mod]
  split <;> omega

/-- Bit j after a halfword is replaced. -/
theorem getLsbD_setHalf (x : BitVec w) (lo : Nat) (i : BitVec 16) (hlo : lo + 16 ≤ w) (j : Nat) :
    (setHalf x lo i).getLsbD j = if lo ≤ j ∧ j < lo + 16 then i.getLsbD (j - lo) else x.getLsbD j := by
  have hones : (0xFFFF#16).getLsbD (j - lo) = decide (j - lo < 16) := by
    rw [show 0xFFFF#16 = BitVec.allOnes 16 from rfl, BitVec.getLsbD_allOnes]
  simp only [setHalf, BitVec.getLsbD_or, BitVec.getLsbD_and, BitVec.getLsbD_not, BitVec.getLsbD_shiftLeft,
    BitVec.getLsbD_setWidth, hones]
  by_cases hl : j < lo
  · have hj : j < w := by omega
    rw [if_neg (by omega)]
    simp [hl, hj]
  · by_cases hh : j < lo + 16
    · have hj : j < w := by omega
      have hd : j - lo < w := by omega
      have hi : j - lo < 16 := by omega
      rw [if_pos ⟨by omega, hh⟩]
      simp [hl, hj, hd, hi]
    · have hi : ¬ j - lo < 16 := by omega
      rw [if_neg (by omega)]
      simp only [hi, BitVec.getLsbD_of_ge i (j - lo) (by omega)]
      by_cases hj : j < w
      · simp [hj]
      · simp [hj, BitVec.getLsbD_of_ge x j (by omega)]

/-- R119, R123: a halfword replaced between the bits above and below it. -/
theorem setHalf_eq_append (hi lo : Nat) (x : BitVec (hi + 16 + lo)) (i : BitVec 16) :
    setHalf x lo i = x.extractLsb' (16 + lo) hi ++ i ++ x.extractLsb' 0 lo := by
  apply BitVec.eq_of_getLsbD_eq
  intro j hj
  rw [getLsbD_setHalf x lo i (by omega)]
  simp only [BitVec.getLsbD_append, BitVec.getLsbD_extractLsb']
  by_cases hl : j < lo
  · rw [if_neg (by omega)]
    simp [hl]
  · by_cases hh : j < lo + 16
    · have hi : j - lo < 16 := by omega
      rw [if_pos ⟨by omega, hh⟩]
      simp [hl, hi]
    · have h16 : ¬ j - lo < 16 := by omega
      have htop : j - lo - 16 < hi := by omega
      have hsum : 16 + lo + (j - lo - 16) = j := by omega
      rw [if_neg (by omega)]
      simp [hl, h16, htop, hsum]

/-- The highest halfword replaced. -/
theorem setHalf_eq_append_top (lo : Nat) (x : BitVec (16 + lo)) (i : BitVec 16) :
    setHalf x lo i = i ++ x.extractLsb' 0 lo := by
  apply BitVec.eq_of_getLsbD_eq
  intro j hj
  rw [getLsbD_setHalf x lo i (by omega)]
  simp only [BitVec.getLsbD_append, BitVec.getLsbD_extractLsb']
  by_cases hl : j < lo
  · rw [if_neg (by omega)]
    simp [hl]
  · rw [if_pos (by omega)]
    simp [hl]

/-- A zero-extended value, as the statements write it. -/
theorem zext_eq_append (m : Nat) (x : BitVec w) : zext (m + w) x = 0#m ++ x := by
  apply BitVec.eq_of_toNat_eq
  have hx : x.toNat < 2 ^ (m + w) := x.isLt.trans_le (Nat.pow_le_pow_right (by decide) (by omega))
  rw [zext, BitVec.toNat_setWidth, Nat.mod_eq_of_lt hx]
  simp

theorem cmpAddr_eq (a b : Addr) : cmpAddr a b =
    if a = b then 0#64 else if a.toNat > b.toNat then 1#64 else BitVec.allOnes 64 := by
  simp only [cmpAddr, BitVec.ult_iff_toNat_lt]
  rfl

theorem satS_eq_clamp (z : Int) : satS z = Claims.clamp (-2 ^ 31) (2 ^ 31 - 1) z := by
  rw [satS, Claims.clamp]
  congr 1
  split_ifs <;> omega

theorem satN_eq_clamp (z : Int) : satN z = Claims.clamp 0 (2 ^ 32 - 1) z := by
  rw [satN, Claims.clamp]
  congr 1
  split_ifs <;> omega

theorem clamp_of_mem {lo hi z : Int} (hlo : lo ≤ z) (hhi : z ≤ hi) : Claims.clamp lo hi z = BitVec.ofInt 32 z := by
  rw [Claims.clamp, if_neg (by omega), if_neg (by omega)]

/-- R130: only the least value has no negative, and it is clamped. -/
theorem abs_eq_clamp (x : W32) :
    (if x = 0x80000000#32 then 0x7FFFFFFF#32 else if x.msb then -x else x) =
      Claims.clamp 0 (2 ^ 31 - 1) x.toInt.natAbs := by
  by_cases hmin : x = 0x80000000#32
  · subst hmin
    decide
  · have hne : x.toInt ≠ -2 ^ 31 := fun h => hmin (BitVec.eq_of_toInt_eq (h.trans (by decide)))
    have hge := BitVec.le_toInt x
    have hlt := BitVec.toInt_lt (x := x)
    rw [if_neg hmin, clamp_of_mem (by omega) (by omega), BitVec.msb_eq_toInt]
    by_cases hneg : x.toInt < 0
    · rw [if_pos (by simpa using hneg), Int.ofNat_natAbs_of_nonpos (by omega), BitVec.ofInt_neg, BitVec.ofInt_toInt]
    · rw [if_neg (by simpa using hneg), Int.natAbs_of_nonneg (by omega), BitVec.ofInt_toInt]

/-! ### Bit fields (R134) -/

theorem bfPos_eq (b : W32) : bfPos b = Claims.fieldPos b := by
  simp [bfPos, Claims.fieldPos, BitVec.extractLsb'_toNat]

theorem bfWidth_eq (b : W32) : bfWidth b = Claims.fieldWidth b := by
  simp [bfWidth, Claims.fieldWidth, bfPos_eq, BitVec.extractLsb'_toNat, Nat.shiftRight_eq_div_pow]

theorem bfMask_eq (b : W32) : bfMask b = Claims.fieldMask b := by
  rw [bfMask, Claims.fieldMask, bfWidth_eq, bfPos_eq]

theorem bfeN_eq (a b : W32) : bfeN a b = (a &&& Claims.fieldMask b) >>> Claims.fieldPos b := by
  rw [bfeN, bfMask_eq, bfPos_eq]

theorem bfi_eq (a b d : W32) : bfi a b d =
    (d &&& ~~~Claims.fieldMask b) ||| ((a <<< Claims.fieldPos b) &&& Claims.fieldMask b) := by
  rw [bfi, bfMask_eq, bfPos_eq]

/-- A field is as many bits as its width. -/
theorem field_lt (a b : W32) :
    ((a &&& Claims.fieldMask b) >>> Claims.fieldPos b).toNat < 2 ^ Claims.fieldWidth b := by
  have hmask : (Claims.fieldMask b).toNat ≤ (2 ^ Claims.fieldWidth b - 1) * 2 ^ Claims.fieldPos b := by
    rw [Claims.fieldMask, BitVec.toNat_ofNat]
    exact Nat.mod_le _ _
  have hand : (a &&& Claims.fieldMask b).toNat ≤ (Claims.fieldMask b).toNat := by
    rw [BitVec.toNat_and]
    exact Nat.and_le_right
  have hpos := Nat.two_pow_pos (Claims.fieldWidth b)
  rw [BitVec.toNat_ushiftRight, Nat.shiftRight_eq_div_pow, Nat.div_lt_iff_lt_mul (Nat.two_pow_pos _)]
  calc (a &&& Claims.fieldMask b).toNat
      ≤ (2 ^ Claims.fieldWidth b - 1) * 2 ^ Claims.fieldPos b := hand.trans hmask
    _ < 2 ^ Claims.fieldWidth b * 2 ^ Claims.fieldPos b :=
        Nat.mul_lt_mul_of_pos_right (by omega) (Nat.two_pow_pos _)

/-- Two's complement of a number of w bits, split at the sign bit. -/
theorem sextN_of_lt {x : Nat} (hx : x < 2 ^ w) :
    sextN w x = if w = 0 then 0 else if x < 2 ^ (w - 1) then (x : Int) else (x : Int) - 2 ^ w := by
  cases w with
  | zero => simp [sextN, Nat.mod_one]
  | succ n =>
    have hiff : 2 * x < 2 ^ (n + 1) ↔ x < 2 ^ n := by rw [pow_succ]; omega
    simp only [sextN, Nat.mod_eq_of_lt hx, hiff, Nat.add_sub_cancel, if_neg (Nat.succ_ne_zero n), Nat.cast_pow,
      Nat.cast_ofNat]

theorem bfeS_eq (a b : W32) : bfeS a b =
    let f := ((a &&& Claims.fieldMask b) >>> Claims.fieldPos b).toNat
    if Claims.fieldWidth b = 0 then 0#32
    else BitVec.ofInt 32
      (if f < 2 ^ (Claims.fieldWidth b - 1) then (f : Int) else (f : Int) - 2 ^ Claims.fieldWidth b) := by
  rw [bfeS, bfWidth_eq, bfeN_eq, sextN_of_lt (field_lt a b), apply_ite (BitVec.ofInt 32)]
  rfl

/-! ### Dot products (R137) -/

theorem fld_eq_part (w i : Nat) (x : W32) : fld x.toNat (w * i) w = (Claims.part w i x).toNat := by
  simp [fld, Claims.part, BitVec.extractLsb'_toNat, Nat.shiftRight_eq_div_pow]

theorem sextN_toNat (x : BitVec w) : sextN w x.toNat = x.toInt := by
  simp only [sextN, Nat.mod_eq_of_lt x.isLt, BitVec.toInt]

theorem dotProd_signed (w : Nat) (x y : W32) : dotProd w true x y =
    ((upto (32 / w)).map (fun i => (Claims.part w i x).toInt * (Claims.part w i y).toInt)).foldl (· + ·) 0 := by
  simp only [dotProd, fld_eq_part, sextN_toNat, if_true]

theorem dotProd_unsigned (w : Nat) (x y : W32) : dotProd w false x y =
    ((upto (32 / w)).map (fun i => ((Claims.part w i x).toNat : Int) * (Claims.part w i y).toNat)).foldl (· + ·) 0 := by
  simp only [dotProd, fld_eq_part, Bool.false_eq_true, if_false, Nat.cast_mul]

theorem sum_upto_two (f : Nat → Int) : ((upto 2).map f).foldl (· + ·) 0 = f 0 + f 1 := by
  simp [upto, List.range_succ]

theorem sum_upto_four (f : Nat → Int) : ((upto 4).map f).foldl (· + ·) 0 = f 0 + f 1 + f 2 + f 3 := by
  simp [upto, List.range_succ]

theorem add_ofInt (z : W32) (n : Int) : z + BitVec.ofInt 32 n = BitVec.ofInt 32 (z.toNat + n) := by
  rw [BitVec.ofInt_add, BitVec.ofInt_natCast, BitVec.ofNat_toNat, BitVec.setWidth_eq]

theorem add_dot4_signed (x y z : W32) : z + BitVec.ofInt 32 (dotProd 8 true x y) = BitVec.ofInt 32 ((z.toNat : Int) +
    (Claims.part 8 0 x).toInt * (Claims.part 8 0 y).toInt + (Claims.part 8 1 x).toInt * (Claims.part 8 1 y).toInt +
    (Claims.part 8 2 x).toInt * (Claims.part 8 2 y).toInt + (Claims.part 8 3 x).toInt * (Claims.part 8 3 y).toInt) := by
  rw [add_ofInt, dotProd_signed, sum_upto_four]
  simp only [add_assoc]

theorem add_dot4_unsigned (x y z : W32) : z + BitVec.ofInt 32 (dotProd 8 false x y) = BitVec.ofNat 32 (z.toNat +
    (Claims.part 8 0 x).toNat * (Claims.part 8 0 y).toNat + (Claims.part 8 1 x).toNat * (Claims.part 8 1 y).toNat +
    (Claims.part 8 2 x).toNat * (Claims.part 8 2 y).toNat + (Claims.part 8 3 x).toNat * (Claims.part 8 3 y).toNat) := by
  rw [add_ofInt, dotProd_unsigned, sum_upto_four, ← BitVec.ofInt_natCast]
  simp only [Nat.cast_add, Nat.cast_mul, add_assoc]

theorem add_dot2_signed (x y z : W32) : z + BitVec.ofInt 32 (dotProd 16 true x y) = BitVec.ofInt 32 ((z.toNat : Int) +
    (Claims.part 16 0 x).toInt * (Claims.part 16 0 y).toInt +
    (Claims.part 16 1 x).toInt * (Claims.part 16 1 y).toInt) := by
  rw [add_ofInt, dotProd_signed, sum_upto_two]
  simp only [add_assoc]

theorem lanesOf_taking (h : Heat) (m : Mask) (p : Nat) :
    lanesOf (h.taking m p) = (lanesOf m).filter (fun l => h.k p l) := by
  simp only [lanesOf, List.filter_filter]
  exact List.filter_congr fun l _ => by rw [inMask_taking, Bool.and_comm]

theorem bne_eq_decide {α : Type} [DecidableEq α] (x y : α) : (x != y) = decide (x ≠ y) := by
  simp [bne, beq_eq_decide]

/-- At most is not greater (R117, R136). -/
theorem not_slt_eq_decide (x y : BitVec w) : (!y.slt x) = decide (x.toInt ≤ y.toInt) := by
  rw [BitVec.slt_eq_decide, ← decide_not, decide_eq_decide, not_lt]

theorem not_ult_eq_decide (x y : BitVec w) : (!y.ult x) = decide (x.toNat ≤ y.toNat) := by
  rw [BitVec.ult_eq_decide, ← decide_not, decide_eq_decide, not_lt]

end

section

variable {s : State} {i : Instr} {h h1 h2 : Heat}

/-! ### The end of a word that writes registers alone -/

/-- From h to h1 nothing but registers, and the journal of vector rows, may have changed. -/
structure RegistersOnly (h h1 : Heat) : Prop where
  still : h1.still = h.still
  stride : h1.stride = h.stride
  slots : h1.slots = h.slots
  lanes : h1.lanes = h.lanes

theorem RegistersOnly.setS (h : Heat) (r : Nat) (x : W64) : RegistersOnly h (h.setS r x) := ⟨rfl, rfl, rfl, rfl⟩

theorem RegistersOnly.setA (h : Heat) (r : Nat) (x : Addr) : RegistersOnly h (h.setA r x) := ⟨rfl, rfl, rfl, rfl⟩

theorem RegistersOnly.setV (h : Heat) (r l : Nat) (x : W32) : RegistersOnly h (h.setV r l x) := ⟨rfl, rfl, rfl, rfl⟩

theorem RegistersOnly.setPair (h : Heat) (r l : Nat) (x : W64) : RegistersOnly h (h.setPair r l x) :=
  ⟨rfl, rfl, rfl, rfl⟩

theorem RegistersOnly.setK (h : Heat) (r l : Nat) (x : Bool) : RegistersOnly h (h.setK r l x) := by
  unfold Heat.setK
  split <;> exact ⟨rfl, rfl, rfl, rfl⟩

theorem RegistersOnly.trans (a : RegistersOnly h h1) (b : RegistersOnly h1 h2) : RegistersOnly h h2 :=
  ⟨b.still.trans a.still, b.stride.trans a.stride, b.slots.trans a.slots, b.lanes.trans a.lanes⟩

theorem RegistersOnly.forLanes {f : Heat → Nat → Heat} (hf : ∀ y l, RegistersOnly y (f y l)) (h : Heat) (m : Mask) :
    RegistersOnly h (h.forLanes m f) :=
  ⟨Heat.forLanes_keeps _ f (fun y l => (hf y l).still) h m, Heat.forLanes_keeps _ f (fun y l => (hf y l).stride) h m,
    Heat.forLanes_keeps _ f (fun y l => (hf y l).slots) h m, Heat.forLanes_keeps _ f (fun y l => (hf y l).lanes) h m⟩

/-- A word that ends with its registers written goes on, and leaves everything else as it was (R107, R110, R113). -/
theorem RegistersOnly.finish (a : RegistersOnly h h1) (hs : s.curHeat? = some h) (he : exec i s = .next (s.finish h1)) :
    ∃ t h', Issued i s t h' ∧ OnlyIssuer s t ∧ Retired s h h' s.onward ∧ SameRegs h1 h' := by
  obtain ⟨t, h', hi, ho, ⟨hstill, hstride, hslots, hlane⟩, hrows, hpreds, hsr, har⟩ := finishBy_issued hs h1 s.onward he
  have hl (l : Nat) : h1.lane l = h.lane l := by rw [Heat.lane, Heat.lane, a.lanes]
  exact ⟨t, h', hi, ho, ⟨hstill.trans a.still, a.stride ▸ hstride, a.slots ▸ hslots, fun l => hl l ▸ hlane l⟩,
    sameRegs_of_eq hrows hpreds hsr har⟩

theorem Heat.regs_setK (h : Heat) (r l : Nat) (x : Bool) :
    (h.setK r l x).rows = h.rows ∧ (h.setK r l x).s = h.s ∧ (h.setK r l x).a = h.a := by
  unfold Heat.setK
  split <;> exact ⟨rfl, rfl, rfl⟩

theorem Heat.sameV_setK (h : Heat) (r l : Nat) (x : Bool) : SameV h (h.setK r l x) := by
  obtain ⟨hrows, -, -⟩ := h.regs_setK r l x
  exact fun _ _ _ => by rw [Heat.v, Heat.v, hrows]

theorem Heat.sameS_setK (h : Heat) (r l : Nat) (x : Bool) : SameS h (h.setK r l x) := by
  obtain ⟨-, hs, -⟩ := h.regs_setK r l x
  exact fun _ => by rw [Heat.sr, Heat.sr, hs]

theorem Heat.sameA_setK (h : Heat) (r l : Nat) (x : Bool) : SameA h (h.setK r l x) := by
  obtain ⟨-, -, ha⟩ := h.regs_setK r l x
  exact fun _ => by rw [Heat.ar, Heat.ar, ha]

theorem SameV.of_forLanes {f : Heat → Nat → Heat} {m : Mask} (a : SameV (h.forLanes m f) h1)
    (hf : ∀ y l, SameV y (f y l)) : SameV h h1 :=
  fun r l hl => (a r l hl).trans (Heat.forLanes_keeps (·.v r l) f (fun y j => hf y j r l hl) h m)

theorem SameK.of_forLanes {f : Heat → Nat → Heat} {m : Mask} (a : SameK (h.forLanes m f) h1)
    (hf : ∀ y l, SameK y (f y l)) : SameK h h1 :=
  fun r l hl => (a r l hl).trans (Heat.forLanes_keeps (·.k r l) f (fun y j => hf y j r l hl) h m)

theorem SameS.of_forLanes {f : Heat → Nat → Heat} {m : Mask} (a : SameS (h.forLanes m f) h1)
    (hf : ∀ y l, SameS y (f y l)) : SameS h h1 :=
  fun r => (a r).trans (Heat.forLanes_keeps (·.sr r) f (fun y j => hf y j r) h m)

theorem SameA.of_forLanes {f : Heat → Nat → Heat} {m : Mask} (a : SameA (h.forLanes m f) h1)
    (hf : ∀ y l, SameA y (f y l)) : SameA h h1 :=
  fun r => (a r).trans (Heat.forLanes_keeps (·.ar r) f (fun y j => hf y j r) h m)

/-! ### Scalar and address words (R109) -/

theorem scaWord_results {sr : List (Nat × Nat)} {d : Nat} {g : Heat → W64} (hr : s.ready h s.cur.lanes [] sr)
    (he : exec i s = scaWord s sr d g) :
    ∃ t h', Issued i s t h' ∧ OnlyIssuer s t ∧ Retired s h h' s.onward ∧
      (∀ r, h'.sr r = if r = d then g h else h.sr r) ∧ SameV h h' ∧ SameK h h' ∧ SameA h h' := by
  rw [scaWord, heatWord_ready hr] at he
  obtain ⟨t, h', hi, ho, hret, hv, hk, hsr, ha⟩ := (RegistersOnly.setS h d (g h)).finish hr.1 he
  refine ⟨t, h', hi, ho, hret, fun r => ?_, hv, hk, ha⟩
  rw [hsr, Heat.sr_setS]
  simp only [eq_comm]

theorem addrWord_results {sr : List (Nat × Nat)} {d : Nat} {g : Heat → Addr} (hr : s.ready h s.cur.lanes [] sr)
    (he : exec i s = addrWord s sr d g) :
    ∃ t h', Issued i s t h' ∧ OnlyIssuer s t ∧ Retired s h h' s.onward ∧
      (∀ r, h'.ar r = if r = d then g h else h.ar r) ∧ SameV h h' ∧ SameK h h' ∧ SameS h h' := by
  rw [addrWord, heatWord_ready hr] at he
  obtain ⟨t, h', hi, ho, hret, hv, hk, hsr, ha⟩ := (RegistersOnly.setA h d (g h)).finish hr.1 he
  refine ⟨t, h', hi, ho, hret, fun r => ?_, hv, hk, hsr⟩
  rw [ha, Heat.ar_setA]
  simp only [eq_comm]

/-- R125: both parts of an address, to two scalar registers. -/
theorem asplit_results {d b : BitVec 6} (a : BitVec 4) (hdb : d ≠ b)
    (hr : s.ready h s.cur.lanes [] (Claims.single [d.toNat, b.toNat])) :
    ∃ t h', Issued (.asplit d a b) s t h' ∧ OnlyIssuer s t ∧ Retired s h h' s.onward ∧
      h'.sr d.toNat = (h.ar a.toNat).extractLsb' 0 64 ∧
      h'.sr b.toNat = 0#56 ++ (h.ar a.toNat).extractLsb' 64 8 ∧
      (∀ r, r ≠ d.toNat → r ≠ b.toNat → h'.sr r = h.sr r) ∧ SameV h h' ∧ SameK h h' ∧ SameA h h' := by
  have hne : b.toNat ≠ d.toNat := fun e => hdb (BitVec.eq_of_toNat_eq e.symm)
  have he : exec (.asplit d a b) s = .next (s.finish ((h.setS d.toNat ((h.ar a.toNat).extractLsb' 0 64)).setS b.toNat
      (zext 64 ((h.ar a.toNat).extractLsb' 64 8)))) := heatWord_ready hr _
  obtain ⟨t, h', hi, ho, hret, hv, hk, hsr, ha⟩ :=
    ((RegistersOnly.setS h _ _).trans (.setS _ _ _)).finish hr.1 he
  refine ⟨t, h', hi, ho, hret, ?_, ?_, fun r hrd hrb => ?_, hv, hk, ha⟩
  · rw [hsr, Heat.sr_setS, if_neg hne, Heat.sr_setS, if_pos rfl]
  · rw [hsr, Heat.sr_setS, if_pos rfl]
    exact zext_eq_append 56 _
  · rw [hsr, Heat.sr_setS, if_neg hrb.symm, Heat.sr_setS, if_neg hrd.symm]

theorem scaWord_congr {sr : List (Nat × Nat)} {d : Nat} {g g' : Heat → W64} (hg : ∀ y, g y = g' y) :
    scaWord s sr d g = scaWord s sr d g' := by rw [funext hg]

/-- Every scalar word is run by `scaWord` with the value of its form (R114–R120, R124, R140). -/
theorem exec_of_scalarForm {f : Claims.ScalarForm} (hf : Claims.scalarForm s.cur i = some f) :
    exec i s = scaWord s (Claims.single f.uses) f.dest f.value := by
  cases i with
  | sadd | ssub | smul | smulhS64 | smulhN64 | sand | sor | sxor | sshl | sshr | saddImm | ssubImm | smulImm | sandImm
  | sorImm | sxorImm | sshlImm | sshrImm | smov | smovi | spopc =>
    cases hf
    rfl
  | ssra | ssraImm => cases hf; exact scaWord_congr fun y => sra_eq_shiftA (by decide) _ _
  | sminS64 => cases hf; exact scaWord_congr fun y => minS_eq _ _
  | sminN64 => cases hf; exact scaWord_congr fun y => minN_eq _ _
  | smaxS64 => cases hf; exact scaWord_congr fun y => maxS_eq _ _
  | smaxN64 => cases hf; exact scaWord_congr fun y => maxN_eq _ _
  | sminS64Imm => cases hf; exact scaWord_congr fun y => minS_sext (by decide) _ _
  | smaxS64Imm => cases hf; exact scaWord_congr fun y => maxS_sext (by decide) _ _
  | ssel => cases hf; exact scaWord_congr fun y => (ite_not _ _ _).symm
  | scmpEq => cases hf; exact scaWord_congr fun y => congrArg Claims.bit64 (beq_eq_decide _ _)
  | scmpNe => cases hf; exact scaWord_congr fun y => congrArg Claims.bit64 (bne_eq_decide _ _)
  | scmpLtS64 | scmpLtN64 => cases hf; rfl
  | scmpLeS64 => cases hf; exact scaWord_congr fun y => congrArg Claims.bit64 (not_slt_eq_decide _ _)
  | scmpLeN64 => cases hf; exact scaWord_congr fun y => congrArg Claims.bit64 (not_ult_eq_decide _ _)
  | sluiH1 => cases hf; exact scaWord_congr fun y => setHalf_eq_append 32 16 _ _
  | sluiH2 => cases hf; exact scaWord_congr fun y => setHalf_eq_append 16 32 _ _
  | sluiH3 => cases hf; exact scaWord_congr fun y => setHalf_eq_append_top 48 _ _
  | sclz => cases hf; exact scaWord_congr fun y => congrArg (BitVec.ofNat 64) (clz_eq _)
  | acmp => cases hf; exact scaWord_congr fun y => cmpAddr_eq _ _
  | kpopc =>
    cases hf
    exact scaWord_congr fun y => congrArg (fun l : List Nat => BitVec.ofNat 64 l.length) (lanesOf_taking y _ _)
  | _ => cases hf

theorem addrWord_congr {sr : List (Nat × Nat)} {d : Nat} {g g' : Heat → Addr} (hg : ∀ y, g y = g' y) :
    addrWord s sr d g = addrWord s sr d g' := by rw [funext hg]

/-- Every address word is run by `addrWord` with the value of its form (R121–R123). -/
theorem exec_of_addrForm {f : Claims.AddrForm} (hf : Claims.addrForm i = some f) (s : State) :
    exec i s = addrWord s (Claims.single f.uses) f.dest f.value := by
  cases i with
  | aadd | aaddImm | amovA | aldiH4 => cases hf; rfl
  | amovS => cases hf; exact addrWord_congr fun y => zext_eq_append 8 _
  | aldiH0 => cases hf; exact addrWord_congr fun y => zext_eq_append 56 _
  | aldiH1 => cases hf; exact addrWord_congr fun y => setHalf_eq_append 40 16 _ _
  | aldiH2 => cases hf; exact addrWord_congr fun y => setHalf_eq_append 24 32 _ _
  | aldiH3 => cases hf; exact addrWord_congr fun y => setHalf_eq_append 8 48 _ _
  | _ => cases hf

/-! ### Vector words (R110) -/

theorem vecWord_results {vr sr : List (Nat × Nat)} {p d : Nat} {g : Heat → Nat → W32}
    (hr : s.ready h s.cur.lanes vr sr) (he : exec i s = vecWord s vr sr p d g) :
    ∃ t h', Issued i s t h' ∧ OnlyIssuer s t ∧ Retired s h h' s.onward ∧
      (∀ r l, l < 32 → h'.v r l = if r = d ∧ inMask s.cur.lanes l ∧ h.k p l then g h l else h.v r l) ∧
      SameK h h' ∧ SameS h h' ∧ SameA h h' := by
  rw [vecWord, heatWord_ready hr] at he
  have honly : RegistersOnly h (h.forLanes (h.taking s.cur.lanes p) (fun y l => y.setV d l (g h l))) :=
    .forLanes (fun y l => .setV y d l _) h _
  obtain ⟨t, h', hi, ho, hret, hv, hk, hsr, ha⟩ := honly.finish hr.1 he
  refine ⟨t, h', hi, ho, hret, fun r l hl => ?_, hk.of_forLanes fun _ _ _ _ _ => rfl,
    hsr.of_forLanes fun _ _ _ => rfl, ha.of_forLanes fun _ _ _ => rfl⟩
  rw [hv r l hl, Heat.v_forLanes_setV h _ d (g h) r l hl]
  simp only [inMask_taking, Bool.and_eq_true]

theorem vecWord_congr {vr sr : List (Nat × Nat)} {p d : Nat} {g g' : Heat → Nat → W32} (hg : ∀ y l, g y l = g' y l) :
    vecWord s vr sr p d g = vecWord s vr sr p d g' := by rw [funext₂ hg]

/-- Every integer vector word with a 32-bit result is run by `vecWord` with the value of its form (R126–R128,
R130–R135, R137, R139). -/
theorem exec_eq_vecWord_of_intForm {f : Claims.VecForm} (hf : Claims.intForm i = some f) (s : State) :
    exec i s = vecWord s f.uses f.suses f.pred f.dest f.value := by
  cases i with
  | vadd | vsub | vmul | vmulhS32 | vmulhN32 | vmad | vand | vor | vxor | vshl | vshr | vpopc | vmov | vsel | vaddImm
  | vandImm | vorImm | vxorImm | vshlImm | vshrImm | vmulImm | vmovi | vmoviHi | kmovK2v =>
    cases hf
    rfl
  | vsra | vsraImm => cases hf; exact vecWord_congr fun y l => sra_eq_shiftA (by decide) _ _
  | vminS32 => cases hf; exact vecWord_congr fun y l => minS_eq _ _
  | vminN32 => cases hf; exact vecWord_congr fun y l => minN_eq _ _
  | vmaxS32 => cases hf; exact vecWord_congr fun y l => maxS_eq _ _
  | vmaxN32 => cases hf; exact vecWord_congr fun y l => maxN_eq _ _
  | vminS32Imm => cases hf; exact vecWord_congr fun y l => minS_sext (by decide) _ _
  | vmaxS32Imm => cases hf; exact vecWord_congr fun y l => maxS_sext (by decide) _ _
  | vaddSatS32 | vsubSatS32 => cases hf; exact vecWord_congr fun y l => satS_eq_clamp _
  | vaddSatN32 | vsubSatN32 => cases hf; exact vecWord_congr fun y l => satN_eq_clamp _
  | vabsS32 => cases hf; exact vecWord_congr fun y l => abs_eq_clamp _
  | vclz => cases hf; exact vecWord_congr fun y l => congrArg (BitVec.ofNat 32) (clz_eq _)
  | vmovScalar => cases hf; exact vecWord_congr fun y l => BitVec.setWidth_eq_extractLsb' (by decide)
  | vbfeN32 => cases hf; exact vecWord_congr fun y l => bfeN_eq _ _
  | vbfeS32 => cases hf; exact vecWord_congr fun y l => bfeS_eq _ _
  | vbfi => cases hf; exact vecWord_congr fun y l => bfi_eq _ _ _
  | vdp4S8 => cases hf; exact vecWord_congr fun y l => add_dot4_signed _ _ _
  | vdp4N8 => cases hf; exact vecWord_congr fun y l => add_dot4_unsigned _ _ _
  | vdp2S16 => cases hf; exact vecWord_congr fun y l => add_dot2_signed _ _ _
  | _ => cases hf

/-! ### Pairs (R129) -/

theorem Heat.v_setPair (h : Heat) (d l : Nat) (x : W64) {r l' : Nat} (hl : l < 32) (hl' : l' < 32) :
    (h.setPair d l x).v r l' = if r = d + 1 ∧ l = l' then x.extractLsb' 32 32
      else if r = d ∧ l = l' then x.extractLsb' 0 32 else h.v r l' := by
  have hkey (d : Nat) : 32 * d + l = 32 * r + l' ↔ r = d ∧ l = l' := by omega
  simp only [Heat.setPair, Heat.v_setV, hkey]

/-- A pair after a write of the same pair in one lane. -/
theorem Heat.pair_setPair (h : Heat) (d l : Nat) (x : W64) {l' : Nat} (hl : l < 32) (hl' : l' < 32) :
    (h.setPair d l x).pair d l' = if l = l' then x else h.pair d l' := by
  simp only [Heat.pair, Heat.v_setPair h d l x hl hl']
  by_cases hll : l = l'
  · have hne : ¬ d = d + 1 := by omega
    simp only [hll, hne, and_self, false_and, if_true, if_false]
    exact BitVec.extractLsb'_append_extractLsb'
  · simp [hll]

/-- A property of the heat that a change of each lane below 32 keeps. -/
theorem Heat.forLanes_keeps_of_lt {β : Type} (g : Heat → β) (f : Heat → Nat → Heat)
    (hf : ∀ y l, l < 32 → g (f y l) = g y) (h : Heat) (m : Mask) : g (h.forLanes m f) = g h :=
  List.foldlRecOn (lanesOf m) f (motive := fun y => g y = g h) rfl
    (fun y hy l hl => (hf y l (inMask_lt (mem_lanesOf.mp hl))).trans hy)

/-- Writing one pair in the lanes of a mask. -/
theorem Heat.pair_forLanes_setPair (h : Heat) (m : Mask) (d : Nat) (val : Nat → W64) {l : Nat} (hl : l < 32) :
    (h.forLanes m (fun y l => y.setPair d l (val l))).pair d l = if inMask m l = true then val l else h.pair d l := by
  have hlt {l : Nat} (hm : l ∈ lanesOf m) : l < 32 := inMask_lt (mem_lanesOf.mp hm)
  have := foldl_lanes (fun y l => y.setPair d l (val l)) (fun y l => if l < 32 then y.pair d l else 0#64)
    (fun _ l => val l) (lanesOf m) h (nodup_lanesOf m)
    (by
      intro y l x hm hx
      split
      · next hx32 => rw [Heat.pair_setPair y d l _ (hlt hm) hx32, if_neg hx.symm]
      · rfl)
    (by
      intro y l hm _
      rw [if_pos (hlt hm), Heat.pair_setPair y d l _ (hlt hm) (hlt hm), if_pos rfl])
    l
  simpa only [Heat.forLanes, mem_lanesOf, if_pos hl] using this

theorem pairWord_results {vr : List (Nat × Nat)} {p d : Nat} {g : Heat → Nat → W64}
    (hr : s.ready h s.cur.lanes vr []) (he : exec i s = pairWord s vr p d g) :
    ∃ t h', Issued i s t h' ∧ OnlyIssuer s t ∧ Retired s h h' s.onward ∧
      (∀ l, l < 32 → h'.pair d l = if inMask s.cur.lanes l ∧ h.k p l then g h l else h.pair d l) ∧
      (∀ r l, l < 32 → r ≠ d → r ≠ d + 1 → h'.v r l = h.v r l) ∧
      SameK h h' ∧ SameS h h' ∧ SameA h h' := by
  rw [pairWord, heatWord_ready hr] at he
  have honly : RegistersOnly h (h.forLanes (h.taking s.cur.lanes p) (fun y l => y.setPair d l (g h l))) :=
    .forLanes (fun y l => .setPair y d l _) h _
  obtain ⟨t, h', hi, ho, hret, hv, hk, hsr, ha⟩ := honly.finish hr.1 he
  refine ⟨t, h', hi, ho, hret, fun l hl => ?_, fun r l hl hrd hrd' => (hv r l hl).trans ?_,
    hk.of_forLanes fun _ _ _ _ _ => rfl, hsr.of_forLanes fun _ _ _ => rfl, ha.of_forLanes fun _ _ _ => rfl⟩
  · have hpair := Heat.pair_forLanes_setPair h (h.taking s.cur.lanes p) d (g h) hl
    rw [Heat.pair, hv _ _ hl, hv _ _ hl, ← Heat.pair, hpair]
    simp only [inMask_taking, Bool.and_eq_true]
  · refine Heat.forLanes_keeps_of_lt (·.v r l) _ (fun y j hj => ?_) h _
    rw [Heat.v_setPair y d j _ hj hl, if_neg (hrd' ·.1), if_neg (hrd ·.1)]

/-- Every 64-bit vector word is run by `pairWord` with the value of its form (R129). -/
theorem exec_of_pairForm {f : Claims.PairForm} (hf : Claims.pairForm i = some f) (s : State) :
    exec i s = pairWord s f.uses f.pred f.dest f.value := by
  cases i with
  | vaddN64 | vsubN64 | vmulN64 | vshlB64 | vshrB64 => cases hf; rfl
  | vsraS64 =>
    cases hf
    exact congrArg (pairWord s _ _ _) (funext₂ fun y l => sra_eq_shiftA (by decide) _ _)
  | _ => cases hf

/-! ### Predicate words (R43, R110) -/

/-- R43: k0 reads as 1, and a write to it changes nothing. -/
theorem Heat.k_zero (h : Heat) (l : Nat) : h.k 0 l = true := if_pos rfl

theorem Heat.setK_zero (h : Heat) (l : Nat) (x : Bool) : h.setK 0 l x = h := if_pos rfl

theorem predWord_results {vr : List (Nat × Nat)} {p d : Nat} {g : Heat → Nat → Bool}
    (hr : s.ready h s.cur.lanes vr []) (he : exec i s = predWord s vr p d g) :
    ∃ t h', Issued i s t h' ∧ OnlyIssuer s t ∧ Retired s h h' s.onward ∧
      (∀ r l, l < 32 → h'.k r l =
        if r ≠ 0 ∧ r = d ∧ inMask s.cur.lanes l ∧ h.k p l then g h l else h.k r l) ∧
      SameV h h' ∧ SameS h h' ∧ SameA h h' := by
  rw [predWord, heatWord_ready hr] at he
  have honly : RegistersOnly h (h.forLanes (h.taking s.cur.lanes p) (fun y l => y.setK d l (g h l))) :=
    .forLanes (fun y l => .setK y d l _) h _
  obtain ⟨t, h', hi, ho, hret, hv, hk, hsr, ha⟩ := honly.finish hr.1 he
  refine ⟨t, h', hi, ho, hret, fun r l hl => ?_, hv.of_forLanes fun y l => y.sameV_setK d l _,
    hsr.of_forLanes fun y l => y.sameS_setK d l _, ha.of_forLanes fun y l => y.sameA_setK d l _⟩
  rw [hk r l hl, Heat.k_forLanes_setK h _ d (g h) r l hl]
  simp only [inMask_taking, Bool.and_eq_true]

theorem predWord_congr {vr : List (Nat × Nat)} {p d : Nat} {g g' : Heat → Nat → Bool} (hg : ∀ y l, g y l = g' y l) :
    predWord s vr p d g = predWord s vr p d g' := by rw [funext₂ hg]

/-- Every comparison and predicate word is run by `predWord` with the value of its form (R136, R138, R139, R147). -/
theorem exec_of_predForm {f : Claims.PredForm} (hf : Claims.predForm i = some f) (s : State) :
    exec i s = predWord s f.uses f.pred f.dest f.value := by
  cases i with
  | vcmpLtS32 | vcmpLtN32 | vfcmpEq | vfcmpNe | vfcmpLt | vfcmpLe | vfcmpUn | kand | kor | kxor | knot | kmov =>
    cases hf
    rfl
  | vcmpEq => cases hf; exact predWord_congr fun y l => beq_eq_decide _ _
  | vcmpNe | kmovV2k => cases hf; exact predWord_congr fun y l => bne_eq_decide _ _
  | vcmpLeS32 => cases hf; exact predWord_congr fun y l => not_slt_eq_decide _ _
  | vcmpLeN32 => cases hf; exact predWord_congr fun y l => not_ult_eq_decide _ _
  | _ => cases hf

end

/-- Settles O1: each word is run by the shape of its family with the value of its form, and that shape writes one
register. -/
theorem scalarAndAddressResults : Obligations.ScalarAndAddressResults := by
  unfold Obligations.ScalarAndAddressResults
  exact ⟨fun i f s h hf hr => scaWord_results hr (exec_of_scalarForm hf),
    fun i f s h hf hr => addrWord_results hr (exec_of_addrForm hf s),
    fun d b a s h hdb hr => asplit_results a hdb hr⟩

/-- Settles O2: each word is run by `vecWord` or `pairWord` with the value of its form, which write the executing
lanes whose predicate is set. -/
theorem vectorIntegerResults : Obligations.VectorIntegerResults := by
  unfold Obligations.VectorIntegerResults
  exact ⟨fun i f s h hf hr => vecWord_results hr (exec_eq_vecWord_of_intForm hf s),
    fun i f s h hf hr => pairWord_results hr (exec_of_pairForm hf s)⟩

/-- Settles O4: each word is run by `predWord` with the value of its form; no write reaches k0. -/
theorem predicateResults : Obligations.PredicateResults := by
  unfold Obligations.PredicateResults
  exact ⟨fun h l r l' x => ⟨h.k_zero l, (h.setK r l' x).k_zero l, h.setK_zero l' x⟩,
    fun i f s h hf hr => predWord_results hr (exec_of_predForm hf s)⟩

end Sys2Proof.Machine

/-! SUPPORT. The floating-point and cross-lane words (R145–R150, R153, R154, R159–R162). While no wrong result lies
ahead a shadowed word ends like any other (R142), and then these words run as `vecWord` does: each taking lane is
given a value that the registers before the word determine. -/

namespace Sys2Proof.Machine

section

variable {s : State} {i : Instr} {h h1 : Heat}

/-! ### Words whose results are right -/

/-- With no wrong result ahead the shadow units meet none (R142, R375). -/
theorem State.Exact.finishShadow (hx : s.Exact) (h : Heat) (f : Fmt) (m : Mask) (d : Nat) (parts : Nat → Bool) :
    s.finishShadow h f m d parts = s.finish h := by
  have hnone : (s.core s.cur.core).flips.filter (fun x => x.hits 1 m parts) = [] :=
    List.filter_eq_nil_iff.mpr fun x hm => by simp [Flip.hits, hx x hm]
  simp [State.finishShadow, hnone]

theorem State.Exact.fpWord (hx : s.Exact) (b : Fmt) (vr : List (Nat × Nat)) (p d : Nat) (g : Heat → Nat → W32) :
    fpWord b s vr p d g = vecWord s vr [] p d g := by
  simp only [Machine.fpWord, vecWord, hx.finishShadow]

/-- A word that ends with v(d) written in the lanes of a mask whose predicate is set. -/
theorem finish_setV_results {m : Mask} {p d : Nat} {val : Nat → W32} (hs : s.curHeat? = some h)
    (he : exec i s = .next (s.finish (h.forLanes (h.taking m p) (fun y l => y.setV d l (val l))))) :
    ∃ t h', Issued i s t h' ∧ OnlyIssuer s t ∧ Retired s h h' s.onward ∧
      (∀ r l, l < 32 → h'.v r l = if r = d ∧ inMask m l ∧ h.k p l then val l else h.v r l) ∧
      SameK h h' ∧ SameS h h' ∧ SameA h h' := by
  have honly : RegistersOnly h (h.forLanes (h.taking m p) (fun y l => y.setV d l (val l))) :=
    .forLanes (fun y l => .setV y d l _) h _
  obtain ⟨t, h', hi, ho, hret, hv, hk, hsr, ha⟩ := honly.finish hs he
  refine ⟨t, h', hi, ho, hret, fun r l hl => ?_, hk.of_forLanes fun _ _ _ _ _ => rfl,
    hsr.of_forLanes fun _ _ _ => rfl, ha.of_forLanes fun _ _ _ => rfl⟩
  rw [hv r l hl, Heat.v_forLanes_setV h _ d val r l hl]
  simp only [inMask_taking, Bool.and_eq_true]

/-! ### Floating-point, packing and unpacking words -/

/-- R154: an element taken out without its sign. -/
theorem unpack_zero_extended (w n : Nat) (x : W32) : unpack w n false x = (Claims.part w n x).setWidth 32 := by
  rw [unpack, if_neg Bool.false_ne_true, fld_eq_part, f32, BitVec.ofNat_toNat]

/-- R154: an element taken out with its sign. -/
theorem unpack_sign_extended (w n : Nat) (x : W32) : unpack w n true x = (Claims.part w n x).signExtend 32 := by
  rw [unpack, if_pos rfl, fld_eq_part, sextN_toNat, BitVec.signExtend]

/-- Every floating-point, packing and unpacking word is run by `vecWord` with the value of its form while no wrong
result lies ahead (R145, R146, R148–R150, R153, R154). -/
theorem exec_eq_vecWord_of_floatForm {f : Claims.VecForm} (hf : Claims.floatForm i = some f) (hx : s.Exact) :
    exec i s = vecWord s f.uses f.suses f.pred f.dest f.value := by
  have hshadow (b : Fmt) (hb : Claims.shadowFmt i = some b) :
      exec i s = vecWord s f.uses f.suses f.pred f.dest f.value := by
    obtain ⟨he, hsuses⟩ := exec_of_shadowFmt hf hb s
    rw [he, hx.fpWord, hsuses]
  cases i with
  | vfadd | vfsub | vfmul | vfma | vfaddRz | vfmulRz | vfmaRz | vfmin | vfmax | vfscl | vfrcp | vfrsq | vfexp2
  | vflog2 | vftanh => exact hshadow .f32 rfl
  | vhadd | vhsub | vhmul | vhfma | vhmin | vhmax => exact hshadow .bf16 rfl
  | vfclass | vfrndRn | vfrndRz | vfrndRm | vfrndRp | vpackB8 | vpackB16 =>
    cases hf
    rfl
  | vunpkB4 | vunpkB8 | vunpkB16 => cases hf; exact vecWord_congr fun y l => unpack_zero_extended _ _ _
  | vunpkB4Sx | vunpkB8Sx | vunpkB16Sx => cases hf; exact vecWord_congr fun y l => unpack_sign_extended _ _ _
  | _ => cases hf

/-! ### Cross-lane words (R159–R162) -/

/-- Every vector register that a list of uses names. -/
def namedV (us : List Uses) : List (Nat × Nat) := us.foldl (fun acc u => acc ++ u.vr) []

/-- A word whose operands are within the budget, not pending and without an uncorrectable row runs its own part (R31,
R32, R42, R143, R473). -/
theorem heatWordBy_ready {us : List Uses} (hs : s.curHeat? = some h) (ho : overBudget h.budget (namedV us) = none)
    (hb : h.blocker s.cur.active us = none) (hw : h.badRow (namedV us) = false) (f : Heat → Out) :
    heatWordBy s us f = f h := by
  rw [namedV] at ho hw
  simp only [heatWordBy, hs, ho, hb, hw, Bool.false_eq_true, if_false]

/-- How a cross-lane word runs: it waits for the rows of its form, then gives each taking lane its value. -/
def crossWord (s : State) (f : Claims.CrossForm) : Out :=
  heatWordBy s f.waits (fun h =>
    .next (s.finish (h.forLanes (h.taking f.lanes f.pred) (fun y l => y.setV f.dest l (f.value h l)))))

theorem crossWord_results {f : Claims.CrossForm} (hn : namedV f.waits = f.uses) (hr : f.ready s h)
    (he : exec i s = crossWord s f) :
    ∃ t h', Issued i s t h' ∧ OnlyIssuer s t ∧ Retired s h h' s.onward ∧
      (∀ r l, l < 32 → h'.v r l =
        if r = f.dest ∧ inMask f.lanes l ∧ h.k f.pred l then f.value h l else h.v r l) ∧
      SameK h h' ∧ SameS h h' ∧ SameA h h' := by
  obtain ⟨hs, ho, hb, hw⟩ := hr
  rw [← hn] at ho hw
  rw [crossWord, heatWordBy_ready hs ho hb hw] at he
  exact finish_setV_results hs he

theorem quadSwap_eq_quadAt (t : Nat) : quadSwap t = Claims.quadAt t :=
  funext fun l => by rw [quadSwap, Claims.quadAt, Nat.mul_comm]

/-- A quad word runs as its form says (R143, R159). -/
theorem quadWord_eq_crossWord {d a : BitVec 7} {p : Nat} {g g' : Nat → Nat} {f : Claims.CrossForm}
    (hf : Claims.quad s.cur d a p g' = some f) (hg : g = g') :
    quadWord d a p g s = crossWord s f ∧ namedV f.waits = f.uses := by
  cases hf
  subst hg
  exact ⟨rfl, rfl⟩

/-- A shuffle runs as its form says (R160). -/
theorem shuffle_eq_crossWord {d a : BitVec 7} {more : List (Nat × Nat)} {p : Nat} {src : Heat → Nat → Int}
    {f : Claims.CrossForm} (hf : Claims.shfl s.cur d a more p src = some f) :
    shuffle d a more p src s = crossWord s f ∧ namedV f.waits = f.uses := by
  cases hf
  refine ⟨?_, rfl⟩
  simp only [shuffle, heatWordIn, crossWord, Bool.and_eq_true, decide_eq_true_eq, and_assoc, apply_ite (Heat.v _ _)]

/-- A reduction, whose last element every contributor takes, runs as its form says (R161). -/
theorem reduceWord_eq_crossWord {fp : Bool} {d a : BitVec 7} {p : BitVec 2} {op op' : W32 → W32 → W32} {e : W32}
    {f : Claims.CrossForm} (hf : Claims.net s.cur d a p op' e (fun _ => 31) = some f) (hop : op = op') (hx : s.Exact) :
    reduceWord fp d a p op e s = crossWord s f ∧ namedV f.waits = f.uses := by
  cases hf
  subst hop
  refine ⟨?_, rfl⟩
  simp only [reduceWord, hx.finishShadow]
  rfl

/-- A scan, of which each contributor takes its own element, runs as its form says (R161). -/
theorem scanWord_eq_crossWord {fp : Bool} {d a : BitVec 7} {p : BitVec 2} {op op' : W32 → W32 → W32} {e : W32}
    {f : Claims.CrossForm} (hf : Claims.net s.cur d a p op' e id = some f) (hop : op = op') (hx : s.Exact) :
    scanWord fp d a p op e s = crossWord s f ∧ namedV f.waits = f.uses := by
  cases hf
  subst hop
  refine ⟨?_, rfl⟩
  simp only [scanWord, hx.finishShadow]
  rfl

theorem minS_eq_lower : minS (w := 32) = Claims.lower := funext₂ minS_eq

theorem maxS_eq_upper : maxS (w := 32) = Claims.upper := funext₂ maxS_eq

/-- Every cross-lane word with a vector result is run by `crossWord` with its form while no wrong result lies ahead
(R159–R162). -/
theorem exec_of_crossForm {f : Claims.CrossForm} (hf : Claims.crossForm s.cur i = some f) (hx : s.Exact) :
    exec i s = crossWord s f ∧ namedV f.waits = f.uses := by
  cases i with
  | qswpH | qswpV | qswpD => exact quadWord_eq_crossWord hf (quadSwap_eq_quadAt _)
  | qbcast => exact quadWord_eq_crossWord hf (funext fun l => by rw [Nat.mul_comm])
  | vshflIdx | vshflUp | vshflDown | vshflXor => exact shuffle_eq_crossWord hf
  | vredMinS32 => exact reduceWord_eq_crossWord hf minS_eq_lower hx
  | vredMaxS32 => exact reduceWord_eq_crossWord hf maxS_eq_upper hx
  | vredAddS32 | vredAddF32 | vredMinF32 | vredMaxF32 | vredAndB32 | vredOrB32 | vredXorB32 =>
    exact reduceWord_eq_crossWord hf rfl hx
  | vscanMinS32 => exact scanWord_eq_crossWord hf minS_eq_lower hx
  | vscanMaxS32 => exact scanWord_eq_crossWord hf maxS_eq_upper hx
  | vscanAddS32 | vscanAddF32 | vscanOrB32 => exact scanWord_eq_crossWord hf rfl hx
  | vballot =>
    cases hf
    exact ⟨rfl, rfl⟩
  | _ => cases hf

/-! ### Votes (R162) -/

theorem voteAll_iff {m : Mask} {f : Nat → Bool} : voteAll m f = true ↔ ∀ l, inMask m l = true → f l = true := by
  simp only [voteAll, List.all_eq_true, mem_lanesOf]

theorem voteAny_iff {m : Mask} {f : Nat → Bool} : voteAny m f = true ↔ ∃ l, inMask m l = true ∧ f l = true := by
  simp only [voteAny, List.any_eq_true, mem_lanesOf]

/-- The lowest lane of a mask that has a lane is one of its lanes. -/
theorem inMask_lowLane {m : Mask} {l : Nat} (hl : inMask m l = true) : inMask m (lowLane m) = true := by
  have hne : lanesOf m ≠ [] := List.ne_nil_of_mem (mem_lanesOf.mpr hl)
  rw [← mem_lanesOf, lowLane, List.headD_eq_head?_getD, List.head?_eq_some_head hne]
  exact List.head_mem hne

theorem voteUni_iff {m : Mask} {f : Nat → W32} :
    voteUni m f = true ↔ ∀ l n, inMask m l = true → inMask m n = true → f l = f n := by
  simp only [voteUni, List.all_eq_true, mem_lanesOf, beq_iff_eq]
  constructor
  · intro hall l n hl hn
    rw [hall l hl, hall n hn]
  · intro huni l hl
    exact huni l _ hl (inMask_lowLane hl)

/-- Every vote is run by `voteWord` with a condition that the statement's table describes (R162). -/
theorem exec_of_voteForm {f : Claims.VoteForm} (hf : Claims.voteForm i = some f) (s : State) :
    ∃ (d : BitVec 3) (g : Heat → Mask → Bool), exec i s = voteWord d f.uses f.pred g s ∧ f.dest = d.toNat ∧
      ∀ h m, g h m = true ↔ f.value h m := by
  cases i with
  | vvoteAll d a p =>
    cases hf
    exact ⟨d, fun h m => voteAll m (h.k a.toNat), rfl, rfl, fun _ _ => voteAll_iff⟩
  | vvoteAny d a p =>
    cases hf
    exact ⟨d, fun h m => voteAny m (h.k a.toNat), rfl, rfl, fun _ _ => voteAny_iff⟩
  | vvoteUni d a p =>
    cases hf
    exact ⟨d, fun h m => voteUni m (h.v a.toNat), rfl, rfl, fun _ _ => voteUni_iff⟩
  | _ => cases hf

theorem voteWord_results {d : BitVec 3} {vr : List (Nat × Nat)} {p : BitVec 2} {g : Heat → Mask → Bool}
    (hr : s.ready h s.cur.active vr []) (he : exec i s = voteWord d vr p g s) :
    ∃ t h', Issued i s t h' ∧ OnlyIssuer s t ∧ Retired s h h' s.onward ∧
      (∀ r l, l < 32 → h'.k r l =
        if r ≠ 0 ∧ r = d.toNat ∧ inMask (Claims.contributors s.cur p h) l = true
        then g h (Claims.contributors s.cur p h) else h.k r l) ∧
      SameV h h' ∧ SameS h h' ∧ SameA h h' := by
  rw [voteWord, heatWordIn_ready hr] at he
  have honly := RegistersOnly.forLanes
    (fun y l => .setK y d.toNat l (g h (Claims.contributors s.cur p h))) h (Claims.contributors s.cur p h)
  obtain ⟨t, h', hi, ho, hret, hv, hk, hsr, ha⟩ := honly.finish hr.1 he
  refine ⟨t, h', hi, ho, hret, fun r l hl => ?_, hv.of_forLanes fun y l => y.sameV_setK d.toNat l _,
    hsr.of_forLanes fun y l => y.sameS_setK d.toNat l _, ha.of_forLanes fun y l => y.sameA_setK d.toNat l _⟩
  rw [hk r l hl]
  exact Heat.k_forLanes_setK h _ d.toNat (fun _ => g h (Claims.contributors s.cur p h)) r l hl

/-- R162: a vote gives every contributor one value of k(D), and changes no other predicate. -/
theorem vote_results {f : Claims.VoteForm} (hf : Claims.voteForm i = some f) (hr : s.ready h s.cur.active f.uses []) :
    ∃ t h', Issued i s t h' ∧ OnlyIssuer s t ∧ Retired s h h' s.onward ∧
      (∀ l, l < 32 → f.dest ≠ 0 → inMask (Claims.contributors s.cur f.pred h) l →
        (h'.k f.dest l = true ↔ f.value h (Claims.contributors s.cur f.pred h))) ∧
      (∀ r l, l < 32 → ¬ (r = f.dest ∧ inMask (Claims.contributors s.cur f.pred h) l) → h'.k r l = h.k r l) ∧
      SameV h h' ∧ SameS h h' ∧ SameA h h' := by
  obtain ⟨d, g, he, hd, hg⟩ := exec_of_voteForm hf s
  obtain ⟨t, h', hi, ho, hret, hk, hsame⟩ := voteWord_results hr he
  rw [hd]
  refine ⟨t, h', hi, ho, hret, fun l hl hne hm => ?_, fun r l hl hn => ?_, hsame⟩
  · rw [hk _ l hl, if_pos ⟨hne, rfl, hm⟩]
    exact hg _ _
  · rw [hk r l hl, if_neg fun hc => hn hc.2]

end

/-- Settles O3: while no wrong result lies ahead each word is run by `vecWord` with the value of its form. -/
theorem vectorFloatResults : Obligations.VectorFloatResults := by
  unfold Obligations.VectorFloatResults
  exact fun i f s h hf hr hx => vecWord_results hr (exec_eq_vecWord_of_floatForm hf hx)

/-- Settles O5: a word with a vector result gives each taking lane a value of the heat before the word; a vote gives
every contributor one value. -/
theorem crossLaneResults : Obligations.CrossLaneResults := by
  unfold Obligations.CrossLaneResults
  refine ⟨fun i f s h hf hr hx => ?_, fun i f s h hf hr => vote_results hf hr⟩
  obtain ⟨he, hn⟩ := exec_of_crossForm hf hx
  exact crossWord_results hn hr he

end Sys2Proof.Machine

/-! SUPPORT. Conversion and quantisation (R151–R158). These words run lane after lane, and what a lane does depends on
that lane alone: so each lane ends as if it were the first, whatever the order (`view_foldl`). A lane's part writes rows
of the lane, draws for a rounding, which counts CVCNT of a lane that is no helper (R106), and leaves the rest. -/

namespace Sys2Proof.Machine

section

variable {s : State} {i : Instr} {h h1 h2 y z : Heat} {l d : Nat} {b : Bool}

/-! ### One lane of a heat -/

theorem inMask_zero (l : Nat) : inMask 0#32 l = false := BitVec.getLsbD_zero

theorem inMask_ones (l : Nat) : inMask 0xFFFFFFFF#32 l = decide (l < 32) :=
  BitVec.getLsbD_allOnes (v := 32)

theorem Heat.lane_setV (h : Heat) (r l : Nat) (x : W32) (j : Nat) : (h.setV r l x).lane j = h.lane j := rfl

theorem Heat.k_setV (h : Heat) (r l : Nat) (x : W32) (n j : Nat) : (h.setV r l x).k n j = h.k n j := rfl

theorem Heat.lane_setK (h : Heat) (r l : Nat) (x : Bool) (j : Nat) : (h.setK r l x).lane j = h.lane j := by
  rw [Heat.lane, Heat.lane, (RegistersOnly.setK h r l x).lanes]

theorem Heat.v_setK (h : Heat) (r l : Nat) (x : Bool) (n j : Nat) : (h.setK r l x).v n j = h.v n j := by
  rw [Heat.v, Heat.v, (h.regs_setK r l x).1]

/-- What a heat holds of one lane: its place and counters, its rows and its predicates. -/
structure LaneView where
  lane : Lane
  v : Nat → W32
  k : Nat → Bool

/-- Lane l of the heat; a number above 31 names no rows. -/
def Heat.view (h : Heat) (l : Nat) : LaneView :=
  { lane := h.lane l, v := fun r => if l < 32 then h.v r l else 0#32, k := fun r => if l < 32 then h.k r l else false }

theorem Heat.lane_view (h : Heat) (l : Nat) : (h.view l).lane = h.lane l := rfl

theorem Heat.v_view (h : Heat) (r : Nat) (hl : l < 32) : (h.view l).v r = h.v r l := if_pos hl

theorem Heat.k_view (h : Heat) (r : Nat) (hl : l < 32) : (h.view l).k r = h.k r l := if_pos hl

theorem Heat.view_setLane (h : Heat) (l : Nat) (x : Lane) (j : Nat) :
    (h.setLane l x).view j = if l = j then { h.view j with lane := x } else h.view j := by
  rw [Heat.view, Heat.lane_setLane]
  split <;> rfl

theorem Heat.view_setV (h : Heat) (r : Nat) (x : W32) (hl : l < 32) (j : Nat) :
    (h.setV r l x).view j =
      if l = j then { h.view j with v := Function.update (h.view j).v r x } else h.view j := by
  by_cases hj : l = j
  · subst hj
    have hv (n : Nat) : (h.setV r l x).v n l = Function.update (h.view l).v r x n := by
      simp [Function.update_apply, h.v_view n hl, eq_comm]
    simp only [if_pos, Heat.view, if_pos hl, hv]
    rfl
  · have hv (n : Nat) (hj32 : j < 32) : (h.setV r l x).v n j = h.v n j := by
      rw [Heat.v_setV, if_neg (by omega)]
    rw [if_neg hj]
    simp +contextual only [Heat.view, hv]
    rfl

theorem Heat.view_setK (h : Heat) {r : Nat} (hr : r ≠ 0) (x : Bool) (hl : l < 32) (j : Nat) :
    (h.setK r l x).view j =
      if l = j then { h.view j with k := Function.update (h.view j).k r x } else h.view j := by
  by_cases hj : l = j
  · subst hj
    have hk (n : Nat) : (h.setK r l x).k n l = Function.update (h.view l).k r x n := by
      by_cases hn : n = r
      · subst hn
        rw [Heat.k_setK, if_pos ⟨hr, hr, rfl⟩, Function.update_self]
      · rw [Heat.k_setK, if_neg (by omega), Function.update_of_ne hn, h.k_view n hl]
    simp only [if_pos, Heat.view, if_pos hl, Heat.lane_setK, Heat.v_setK, hk]
  · have hk (n : Nat) (hj32 : j < 32) : (h.setK r l x).k n j = h.k n j := by
      rw [Heat.k_setK, if_neg (by omega)]
    rw [if_neg hj]
    simp +contextual only [Heat.view, Heat.lane_setK, Heat.v_setK, hk]

/-- A row written in a lane depends on the heat only through the lane. -/
theorem Heat.setV_congr_view (hl : l < 32) (hyz : y.view l = z.view l) (r : Nat) (x : W32) :
    (y.setV r l x).view l = (z.setV r l x).view l := by
  rw [Heat.view_setV y r x hl, Heat.view_setV z r x hl, hyz]

theorem Heat.v_congr_view (hl : l < 32) (hyz : y.view l = z.view l) (r : Nat) : y.v r l = z.v r l := by
  rw [← Heat.v_view y r hl, hyz, Heat.v_view z r hl]

/-- A row after a write of a row of the same lane. -/
theorem Heat.v_setV_lane (h : Heat) (r l : Nat) (x : W32) (n : Nat) :
    (h.setV r l x).v n l = if n = r then x else h.v n l := by
  rw [Heat.v_setV]
  exact if_congr (by omega) rfl rfl

theorem Heat.setK_congr_view (hl : l < 32) (hyz : y.view l = z.view l) {r : Nat} (hr : r ≠ 0) (x : Bool) :
    (y.setK r l x).view l = (z.setK r l x).view l := by
  rw [Heat.view_setK y hr x hl, Heat.view_setK z hr x hl, hyz]

/-- A predicate after a write of a predicate of the same lane. -/
theorem Heat.k_setK_lane (h : Heat) {r : Nat} (hr : r ≠ 0) (l : Nat) (x : Bool) (n : Nat) :
    (h.setK r l x).k n l = if n = r then x else h.k n l := by
  rw [Heat.k_setK]
  exact if_congr (by omega) rfl rfl

/-! ### Work in one lane -/

/-- From h to h1 only registers of lanes and CVCNT may have changed. -/
structure LanesOnly (h h1 : Heat) : Prop where
  still : h1.still = h.still
  stride : h1.stride = h.stride
  slots : h1.slots = h.slots
  s : h1.s = h.s
  a : h1.a = h.a

/-- From h to h1 only rows, predicates and CVCNT of lane l may have changed, and CVCNT not if b says that the lane is a
helper (R106). -/
structure WorksIn (b : Bool) (l : Nat) (h h1 : Heat) : Prop extends LanesOnly h h1 where
  other : ∀ j, j ≠ l → h1.view j = h.view j
  cvcnt : ∃ c, h1.lane l = { h.lane l with cvcnt := c }
  helper : b = true → h1.lane l = h.lane l

theorem LanesOnly.refl (h : Heat) : LanesOnly h h := ⟨rfl, rfl, rfl, rfl, rfl⟩

theorem LanesOnly.trans (p : LanesOnly h h1) (q : LanesOnly h1 h2) : LanesOnly h h2 :=
  ⟨q.still.trans p.still, q.stride.trans p.stride, q.slots.trans p.slots, q.s.trans p.s, q.a.trans p.a⟩

theorem LanesOnly.setV (h : Heat) (r l : Nat) (x : W32) : LanesOnly h (h.setV r l x) := ⟨rfl, rfl, rfl, rfl, rfl⟩

theorem LanesOnly.setK (h : Heat) (r l : Nat) (x : Bool) : LanesOnly h (h.setK r l x) := by
  unfold Heat.setK
  split <;> exact ⟨rfl, rfl, rfl, rfl, rfl⟩

theorem LanesOnly.foldl {f : Heat → Nat → Heat} {ls : List Nat} (hf : ∀ y, ∀ l ∈ ls, LanesOnly y (f y l)) (h : Heat) :
    LanesOnly h (ls.foldl f h) :=
  List.foldlRecOn ls f (motive := LanesOnly h) (.refl h) (fun y hy l hl => hy.trans (hf y l hl))

theorem WorksIn.refl (b : Bool) (l : Nat) (h : Heat) : WorksIn b l h h :=
  { LanesOnly.refl h with other := fun _ _ => rfl, cvcnt := ⟨_, rfl⟩, helper := fun _ => rfl }

theorem WorksIn.trans (p : WorksIn b l h h1) (q : WorksIn b l h1 h2) : WorksIn b l h h2 :=
  { p.toLanesOnly.trans q.toLanesOnly with
    other := fun j hj => (q.other j hj).trans (p.other j hj)
    cvcnt := by
      obtain ⟨c, hc⟩ := p.cvcnt
      obtain ⟨e, he⟩ := q.cvcnt
      exact ⟨e, he.trans (by rw [hc])⟩
    helper := fun hb => (q.helper hb).trans (p.helper hb) }

theorem WorksIn.setV (b : Bool) (hl : l < 32) (h : Heat) (r : Nat) (x : W32) : WorksIn b l h (h.setV r l x) :=
  { LanesOnly.setV h r l x with
    other := fun j hj => by rw [h.view_setV r x hl, if_neg hj.symm], cvcnt := ⟨_, rfl⟩, helper := fun _ => rfl }

theorem WorksIn.setK (b : Bool) (hl : l < 32) (h : Heat) {r : Nat} (hr : r ≠ 0) (x : Bool) :
    WorksIn b l h (h.setK r l x) :=
  { LanesOnly.setK h r l x with
    other := fun j hj => by rw [h.view_setK hr x hl, if_neg hj.symm]
    cvcnt := ⟨_, h.lane_setK r l x l⟩, helper := fun _ => h.lane_setK r l x l }

/-- The lane after work in it, which may have counted CVCNT. -/
theorem WorksIn.lane_eq (p : WorksIn b l h h1) : h1.lane l = { h.lane l with cvcnt := (h1.lane l).cvcnt } := by
  obtain ⟨c, hc⟩ := p.cvcnt
  rw [hc]

/-- A lane loop whose part for a lane works in that lane and depends on it alone. -/
structure LaneWise (helpers : Mask) (f : Heat → Nat → Heat) : Prop where
  works : ∀ y l, l < 32 → WorksIn (inMask helpers l) l y (f y l)
  congr_view : ∀ y z l, l < 32 → y.view l = z.view l → (f y l).view l = (f z l).view l

/-- Each lane that the loop takes ends as if it were the first, each other lane as it was. -/
theorem LaneWise.view_foldl {m : Mask} {f : Heat → Nat → Heat} (hf : LaneWise m f) {ls : List Nat} (hn : ls.Nodup)
    (hlt : ∀ l ∈ ls, l < 32) (h : Heat) (j : Nat) :
    (ls.foldl f h).view j = if j ∈ ls then (f h j).view j else h.view j :=
  foldl_lanes f Heat.view (fun h l => (f h l).view l) ls h hn
    (fun y l j hl hj => (hf.works y l (hlt l hl)).other j hj)
    (fun y l hl hy => hf.congr_view y h l (hlt l hl) (hy l (List.mem_singleton_self l))) j

theorem LaneWise.view_forLanes {m n : Mask} {f : Heat → Nat → Heat} (hf : LaneWise m f) (h : Heat) (j : Nat) :
    (h.forLanes n f).view j = if inMask n j then (f h j).view j else h.view j := by
  simp only [Heat.forLanes, hf.view_foldl (nodup_lanesOf n) (fun l hl => inMask_lt (mem_lanesOf.mp hl)), mem_lanesOf]

theorem LaneWise.lanesOnly {m n : Mask} {f : Heat → Nat → Heat} (hf : LaneWise m f) (h : Heat) :
    LanesOnly h (h.forLanes n f) :=
  .foldl (fun y l hl => (hf.works y l (inMask_lt (mem_lanesOf.mp hl))).toLanesOnly) h

/-! ### The end of a word that works lane after lane -/

/-- A word that ends with registers of its lanes written goes on, its active lanes after the change `move` (R106, R110,
R113). -/
theorem LanesOnly.finish {move : Nat → Lane → Lane} (p : LanesOnly h h1) (hs : s.curHeat? = some h)
    (hlane : ∀ l, h1.lane l = if inMask s.cur.active l then move l (h.lane l) else h.lane l)
    (he : exec i s = .next (s.finish h1)) :
    ∃ t h', Issued i s t h' ∧ OnlyIssuer s t ∧ Retired s h h' (fun l x => (move l x).goOn s.stamp) ∧ SameV h1 h' ∧
      SameK h1 h' ∧ SameS h h' ∧ SameA h h' := by
  obtain ⟨t, h', hi, ho, hret, hrows, hpreds, hsr, har⟩ := finishBy_issued hs h1 s.onward he
  obtain ⟨hv, hk, -, -⟩ := sameRegs_of_eq hrows hpreds hsr har
  exact ⟨t, h', hi, ho, hret.of_lanes p.still p.stride p.slots hlane, hv, hk,
    fun r => by rw [Heat.sr, Heat.sr, hsr, p.s], fun r => by rw [Heat.ar, Heat.ar, har, p.a]⟩

/-- A word that is such a loop over its executing lanes. -/
theorem LaneWise.results {f : Heat → Nat → Heat} (hf : LaneWise s.cur.helpers f) (hs : s.curHeat? = some h)
    (he : exec i s = .next (s.finish (h.forLanes s.cur.lanes f))) :
    ∃ t h', Issued i s t h' ∧ OnlyIssuer s t ∧
      Retired s h h' (fun l x => { x with cvcnt := ((f h l).lane l).cvcnt }.goOn s.stamp) ∧
      (∀ r l, l < 32 → h'.v r l = if inMask s.cur.lanes l then (f h l).v r l else h.v r l) ∧
      (∀ r l, l < 32 → h'.k r l = if inMask s.cur.lanes l then (f h l).k r l else h.k r l) ∧
      SameS h h' ∧ SameA h h' := by
  have hview := hf.view_forLanes (n := s.cur.lanes) h
  have hlane (l : Nat) : (h.forLanes s.cur.lanes f).lane l =
      if inMask s.cur.active l then { h.lane l with cvcnt := ((f h l).lane l).cvcnt } else h.lane l := by
    rw [← Heat.lane_view, hview, Cur.lanes, inMask_or]
    by_cases hact : inMask s.cur.active l = true
    · rw [if_pos (by simp [hact]), if_pos hact]
      exact (hf.works h l (inMask_lt hact)).lane_eq
    · by_cases hhelp : inMask s.cur.helpers l = true
      · rw [if_pos (by simp [hhelp]), if_neg hact]
        exact (hf.works h l (inMask_lt hhelp)).helper hhelp
      · rw [if_neg (by simp [hact, hhelp]), if_neg hact]
        rfl
  obtain ⟨t, h', hi, ho, hret, hv, hk, hsr, ha⟩ := (hf.lanesOnly h).finish hs
    (move := fun l x => { x with cvcnt := ((f h l).lane l).cvcnt }) hlane he
  refine ⟨t, h', hi, ho, hret, fun r l hl => ?_, fun r l hl => ?_, hsr, ha⟩
  · rw [hv r l hl, ← Heat.v_view _ r hl, hview]
    split <;> exact Heat.v_view _ r hl
  · rw [hk r l hl, ← Heat.k_view _ r hl, hview]
    split <;> exact Heat.k_view _ r hl

/-- A move of lanes that agrees where it is applied. -/
theorem Retired.congr {f f' : Nat → Lane → Lane} (hr : Retired s h h1 f)
    (hf : ∀ l, inMask s.cur.active l = true → f l (h.lane l) = f' l (h.lane l)) : Retired s h h1 f' := by
  obtain ⟨hstill, hstride, hslots, hlane⟩ := hr
  refine ⟨hstill, hstride, hslots, fun l => (hlane l).trans ?_⟩
  split
  · next hl => rw [hf l hl]
  · rfl

/-! ### Rounding in a lane (R99, R105, R106) -/

section

variable {key : W64} {f : Fmt} {m : RMode} {q : Nat × Nat × Bool} {w : Option FVal} {x : FVal}

theorem Heat.roundIn_works (h : Heat) : WorksIn b l h (h.roundIn key b l f m q w).2 := by
  simp only [Heat.roundIn]
  split
  · next hdraw =>
    have hb : ¬ b = true := by simp_all
    exact { still := rfl, stride := rfl, slots := rfl, s := rfl, a := rfl
            other := fun j hj => by rw [Heat.view_setLane, if_neg hj.symm]
            cvcnt := ⟨_, by rw [Heat.lane_setLane, if_pos rfl]⟩
            helper := fun hb' => absurd hb' hb }
  · exact .refl b l h

theorem Heat.roundIn_regs (h : Heat) :
    (h.roundIn key b l f m q w).2.rows = h.rows ∧ (h.roundIn key b l f m q w).2.preds = h.preds := by
  simp only [Heat.roundIn]
  split <;> exact ⟨rfl, rfl⟩

/-- A rounding depends on the heat only through its lane. -/
theorem Heat.roundIn_congr_view (hyz : y.view l = z.view l) :
    (y.roundIn key b l f m q w).1 = (z.roundIn key b l f m q w).1 ∧
      (y.roundIn key b l f m q w).2.view l = (z.roundIn key b l f m q w).2.view l := by
  have hlane : y.lane l = z.lane l := congrArg LaneView.lane hyz
  simp only [Heat.roundIn, hlane, true_and]
  split
  · rw [Heat.view_setLane, Heat.view_setLane, hyz]
  · exact hyz

/-- The rounding of an exact value is one of a ratio or of a special value. -/
theorem Heat.roundVal_eq (key : W64) (b : Bool) (l : Nat) (f : Fmt) (m : RMode) (x : FVal) :
    ∃ q w, ∀ h : Heat, h.roundVal key b l f m x = h.roundIn key b l f m q w := by
  cases x with
  | nan => exact ⟨(0, 1, false), some .nan, fun h => rfl⟩
  | inf neg => exact ⟨(0, 1, false), some (.inf neg), fun h => rfl⟩
  | fin neg n e => exact ⟨((ratio n e).1, (ratio n e).2, neg), none, fun h => rfl⟩

theorem Heat.roundVal_works (h : Heat) : WorksIn b l h (h.roundVal key b l f m x).2 := by
  obtain ⟨q, w, hq⟩ := Heat.roundVal_eq key b l f m x
  rw [hq]
  exact h.roundIn_works

theorem Heat.roundVal_regs (h : Heat) :
    (h.roundVal key b l f m x).2.rows = h.rows ∧ (h.roundVal key b l f m x).2.preds = h.preds := by
  obtain ⟨q, w, hq⟩ := Heat.roundVal_eq key b l f m x
  rw [hq]
  exact h.roundIn_regs

theorem Heat.roundVal_congr_view (hyz : y.view l = z.view l) :
    (y.roundVal key b l f m x).1 = (z.roundVal key b l f m x).1 ∧
      (y.roundVal key b l f m x).2.view l = (z.roundVal key b l f m x).2.view l := by
  obtain ⟨q, w, hq⟩ := Heat.roundVal_eq key b l f m x
  rw [hq, hq]
  exact Heat.roundIn_congr_view hyz

end

/-! ### Conversions (R151, R152) -/

/-- What a VCVT does in lane l. -/
def convertLane (s : State) (f : Claims.CvtForm) (h : Heat) (l : Nat) : Heat :=
  h.cvtLane s.seed (inMask s.cur.helpers l) f.fmt f.mode f.dest f.src f.toElem f.fromElem f.srcFmt l

theorem convertLane_eq (s : State) (f : Claims.CvtForm) (h : Heat) (l : Nat) :
    convertLane s f h l = (Claims.cvtLane s h f l).2.setV f.dest l
      (putElem f.fmt (h.v f.dest l) f.toElem (Claims.cvtLane s h f l).1) := rfl

theorem laneWise_convertLane (s : State) (f : Claims.CvtForm) : LaneWise s.cur.helpers (convertLane s f) where
  works y l hl := by
    rw [convertLane_eq]
    exact y.roundVal_works.trans (.setV _ hl _ _ _)
  congr_view y z l hl hyz := by
    have hv := Heat.v_congr_view hl hyz
    obtain ⟨hcode, hview⟩ : (Claims.cvtLane s y f l).1 = (Claims.cvtLane s z f l).1 ∧
        (Claims.cvtLane s y f l).2.view l = (Claims.cvtLane s z f l).2.view l := by
      rw [Claims.cvtLane, Claims.cvtLane, hv]
      exact Heat.roundVal_congr_view hyz
    rw [convertLane_eq, convertLane_eq, hv, hcode]
    exact Heat.setV_congr_view hl hview _ _

theorem v_convertLane (f : Claims.CvtForm) (r : Nat) : (convertLane s f h l).v r l =
    if r = f.dest then putElem f.fmt (h.v f.dest l) f.toElem (Claims.cvtLane s h f l).1 else h.v r l := by
  obtain ⟨hrows, -⟩ : (Claims.cvtLane s h f l).2.rows = h.rows ∧ _ := h.roundVal_regs
  rw [convertLane_eq, Heat.v_setV_lane]
  split
  · rfl
  · rw [Heat.v, Heat.v, hrows]

theorem k_convertLane (f : Claims.CvtForm) (r : Nat) : (convertLane s f h l).k r l = h.k r l := by
  obtain ⟨-, hpreds⟩ : _ ∧ (Claims.cvtLane s h f l).2.preds = h.preds := h.roundVal_regs
  rw [convertLane_eq, Heat.k_setV, Heat.k, Heat.k, hpreds]

/-- Every VCVT runs `convertLane` in its executing lanes while no wrong result lies ahead (R142, R151). -/
theorem exec_of_cvtForm {f : Claims.CvtForm} (hf : Claims.cvtForm i = some f) (hx : s.Exact) :
    exec i s = heatWord s [(f.dest, 1), (f.src, 1)] []
      (fun h => .next (s.finish (h.forLanes s.cur.lanes (convertLane s f)))) := by
  have hcvt (g : Fmt) (m : RMode) (d a : BitVec 7) (p : Nat) (e x : BitVec 3)
      (hg : Claims.cv g m d a p e x = some f) : cvt g m d a p e x s = heatWord s [(f.dest, 1), (f.src, 1)] []
        (fun h => .next (s.finish (h.forLanes s.cur.lanes (convertLane s f)))) := by
    cases hg
    simp only [cvt, hx.finishShadow]
    rfl
  cases i with
  | vcvtF32Rn | vcvtF32Rz | vcvtF32Sr | vcvtBf16Rn | vcvtBf16Rz | vcvtBf16Sr | vcvtE4m3Rn | vcvtE4m3Rz | vcvtE4m3Sr
  | vcvtE5m2Rn | vcvtE5m2Rz | vcvtE5m2Sr | vcvtE2m1Rn | vcvtE2m1Rz | vcvtE2m1Sr | vcvtS32Rn | vcvtS32Rz | vcvtS32Sr
  | vcvtN32Rn | vcvtN32Rz | vcvtN32Sr => exact hcvt _ _ _ _ _ _ _ hf
  | _ => cases hf

/-! ### Elements of a packed row (R155, R156) -/

section

variable {src : Nat → W32} {key : W64} {f : Fmt} {scale : FVal} {bad : Bool} {n : Nat} {acc acc' : Heat × Bool}

/-- The code of one quotient: none is drawn for a row without a scale. -/
def Heat.codeOf (key : W64) (b : Bool) (f : Fmt) (scale : FVal) (bad : Bool) (l : Nat) (x : W32)
    (h : Heat) : Nat × Heat :=
  if bad then (0, h) else h.roundIn key b l f .rn (quotient x.toNat scale) none

/-- One element of `Heat.quantLane`. -/
def quantElem (src : Nat → W32) (key : W64) (b : Bool) (f : Fmt) (d : Nat) (scale : FVal) (bad : Bool) (l : Nat)
    (acc : Heat × Bool) (n : Nat) : Heat × Bool :=
  let q := quotient (src n).toNat scale
  let r := acc.1.codeOf key b f scale bad l (src n)
  let v := clampMax f r.1
  let p := packedAt f n
  (r.2.setV (d + p.1) l (putElem f (r.2.v (d + p.1) l) p.2 v), acc.2 && !bad && exactly f v q.1 q.2.1)

theorem Heat.quantLane_eq (h : Heat) : h.quantLane src key b f d scale bad l =
    (upto 32).foldl (quantElem src key b f d scale bad l) (h, true) := rfl

theorem Heat.codeOf_works (h : Heat) (x : W32) : WorksIn b l h (h.codeOf key b f scale bad l x).2 := by
  unfold Heat.codeOf
  split
  · exact .refl b l h
  · exact h.roundIn_works

theorem Heat.codeOf_regs (h : Heat) (x : W32) : (h.codeOf key b f scale bad l x).2.rows = h.rows ∧
    (h.codeOf key b f scale bad l x).2.preds = h.preds := by
  unfold Heat.codeOf
  split
  · exact ⟨rfl, rfl⟩
  · exact h.roundIn_regs

theorem Heat.codeOf_congr_view (hyz : y.view l = z.view l) (x : W32) :
    (y.codeOf key b f scale bad l x).1 = (z.codeOf key b f scale bad l x).1 ∧
      (y.codeOf key b f scale bad l x).2.view l = (z.codeOf key b f scale bad l x).2.view l := by
  unfold Heat.codeOf
  split
  · exact ⟨rfl, hyz⟩
  · exact Heat.roundIn_congr_view hyz

theorem quantElem_works (hl : l < 32) : WorksIn b l acc.1 (quantElem src key b f d scale bad l acc n).1 :=
  (acc.1.codeOf_works (src n)).trans (.setV b hl _ _ _)

theorem quantElem_congr_view (hl : l < 32) (hview : acc.1.view l = acc'.1.view l) (hflag : acc.2 = acc'.2) :
    (quantElem src key b f d scale bad l acc n).1.view l = (quantElem src key b f d scale bad l acc' n).1.view l ∧
      (quantElem src key b f d scale bad l acc n).2 = (quantElem src key b f d scale bad l acc' n).2 := by
  obtain ⟨hcode, hview'⟩ := Heat.codeOf_congr_view (key := key) (b := b) (f := f) (scale := scale) (bad := bad)
    hview (src n)
  simp only [quantElem, hcode, hflag, Heat.v_congr_view hl hview', and_true]
  exact Heat.setV_congr_view hl hview' _ _

/-- The 32 elements of a row stand in its packed registers (R155). -/
theorem packedAt_fst_lt (f : Fmt) (hn : n < 32) : (packedAt f n).1 < packedRegs f := by
  cases f <;> simp only [packedAt, packedRegs, Fmt.width] <;> omega

theorem quantElem_v_of_outside (hn : n < 32) {r : Nat} (hr : ¬ (d ≤ r ∧ r < d + packedRegs f)) :
    (quantElem src key b f d scale bad l acc n).1.v r l = acc.1.v r l := by
  have hp := packedAt_fst_lt f hn
  obtain ⟨hrows, -⟩ := acc.1.codeOf_regs (key := key) (b := b) (f := f) (scale := scale) (bad := bad) (l := l) (src n)
  simp only [quantElem]
  rw [Heat.v_setV_lane, if_neg (by omega), Heat.v, Heat.v, hrows]

theorem Heat.quantLane_works (hl : l < 32) (h : Heat) : WorksIn b l h (h.quantLane src key b f d scale bad l).1 :=
  List.foldlRecOn (upto 32) (quantElem src key b f d scale bad l) (motive := fun acc => WorksIn b l h acc.1)
    (.refl b l h) (fun _ hacc _ _ => hacc.trans (quantElem_works hl))

/-- What a lane's row becomes, and whether it was exact, depends on the heat only through the lane. -/
theorem Heat.quantLane_congr_view (hl : l < 32) (hyz : y.view l = z.view l) :
    (y.quantLane src key b f d scale bad l).1.view l = (z.quantLane src key b f d scale bad l).1.view l ∧
      (y.quantLane src key b f d scale bad l).2 = (z.quantLane src key b f d scale bad l).2 := by
  rw [Heat.quantLane_eq, Heat.quantLane_eq]
  exact List.foldl_rel (r := fun (acc acc' : Heat × Bool) => acc.1.view l = acc'.1.view l ∧ acc.2 = acc'.2) ⟨hyz, rfl⟩
    (fun _ _ _ _ ⟨hview, hflag⟩ => quantElem_congr_view hl hview hflag)

theorem Heat.quantLane_v_of_outside (h : Heat) {r : Nat} (hr : ¬ (d ≤ r ∧ r < d + packedRegs f)) :
    (h.quantLane src key b f d scale bad l).1.v r l = h.v r l :=
  List.foldlRecOn (upto 32) (quantElem src key b f d scale bad l) (motive := fun acc => acc.1.v r l = h.v r l) rfl
    (fun _ hacc _ hn => (quantElem_v_of_outside (List.mem_range.mp hn) hr).trans hacc)

theorem Heat.quantLane_k (h : Heat) (r : Nat) : (h.quantLane src key b f d scale bad l).1.k r l = h.k r l :=
  List.foldlRecOn (upto 32) (quantElem src key b f d scale bad l) (motive := fun acc => acc.1.k r l = h.k r l) rfl
    (fun acc hacc n _ => by
      rw [← hacc, Heat.k, Heat.k, ← (acc.1.codeOf_regs (src n)).2]
      rfl)

end

/-! ### Rows with a scale of their own (R155, R156) -/

/-- The row of lane l, taken from the heat before the word and written in h, by its own scale (R156). -/
def rowLane (s : State) (before : Heat) (f : Claims.QuantForm) (h : Heat) (l : Nat) : Heat × Bool :=
  h.quantLane (fun n => before.v (f.src + n) l) s.seed (inMask s.cur.helpers l) f.fmt f.dest
    (e8m0 (Claims.rowCode before f l)) (Claims.rowCode before f l == 0xFF) l

/-- What VQNT with E8M0 scales does in lane l. -/
def quantiseLane (s : State) (before : Heat) (f : Claims.QuantForm) (h : Heat) (l : Nat) : Heat :=
  ((rowLane s before f h l).1.setV f.scale l
    (putElem .e4m3 (before.v f.scale l) f.p (Claims.rowCode before f l))).setK 7 l (rowLane s before f h l).2

theorem laneWise_quantiseLane (s : State) (before : Heat) (f : Claims.QuantForm) :
    LaneWise s.cur.helpers (quantiseLane s before f) where
  works y l hl := ((y.quantLane_works hl).trans (.setV _ hl _ _ _)).trans (.setK _ hl _ (by decide) _)
  congr_view y z l hl hyz := by
    obtain ⟨hview, hflag⟩ : (rowLane s before f y l).1.view l = (rowLane s before f z l).1.view l ∧
      (rowLane s before f y l).2 = (rowLane s before f z l).2 := Heat.quantLane_congr_view hl hyz
    rw [quantiseLane, quantiseLane, hflag]
    exact Heat.setK_congr_view hl (Heat.setV_congr_view hl hview _ _) (by decide) _

theorem lane_quantiseLane (f : Claims.QuantForm) :
    (quantiseLane s h f h l).lane l = (rowLane s h f h l).1.lane l := by
  rw [quantiseLane, Heat.lane_setK, Heat.lane_setV]

theorem v_quantiseLane (f : Claims.QuantForm) (r : Nat) : (quantiseLane s h f h l).v r l =
    if r = f.scale then putElem .e4m3 (h.v f.scale l) f.p (Claims.rowCode h f l)
    else if f.dest ≤ r ∧ r < f.dest + packedRegs f.fmt then (rowLane s h f h l).1.v r l else h.v r l := by
  rw [quantiseLane, Heat.v_setK, Heat.v_setV_lane]
  split
  · rfl
  · split
    · rfl
    · next hr => rw [rowLane, h.quantLane_v_of_outside hr]

theorem k_quantiseLane (f : Claims.QuantForm) (r : Nat) :
    (quantiseLane s h f h l).k r l = if r = 7 then (rowLane s h f h l).2 else h.k r l := by
  rw [quantiseLane, Heat.k_setK_lane _ (by decide), Heat.k_setV, rowLane, Heat.quantLane_k]

/-- Every VQNT with E8M0 scales runs `quantiseLane` in its executing lanes (R156). -/
theorem exec_of_rowForm {f : Claims.QuantForm} (hf : Claims.rowForm i = some f) (s : State) :
    exec i s = heatWord s [(f.dest, packedRegs f.fmt), (f.src, 32), (f.scale, 1)] []
      (fun h => .next (s.finish (h.forLanes s.cur.lanes (quantiseLane s h f)))) := by
  cases i with
  | vqntE4m3E8m0 | vqntE5m2E8m0 | vqntE2m1E8m0 =>
    cases hf
    rfl
  | _ => cases hf

/-! ### Blocks with one scale (R155–R157) -/

/-- A step of a loop over lanes that gathers whether every lane agreed. -/
def gather (g : Heat → Nat → Heat × Bool) (acc : Heat × Bool) (l : Nat) : Heat × Bool :=
  ((g acc.1 l).1, acc.2 && (g acc.1 l).2)

theorem fst_foldl_gather (g : Heat → Nat → Heat × Bool) (ls : List Nat) (acc : Heat × Bool) :
    (ls.foldl (gather g) acc).1 = ls.foldl (fun y l => (g y l).1) acc.1 := by
  induction ls generalizing acc with
  | nil => rfl
  | cons l ls ih => exact ih _

/-- Every lane agrees as it would as the first. -/
theorem snd_foldl_gather {m : Mask} {g : Heat → Nat → Heat × Bool} (hg : LaneWise m (fun y l => (g y l).1))
    (hflag : ∀ y z l, l < 32 → y.view l = z.view l → (g y l).2 = (g z l).2) (h : Heat) {ls : List Nat} (hn : ls.Nodup)
    (hlt : ∀ l ∈ ls, l < 32) : (ls.foldl (gather g) (h, true)).2 = true ↔ ∀ l ∈ ls, (g h l).2 = true := by
  induction ls using List.reverseRecOn with
  | nil => simp
  | append_singleton ls l ih =>
    obtain ⟨hn', -, hdisj⟩ := List.nodup_append.mp hn
    have hl : l ∉ ls := fun hm => hdisj l hm l (List.mem_singleton_self l) rfl
    have hlt' : ∀ j ∈ ls, j < 32 := fun j hj => hlt j (List.mem_append_left _ hj)
    have hview : (ls.foldl (gather g) (h, true)).1.view l = h.view l := by
      rw [fst_foldl_gather, hg.view_foldl hn' hlt', if_neg hl]
    rw [List.foldl_append, List.foldl_cons, List.foldl_nil, gather, Bool.and_eq_true, ih hn' hlt',
      hflag _ h l (hlt l (by simp)) hview]
    simp [or_imp, forall_and]

/-- The scale of a block. -/
def blockCode (before : Heat) (f : Claims.QuantForm) : Nat := s32Code f.fmt (Claims.blockMax before f)

/-- The row of lane l, taken from the heat before the word and written in h, by the scale of its block (R156). -/
def blockLane (s : State) (before : Heat) (f : Claims.QuantForm) (h : Heat) (l : Nat) : Heat × Bool :=
  h.quantLane (fun n => before.v (f.src + n) l) s.seed false f.fmt f.dest
    (valOf .f32 (blockCode before f)) (decide (0x7F800000 ≤ Claims.blockMax before f)) l

/-- The rows of a block quantised, and whether each element was exact. -/
def blockRows (s : State) (f : Claims.QuantForm) (h : Heat) : Heat × Bool :=
  (upto 32).foldl (gather (blockLane s h f)) (h, true)

/-- What VQNT with one scale makes of the heat when all lanes are active. -/
def quantiseBlock (s : State) (f : Claims.QuantForm) (h : Heat) : Heat :=
  ((blockRows s f h).1.setV f.scale f.p (f32 (blockCode h f))).forLanes s.cur.active
    (fun y l => y.setK 7 l (blockRows s f h).2)

/-- Every VQNT with one scale takes the partial-mask trap or runs `quantiseBlock` (R157). -/
theorem exec_of_blockForm {f : Claims.QuantForm} (hf : Claims.blockForm i = some f) (s : State) :
    exec i s = heatWord s [(f.dest, packedRegs f.fmt), (f.src, 32), (f.scale, 1)] []
      (fun h => if s.cur.active ≠ 0xFFFFFFFF#32 then .next (s.raise 7 s.cur.active.toNat)
        else .next (s.finish (quantiseBlock s f h))) := by
  cases i with
  | vqntE4m3S32scale | vqntE5m2S32scale | vqntE2m1S32scale =>
    cases hf
    rfl
  | _ => cases hf

theorem blockLane_works (before : Heat) (f : Claims.QuantForm) (hl : l < 32) (h : Heat) :
    WorksIn false l h (blockLane s before f h l).1 := h.quantLane_works hl

theorem laneWise_blockLane (s : State) (before : Heat) (f : Claims.QuantForm) :
    LaneWise 0#32 (fun y l => (blockLane s before f y l).1) where
  works y l hl := by
    rw [inMask_zero]
    exact blockLane_works before f hl y
  congr_view _ _ _ hl hyz := (Heat.quantLane_congr_view hl hyz).1

/-- Without helper lanes the statement's rows are those of the block. -/
theorem quantised_eq_blockLane (hh : s.cur.helpers = 0#32) (h : Heat) (f : Claims.QuantForm) (l : Nat) :
    Claims.quantised s h f (valOf .f32 (s32Code f.fmt (Claims.blockMax h f)))
      (decide (0x7F800000 ≤ Claims.blockMax h f)) l = blockLane s h f h l := by
  rw [Claims.quantised, hh, inMask_zero]
  rfl

theorem view_blockRows (f : Claims.QuantForm) (j : Nat) :
    (blockRows s f h).1.view j = if j < 32 then (blockLane s h f h j).1.view j else h.view j := by
  rw [blockRows, fst_foldl_gather]
  exact ((laneWise_blockLane s h f).view_foldl List.nodup_range (fun _ => List.mem_range.mp) h j).trans
    (if_congr List.mem_range rfl rfl)

theorem snd_blockRows (f : Claims.QuantForm) :
    (blockRows s f h).2 = true ↔ ∀ l, l < 32 → (blockLane s h f h l).2 = true :=
  (snd_foldl_gather (laneWise_blockLane s h f) (fun _ _ _ hl hyz => (Heat.quantLane_congr_view hl hyz).2) h
    List.nodup_range (fun _ => List.mem_range.mp)).trans (forall_congr' fun _ => imp_congr_left List.mem_range)

theorem lanesOnly_quantiseBlock (f : Claims.QuantForm) : LanesOnly h (quantiseBlock s f h) := by
  have hrows : LanesOnly h (blockRows s f h).1 := by
    rw [blockRows, fst_foldl_gather]
    exact .foldl (fun y l hl => (blockLane_works h f (List.mem_range.mp hl) y).toLanesOnly) h
  exact (hrows.trans (.setV _ _ _ _)).trans (.foldl (fun y j _ => .setK y 7 j _) _)

theorem lane_quantiseBlock (f : Claims.QuantForm) (j : Nat) : (quantiseBlock s f h).lane j =
    if j < 32 then { h.lane j with cvcnt := ((blockLane s h f h j).1.lane j).cvcnt } else h.lane j := by
  have hlanes := Heat.forLanes_keeps (·.lane j) (fun y l => y.setK 7 l (blockRows s f h).2)
    (fun y l => y.lane_setK 7 l _ j) ((blockRows s f h).1.setV f.scale f.p (f32 (blockCode h f))) s.cur.active
  rw [quantiseBlock, hlanes, Heat.lane_setV, ← Heat.lane_view, view_blockRows]
  split
  · next hj =>
    rw [Heat.lane_view]
    exact (blockLane_works h f hj h).lane_eq
  · rfl

theorem v_quantiseBlock {f : Claims.QuantForm} (hp : f.p < 32) (r : Nat) (hl : l < 32) : (quantiseBlock s f h).v r l =
    if r = f.scale ∧ l = f.p then f32 (blockCode h f) else (blockLane s h f h l).1.v r l := by
  have hv := Heat.forLanes_keeps (·.v r l) (fun y j => y.setK 7 j (blockRows s f h).2)
    (fun y j => y.sameV_setK 7 j _ r l hl) ((blockRows s f h).1.setV f.scale f.p (f32 (blockCode h f))) s.cur.active
  rw [quantiseBlock, hv, Heat.v_setV]
  refine if_congr (by omega) rfl ?_
  rw [← Heat.v_view _ r hl, view_blockRows, if_pos hl, Heat.v_view _ r hl]

theorem k_quantiseBlock (ha : s.cur.active = 0xFFFFFFFF#32) (f : Claims.QuantForm) (r : Nat) (hl : l < 32) :
    (quantiseBlock s f h).k r l = if r = 7 then (blockRows s f h).2 else h.k r l := by
  have hall : inMask 0xFFFFFFFF#32 l = true := (inMask_ones l).trans (decide_eq_true hl)
  have hk : (blockRows s f h).1.k r l = h.k r l := by
    rw [← Heat.k_view _ r hl, view_blockRows, if_pos hl, Heat.k_view _ r hl, blockLane, Heat.quantLane_k]
  rw [quantiseBlock, Heat.k_forLanes_setK _ _ 7 (fun _ => (blockRows s f h).2) r l hl, ha, hall, Heat.k_setV, hk]
  exact if_congr (by simp +contextual) rfl rfl

/-! ### Dequantisation (R158) -/

/-- Element n of lane l's packed row times the scale, rounded to FP32. -/
def dequantised (h : Heat) (f : Claims.QuantForm) (e8 : Bool) (l n : Nat) : W32 :=
  Claims.rounded .rn (mulV (valOf f.fmt (elemOf f.fmt (h.v (f.src + n * f.fmt.width / 32) l) (n % (32 / f.fmt.width))))
    (Claims.laneScale h f e8 l))

/-- What VDQNT does in lane l. -/
def dequantLane (before : Heat) (f : Claims.QuantForm) (e8 : Bool) (h : Heat) (l : Nat) : Heat :=
  (upto 32).foldl (fun y n => y.setV (f.dest + n) l (dequantised before f e8 l n)) h

theorem laneWise_dequantLane (m : Mask) (before : Heat) (f : Claims.QuantForm) (e8 : Bool) :
    LaneWise m (dequantLane before f e8) where
  works y l hl := List.foldlRecOn (upto 32) _ (motive := WorksIn (inMask m l) l y) (.refl _ l y)
    (fun _ hy _ _ => hy.trans (.setV _ hl _ _ _))
  congr_view _ _ l hl hyz := List.foldl_rel (r := fun y z => Heat.view y l = Heat.view z l) hyz
    (fun _ _ _ _ hyz => Heat.setV_congr_view hl hyz _ _)

theorem lane_dequantLane (before : Heat) (f : Claims.QuantForm) (e8 : Bool) (h : Heat) (l : Nat) :
    (dequantLane before f e8 h l).lane l = h.lane l :=
  List.foldlRecOn (upto 32) _ (motive := fun y => Heat.lane y l = h.lane l) rfl (fun _ hy _ _ => hy)

theorem k_dequantLane (before : Heat) (f : Claims.QuantForm) (e8 : Bool) (h : Heat) (l r : Nat) :
    (dequantLane before f e8 h l).k r l = h.k r l :=
  List.foldlRecOn (upto 32) _ (motive := fun y => Heat.k y r l = h.k r l) rfl (fun _ hy _ _ => hy)

/-- Registers written one after another in a lane. -/
theorem Heat.v_foldl_setV (h : Heat) (d l : Nat) (val : Nat → W32) (n r : Nat) :
    ((upto n).foldl (fun y e => y.setV (d + e) l (val e)) h).v r l =
      if d ≤ r ∧ r < d + n then val (r - d) else h.v r l := by
  induction n with
  | zero => rw [if_neg (by omega)]; rfl
  | succ n ih =>
    rw [upto, List.range_succ, List.foldl_append, List.foldl_cons, List.foldl_nil, Heat.v_setV_lane, ← upto, ih]
    by_cases hr : r = d + n
    · subst hr
      simp
    · rw [if_neg hr]
      exact if_congr (by omega) rfl rfl

/-- Every VDQNT waits for its rows and for its scale, then runs `dequantLane` in its executing lanes while no wrong
result lies ahead (R142, R158). -/
theorem exec_of_dequantForm {f : Claims.QuantForm} {e8 : Bool} (hf : Claims.dequantForm i = some (f, e8))
    (hx : s.Exact) : exec i s = heatWord s [(f.dest, 32), (f.src, packedRegs f.fmt), (f.scale, 1)] []
      (fun _ => heatWordIn s (if e8 then s.cur.lanes else BitVec.ofNat 32 (2 ^ f.p)) [(f.scale, 1)] []
        (fun h => .next (s.finish (h.forLanes s.cur.lanes (dequantLane h f e8))))) := by
  cases i with
  | vdqntE4m3E8m0 | vdqntE5m2E8m0 | vdqntE2m1E8m0 =>
    cases hf
    change dequantMx _ _ _ _ _ s = _
    simp only [dequantMx, dequant, hx.finishShadow]
    rfl
  | vdqntE4m3S32scale | vdqntE5m2S32scale | vdqntE2m1S32scale =>
    cases hf
    change dequantQf _ _ _ _ _ s = _
    simp only [dequantQf, dequant, hx.finishShadow]
    rfl
  | _ => cases hf

end

/-- Settles O6: VCVT works in each executing lane by itself, and there writes v(D) alone. -/
theorem convertResults : Obligations.ConvertResults := by
  unfold Obligations.ConvertResults
  intro i f s h hf hr hx
  have he := exec_of_cvtForm hf hx
  rw [heatWord_ready hr] at he
  obtain ⟨t, h', hi, ho, hret, hv, hk, hsr, ha⟩ := (laneWise_convertLane s f).results hr.1 he
  refine ⟨t, h', hi, ho, hret, fun r l hl => ?_, fun r l hl => ?_, hsr, ha⟩
  · rw [hv r l hl, v_convertLane]
    by_cases hm : inMask s.cur.lanes l = true <;> simp [hm]
  · rw [hk r l hl, k_convertLane, ite_self]

/-- Settles O7: VQNT with E8M0 scales works in each executing lane by itself, by the scale of the lane's row. -/
theorem quantiseRowResults : Obligations.QuantiseRowResults := by
  unfold Obligations.QuantiseRowResults
  intro i f s h hf hr
  have he := exec_of_rowForm hf s
  rw [heatWord_ready hr] at he
  obtain ⟨t, h', hi, ho, hret, hv, hk, hsr, ha⟩ := (laneWise_quantiseLane s h f).results hr.1 he
  refine ⟨t, h', hi, ho, hret.congr fun l _ => ?_, fun l hm => ⟨?_, ?_, fun r hne => ?_⟩, fun r l hl hm => ?_,
    fun r l hl hm => ?_, hsr, ha⟩
  · rw [lane_quantiseLane]
    rfl
  · rw [hv _ l (inMask_lt hm), if_pos hm, v_quantiseLane, if_pos rfl]
  · rw [hk _ l (inMask_lt hm), if_pos hm, k_quantiseLane, if_pos rfl]
    rfl
  · rw [hv r l (inMask_lt hm), if_pos hm, v_quantiseLane, if_neg hne]
    rfl
  · rw [hv r l hl, if_neg hm]
  · rw [hk r l hl]
    by_cases hm' : inMask s.cur.lanes l = true
    · rw [if_pos hm', k_quantiseLane, if_neg fun h7 => hm ⟨h7, hm'⟩]
    · rw [if_neg hm']

/-- The part of O8 for 32 active lanes: each lane's row by the scale of the block, then the scale and k7. -/
theorem quantiseBlock_results {i : Instr} {f : Claims.QuantForm} {s : State} {h : Heat}
    (hs : s.curHeat? = some h) (ha : s.cur.active = 0xFFFFFFFF#32) (hp : f.p < 32)
    (hscale : ¬ (f.dest ≤ f.scale ∧ f.scale < f.dest + packedRegs f.fmt))
    (he : exec i s = .next (s.finish (quantiseBlock s f h))) :
    ∃ t h', Issued i s t h' ∧ OnlyIssuer s t ∧
      Retired s h h' (fun l x => { x with cvcnt := ((blockLane s h f h l).1.lane l).cvcnt }.goOn s.stamp) ∧
      h'.v f.scale f.p = BitVec.ofNat 32 (blockCode h f) ∧
      (∀ l, l < 32 → (h'.k 7 l = true ↔ ∀ l', l' < 32 → (blockLane s h f h l').2 = true)) ∧
      (∀ r l, l < 32 → f.dest ≤ r → r < f.dest + packedRegs f.fmt → h'.v r l = (blockLane s h f h l).1.v r l) ∧
      (∀ r l, l < 32 → ¬ (f.dest ≤ r ∧ r < f.dest + packedRegs f.fmt) → ¬ (r = f.scale ∧ l = f.p) →
        h'.v r l = h.v r l) ∧
      (∀ r l, l < 32 → r ≠ 7 → h'.k r l = h.k r l) ∧ SameS h h' ∧ SameA h h' := by
  obtain ⟨t, h', hi, ho, hret, hv, hk, hsr, har⟩ := (lanesOnly_quantiseBlock f).finish hs
    (move := fun l x => { x with cvcnt := ((blockLane s h f h l).1.lane l).cvcnt })
    (fun l => by simp only [lane_quantiseBlock, ha, inMask_ones, decide_eq_true_eq]) he
  refine ⟨t, h', hi, ho, hret, ?_, fun l hl => ?_, fun r l hl hlo hhi => ?_, fun r l hl hr hne => ?_,
    fun r l hl hne => ?_, hsr, har⟩
  · rw [hv _ _ hp, v_quantiseBlock hp _ hp, if_pos ⟨rfl, rfl⟩]
    rfl
  · rw [hk _ l hl, k_quantiseBlock ha f 7 hl, if_pos rfl]
    exact snd_blockRows f
  · rw [hv r l hl, v_quantiseBlock hp r hl, if_neg]
    rintro ⟨rfl, -⟩
    exact hscale ⟨hlo, hhi⟩
  · rw [hv r l hl, v_quantiseBlock hp r hl, if_neg hne, blockLane, h.quantLane_v_of_outside hr]
  · rw [hk r l hl, k_quantiseBlock ha f r hl, if_neg hne]

/-- Settles O8: VQNT with one scale traps unless all lanes are active, and else works in each lane by itself by the
block's scale; k7 gathers the lanes. -/
theorem quantiseBlockResults : Obligations.QuantiseBlockResults := by
  unfold Obligations.QuantiseBlockResults
  refine ⟨fun i f s h hf hr ha => ?_, fun i f s h hf hr ha hh hp hscale => ?_⟩
  · rw [exec_of_blockForm hf s, heatWord_ready hr, if_pos ha]
  · have he := exec_of_blockForm hf s
    rw [heatWord_ready hr, if_neg (not_not.mpr ha)] at he
    simp only [quantised_eq_blockLane hh]
    exact quantiseBlock_results hr.1 ha hp hscale he

/-- Settles O9: VDQNT works in each executing lane by itself, and there writes 32 registers. -/
theorem dequantiseResults : Obligations.DequantiseResults := by
  unfold Obligations.DequantiseResults
  intro i f e8 s h hf hr hr' hx
  have he := exec_of_dequantForm hf hx
  rw [heatWord_ready hr, heatWordIn_ready hr'] at he
  obtain ⟨t, h', hi, ho, hret, hv, hk, hsr, ha⟩ := (laneWise_dequantLane s.cur.helpers h f e8).results hr.1 he
  refine ⟨t, h', hi, ho, hret.congr fun l _ => ?_, fun j l hj hm => ?_, fun r l hl hn => ?_, fun r l hl => ?_, hsr, ha⟩
  · rw [lane_dequantLane]
    rfl
  · rw [hv _ l (inMask_lt hm), if_pos hm, dequantLane, Heat.v_foldl_setV, if_pos (by omega), Nat.add_sub_cancel_left]
    rfl
  · rw [hv r l hl]
    by_cases hm : inMask s.cur.lanes l = true
    · rw [if_pos hm, dequantLane, Heat.v_foldl_setV, if_neg fun hd => hn ⟨hd.1, hd.2, hm⟩]
    · rw [if_neg hm]
  · rw [hk r l hl, k_dequantLane, ite_self]

end Sys2Proof.Machine
